-- ==== Sys2Proof/Word.lean ====
section
/-! DEFINITION. Word types of the ZH96: bytes, parcels, scalar values and the wide words of the
tensor table and of the task records. -/

namespace Sys2Proof

/-- A byte of memory (R10). -/
abbrev Byte := BitVec 8
/-- A 32-bit parcel of instruction text (R43). -/
abbrev Parcel := BitVec 32
/-- A scalar, bead or system-register value (R14). -/
abbrev Word := BitVec 64
/-- A facet mask (R327). -/
abbrev MaskWord := BitVec 256
/-- A 512-bit word: a tensor-table entry (R116), a task record (R216), a fault record (R421). -/
abbrev Word512 := BitVec 512

end Sys2Proof
end

