-- ==== Sys2Proof/Syntax.lean ====
section
/-! DEFINITION. The instructions and events of the part: one constructor of `Instr` for each row of the
opcode table, over records that hold the fields of the formats of R44 to R46. -/

namespace Sys2Proof

/-- Fields of the general 64-bit format (R45). -/
structure G64 where
  p : BitVec 3 := 0
  n : Bool := false
  d : BitVec 6 := 0
  a : BitVec 6 := 0
  b : BitVec 6 := 0
  c : BitVec 6 := 0
  da : BitVec 3 := 0
  db : BitVec 3 := 0
  dc : BitVec 3 := 0
  ty : BitVec 4 := 0
  md : BitVec 3 := 0
  sat : Bool := false
  opt : BitVec 3 := 0
  deriving DecidableEq, Repr

/-- Fields of the immediate 64-bit format (R45). -/
structure I64 where
  p : BitVec 3 := 0
  n : Bool := false
  d : BitVec 6 := 0
  a : BitVec 6 := 0
  da : BitVec 3 := 0
  opt : BitVec 3 := 0
  ty : BitVec 4 := 0
  md : BitVec 3 := 0
  sat : Bool := false
  imm : BitVec 24 := 0
  deriving DecidableEq, Repr

/-- Fields of the 96-bit format: the immediate format with LIT32 (R46). -/
structure W96 where
  p : BitVec 3 := 0
  n : Bool := false
  d : BitVec 6 := 0
  a : BitVec 6 := 0
  da : BitVec 3 := 0
  opt : BitVec 3 := 0
  ty : BitVec 4 := 0
  md : BitVec 3 := 0
  sat : Bool := false
  lit : BitVec 32 := 0
  deriving DecidableEq, Repr

/-- Operands of a 32-bit register format (R44). -/
structure A32 where
  d : BitVec 6 := 0
  a : BitVec 6 := 0
  b : BitVec 6 := 0
  deriving DecidableEq, Repr

/-- Operands of a 32-bit immediate format (R44). -/
structure I32 where
  d : BitVec 6 := 0
  a : BitVec 6 := 0
  imm : BitVec 12 := 0
  deriving DecidableEq, Repr

/-- Operands of a 32-bit transfer (R44). -/
structure J32 where
  p : BitVec 3 := 0
  n : Bool := false
  off : BitVec 20 := 0
  deriving DecidableEq, Repr

/-- SYSRD and SYSWR: the immediate format whose immediate is a register number (R434); `wide` is the 96-bit
form that R46 gives every immediate major. -/
structure SysForm where
  p : BitVec 3 := 0
  n : Bool := false
  d : BitVec 6 := 0
  a : BitVec 6 := 0
  da : BitVec 3 := 0
  opt : BitVec 3 := 0
  ty : BitVec 4 := 0
  md : BitVec 3 := 0
  sat : Bool := false
  wide : Bool := false
  imm : BitVec 32 := 0
  deriving DecidableEq, Repr

/-- The instructions, and the acts of the outside parties and of the units. An instruction whose every field must be
zero carries none. A hint declares its
fields ignored (R73), and the 64-bit HEXIT has only its guard: what they need they read from the instruction register. An
act carries none either: its operands stand in the state, in the command that the act acts on. The
constructors that carry fields come first. -/
inductive Instr where
  /-- Adds two registers at the default width, per the integer width rule (R141). -/
  | addA32 (f : A32)
  /-- Adds a sign-extended 12-bit immediate to a register (R142). -/
  | addI32 (f : I32)
  /-- Adds two operands at width TY with overflow rule (R141). -/
  | addG64 (f : G64)
  /-- Adds a 24-bit immediate to an operand at width TY (R142). -/
  | addI64 (f : I64)
  /-- Adds a LIT32 immediate to an operand at width TY (R46). -/
  | addW96 (f : W96)
  /-- Subtracts two registers at the default width (R141). -/
  | subA32 (f : A32)
  /-- Subtracts two operands at width TY (R141). -/
  | subG64 (f : G64)
  /-- Multiplies two registers keeping the low bits (R141). -/
  | mulA32 (f : A32)
  /-- Multiplies two operands at width TY (R141). -/
  | mulG64 (f : G64)
  /-- Multiplies an operand by a 24-bit immediate (R141). -/
  | mulI64 (f : I64)
  /-- Multiplies an operand by a LIT32 immediate (R141). -/
  | mulW96 (f : W96)
  /-- High half of a signed product (R141). -/
  | mulhA32 (f : A32)
  /-- High half of a signed product at width TY (R141). -/
  | mulhG64 (f : G64)
  /-- High half of an unsigned product (R141). -/
  | mulhzA32 (f : A32)
  /-- High half of an unsigned product at width TY (R141). -/
  | mulhzG64 (f : G64)
  /-- Signed quotient truncated toward zero, fixed results for zero divisor (R143). -/
  | divA32 (f : A32)
  /-- Signed quotient at width TY (R143). -/
  | divG64 (f : G64)
  /-- Unsigned quotient (R143). -/
  | divzA32 (f : A32)
  /-- Unsigned quotient at width TY (R143). -/
  | divzG64 (f : G64)
  /-- Signed remainder with the sign of the dividend (R143). -/
  | remA32 (f : A32)
  /-- Signed remainder at width TY (R143). -/
  | remG64 (f : G64)
  /-- Unsigned remainder (R143). -/
  | remzA32 (f : A32)
  /-- Unsigned remainder at width TY (R143). -/
  | remzG64 (f : G64)
  /-- Bitwise and of two registers (R141). -/
  | andA32 (f : A32)
  /-- Bitwise and with a 12-bit immediate (R142). -/
  | andI32 (f : I32)
  /-- Bitwise and at width TY (R141). -/
  | andG64 (f : G64)
  /-- Bitwise and with a 24-bit immediate (R142). -/
  | andI64 (f : I64)
  /-- Bitwise and with a LIT32 immediate (R142). -/
  | andW96 (f : W96)
  /-- Bitwise or of two registers (R141). -/
  | orA32 (f : A32)
  /-- Bitwise or at width TY (R141). -/
  | orG64 (f : G64)
  /-- Bitwise or with a 24-bit immediate (R142). -/
  | orI64 (f : I64)
  /-- Bitwise or with a LIT32 immediate (R142). -/
  | orW96 (f : W96)
  /-- Bitwise exclusive or of two registers (R141). -/
  | xorA32 (f : A32)
  /-- Bitwise exclusive or at width TY (R141). -/
  | xorG64 (f : G64)
  /-- Exclusive or with a 24-bit immediate (R142). -/
  | xorI64 (f : I64)
  /-- Exclusive or with a LIT32 immediate (R142). -/
  | xorW96 (f : W96)
  /-- A and not B of two registers (R141). -/
  | andnA32 (f : A32)
  /-- A and not B at width TY (R141). -/
  | andnG64 (f : G64)
  /-- Shifts left by a register amount (R144). -/
  | shlA32 (f : A32)
  /-- Shifts left by an immediate amount (R144). -/
  | shlI32 (f : I32)
  /-- Shifts left at width TY, .sat clamping (R144). -/
  | shlG64 (f : G64)
  /-- Shifts left by a 24-bit immediate (R144). -/
  | shlI64 (f : I64)
  /-- Shifts left by a LIT32 immediate (R144). -/
  | shlW96 (f : W96)
  /-- Logical right shift by a register amount (R144). -/
  | shrA32 (f : A32)
  /-- Logical right shift by an immediate (R144). -/
  | shrI32 (f : I32)
  /-- Logical right shift at width TY (R144). -/
  | shrG64 (f : G64)
  /-- Logical right shift by a 24-bit immediate (R144). -/
  | shrI64 (f : I64)
  /-- Logical right shift by a LIT32 immediate (R144). -/
  | shrW96 (f : W96)
  /-- Arithmetic right shift by a register amount (R144). -/
  | sraA32 (f : A32)
  /-- Arithmetic right shift by an immediate (R144). -/
  | sraI32 (f : I32)
  /-- Arithmetic right shift at width TY (R144). -/
  | sraG64 (f : G64)
  /-- Arithmetic right shift by a 24-bit immediate (R144). -/
  | sraI64 (f : I64)
  /-- Arithmetic right shift by a LIT32 immediate (R144). -/
  | sraW96 (f : W96)
  /-- Rotates left by a register amount mod n (R144). -/
  | rolA32 (f : A32)
  /-- Rotates left at width TY (R144). -/
  | rolG64 (f : G64)
  /-- Rotates left by a 24-bit immediate (R144). -/
  | rolI64 (f : I64)
  /-- Rotates left by a LIT32 immediate (R144). -/
  | rolW96 (f : W96)
  /-- Signed minimum of two registers (R141). -/
  | minA32 (f : A32)
  /-- Signed minimum at width TY (R141). -/
  | minG64 (f : G64)
  /-- Signed minimum with a 24-bit immediate (R141). -/
  | minI64 (f : I64)
  /-- Signed minimum with a LIT32 immediate (R141). -/
  | minW96 (f : W96)
  /-- Signed maximum of two registers (R141). -/
  | maxA32 (f : A32)
  /-- Signed maximum at width TY (R141). -/
  | maxG64 (f : G64)
  /-- Signed maximum with a 24-bit immediate (R141). -/
  | maxI64 (f : I64)
  /-- Signed maximum with a LIT32 immediate (R141). -/
  | maxW96 (f : W96)
  /-- Unsigned minimum of two registers (R141). -/
  | minzA32 (f : A32)
  /-- Unsigned minimum at width TY (R141). -/
  | minzG64 (f : G64)
  /-- Unsigned minimum with a 24-bit immediate (R141). -/
  | minzI64 (f : I64)
  /-- Unsigned minimum with a LIT32 immediate (R141). -/
  | minzW96 (f : W96)
  /-- Unsigned maximum of two registers (R141). -/
  | maxzA32 (f : A32)
  /-- Unsigned maximum at width TY (R141). -/
  | maxzG64 (f : G64)
  /-- Unsigned maximum with a 24-bit immediate (R141). -/
  | maxzI64 (f : I64)
  /-- Unsigned maximum with a LIT32 immediate (R141). -/
  | maxzW96 (f : W96)
  /-- Counts leading zero bits of the n-bit pattern (R145). -/
  | clzA32 (f : A32)
  /-- Counts leading zeros at width TY (R145). -/
  | clzG64 (f : G64)
  /-- Counts trailing zero bits (R145). -/
  | ctzA32 (f : A32)
  /-- Counts trailing zeros at width TY (R145). -/
  | ctzG64 (f : G64)
  /-- Counts one bits (R145). -/
  | popcA32 (f : A32)
  /-- Counts one bits at width TY (R145). -/
  | popcG64 (f : G64)
  /-- Absolute value of a register (R141). -/
  | absA32 (f : A32)
  /-- Absolute value at width TY (R141). -/
  | absG64 (f : G64)
  /-- Copies a register (R141). -/
  | movA32 (f : A32)
  /-- Copies an operand at width TY (R141). -/
  | movG64 (f : G64)
  /-- Sign-extends the low TY-width bits to 64 bits (R145). -/
  | sext (f : G64)
  /-- Zero-extends the low TY-width bits to 64 bits (R145). -/
  | zext (f : G64)
  /-- Loads a 12-bit sign-extended immediate (R142). -/
  | movlI32 (f : I32)
  /-- Loads a 24-bit immediate at width TY (R142). -/
  | movlI64 (f : I64)
  /-- Loads a LIT32 immediate at width TY (R142). -/
  | movlW96 (f : W96)
  /-- Adds an immediate scaled by element size to a base, without translation (R147). -/
  | leaI64 (f : I64)
  /-- Adds a scaled LIT32 immediate to a base (R147). -/
  | leaW96 (f : W96)
  /-- Extracts a bit field and extends it (R146). -/
  | bfx (f : G64)
  /-- Inserts a bit field into a scalar destination (R146). -/
  | bfi (f : G64)
  /-- Compares two registers and writes a predicate (R148). -/
  | cmpA32 (cond : BitVec 6) (f : A32)
  /-- Compares at width TY and ANDs with pC into a predicate (R148). -/
  | cmpG64 (cond : BitVec 6) (f : G64)
  /-- Chooses one of two operands by a predicate (R150). -/
  | sel (f : G64)
  /-- Predicate and (R149). -/
  | pandA32 (f : A32)
  /-- Predicate and, guarded form (R149). -/
  | pandG64 (f : G64)
  /-- Predicate or (R149). -/
  | porA32 (f : A32)
  /-- Predicate or, guarded form (R149). -/
  | porG64 (f : G64)
  /-- Predicate exclusive or (R149). -/
  | pxorA32 (f : A32)
  /-- Predicate exclusive or, guarded form (R149). -/
  | pxorG64 (f : G64)
  /-- Predicate not (R149). -/
  | pnotA32 (f : A32)
  /-- Predicate not, guarded form (R149). -/
  | pnotG64 (f : G64)
  /-- Scalar FP32 addition with one rounding (R152). -/
  | sfadd (f : G64)
  /-- Scalar FP32 multiplication with one rounding (R152). -/
  | sfmul (f : G64)
  /-- Scalar FP32 fused multiply-add (R152). -/
  | sfma (f : G64)
  /-- Compares two FP32 values into a predicate (R153). -/
  | sfcmp (cond : BitVec 6) (f : G64)
  /-- Converts one scalar value between formats of TY 0–12 (R154). -/
  | sfcvt (f : G64)
  /-- Writes a whole tensor-table entry from 64 bytes of memory (R138). -/
  | tdef (f : G64)
  /-- Writes one field of a tensor-table entry (R139). -/
  | tset (f : G64)
  /-- Reads one field of a tensor-table entry (R139). -/
  | tget (f : G64)
  /-- Reports the state of the bead a strand read would reach, without waiting (R291). -/
  | beadq (f : G64)
  /-- Branches by a 20-bit parcel offset (R155). -/
  | brJ32 (f : J32)
  /-- Guarded branch by a 24-bit parcel offset (R156). -/
  | brI64 (f : I64)
  /-- Guarded branch by a LIT32 parcel offset (R156). -/
  | brW96 (f : W96)
  /-- Branches when predicate condition holds (R157). -/
  | brcJ32 (f : J32)
  /-- Guarded conditional branch by a 24-bit offset (R157). -/
  | brcI64 (f : I64)
  /-- Guarded conditional branch by a LIT32 offset (R157). -/
  | brcW96 (f : W96)
  /-- Writes LR and branches by a 20-bit offset (R157). -/
  | callJ32 (f : J32)
  /-- Guarded call by a 24-bit offset (R157). -/
  | callI64 (f : I64)
  /-- Guarded call by a LIT32 offset (R157). -/
  | callW96 (f : W96)
  /-- Branches to an address held in an operand (R156). -/
  | bri (f : G64)
  /-- Writes LR and branches to an address held in an operand (R157). -/
  | calli (f : G64)
  /-- Guarded return to LR (R156). -/
  | retG64 (f : G64)
  /-- Captures and checks an overlapped loop body and starts its iterations (R264). -/
  | loopI64 (f : I64)
  /-- LOOP with a LIT32 offset to the closing IRET (R264). -/
  | loopW96 (f : W96)
  /-- Opens the outer level of a two-level overlapped loop (R264). -/
  | loopoI64 (f : I64)
  /-- LOOPO with a LIT32 offset (R264). -/
  | loopoW96 (f : W96)
  /-- Exits the loop level when its condition holds, squashing younger iterations (R282). -/
  | breakc (f : G64)
  /-- Loads a dword by base and 12-bit offset (R134). -/
  | ldI32 (f : I32)
  /-- Loads n bytes of type TY by base and offset (R134). -/
  | ldI64 (f : I64)
  /-- Loads by base and LIT32 offset (R134). -/
  | ldW96 (f : W96)
  /-- Stores a dword by base and 12-bit offset (R134). -/
  | stI32 (f : I32)
  /-- Stores n bytes by base and offset (R134). -/
  | stI64 (f : I64)
  /-- Stores by base and LIT32 offset (R134). -/
  | stW96 (f : W96)
  /-- Loads by base plus scaled index (R134). -/
  | ldx (f : G64)
  /-- Stores by base plus scaled index (R134). -/
  | stx (f : G64)
  /-- Non-temporal store outside release ordering until NTDRAIN (R135). -/
  | stntI64 (f : I64)
  /-- Non-temporal store with a LIT32 offset (R135). -/
  | stntW96 (f : W96)
  /-- Acquire load at scope MD; ends the region (R136). -/
  | ldacqI64 (f : I64)
  /-- Acquire load with a LIT32 offset (R136). -/
  | ldacqW96 (f : W96)
  /-- Release store at scope MD; ends the region (R136). -/
  | strelI64 (f : I64)
  /-- Release store with a LIT32 offset (R136). -/
  | strelW96 (f : W96)
  /-- Deprecated microcoded copy of 256 bytes from global to local memory (R78). -/
  | ldvI64 (f : I64)
  /-- LDV with a LIT32 offset (R78). -/
  | ldvW96 (f : W96)
  /-- Deprecated microcoded sum of groups of four tensor elements (R79). -/
  | vred4 (f : G64)
  /-- Starts a helper in the lowest free slot, stalling if none is free (R234). -/
  | hstart (f : I64)
  /-- Holds until a helper slot is not live and returns its end status (R234). -/
  | hwait (f : G64)
  /-- Reads a launch packet and submits it from device code (R235). -/
  | launch (f : G64)
  /-- Pushes a continuation record into a queue, optionally linked to a consumer (R235). -/
  | tspawn (f : G64)
  /-- Spawns a task linked to the issuer, saves the issuer and waits (R235). -/
  | tspawnw (f : G64)
  /-- Sends an arrival, plain or absorbing, to a tagged record (R235). -/
  | tjoin (f : G64)
  /-- Ends the task, guarded form (R235). -/
  | tdoneG64 (f : G64)
  /-- Cancels a finish scope of the partition and everything below it (R27). -/
  | tcancelScope (f : G64)
  /-- Cancels one task named by tag (R235). -/
  | tcancelTask (f : G64)
  /-- Returns the task's cancelled, withdrawn and predecessor bits (R235). -/
  | wdq (f : G64)
  /-- Opens a graph, phase or job scope (R235). -/
  | fsopen (f : G64)
  /-- Closes a scope (R235). -/
  | fsclose (f : G64)
  /-- Holds until a scope completes and returns its status, optionally releasing it (R235). -/
  | fswait (f : G64)
  /-- Prepares pages of a range: page-ins, TLB fills, migration counts (R260). -/
  | pfh (f : G64)
  /-- Requests a move, page-out or page-in of a page and returns a code (R261). -/
  | place (f : G64)
  /-- Returns the residency word of a page (R262). -/
  | tierq (f : G64)
  /-- Queues a tensor copy on a copy channel (R344). -/
  | cpy (f : G64)
  /-- Holds until a channel's write pointer reaches a target (R349). -/
  | wpwait (f : G64)
  /-- Reads a channel's write pointer or status word (R350). -/
  | wprd (f : G64)
  /-- Posts an indirect gather of table rows into packed rows (R355). -/
  | gather (f : G64)
  /-- Posts an indirect scatter of packed rows, optionally combining (R355). -/
  | scatter (f : G64)
  /-- Waits for or polls an event line and clears it (R352). -/
  | evwait (f : G64)
  /-- Requests page-ins for a range and counts pages (R353). -/
  | tierin (f : G64)
  /-- Waits for earlier LS and AT accesses and ends the region (R379). -/
  | fence (f : G64)
  /-- Orders accesses of path P before later accesses of path Q (R380). -/
  | xfence (f : G64)
  /-- Waits until earlier STNT writes are performed (R381). -/
  | ntdrain (f : G64)
  /-- Atomic integer add (R387). -/
  | aadd (f : G64)
  /-- Atomic floating add (R387). -/
  | afadd (f : G64)
  /-- Atomic minimum (R387). -/
  | amin (f : G64)
  /-- Atomic maximum (R387). -/
  | amax (f : G64)
  /-- Atomic and (R387). -/
  | aand (f : G64)
  /-- Atomic or (R387). -/
  | aor (f : G64)
  /-- Atomic exclusive or (R387). -/
  | axor (f : G64)
  /-- Atomic exchange (R387). -/
  | axchg (f : G64)
  /-- Atomic compare-and-swap (R387). -/
  | acas (f : G64)
  /-- Makes the task a member of a barrier or domain (R393). -/
  | barmJoin (f : G64)
  /-- Arrives if needed and leaves the barrier from the next phase (R393). -/
  | barmLeave (f : G64)
  /-- Arrives and waits off the ready set until the phase changes (R393). -/
  | bwait (f : G64)
  /-- Arrives at a barrier and continues (R393). -/
  | bsig (f : G64)
  /-- Returns a barrier's phase, members and arrivals (R393). -/
  | bqry (f : G64)
  /-- Checks, drains and loads the schedule to open an exchange window (R406). -/
  | xopen (f : G64)
  /-- Checks a send and holds until its slot (R407). -/
  | xsend (f : G64)
  /-- Checks a receive and holds until its slot ends (R407). -/
  | xrecv (f : G64)
  /-- Holds until the window's end and returns its status (R410). -/
  | xclose (f : G64)
  /-- Element-wise add (R173). -/
  | vadd (f : G64)
  /-- Element-wise subtract (R173). -/
  | vsub (f : G64)
  /-- Element-wise multiply (R173). -/
  | vmul (f : G64)
  /-- Element-wise fused multiply-add (R173). -/
  | vfma (f : G64)
  /-- Element-wise minimum (R173). -/
  | vmin (f : G64)
  /-- Element-wise maximum (R173). -/
  | vmax (f : G64)
  /-- Element-wise absolute value (R174). -/
  | vabs (f : G64)
  /-- Element-wise negation (R174). -/
  | vneg (f : G64)
  /-- Copies element bits between same-format tensors (R175). -/
  | vcpy (f : G64)
  /-- Converts elements between any formats (R173). -/
  | vcvt (f : G64)
  /-- Stochastic rounding with stored dither words (R176). -/
  | vsrnd (f : G64)
  /-- Approximate reciprocal (R177). -/
  | vrcp (f : G64)
  /-- Approximate reciprocal square root (R177). -/
  | vrsq (f : G64)
  /-- Correctly rounded square root (R177). -/
  | vsqrt (f : G64)
  /-- Approximate base-2 exponential (R177). -/
  | vexp2 (f : G64)
  /-- Approximate base-2 logarithm (R177). -/
  | vlog2 (f : G64)
  /-- Piecewise-linear function from a segment table (R179). -/
  | vpwl (f : G64)
  /-- Element-wise compare into an integer tensor (R180). -/
  | vcmp (f : G64)
  /-- Element-wise select by an integer selector (R175). -/
  | vsel (f : G64)
  /-- Element-wise integer and (R181). -/
  | vand (f : G64)
  /-- Element-wise integer or (R181). -/
  | vor (f : G64)
  /-- Element-wise integer exclusive or (R181). -/
  | vxor (f : G64)
  /-- Element-wise left shift (R181). -/
  | vshl (f : G64)
  /-- Element-wise right shift (R181). -/
  | vshr (f : G64)
  /-- Element-wise clamp between low and high tensors (R173). -/
  | vclamp (f : G64)
  /-- Sums each row along dimension 0 by the fixed tree (R182). -/
  | vreds (f : G64)
  /-- Maximum or minimum of each row (R183). -/
  | vredm (f : G64)
  /-- Segmented running sums with head flags and carry (R186). -/
  | vscan (f : G64)
  /-- Writes a scalar's low bits into every element (R175). -/
  | vbcast (f : G64)
  /-- Writes a base plus the linear index into each element (R173). -/
  | viota (f : G64)
  /-- Dot product of each row (R184). -/
  | vdot (f : G64)
  /-- Multiplies elements by a power of two (R173). -/
  | vscale (f : G64)
  /-- Copies a local tensor into Crown rows (R312). -/
  | mfill (f : G64)
  /-- Writes a constant pattern into Crown rows (R313). -/
  | mpat (f : G64)
  /-- Sets Bezel rows to +0 (R314). -/
  | mzero (f : G64)
  /-- Adds A times the Crown B operand into the Bezel by chunks (R317). -/
  | mma (f : G64)
  /-- Converts Bezel rows into a local tensor, optionally clearing (R321). -/
  | mdrain (f : G64)
  /-- Writes a local tensor into Bezel rows (R322). -/
  | mloadb (f : G64)
  /-- Multiplies Bezel rows by per-row factors (R323). -/
  | mscl (f : G64)
  /-- Holds until at most n earlier queue entries remain unretired (R325). -/
  | mwait (f : G64)
  /-- Writes low-precision scout codes per row and tile (R331). -/
  | scout (f : G64)
  /-- Thresholds scout codes into a facet mask (R333). -/
  | ksel (f : G64)
  /-- Mask and (R334). -/
  | kand (f : G64)
  /-- Mask or (R334). -/
  | kor (f : G64)
  /-- Mask not (R334). -/
  | knot (f : G64)
  /-- Counts set bits of a mask (R334). -/
  | kpop (f : G64)
  /-- MMA that applies only tiles kept by a facet mask (R335). -/
  | mmak (f : G64)
  /-- Raises cause 20 with the immediate (R434). -/
  | trapI64 (f : I64)
  /-- TRAP with a LIT32 immediate (R434). -/
  | trapW96 (f : W96)
  /-- Raises cause 21 with a code (R434). -/
  | bkpt (f : G64)
  /-- Returns from a handler to TRAPPC and clears HACT (R434). -/
  | eret (f : G64)
  /-- Ends the task Faulted with cause 25 (R434). -/
  | halt (f : G64)
  /-- Reads a system register (R434). -/
  | sysrd (f : SysForm)
  /-- Writes a system register (R434). -/
  | syswr (f : SysForm)
  /-- Writes nothing, advances RETIRED by one and issues as class S (R160). -/
  | nop
  /-- Hint in major 0xD0–0xDF: writes no state and advances RETIRED; hint 0 prefetches a line (R73). -/
  | hint64
  /-- 96-bit hint with LIT32: writes no state and advances RETIRED; hint 0 prefetches a line (R73). -/
  | hint96
  /-- Returns to LR (R156). -/
  | retA32
  /-- Closes a captured body and completes the iteration (R290). -/
  | iretA32
  /-- Closes a captured body, 64-bit form (R290). -/
  | iretG64
  /-- Ends the issuing helper after its stores are performed (R234). -/
  | hexitA32
  /-- Ends the issuing helper, guarded form (R234). -/
  | hexitG64
  /-- Ends the task once helpers and engines have finished (R235). -/
  | tdoneA32
  /-- An instruction in a reserved major raises the reserved-opcode trap (R72). -/
  | reservedOpcodeTrap
  /-- A pending asynchronous fault is taken at the context's next boundary (R420). -/
  | asyncFaultTaken
  /-- After helpers end and engines retire, TDONE retires the task and counts it out (R235). -/
  | taskRetire
  /-- An application core writes a packet address; the engine reads, checks and accepts it and writes STATUS (R208). -/
  | launchdoor
  /-- An idle core pops a Ready record, binds footprints and loads or restores the context (R219). -/
  | dispatch
  /-- When n cores are reserved, all tasks of a phased launch are dispatched on one cycle (R398). -/
  | phasedDispatch
  /-- An arrival reaches a record, decrements JOIN and may make it Ready or fire it early (R228). -/
  | arrival
  /-- A withdrawal reaches a producer and decrements DEMAND or removes it (R229). -/
  | withdrawal
  /-- A member leaves its scope and every completion it causes is applied in one step (R435). -/
  | memberLeave
  /-- System software answers a page request, returning parked tasks and resuming held engines (R250). -/
  | pagedone
  /-- A page-in finishes its copy, swaps the leaf and releases waiters (R256). -/
  | pageInComplete
  /-- Firmware policy or PLACE starts a page-out: frame taken, TIER 2 set, shoot-down (R257). -/
  | pageOutStart
  /-- The page-out copy ends and TIER 1 and FRAME are swapped in (R257). -/
  | pageOutCopyDone
  /-- A move request is judged against the ping-pong bound and, if accepted, starts holding (R254). -/
  | migrationRequest
  /-- Accesses in progress are performed and the page starts streaming (R253). -/
  | migrationDrained
  /-- The last byte is written and the leaf is swapped to the new home (R253). -/
  | migrationStreamDone
  /-- The shoot-down ends the move and the old frame returns to the pool (R253). -/
  | migrationShootdownDone
  /-- A page's 16 ms settle expires and its move history is cleared (R254). -/
  | settleEnd
  /-- A request reaching a former home is forwarded with a redirect notice (R252). -/
  | forwardedRequest
  /-- A redirect notice replaces the requester's TLB entry (R252). -/
  | redirectNotice
  /-- A home checks an access against the granule's record and performs it in home order (R373). -/
  | homeAccess
  /-- The atomic engine serves the oldest request of a held line (R384). -/
  | atomicEngineRequest
  /-- A notice of an ended region updates a home's tag table (R374). -/
  | regionNotice
  /-- Every 2^25 cycles a home clears record fields of ended regions (R375). -/
  | recordClear
  /-- A write to SHOOTDOWN starts invalidation of a range's translations (R246). -/
  | shootdown
  /-- The shoot-down reports completion after caches are cleared and accesses performed (R246). -/
  | shootdownComplete
  /-- A write to PREEMPT requests a pre-emption of a core (R425). -/
  | preempt
  /-- Engines reach their stopping points, the Locket is written and the core freed (R426). -/
  | preemptSaveComplete
  /-- A dispatch-queue entry at the head starts in its first quantum (R294). -/
  | mvuEntryStart
  /-- A quantum ends and the resource arbiter grants the next core (R296). -/
  | arbiterDecision
  /-- An MMA, MMAK or SCOUT reads live zero summaries and mask and may finish absorbing (R318). -/
  | mmaDecisionPoint
  /-- The promotion stage applies a finished chunk to the Bezel (R305). -/
  | chunkPromotion
  /-- An entry retires in program order, updating ZS and flags or reporting its fault (R295). -/
  | mvuEntryRetire
  /-- A channel starts its next queued CPY (R344). -/
  | copyStart
  /-- A copy element is written and the write pointer advances (R344). -/
  | copyElementDelivered
  /-- The indirect engine performs one chunk's read phase then write phase (R354). -/
  | indirectChunk
  /-- A loop iteration starts once its depth stall is released (R270). -/
  | iterationStart
  /-- An iteration retires, committing stores, freeing beads and releasing engine work (R271). -/
  | iterationRetire
  /-- A phase ends and all waiting members return to the ready set on one cycle (R393). -/
  | barrierRelease
  /-- After draining, XOPEN locks lines, arrives at the domain and opens the window at release (R406). -/
  | xopenArrive
  /-- At its slot's start, XSEND sends its value and retires (R407). -/
  | xsendTransmit
  /-- A sent value reaches the receiver and is stored or dropped (R409). -/
  | exchangeArrival
  /-- At the slot's end XRECV writes the stored value or 0 (R407). -/
  | xrecvDeliver
  /-- At cycle E the window closes and the status word is written (R410). -/
  | xcloseComplete
  /-- At cycle E a deferred pre-emption discards the open window (R411). -/
  | windowEndDiscard
  /-- Every 2^K cycles all counters latch and a sample record is written (R438). -/
  | sampleTick
  /-- The background scrub reads and corrects SRAM and HBM words (R454). -/
  | scrub
  /-- An ECC error is detected; corrected or fenced by location (R454). -/
  | eccError
  /-- Every 2^30 cycles HEALTH is updated from wear monitors (R457). -/
  | healthUpdate
  /-- Mean power over the cap lowers the core clock step (R463). -/
  | powerStepDown
  /-- 10 ms below the cap raises the core clock step (R463). -/
  | powerStepUp
  /-- Power good starts the boot ROM on application core 0 (R458). -/
  | powerGood
  /-- The ROM verifies the firmware image and enters Firmware or Recovery (R458). -/
  | romImageCheck
  /-- Firmware brings up memory, links and partitions and releases the compute dies (R458). -/
  | firmwareBringUp
  /-- A module reset returns boot to Reset (R458). -/
  | moduleReset
  /-- A write to ATTEST starts a signed attestation report (R459). -/
  | attest
  /-- The signed report is written and BUSY clears (R459). -/
  | attestComplete
  /-- Frees a complete job or root-child scope entry (R448). -/
  | scopefree
  /-- Releases the record block of a 2 MiB region (R243). -/
  | recfree
  /-- Setting EN in a queue control word resumes pushes and pops (R213). -/
  | queueEnable
  /-- Clearing EN rejects pushes and stops dispatch (R213). -/
  | queueDisable
  /-- Setting EN empties the scope table and opens the root job (R451). -/
  | partitionEnable
  /-- Clearing EN cancels the root job and drains the partition (R452). -/
  | partitionDisable
  /-- The last task of a disabled partition ends and EN reads 0 (R452). -/
  | partitionDrained
  /-- Setting VALID creates a domain with phase, arrivals and members zero (R390). -/
  | domainValidSet
  /-- Clearing VALID faults waiters and clears memberships (R390). -/
  | domainValidClear
  /-- Setting SAMPCTL.EN clears counters and ring indices (R437). -/
  | sampleEnable
  /-- Advancing RPHEAD releases contexts held on a full replay ring (R447). -/
  | rpheadWrite
  /-- Advancing ERRHEAD lets waiting error records be written (R456). -/
  | errheadWrite
  /-- Sets the module number, ignored after a link is enabled (R460). -/
  | modidWrite
  /-- Write to a control-space register with no behaviour of its own (R448). -/
  | registerWrite
  /-- A request from another module arrives over the links and is performed at its home (R460). -/
  | remoteRequest
  /-- A flit that fails its check is resent (R460). -/
  | flitResend
  /-- The last link to a module fails and its requests end with cause 24 (R460). -/
  | linkFail
  /-- A DMA from a root port is translated and performed at its home (R461). -/
  | dmaRequest
  /-- A CXL port fails and page-ins from its slices end waiting tasks (R462). -/
  | cxlPortFail
  /-- The runtime translates a Thaquet container function into native code (R195). -/
  | thaquetTranslation
  /-- JTAG BYPASS instruction (R464). -/
  | bypass
  /-- JTAG IDCODE returns 0x0D96_0A2B (R464). -/
  | idcode
  /-- JTAG SAMPLE/PRELOAD of the boundary cells (R464). -/
  | samplePreload
  /-- JTAG EXTEST drives the boundary cells (R464). -/
  | extest
  /-- Private JTAG instruction reading the boot state (R464). -/
  | bootstat
  /-- Loss of power ends every context and any firmware update in progress; the module returns to Reset at the next power good (R458). -/
  | powerOff
  /-- A CXL memory device offers dynamic capacity, which the port accepts in whole 16 GiB slices (R462). -/
  | dynamicCapacity
  /-- A migration epoch of 2^k cycles expires and the per-cluster counts of .near accesses to each page restart (R258). -/
  | epochEnd
  deriving DecidableEq, Repr

end Sys2Proof
end

