-- ==== Sys2Proof/WellFormed.lean ====
section
/-! DEFINITION. Well-formed instructions: the field checks of R65 step 7 (R40, R41, R45, R47, R48, R49 and each
instruction's own description), and the groups that helper code may hold (R17). -/

namespace Sys2Proof

/-- What one 6-bit operand field holds, with its distance field (R40, R41). -/
inductive Kind where
  /-- The field and its distance must be zero (R45). -/
  | zero
  /-- A field that the shape does not judge: declared ignored, or judged beside the shape. -/
  | anyVal
  /-- A scalar or a strand (R41); as a destination it comes with no distance. -/
  | src
  /-- A scalar only. -/
  | srcS
  /-- A strand only (R291). -/
  | strand
  /-- A tensor identifier. -/
  | ten
  /-- A predicate number in bits 2 to 0 (R41). -/
  | pred
  /-- A literal or a numbered object from `lo` to `hi`. -/
  | lit (lo hi : Nat)
  deriving DecidableEq, Repr

/-- Whether a field of kind `k` may hold `v` with distance `dist`; in helper code registers are s0 to s15 (R40). -/
def Kind.ok (helper : Bool) (k : Kind) (v : BitVec 6) (dist : BitVec 3) : Bool :=
  match k with
  | .zero => v == 0 && dist == 0
  | .anyVal => true
  | .src => if helper then decide (v.toNat < 16) && dist == 0 else decide (32 ≤ v.toNat) || dist == 0
  | .srcS => decide (v.toNat < (if helper then 16 else 32)) && dist == 0
  | .strand => decide (32 ≤ v.toNat) && !helper
  | .ten => dist == 0
  | .pred => decide (v.toNat < 8) && dist == 0
  | .lit lo hi => decide (lo ≤ v.toNat) && decide (v.toNat ≤ hi) && dist == 0

/-- What the description of an instruction asks of its fields (R45). -/
structure Shape where
  d : Kind := .zero
  a : Kind := .zero
  b : Kind := .zero
  c : Kind := .zero
  tys : List (BitVec 4) := [0]
  mds : List (BitVec 3) := [0]
  sat : Bool := false
  opts : List (BitVec 3) := [0]
  deriving DecidableEq, Repr

/-- Integer types, TY 0 to 7 (R47, R140). -/
def Shape.ints : List (BitVec 4) := [0, 1, 2, 3, 4, 5, 6, 7]
/-- The types of a load or store, TY 0 to 12 (R133). -/
def Shape.memTys : List (BitVec 4) := [0, 1, 2, 3, 4, 5, 6, 7, 8, 9, 10, 11, 12]
/-- Rounding modes (R48). -/
def Shape.rounds : List (BitVec 3) := [0, 1, 2, 3, 4]
/-- Scopes (R48). -/
def Shape.scopes : List (BitVec 3) := [0, 1, 2, 3, 4, 5]
/-- OPT of the memory options: the cache pair 11 is reserved (R49). -/
def Shape.optMem : List (BitVec 3) := [0, 1, 2, 3, 4, 5]

/-- Field check of a 64-bit register instruction. -/
def G64.fits (helper : Bool) (sh : Shape) (f : G64) : Bool :=
  Kind.ok helper sh.d f.d 0 && Kind.ok helper sh.a f.a f.da && Kind.ok helper sh.b f.b f.db &&
  Kind.ok helper sh.c f.c f.dc && sh.tys.contains f.ty && sh.mds.contains f.md &&
  (sh.sat || !f.sat) && sh.opts.contains f.opt

/-- Field check of a 64-bit immediate instruction. -/
def I64.fits (helper : Bool) (sh : Shape) (f : I64) : Bool :=
  Kind.ok helper sh.d f.d 0 && Kind.ok helper sh.a f.a f.da && sh.tys.contains f.ty &&
  sh.mds.contains f.md && (sh.sat || !f.sat) && sh.opts.contains f.opt

/-- Field check of a 96-bit instruction. -/
def W96.fits (helper : Bool) (sh : Shape) (f : W96) : Bool :=
  Kind.ok helper sh.d f.d 0 && Kind.ok helper sh.a f.a f.da && sh.tys.contains f.ty &&
  sh.mds.contains f.md && (sh.sat || !f.sat) && sh.opts.contains f.opt

/-- Field check of a 32-bit register instruction; it has no distance fields (R44). -/
def A32.fits (helper : Bool) (sh : Shape) (f : A32) : Bool :=
  Kind.ok helper sh.d f.d 0 && Kind.ok helper sh.a f.a 0 && Kind.ok helper sh.b f.b 0

/-- Field check of a 32-bit immediate instruction. -/
def I32.fits (helper : Bool) (sh : Shape) (f : I32) : Bool :=
  Kind.ok helper sh.d f.d 0 && Kind.ok helper sh.a f.a 0

/-- Field check of SYSRD and SYSWR; a 64-bit form has no immediate bits above bit 23. -/
def SysForm.fits (helper : Bool) (sh : Shape) (f : SysForm) : Bool :=
  Kind.ok helper sh.d f.d 0 && Kind.ok helper sh.a f.a f.da && sh.tys.contains f.ty &&
  sh.mds.contains f.md && (sh.sat || !f.sat) && sh.opts.contains f.opt &&
  (f.wide || decide (f.imm.toNat < 2 ^ 24))

/-- The read-only system registers: CTXID, CYCLE, RETIRED, REGION, ENGSEQ, WP0 to WP7, LOOPSTAT (R54). -/
def SysReg.readOnly : List Nat :=
  [0x000, 0x001, 0x002, 0x003, 0x004, 0x020, 0x021, 0x022, 0x023, 0x024, 0x025, 0x026, 0x027, 0x030]

/-- The system registers a program may write (R54). -/
def SysReg.readWrite : List Nat := [0x008, 0x009, 0x00A, 0x010, 0x011, 0x012, 0x013, 0x014, 0x018, 0x019]

/-- The register number is listed (R54) and the other immediate bits are zero (R434). -/
def SysReg.listed (imm : BitVec 32) : Bool :=
  SysReg.readOnly.contains imm.toNat || SysReg.readWrite.contains imm.toNat

/-- The register number is listed and not marked RO (R54). -/
def SysReg.writable (imm : BitVec 32) : Bool := SysReg.readWrite.contains imm.toNat

/-- R65 step 7 for each instruction, in a control context or (`helper`) in helper code. An event has no fields. -/
def Instr.legal (helper : Bool) : Instr → Bool
  | .addA32 f => f.fits helper { d := .src, a := .src, b := .src }
  | .addI32 f => f.fits helper { d := .src, a := .src }
  | .addG64 f => f.fits helper { d := .src, a := .src, b := .src, tys := Shape.ints, sat := true }
  | .addI64 f => f.fits helper { d := .src, a := .src, tys := Shape.ints, sat := true }
  | .addW96 f => f.fits helper { d := .src, a := .src, tys := Shape.ints, sat := true }
  | .subA32 f => f.fits helper { d := .src, a := .src, b := .src }
  | .subG64 f => f.fits helper { d := .src, a := .src, b := .src, tys := Shape.ints, sat := true }
  | .mulA32 f => f.fits helper { d := .src, a := .src, b := .src }
  | .mulG64 f => f.fits helper { d := .src, a := .src, b := .src, tys := Shape.ints, sat := true }
  | .mulI64 f => f.fits helper { d := .src, a := .src, tys := Shape.ints, sat := true }
  | .mulW96 f => f.fits helper { d := .src, a := .src, tys := Shape.ints, sat := true }
  | .mulhA32 f => f.fits helper { d := .src, a := .src, b := .src }
  | .mulhG64 f => f.fits helper { d := .src, a := .src, b := .src, tys := Shape.ints }
  | .mulhzA32 f => f.fits helper { d := .src, a := .src, b := .src }
  | .mulhzG64 f => f.fits helper { d := .src, a := .src, b := .src, tys := Shape.ints }
  | .divA32 f => f.fits helper { d := .src, a := .src, b := .src }
  | .divG64 f => f.fits helper { d := .src, a := .src, b := .src, tys := Shape.ints, sat := true }
  | .divzA32 f => f.fits helper { d := .src, a := .src, b := .src }
  | .divzG64 f => f.fits helper { d := .src, a := .src, b := .src, tys := Shape.ints, sat := true }
  | .remA32 f => f.fits helper { d := .src, a := .src, b := .src }
  | .remG64 f => f.fits helper { d := .src, a := .src, b := .src, tys := Shape.ints }
  | .remzA32 f => f.fits helper { d := .src, a := .src, b := .src }
  | .remzG64 f => f.fits helper { d := .src, a := .src, b := .src, tys := Shape.ints }
  | .andA32 f => f.fits helper { d := .src, a := .src, b := .src }
  | .andI32 f => f.fits helper { d := .src, a := .src }
  | .andG64 f => f.fits helper { d := .src, a := .src, b := .src, tys := Shape.ints }
  | .andI64 f => f.fits helper { d := .src, a := .src, tys := Shape.ints }
  | .andW96 f => f.fits helper { d := .src, a := .src, tys := Shape.ints }
  | .orA32 f => f.fits helper { d := .src, a := .src, b := .src }
  | .orG64 f => f.fits helper { d := .src, a := .src, b := .src, tys := Shape.ints }
  | .orI64 f => f.fits helper { d := .src, a := .src, tys := Shape.ints }
  | .orW96 f => f.fits helper { d := .src, a := .src, tys := Shape.ints }
  | .xorA32 f => f.fits helper { d := .src, a := .src, b := .src }
  | .xorG64 f => f.fits helper { d := .src, a := .src, b := .src, tys := Shape.ints }
  | .xorI64 f => f.fits helper { d := .src, a := .src, tys := Shape.ints }
  | .xorW96 f => f.fits helper { d := .src, a := .src, tys := Shape.ints }
  | .andnA32 f => f.fits helper { d := .src, a := .src, b := .src }
  | .andnG64 f => f.fits helper { d := .src, a := .src, b := .src, tys := Shape.ints }
  | .shlA32 f => f.fits helper { d := .src, a := .src, b := .src }
  | .shlI32 f => f.fits helper { d := .src, a := .src }
  | .shlG64 f => f.fits helper { d := .src, a := .src, b := .src, tys := Shape.ints, sat := true }
  | .shlI64 f => f.fits helper { d := .src, a := .src, tys := Shape.ints, sat := true }
  | .shlW96 f => f.fits helper { d := .src, a := .src, tys := Shape.ints, sat := true }
  | .shrA32 f => f.fits helper { d := .src, a := .src, b := .src }
  | .shrI32 f => f.fits helper { d := .src, a := .src }
  | .shrG64 f => f.fits helper { d := .src, a := .src, b := .src, tys := Shape.ints }
  | .shrI64 f => f.fits helper { d := .src, a := .src, tys := Shape.ints }
  | .shrW96 f => f.fits helper { d := .src, a := .src, tys := Shape.ints }
  | .sraA32 f => f.fits helper { d := .src, a := .src, b := .src }
  | .sraI32 f => f.fits helper { d := .src, a := .src }
  | .sraG64 f => f.fits helper { d := .src, a := .src, b := .src, tys := Shape.ints }
  | .sraI64 f => f.fits helper { d := .src, a := .src, tys := Shape.ints }
  | .sraW96 f => f.fits helper { d := .src, a := .src, tys := Shape.ints }
  | .rolA32 f => f.fits helper { d := .src, a := .src, b := .src }
  | .rolG64 f => f.fits helper { d := .src, a := .src, b := .src, tys := Shape.ints }
  | .rolI64 f => f.fits helper { d := .src, a := .src, tys := Shape.ints }
  | .rolW96 f => f.fits helper { d := .src, a := .src, tys := Shape.ints }
  | .minA32 f => f.fits helper { d := .src, a := .src, b := .src }
  | .minG64 f => f.fits helper { d := .src, a := .src, b := .src, tys := Shape.ints }
  | .minI64 f => f.fits helper { d := .src, a := .src, tys := Shape.ints }
  | .minW96 f => f.fits helper { d := .src, a := .src, tys := Shape.ints }
  | .maxA32 f => f.fits helper { d := .src, a := .src, b := .src }
  | .maxG64 f => f.fits helper { d := .src, a := .src, b := .src, tys := Shape.ints }
  | .maxI64 f => f.fits helper { d := .src, a := .src, tys := Shape.ints }
  | .maxW96 f => f.fits helper { d := .src, a := .src, tys := Shape.ints }
  | .minzA32 f => f.fits helper { d := .src, a := .src, b := .src }
  | .minzG64 f => f.fits helper { d := .src, a := .src, b := .src, tys := Shape.ints }
  | .minzI64 f => f.fits helper { d := .src, a := .src, tys := Shape.ints }
  | .minzW96 f => f.fits helper { d := .src, a := .src, tys := Shape.ints }
  | .maxzA32 f => f.fits helper { d := .src, a := .src, b := .src }
  | .maxzG64 f => f.fits helper { d := .src, a := .src, b := .src, tys := Shape.ints }
  | .maxzI64 f => f.fits helper { d := .src, a := .src, tys := Shape.ints }
  | .maxzW96 f => f.fits helper { d := .src, a := .src, tys := Shape.ints }
  | .clzA32 f => f.fits helper { d := .src, a := .src }
  | .clzG64 f => f.fits helper { d := .src, a := .src, tys := Shape.ints }
  | .ctzA32 f => f.fits helper { d := .src, a := .src }
  | .ctzG64 f => f.fits helper { d := .src, a := .src, tys := Shape.ints }
  | .popcA32 f => f.fits helper { d := .src, a := .src }
  | .popcG64 f => f.fits helper { d := .src, a := .src, tys := Shape.ints }
  | .absA32 f => f.fits helper { d := .src, a := .src }
  | .absG64 f => f.fits helper { d := .src, a := .src, tys := Shape.ints, sat := true }
  | .movA32 f => f.fits helper { d := .src, a := .src }
  | .movG64 f => f.fits helper { d := .src, a := .src, tys := Shape.ints, sat := true }
  | .sext f => f.fits helper { d := .src, a := .src, tys := Shape.ints }
  | .zext f => f.fits helper { d := .src, a := .src, tys := Shape.ints }
  | .movlI32 f => f.fits helper { d := .src }
  | .movlI64 f => f.fits helper { d := .src, tys := Shape.ints, sat := true }
  | .movlW96 f => f.fits helper { d := .src, tys := Shape.ints, sat := true }
  | .leaI64 f => f.fits helper { d := .src, a := .src, tys := Shape.memTys }
  | .leaW96 f => f.fits helper { d := .src, a := .src, tys := Shape.memTys }
  | .bfx f => f.fits helper { d := .src, a := .src, b := (.lit 0 63), c := (.lit 0 63), tys := [3, 7] } && decide (f.b.toNat + f.c.toNat + 1 ≤ 64)
  | .bfi f => f.fits helper { d := .srcS, a := .src, b := (.lit 0 63), c := (.lit 0 63), tys := [3, 7] } && decide (f.b.toNat + f.c.toNat + 1 ≤ 64)
  | .cmpA32 cond f => f.fits helper { d := .pred, a := .src, b := .src } && decide (cond ≤ 11)
  | .cmpG64 cond f => f.fits helper { d := .pred, a := .src, b := .src, c := .pred, tys := Shape.ints } && decide (cond ≤ 11)
  | .sel f => f.fits helper { d := .src, a := .src, b := .src, c := .pred, tys := Shape.ints }
  | .pandA32 f => f.fits helper { d := .pred, a := .pred, b := .pred }
  | .pandG64 f => f.fits helper { d := .pred, a := .pred, b := .pred }
  | .porA32 f => f.fits helper { d := .pred, a := .pred, b := .pred }
  | .porG64 f => f.fits helper { d := .pred, a := .pred, b := .pred }
  | .pxorA32 f => f.fits helper { d := .pred, a := .pred, b := .pred }
  | .pxorG64 f => f.fits helper { d := .pred, a := .pred, b := .pred }
  | .pnotA32 f => f.fits helper { d := .pred, a := .pred }
  | .pnotG64 f => f.fits helper { d := .pred, a := .pred }
  | .sfadd f => f.fits helper { d := .src, a := .src, b := .src, tys := [8], mds := Shape.rounds, sat := true }
  | .sfmul f => f.fits helper { d := .src, a := .src, b := .src, tys := [8], mds := Shape.rounds, sat := true }
  | .sfma f => f.fits helper { d := .src, a := .src, b := .src, c := .src, tys := [8], mds := Shape.rounds, sat := true }
  | .sfcmp cond f => f.fits helper { d := .pred, a := .src, b := .src, c := .pred, tys := [8] } && decide (cond ≤ 7)
  | .sfcvt f => f.fits helper { d := .src, a := .src, c := (.lit 0 12), tys := Shape.memTys, mds := Shape.rounds, sat := true } && decide (f.c.toNat ≠ f.ty.toNat)
  | .tdef f => f.fits helper { d := .ten, a := .src, opts := Shape.optMem }
  | .tset f => f.fits helper { d := .ten, a := .src, c := (.lit 0 16) }
  | .tget f => f.fits helper { d := .src, a := .ten, c := (.lit 0 16) }
  | .beadq f => f.fits helper { d := .src, a := .strand }
  | .brJ32 f => decide (f.p = 0 ∧ f.n = false)
  | .brI64 f => f.fits helper { }
  | .brW96 f => f.fits helper { }
  | .brcJ32 _ => true
  | .brcI64 f => f.fits helper { d := .pred, opts := [0, 1] }
  | .brcW96 f => f.fits helper { d := .pred, opts := [0, 1] }
  | .callJ32 f => decide (f.p = 0 ∧ f.n = false)
  | .callI64 f => f.fits helper { }
  | .callW96 f => f.fits helper { }
  | .bri f => f.fits helper { a := .src }
  | .calli f => f.fits helper { a := .src }
  | .retG64 f => f.fits helper { }
  | .loopI64 f => f.fits helper { d := (.lit 1 8), a := .src } && decide (f.p = 0 ∧ f.n = false)
  | .loopW96 f => f.fits helper { d := (.lit 1 8), a := .src } && decide (f.p = 0 ∧ f.n = false)
  | .loopoI64 f => f.fits helper { d := (.lit 1 8), a := .src } && decide (f.p = 0 ∧ f.n = false)
  | .loopoW96 f => f.fits helper { d := (.lit 1 8), a := .src } && decide (f.p = 0 ∧ f.n = false)
  | .breakc f => f.fits helper { d := .pred, opts := [0, 1] }
  | .ldI32 f => f.fits helper { d := .src, a := .src }
  | .ldI64 f => f.fits helper { d := .src, a := .src, tys := Shape.memTys, opts := Shape.optMem }
  | .ldW96 f => f.fits helper { d := .src, a := .src, tys := Shape.memTys, opts := Shape.optMem }
  | .stI32 f => f.fits helper { d := .src, a := .src }
  | .stI64 f => f.fits helper { d := .src, a := .src, tys := Shape.memTys, opts := Shape.optMem }
  | .stW96 f => f.fits helper { d := .src, a := .src, tys := Shape.memTys, opts := Shape.optMem }
  | .ldx f => f.fits helper { d := .src, a := .src, b := .src, tys := Shape.memTys, opts := Shape.optMem }
  | .stx f => f.fits helper { a := .src, b := .src, c := .src, tys := Shape.memTys, opts := Shape.optMem }
  | .stntI64 f => f.fits helper { d := .src, a := .src, tys := Shape.memTys, opts := [0, 1] }
  | .stntW96 f => f.fits helper { d := .src, a := .src, tys := Shape.memTys, opts := [0, 1] }
  | .ldacqI64 f => f.fits helper { d := .src, a := .src, tys := Shape.memTys, mds := Shape.scopes, opts := Shape.optMem }
  | .ldacqW96 f => f.fits helper { d := .src, a := .src, tys := Shape.memTys, mds := Shape.scopes, opts := Shape.optMem }
  | .strelI64 f => f.fits helper { d := .src, a := .src, tys := Shape.memTys, mds := Shape.scopes, opts := Shape.optMem }
  | .strelW96 f => f.fits helper { d := .src, a := .src, tys := Shape.memTys, mds := Shape.scopes, opts := Shape.optMem }
  | .ldvI64 f => f.fits helper { d := .srcS, a := .src, opts := Shape.optMem }
  | .ldvW96 f => f.fits helper { d := .srcS, a := .src, opts := Shape.optMem }
  | .vred4 f => f.fits helper { d := .ten, a := .ten, mds := Shape.rounds, sat := true }
  | .hstart f => f.fits helper { d := .srcS } && decide (f.imm.toNat ≤ 0xFFFC ∧ f.imm.toNat % 4 = 0)
  | .hwait f => f.fits helper { d := .srcS, a := (.lit 0 9) }
  | .launch f => f.fits helper { d := .srcS, a := .srcS, opts := Shape.optMem }
  | .tspawn f => f.fits helper { d := .srcS, a := .srcS, b := .srcS, c := .anyVal, mds := [0, 1], opts := Shape.optMem } && decide (if f.md = 1 then Kind.ok helper .srcS f.c f.dc else Kind.ok helper .zero f.c f.dc)
  | .tspawnw f => f.fits helper { d := .srcS, a := .srcS, b := .srcS, opts := Shape.optMem }
  | .tjoin f => f.fits helper { a := .srcS, b := .anyVal, c := (.lit 0 15), mds := [0, 1, 2] } && decide (if f.md = 2 then Kind.ok helper .ten f.b f.db else Kind.ok helper .zero f.b f.db)
  | .tdoneG64 f => f.fits helper { }
  | .tcancelScope f => f.fits helper { d := .srcS, a := .srcS }
  | .tcancelTask f => f.fits helper { d := .srcS, a := .srcS, mds := [1] }
  | .wdq f => f.fits helper { d := .srcS }
  | .fsopen f => f.fits helper { d := .srcS, a := .srcS, b := .anyVal, c := (.lit 2 4), mds := [0, 1] } && decide (if f.md = 1 then f.c = 2 ∧ Kind.ok helper .srcS f.b f.db else Kind.ok helper .zero f.b f.db)
  | .fsclose f => f.fits helper { d := .srcS, a := .srcS }
  | .fswait f => f.fits helper { d := .srcS, a := .srcS, mds := [0, 1] }
  | .pfh f => f.fits helper { a := .src, b := .src, opts := Shape.optMem }
  | .place f => f.fits helper { d := .src, a := .src, b := .src, c := (.lit 0 3) }
  | .tierq f => f.fits helper { d := .src, a := .src }
  | .cpy f => f.fits helper { d := .ten, a := .ten, b := .src, c := .anyVal, mds := [0, 1, 2, 4, 5, 6], opts := Shape.optMem } && decide ((f.md < 4 ∨ Kind.ok helper .src f.c f.dc) ∧ f.a.toNat + f.md.toNat % 4 ≤ 63)
  | .wpwait f => f.fits helper { a := .src, b := .src }
  | .wprd f => f.fits helper { d := .src, a := .src, mds := [0, 1] }
  | .gather f => f.fits helper { d := .ten, a := .ten, b := .ten, c := (.lit 0 15), opts := Shape.optMem }
  | .scatter f => f.fits helper { d := .ten, a := .ten, b := .ten, c := (.lit 0 15), mds := [0, 1, 2, 3], sat := true, opts := Shape.optMem }
  | .evwait f => f.fits helper { d := .src, a := (.lit 0 15), mds := [0, 1] }
  | .tierin f => f.fits helper { d := .src, a := .src, b := .src, c := (.lit 0 15), opts := Shape.optMem }
  | .fence f => f.fits helper { mds := Shape.scopes }
  | .xfence f => f.fits helper { a := (.lit 0 5), b := (.lit 0 5), mds := Shape.scopes }
  | .ntdrain f => f.fits helper { }
  | .aadd f => f.fits helper { d := .src, a := .src, b := .src, c := (.lit 0 3), tys := Shape.ints, mds := Shape.scopes, sat := true, opts := Shape.optMem }
  | .afadd f => f.fits helper { d := .src, a := .src, b := .src, c := (.lit 0 3), tys := [8, 9, 10], mds := Shape.scopes, sat := true, opts := Shape.optMem }
  | .amin f => f.fits helper { d := .src, a := .src, b := .src, c := (.lit 0 3), tys := Shape.ints, mds := Shape.scopes, opts := Shape.optMem }
  | .amax f => f.fits helper { d := .src, a := .src, b := .src, c := (.lit 0 3), tys := Shape.ints, mds := Shape.scopes, opts := Shape.optMem }
  | .aand f => f.fits helper { d := .src, a := .src, b := .src, c := (.lit 0 3), tys := Shape.ints, mds := Shape.scopes, opts := Shape.optMem }
  | .aor f => f.fits helper { d := .src, a := .src, b := .src, c := (.lit 0 3), tys := Shape.ints, mds := Shape.scopes, opts := Shape.optMem }
  | .axor f => f.fits helper { d := .src, a := .src, b := .src, c := (.lit 0 3), tys := Shape.ints, mds := Shape.scopes, opts := Shape.optMem }
  | .axchg f => f.fits helper { d := .src, a := .src, b := .src, c := (.lit 0 3), tys := Shape.ints, mds := Shape.scopes, opts := Shape.optMem }
  | .acas f => f.fits helper { d := .srcS, a := .src, b := .src, c := (.lit 0 3), tys := Shape.ints, mds := Shape.scopes, opts := Shape.optMem }
  | .barmJoin f => f.fits helper { a := (.lit 0 63), c := (.lit 0 0), mds := [2, 4] } && decide (f.md = 4 ∨ f.a ≤ 31)
  | .barmLeave f => f.fits helper { a := (.lit 0 63), c := (.lit 1 1), mds := [2, 4] } && decide (f.md = 4 ∨ f.a ≤ 31)
  | .bwait f => f.fits helper { d := .src, a := (.lit 0 63), mds := [2, 4] } && decide (f.md = 4 ∨ f.a ≤ 31)
  | .bsig f => f.fits helper { a := (.lit 0 63), mds := [2, 4] } && decide (f.md = 4 ∨ f.a ≤ 31)
  | .bqry f => f.fits helper { d := .src, a := (.lit 0 63), mds := [2, 4] } && decide (f.md = 4 ∨ f.a ≤ 31)
  | .xopen f => f.fits helper { d := .src, a := (.lit 0 63), b := .src, c := .src, mds := [4] }
  | .xsend f => f.fits helper { a := .src, b := .src, c := .src }
  | .xrecv f => f.fits helper { d := .src, a := .src }
  | .xclose f => f.fits helper { d := .src }
  | .vadd f => f.fits helper { d := .ten, a := .ten, b := .ten, mds := Shape.rounds, sat := true }
  | .vsub f => f.fits helper { d := .ten, a := .ten, b := .ten, mds := Shape.rounds, sat := true }
  | .vmul f => f.fits helper { d := .ten, a := .ten, b := .ten, mds := Shape.rounds, sat := true }
  | .vfma f => f.fits helper { d := .ten, a := .ten, b := .ten, c := .ten, mds := Shape.rounds, sat := true }
  | .vmin f => f.fits helper { d := .ten, a := .ten, b := .ten, mds := Shape.rounds, sat := true }
  | .vmax f => f.fits helper { d := .ten, a := .ten, b := .ten, mds := Shape.rounds, sat := true }
  | .vabs f => f.fits helper { d := .ten, a := .ten, mds := Shape.rounds, sat := true }
  | .vneg f => f.fits helper { d := .ten, a := .ten, mds := Shape.rounds, sat := true }
  | .vcpy f => f.fits helper { d := .ten, a := .ten }
  | .vcvt f => f.fits helper { d := .ten, a := .ten, mds := Shape.rounds, sat := true }
  | .vsrnd f => f.fits helper { d := .ten, a := .ten, b := .ten, sat := true }
  | .vrcp f => f.fits helper { d := .ten, a := .ten, mds := Shape.rounds, sat := true }
  | .vrsq f => f.fits helper { d := .ten, a := .ten, mds := Shape.rounds, sat := true }
  | .vsqrt f => f.fits helper { d := .ten, a := .ten, mds := Shape.rounds, sat := true }
  | .vexp2 f => f.fits helper { d := .ten, a := .ten, mds := Shape.rounds, sat := true }
  | .vlog2 f => f.fits helper { d := .ten, a := .ten, mds := Shape.rounds, sat := true }
  | .vpwl f => f.fits helper { d := .ten, a := .ten, b := .ten, mds := Shape.rounds, sat := true }
  | .vcmp f => f.fits helper { d := .ten, a := .ten, b := .ten, c := (.lit 0 7) }
  | .vsel f => f.fits helper { d := .ten, a := .ten, b := .ten, c := .ten }
  | .vand f => f.fits helper { d := .ten, a := .ten, b := .ten, sat := true }
  | .vor f => f.fits helper { d := .ten, a := .ten, b := .ten, sat := true }
  | .vxor f => f.fits helper { d := .ten, a := .ten, b := .ten, sat := true }
  | .vshl f => f.fits helper { d := .ten, a := .ten, b := .ten, sat := true }
  | .vshr f => f.fits helper { d := .ten, a := .ten, b := .ten, sat := true }
  | .vclamp f => f.fits helper { d := .ten, a := .ten, b := .ten, c := .ten, mds := Shape.rounds, sat := true }
  | .vreds f => f.fits helper { d := .ten, a := .ten, mds := Shape.rounds, sat := true }
  | .vredm f => f.fits helper { d := .ten, a := .ten, c := (.lit 0 1), mds := Shape.rounds, sat := true }
  | .vscan f => f.fits helper { d := .ten, a := .ten, b := .anyVal, c := .anyVal, mds := Shape.rounds, sat := true, opts := [0, 1, 2, 3] } && decide ((if f.opt.getLsbD 0 then Kind.ok helper .ten f.b f.db else Kind.ok helper .zero f.b f.db) ∧ (if f.opt.getLsbD 1 then Kind.ok helper .ten f.c f.dc else Kind.ok helper .zero f.c f.dc))
  | .vbcast f => f.fits helper { d := .ten, a := .src }
  | .viota f => f.fits helper { d := .ten, a := .src, mds := Shape.rounds, sat := true }
  | .vdot f => f.fits helper { d := .ten, a := .ten, b := .ten, mds := Shape.rounds, sat := true }
  | .vscale f => f.fits helper { d := .ten, a := .ten, b := .src, mds := Shape.rounds, sat := true }
  | .mfill f => f.fits helper { a := .ten, b := .src }
  | .mpat f => f.fits helper { a := .src, b := .src, c := (.lit 0 3), tys := [0, 9, 10, 11, 12] }
  | .mzero f => f.fits helper { a := .src, b := .src }
  | .mma f => f.fits helper { a := .ten, b := .ten, c := .src }
  | .mdrain f => f.fits helper { d := .ten, a := .src, mds := Shape.rounds, sat := true, opts := [0, 1] }
  | .mloadb f => f.fits helper { a := .ten, b := .src, mds := Shape.rounds, sat := true }
  | .mscl f => f.fits helper { a := .ten, b := .src, mds := Shape.rounds, sat := true }
  | .mwait f => f.fits helper { c := (.lit 0 15) }
  | .scout f => f.fits helper { d := .ten, a := .ten, b := .ten, c := .src }
  | .ksel f => f.fits helper { d := (.lit 0 15), a := .ten, b := .src, c := (.lit 0 1) }
  | .kand f => f.fits helper { d := (.lit 0 15), a := (.lit 0 15), b := (.lit 0 15) }
  | .kor f => f.fits helper { d := (.lit 0 15), a := (.lit 0 15), b := (.lit 0 15) }
  | .knot f => f.fits helper { d := (.lit 0 15), a := (.lit 0 15) }
  | .kpop f => f.fits helper { d := .src, a := (.lit 0 15) }
  | .mmak f => f.fits helper { d := .src, a := .ten, b := .ten, c := (.lit 0 15) }
  | .trapI64 f => f.fits helper { }
  | .trapW96 f => f.fits helper { }
  | .bkpt f => f.fits helper { a := (.lit 0 63) }
  | .eret f => f.fits helper { }
  | .halt f => f.fits helper { a := .src }
  | .sysrd f => f.fits helper { d := .src } && SysReg.listed f.imm
  | .syswr f => f.fits helper { a := .src } && SysReg.writable f.imm
  | .nop => true
  | .hint64 => true
  | .hint96 => true
  | .retA32 => true
  | .iretA32 => true
  | .iretG64 => true
  | .hexitA32 => true
  | .hexitG64 => true
  | .tdoneA32 => true
  | .reservedOpcodeTrap => true
  | .asyncFaultTaken => true
  | .taskRetire => true
  | .launchdoor => true
  | .dispatch => true
  | .phasedDispatch => true
  | .arrival => true
  | .withdrawal => true
  | .memberLeave => true
  | .pagedone => true
  | .pageInComplete => true
  | .pageOutStart => true
  | .pageOutCopyDone => true
  | .migrationRequest => true
  | .migrationDrained => true
  | .migrationStreamDone => true
  | .migrationShootdownDone => true
  | .settleEnd => true
  | .forwardedRequest => true
  | .redirectNotice => true
  | .homeAccess => true
  | .atomicEngineRequest => true
  | .regionNotice => true
  | .recordClear => true
  | .shootdown => true
  | .shootdownComplete => true
  | .preempt => true
  | .preemptSaveComplete => true
  | .mvuEntryStart => true
  | .arbiterDecision => true
  | .mmaDecisionPoint => true
  | .chunkPromotion => true
  | .mvuEntryRetire => true
  | .copyStart => true
  | .copyElementDelivered => true
  | .indirectChunk => true
  | .iterationStart => true
  | .iterationRetire => true
  | .barrierRelease => true
  | .xopenArrive => true
  | .xsendTransmit => true
  | .exchangeArrival => true
  | .xrecvDeliver => true
  | .xcloseComplete => true
  | .windowEndDiscard => true
  | .sampleTick => true
  | .scrub => true
  | .eccError => true
  | .healthUpdate => true
  | .powerStepDown => true
  | .powerStepUp => true
  | .powerGood => true
  | .romImageCheck => true
  | .firmwareBringUp => true
  | .moduleReset => true
  | .attest => true
  | .attestComplete => true
  | .scopefree => true
  | .recfree => true
  | .queueEnable => true
  | .queueDisable => true
  | .partitionEnable => true
  | .partitionDisable => true
  | .partitionDrained => true
  | .domainValidSet => true
  | .domainValidClear => true
  | .sampleEnable => true
  | .rpheadWrite => true
  | .errheadWrite => true
  | .modidWrite => true
  | .registerWrite => true
  | .remoteRequest => true
  | .flitResend => true
  | .linkFail => true
  | .dmaRequest => true
  | .cxlPortFail => true
  | .thaquetTranslation => true
  | .bypass => true
  | .idcode => true
  | .samplePreload => true
  | .extest => true
  | .bootstat => true
  | .powerOff => true
  | .dynamicCapacity => true
  | .epochEnd => true

/-- A well-formed instruction: one that passes R65 step 7 in a control context. -/
def Instr.wellFormed (i : Instr) : Bool := i.legal false

/-- The instruction groups that helper code may hold (R17); an illegal group takes the illegal-instruction trap at
R65 step 8. -/
def Instr.helperAllowed : Instr → Bool
  | .tdef .. => false
  | .tset .. => false
  | .beadq .. => false
  | .calli .. => false
  | .loopI64 .. => false
  | .loopW96 .. => false
  | .loopoI64 .. => false
  | .loopoW96 .. => false
  | .iretA32 => false
  | .iretG64 => false
  | .breakc .. => false
  | .ldvI64 .. => false
  | .ldvW96 .. => false
  | .vred4 .. => false
  | .hstart .. => false
  | .hwait .. => false
  | .launch .. => false
  | .tspawn .. => false
  | .tspawnw .. => false
  | .tjoin .. => false
  | .tdoneA32 => false
  | .tdoneG64 .. => false
  | .tcancelScope .. => false
  | .tcancelTask .. => false
  | .wdq .. => false
  | .fsopen .. => false
  | .fsclose .. => false
  | .fswait .. => false
  | .place .. => false
  | .barmJoin .. => false
  | .barmLeave .. => false
  | .bwait .. => false
  | .bsig .. => false
  | .bqry .. => false
  | .xopen .. => false
  | .xsend .. => false
  | .xrecv .. => false
  | .xclose .. => false
  | .vadd .. => false
  | .vsub .. => false
  | .vmul .. => false
  | .vfma .. => false
  | .vmin .. => false
  | .vmax .. => false
  | .vabs .. => false
  | .vneg .. => false
  | .vcpy .. => false
  | .vcvt .. => false
  | .vsrnd .. => false
  | .vrcp .. => false
  | .vrsq .. => false
  | .vsqrt .. => false
  | .vexp2 .. => false
  | .vlog2 .. => false
  | .vpwl .. => false
  | .vcmp .. => false
  | .vsel .. => false
  | .vand .. => false
  | .vor .. => false
  | .vxor .. => false
  | .vshl .. => false
  | .vshr .. => false
  | .vclamp .. => false
  | .vreds .. => false
  | .vredm .. => false
  | .vscan .. => false
  | .vbcast .. => false
  | .viota .. => false
  | .vdot .. => false
  | .vscale .. => false
  | .mfill .. => false
  | .mpat .. => false
  | .mzero .. => false
  | .mma .. => false
  | .mdrain .. => false
  | .mloadb .. => false
  | .mscl .. => false
  | .mwait .. => false
  | .scout .. => false
  | .ksel .. => false
  | .kand .. => false
  | .kor .. => false
  | .knot .. => false
  | .kpop .. => false
  | .mmak .. => false
  | .eret .. => false
  | .halt .. => false
  | .syswr .. => false
  | .nop => true
  | .hint64 => true
  | .hint96 => true
  | .addA32 .. => true
  | .addI32 .. => true
  | .addG64 .. => true
  | .addI64 .. => true
  | .addW96 .. => true
  | .subA32 .. => true
  | .subG64 .. => true
  | .mulA32 .. => true
  | .mulG64 .. => true
  | .mulI64 .. => true
  | .mulW96 .. => true
  | .mulhA32 .. => true
  | .mulhG64 .. => true
  | .mulhzA32 .. => true
  | .mulhzG64 .. => true
  | .divA32 .. => true
  | .divG64 .. => true
  | .divzA32 .. => true
  | .divzG64 .. => true
  | .remA32 .. => true
  | .remG64 .. => true
  | .remzA32 .. => true
  | .remzG64 .. => true
  | .andA32 .. => true
  | .andI32 .. => true
  | .andG64 .. => true
  | .andI64 .. => true
  | .andW96 .. => true
  | .orA32 .. => true
  | .orG64 .. => true
  | .orI64 .. => true
  | .orW96 .. => true
  | .xorA32 .. => true
  | .xorG64 .. => true
  | .xorI64 .. => true
  | .xorW96 .. => true
  | .andnA32 .. => true
  | .andnG64 .. => true
  | .shlA32 .. => true
  | .shlI32 .. => true
  | .shlG64 .. => true
  | .shlI64 .. => true
  | .shlW96 .. => true
  | .shrA32 .. => true
  | .shrI32 .. => true
  | .shrG64 .. => true
  | .shrI64 .. => true
  | .shrW96 .. => true
  | .sraA32 .. => true
  | .sraI32 .. => true
  | .sraG64 .. => true
  | .sraI64 .. => true
  | .sraW96 .. => true
  | .rolA32 .. => true
  | .rolG64 .. => true
  | .rolI64 .. => true
  | .rolW96 .. => true
  | .minA32 .. => true
  | .minG64 .. => true
  | .minI64 .. => true
  | .minW96 .. => true
  | .maxA32 .. => true
  | .maxG64 .. => true
  | .maxI64 .. => true
  | .maxW96 .. => true
  | .minzA32 .. => true
  | .minzG64 .. => true
  | .minzI64 .. => true
  | .minzW96 .. => true
  | .maxzA32 .. => true
  | .maxzG64 .. => true
  | .maxzI64 .. => true
  | .maxzW96 .. => true
  | .clzA32 .. => true
  | .clzG64 .. => true
  | .ctzA32 .. => true
  | .ctzG64 .. => true
  | .popcA32 .. => true
  | .popcG64 .. => true
  | .absA32 .. => true
  | .absG64 .. => true
  | .movA32 .. => true
  | .movG64 .. => true
  | .sext .. => true
  | .zext .. => true
  | .movlI32 .. => true
  | .movlI64 .. => true
  | .movlW96 .. => true
  | .leaI64 .. => true
  | .leaW96 .. => true
  | .bfx .. => true
  | .bfi .. => true
  | .cmpA32 .. => true
  | .cmpG64 .. => true
  | .sel .. => true
  | .pandA32 .. => true
  | .pandG64 .. => true
  | .porA32 .. => true
  | .porG64 .. => true
  | .pxorA32 .. => true
  | .pxorG64 .. => true
  | .pnotA32 .. => true
  | .pnotG64 .. => true
  | .sfadd .. => true
  | .sfmul .. => true
  | .sfma .. => true
  | .sfcmp .. => true
  | .sfcvt .. => true
  | .tget .. => true
  | .brJ32 .. => true
  | .brI64 .. => true
  | .brW96 .. => true
  | .brcJ32 .. => true
  | .brcI64 .. => true
  | .brcW96 .. => true
  | .callJ32 .. => true
  | .callI64 .. => true
  | .callW96 .. => true
  | .bri .. => true
  | .retA32 => true
  | .retG64 .. => true
  | .ldI32 .. => true
  | .ldI64 .. => true
  | .ldW96 .. => true
  | .stI32 .. => true
  | .stI64 .. => true
  | .stW96 .. => true
  | .ldx .. => true
  | .stx .. => true
  | .stntI64 .. => true
  | .stntW96 .. => true
  | .ldacqI64 .. => true
  | .ldacqW96 .. => true
  | .strelI64 .. => true
  | .strelW96 .. => true
  | .hexitA32 => true
  | .hexitG64 => true
  | .pfh .. => true
  | .tierq .. => true
  | .cpy .. => true
  | .wpwait .. => true
  | .wprd .. => true
  | .gather .. => true
  | .scatter .. => true
  | .evwait .. => true
  | .tierin .. => true
  | .fence .. => true
  | .xfence .. => true
  | .ntdrain .. => true
  | .aadd .. => true
  | .afadd .. => true
  | .amin .. => true
  | .amax .. => true
  | .aand .. => true
  | .aor .. => true
  | .axor .. => true
  | .axchg .. => true
  | .acas .. => true
  | .trapI64 .. => true
  | .trapW96 .. => true
  | .bkpt .. => true
  | .sysrd .. => true
  | .reservedOpcodeTrap => true
  | .asyncFaultTaken => true
  | .taskRetire => true
  | .launchdoor => true
  | .dispatch => true
  | .phasedDispatch => true
  | .arrival => true
  | .withdrawal => true
  | .memberLeave => true
  | .pagedone => true
  | .pageInComplete => true
  | .pageOutStart => true
  | .pageOutCopyDone => true
  | .migrationRequest => true
  | .migrationDrained => true
  | .migrationStreamDone => true
  | .migrationShootdownDone => true
  | .settleEnd => true
  | .forwardedRequest => true
  | .redirectNotice => true
  | .homeAccess => true
  | .atomicEngineRequest => true
  | .regionNotice => true
  | .recordClear => true
  | .shootdown => true
  | .shootdownComplete => true
  | .preempt => true
  | .preemptSaveComplete => true
  | .mvuEntryStart => true
  | .arbiterDecision => true
  | .mmaDecisionPoint => true
  | .chunkPromotion => true
  | .mvuEntryRetire => true
  | .copyStart => true
  | .copyElementDelivered => true
  | .indirectChunk => true
  | .iterationStart => true
  | .iterationRetire => true
  | .barrierRelease => true
  | .xopenArrive => true
  | .xsendTransmit => true
  | .exchangeArrival => true
  | .xrecvDeliver => true
  | .xcloseComplete => true
  | .windowEndDiscard => true
  | .sampleTick => true
  | .scrub => true
  | .eccError => true
  | .healthUpdate => true
  | .powerStepDown => true
  | .powerStepUp => true
  | .powerGood => true
  | .romImageCheck => true
  | .firmwareBringUp => true
  | .moduleReset => true
  | .attest => true
  | .attestComplete => true
  | .scopefree => true
  | .recfree => true
  | .queueEnable => true
  | .queueDisable => true
  | .partitionEnable => true
  | .partitionDisable => true
  | .partitionDrained => true
  | .domainValidSet => true
  | .domainValidClear => true
  | .sampleEnable => true
  | .rpheadWrite => true
  | .errheadWrite => true
  | .modidWrite => true
  | .registerWrite => true
  | .remoteRequest => true
  | .flitResend => true
  | .linkFail => true
  | .dmaRequest => true
  | .cxlPortFail => true
  | .thaquetTranslation => true
  | .bypass => true
  | .idcode => true
  | .samplePreload => true
  | .extest => true
  | .bootstat => true
  | .powerOff => true
  | .dynamicCapacity => true
  | .epochEnd => true

/-- The engine-bound instructions: each takes a value of ENGSEQ, even when guarded off (R42, R414). -/
def Instr.engineBound : Instr → Bool
  | .nop => false
  | .hint64 => false
  | .hint96 => false
  | .addA32 .. => false
  | .addI32 .. => false
  | .addG64 .. => false
  | .addI64 .. => false
  | .addW96 .. => false
  | .subA32 .. => false
  | .subG64 .. => false
  | .mulA32 .. => false
  | .mulG64 .. => false
  | .mulI64 .. => false
  | .mulW96 .. => false
  | .mulhA32 .. => false
  | .mulhG64 .. => false
  | .mulhzA32 .. => false
  | .mulhzG64 .. => false
  | .divA32 .. => false
  | .divG64 .. => false
  | .divzA32 .. => false
  | .divzG64 .. => false
  | .remA32 .. => false
  | .remG64 .. => false
  | .remzA32 .. => false
  | .remzG64 .. => false
  | .andA32 .. => false
  | .andI32 .. => false
  | .andG64 .. => false
  | .andI64 .. => false
  | .andW96 .. => false
  | .orA32 .. => false
  | .orG64 .. => false
  | .orI64 .. => false
  | .orW96 .. => false
  | .xorA32 .. => false
  | .xorG64 .. => false
  | .xorI64 .. => false
  | .xorW96 .. => false
  | .andnA32 .. => false
  | .andnG64 .. => false
  | .shlA32 .. => false
  | .shlI32 .. => false
  | .shlG64 .. => false
  | .shlI64 .. => false
  | .shlW96 .. => false
  | .shrA32 .. => false
  | .shrI32 .. => false
  | .shrG64 .. => false
  | .shrI64 .. => false
  | .shrW96 .. => false
  | .sraA32 .. => false
  | .sraI32 .. => false
  | .sraG64 .. => false
  | .sraI64 .. => false
  | .sraW96 .. => false
  | .rolA32 .. => false
  | .rolG64 .. => false
  | .rolI64 .. => false
  | .rolW96 .. => false
  | .minA32 .. => false
  | .minG64 .. => false
  | .minI64 .. => false
  | .minW96 .. => false
  | .maxA32 .. => false
  | .maxG64 .. => false
  | .maxI64 .. => false
  | .maxW96 .. => false
  | .minzA32 .. => false
  | .minzG64 .. => false
  | .minzI64 .. => false
  | .minzW96 .. => false
  | .maxzA32 .. => false
  | .maxzG64 .. => false
  | .maxzI64 .. => false
  | .maxzW96 .. => false
  | .clzA32 .. => false
  | .clzG64 .. => false
  | .ctzA32 .. => false
  | .ctzG64 .. => false
  | .popcA32 .. => false
  | .popcG64 .. => false
  | .absA32 .. => false
  | .absG64 .. => false
  | .movA32 .. => false
  | .movG64 .. => false
  | .sext .. => false
  | .zext .. => false
  | .movlI32 .. => false
  | .movlI64 .. => false
  | .movlW96 .. => false
  | .leaI64 .. => false
  | .leaW96 .. => false
  | .bfx .. => false
  | .bfi .. => false
  | .cmpA32 .. => false
  | .cmpG64 .. => false
  | .sel .. => false
  | .pandA32 .. => false
  | .pandG64 .. => false
  | .porA32 .. => false
  | .porG64 .. => false
  | .pxorA32 .. => false
  | .pxorG64 .. => false
  | .pnotA32 .. => false
  | .pnotG64 .. => false
  | .sfadd .. => false
  | .sfmul .. => false
  | .sfma .. => false
  | .sfcmp .. => false
  | .sfcvt .. => false
  | .tdef .. => false
  | .tset .. => false
  | .tget .. => false
  | .beadq .. => false
  | .brJ32 .. => false
  | .brI64 .. => false
  | .brW96 .. => false
  | .brcJ32 .. => false
  | .brcI64 .. => false
  | .brcW96 .. => false
  | .callJ32 .. => false
  | .callI64 .. => false
  | .callW96 .. => false
  | .bri .. => false
  | .calli .. => false
  | .retA32 => false
  | .retG64 .. => false
  | .loopI64 .. => false
  | .loopW96 .. => false
  | .loopoI64 .. => false
  | .loopoW96 .. => false
  | .iretA32 => false
  | .iretG64 => false
  | .breakc .. => false
  | .ldI32 .. => false
  | .ldI64 .. => false
  | .ldW96 .. => false
  | .stI32 .. => false
  | .stI64 .. => false
  | .stW96 .. => false
  | .ldx .. => false
  | .stx .. => false
  | .stntI64 .. => false
  | .stntW96 .. => false
  | .ldacqI64 .. => false
  | .ldacqW96 .. => false
  | .strelI64 .. => false
  | .strelW96 .. => false
  | .ldvI64 .. => false
  | .ldvW96 .. => false
  | .vred4 .. => true
  | .hstart .. => true
  | .hwait .. => false
  | .hexitA32 => false
  | .hexitG64 => false
  | .launch .. => true
  | .tspawn .. => true
  | .tspawnw .. => true
  | .tjoin .. => true
  | .tdoneA32 => false
  | .tdoneG64 .. => false
  | .tcancelScope .. => true
  | .tcancelTask .. => true
  | .wdq .. => false
  | .fsopen .. => false
  | .fsclose .. => false
  | .fswait .. => false
  | .pfh .. => false
  | .place .. => false
  | .tierq .. => false
  | .cpy .. => true
  | .wpwait .. => false
  | .wprd .. => false
  | .gather .. => true
  | .scatter .. => true
  | .evwait .. => false
  | .tierin .. => true
  | .fence .. => false
  | .xfence .. => false
  | .ntdrain .. => false
  | .aadd .. => false
  | .afadd .. => false
  | .amin .. => false
  | .amax .. => false
  | .aand .. => false
  | .aor .. => false
  | .axor .. => false
  | .axchg .. => false
  | .acas .. => false
  | .barmJoin .. => false
  | .barmLeave .. => false
  | .bwait .. => false
  | .bsig .. => false
  | .bqry .. => false
  | .xopen .. => false
  | .xsend .. => false
  | .xrecv .. => false
  | .xclose .. => false
  | .vadd .. => true
  | .vsub .. => true
  | .vmul .. => true
  | .vfma .. => true
  | .vmin .. => true
  | .vmax .. => true
  | .vabs .. => true
  | .vneg .. => true
  | .vcpy .. => true
  | .vcvt .. => true
  | .vsrnd .. => true
  | .vrcp .. => true
  | .vrsq .. => true
  | .vsqrt .. => true
  | .vexp2 .. => true
  | .vlog2 .. => true
  | .vpwl .. => true
  | .vcmp .. => true
  | .vsel .. => true
  | .vand .. => true
  | .vor .. => true
  | .vxor .. => true
  | .vshl .. => true
  | .vshr .. => true
  | .vclamp .. => true
  | .vreds .. => true
  | .vredm .. => true
  | .vscan .. => true
  | .vbcast .. => true
  | .viota .. => true
  | .vdot .. => true
  | .vscale .. => true
  | .mfill .. => true
  | .mpat .. => true
  | .mzero .. => true
  | .mma .. => true
  | .mdrain .. => true
  | .mloadb .. => true
  | .mscl .. => true
  | .mwait .. => false
  | .scout .. => true
  | .ksel .. => true
  | .kand .. => true
  | .kor .. => true
  | .knot .. => true
  | .kpop .. => true
  | .mmak .. => true
  | .trapI64 .. => false
  | .trapW96 .. => false
  | .bkpt .. => false
  | .eret .. => false
  | .halt .. => false
  | .sysrd .. => false
  | .syswr .. => false
  | .reservedOpcodeTrap => false
  | .asyncFaultTaken => false
  | .taskRetire => false
  | .launchdoor => false
  | .dispatch => false
  | .phasedDispatch => false
  | .arrival => false
  | .withdrawal => false
  | .memberLeave => false
  | .pagedone => false
  | .pageInComplete => false
  | .pageOutStart => false
  | .pageOutCopyDone => false
  | .migrationRequest => false
  | .migrationDrained => false
  | .migrationStreamDone => false
  | .migrationShootdownDone => false
  | .settleEnd => false
  | .forwardedRequest => false
  | .redirectNotice => false
  | .homeAccess => false
  | .atomicEngineRequest => false
  | .regionNotice => false
  | .recordClear => false
  | .shootdown => false
  | .shootdownComplete => false
  | .preempt => false
  | .preemptSaveComplete => false
  | .mvuEntryStart => false
  | .arbiterDecision => false
  | .mmaDecisionPoint => false
  | .chunkPromotion => false
  | .mvuEntryRetire => false
  | .copyStart => false
  | .copyElementDelivered => false
  | .indirectChunk => false
  | .iterationStart => false
  | .iterationRetire => false
  | .barrierRelease => false
  | .xopenArrive => false
  | .xsendTransmit => false
  | .exchangeArrival => false
  | .xrecvDeliver => false
  | .xcloseComplete => false
  | .windowEndDiscard => false
  | .sampleTick => false
  | .scrub => false
  | .eccError => false
  | .healthUpdate => false
  | .powerStepDown => false
  | .powerStepUp => false
  | .powerGood => false
  | .romImageCheck => false
  | .firmwareBringUp => false
  | .moduleReset => false
  | .attest => false
  | .attestComplete => false
  | .scopefree => false
  | .recfree => false
  | .queueEnable => false
  | .queueDisable => false
  | .partitionEnable => false
  | .partitionDisable => false
  | .partitionDrained => false
  | .domainValidSet => false
  | .domainValidClear => false
  | .sampleEnable => false
  | .rpheadWrite => false
  | .errheadWrite => false
  | .modidWrite => false
  | .registerWrite => false
  | .remoteRequest => false
  | .flitResend => false
  | .linkFail => false
  | .dmaRequest => false
  | .cxlPortFail => false
  | .thaquetTranslation => false
  | .bypass => false
  | .idcode => false
  | .samplePreload => false
  | .extest => false
  | .bootstat => false
  | .powerOff => false
  | .dynamicCapacity => false
  | .epochEnd => false

end Sys2Proof
end

