-- ==== Sys2Proof/Decode.lean ====
section
/-! DEFINITION. The decoder of R43 to R73, total on any parcels and rejecting by name, and after it the encoder,
written from the same tables. Parcel 0 of an instruction lies at the lowest address (R43). -/

namespace Sys2Proof

/-- Why no instruction is read. `crossesSlot` and the others raise the illegal-instruction trap (R52, R65). -/
inductive Reject where
  /-- No parcel, or the instruction's length would carry it past the end of its slot (R52). -/
  | crossesSlot
  /-- A major that no map lists (R67, R69). -/
  | unassignedMajor
  /-- A function number that the major does not list (R67, R69). -/
  | unassignedFunction
  /-- LEN 11 on a major whose 64-bit form is not the immediate format, or on HSTART (R46, R233). -/
  | noLongForm
  /-- A field that R65 step 7 refuses. -/
  | badField
  deriving DecidableEq, Repr

/-- The length in parcels, from bits 31 and 30 of parcel 0 (R43). -/
def parcelCount (p : Parcel) : Nat :=
  if p.getLsbD 31 then (if p.getLsbD 30 then 3 else 2) else 1

/-- The major opcode of a 32-bit instruction (R43). -/
def major32 (p : Parcel) : Nat := (p.extractLsb' 24 7).toNat
/-- The major opcode of a 64- or 96-bit instruction (R43). -/
def major64 (p : Parcel) : Nat := (p.extractLsb' 22 8).toNat
/-- FN of a 32-bit register format (R44). -/
def fn32 (p : Parcel) : BitVec 6 := p.extractLsb' 0 6
/-- FN of the general 64-bit format: bits 45 to 40 of the instruction (R45). -/
def fn64 (q : Parcel) : BitVec 6 := q.extractLsb' 8 6

/-- One bit as a truth value. -/
def flagOf (b : BitVec 1) : Bool := b == 1
/-- A truth value as one bit. -/
def bitOf (b : Bool) : BitVec 1 := if b then 1 else 0

/-- The fields of the general format (R45). -/
def G64.read (p q : Parcel) : G64 where
  p := p.extractLsb' 19 3
  n := flagOf (p.extractLsb' 18 1)
  d := p.extractLsb' 12 6
  a := p.extractLsb' 6 6
  da := p.extractLsb' 3 3
  opt := p.extractLsb' 0 3
  b := q.extractLsb' 26 6
  db := q.extractLsb' 23 3
  c := q.extractLsb' 17 6
  dc := q.extractLsb' 14 3
  ty := q.extractLsb' 4 4
  md := q.extractLsb' 1 3
  sat := flagOf (q.extractLsb' 0 1)

/-- The fields of the immediate format (R45). -/
def I64.read (p q : Parcel) : I64 where
  p := p.extractLsb' 19 3
  n := flagOf (p.extractLsb' 18 1)
  d := p.extractLsb' 12 6
  a := p.extractLsb' 6 6
  da := p.extractLsb' 3 3
  opt := p.extractLsb' 0 3
  ty := q.extractLsb' 4 4
  md := q.extractLsb' 1 3
  sat := flagOf (q.extractLsb' 0 1)
  imm := q.extractLsb' 8 24

/-- The fields of the 96-bit format; IMM24 is ignored (R46). -/
def W96.read (p q r : Parcel) : W96 where
  p := p.extractLsb' 19 3
  n := flagOf (p.extractLsb' 18 1)
  d := p.extractLsb' 12 6
  a := p.extractLsb' 6 6
  da := p.extractLsb' 3 3
  opt := p.extractLsb' 0 3
  ty := q.extractLsb' 4 4
  md := q.extractLsb' 1 3
  sat := flagOf (q.extractLsb' 0 1)
  lit := r

/-- SYSRD and SYSWR in either length (R46, R434). -/
def SysForm.read (wide : Bool) (p q r : Parcel) : SysForm where
  p := p.extractLsb' 19 3
  n := flagOf (p.extractLsb' 18 1)
  d := p.extractLsb' 12 6
  a := p.extractLsb' 6 6
  da := p.extractLsb' 3 3
  opt := p.extractLsb' 0 3
  ty := q.extractLsb' 4 4
  md := q.extractLsb' 1 3
  sat := flagOf (q.extractLsb' 0 1)
  wide := wide
  imm := if wide then r else (q.extractLsb' 8 24).setWidth 32

/-- The operands of a 32-bit register format (R44). -/
def A32.read (p : Parcel) : A32 where
  d := p.extractLsb' 18 6
  a := p.extractLsb' 12 6
  b := p.extractLsb' 6 6

/-- The operands of a 32-bit immediate format (R44). -/
def I32.read (p : Parcel) : I32 where
  d := p.extractLsb' 18 6
  a := p.extractLsb' 12 6
  imm := p.extractLsb' 0 12

/-- The operands of a 32-bit transfer (R44). -/
def J32.read (p : Parcel) : J32 where
  p := p.extractLsb' 21 3
  n := flagOf (p.extractLsb' 20 1)
  off := p.extractLsb' 0 20

/-- A row of an opcode map: the key, and the instruction built from the fields. -/
def findRow {α : Type} (key : Nat) : List (Nat × α) → Option α
  | [] => none
  | (k, v) :: rest => if key = k then some v else findRow key rest

/-- The reason when a register-format major has no row for its FN: the major itself may be unassigned. -/
def missing {α : Type} (major : Nat) (rows : List (Nat × α)) : Reject :=
  if rows.any (fun r => r.1 / 64 == major) then .unassignedFunction else .unassignedMajor

/-- The 32-bit register majors with their FN values (R67, R70). NOP and CMP stand beside the table. -/
def rowsA32 : List (Nat × (A32 → Instr)) :=
  [(0x01 * 64 + 0, .addA32),
   (0x01 * 64 + 1, .subA32),
   (0x01 * 64 + 2, .mulA32),
   (0x01 * 64 + 3, .mulhA32),
   (0x01 * 64 + 4, .mulhzA32),
   (0x01 * 64 + 5, .divA32),
   (0x01 * 64 + 6, .divzA32),
   (0x01 * 64 + 7, .remA32),
   (0x01 * 64 + 8, .remzA32),
   (0x01 * 64 + 9, .andA32),
   (0x01 * 64 + 10, .orA32),
   (0x01 * 64 + 11, .xorA32),
   (0x01 * 64 + 12, .andnA32),
   (0x01 * 64 + 13, .shlA32),
   (0x01 * 64 + 14, .shrA32),
   (0x01 * 64 + 15, .sraA32),
   (0x01 * 64 + 16, .rolA32),
   (0x01 * 64 + 17, .minA32),
   (0x01 * 64 + 18, .maxA32),
   (0x01 * 64 + 19, .minzA32),
   (0x01 * 64 + 20, .maxzA32),
   (0x01 * 64 + 21, .clzA32),
   (0x01 * 64 + 22, .ctzA32),
   (0x01 * 64 + 23, .popcA32),
   (0x01 * 64 + 24, .absA32),
   (0x01 * 64 + 25, .movA32),
   (0x02 * 64 + 0, .pandA32),
   (0x02 * 64 + 1, .porA32),
   (0x02 * 64 + 2, .pxorA32),
   (0x02 * 64 + 3, .pnotA32)]

/-- The 32-bit immediate majors (R67). -/
def rowsI32 : List (Nat × (I32 → Instr)) :=
  [(0x04, .addI32),
   (0x05, .andI32),
   (0x06, .shlI32),
   (0x07, .shrI32),
   (0x08, .sraI32),
   (0x09, .movlI32),
   (0x0A, .ldI32),
   (0x0B, .stI32)]

/-- The 32-bit transfer majors (R67). -/
def rowsJ32 : List (Nat × (J32 → Instr)) :=
  [(0x10, .brJ32),
   (0x11, .brcJ32),
   (0x12, .callJ32)]

/-- Register majors of the 64-bit map, part 0 (R69, R70). -/
def rowsG64part0 : List (Nat × (G64 → Instr)) :=
  [(0x00 * 64 + 0, .addG64),
   (0x00 * 64 + 1, .subG64),
   (0x00 * 64 + 2, .mulG64),
   (0x00 * 64 + 3, .mulhG64),
   (0x00 * 64 + 4, .mulhzG64),
   (0x00 * 64 + 5, .divG64),
   (0x00 * 64 + 6, .divzG64),
   (0x00 * 64 + 7, .remG64),
   (0x00 * 64 + 8, .remzG64),
   (0x00 * 64 + 9, .andG64),
   (0x00 * 64 + 10, .orG64),
   (0x00 * 64 + 11, .xorG64),
   (0x00 * 64 + 12, .andnG64),
   (0x00 * 64 + 13, .shlG64),
   (0x00 * 64 + 14, .shrG64),
   (0x00 * 64 + 15, .sraG64),
   (0x00 * 64 + 16, .rolG64),
   (0x00 * 64 + 17, .minG64),
   (0x00 * 64 + 18, .maxG64),
   (0x00 * 64 + 19, .minzG64),
   (0x00 * 64 + 20, .maxzG64),
   (0x00 * 64 + 21, .clzG64),
   (0x00 * 64 + 22, .ctzG64),
   (0x00 * 64 + 23, .popcG64),
   (0x00 * 64 + 24, .absG64),
   (0x00 * 64 + 25, .movG64),
   (0x00 * 64 + 26, .sext),
   (0x00 * 64 + 27, .zext),
   (0x04 * 64 + 0, .pandG64),
   (0x04 * 64 + 1, .porG64),
   (0x04 * 64 + 2, .pxorG64),
   (0x04 * 64 + 3, .pnotG64),
   (0x03 * 64 + 0, .sel),
   (0x01 * 64 + 0, .bfx),
   (0x01 * 64 + 1, .bfi),
   (0x05 * 64 + 0, .sfadd),
   (0x05 * 64 + 1, .sfmul),
   (0x05 * 64 + 2, .sfma),
   (0x05 * 64 + 3, .sfcvt),
   (0x07 * 64 + 0, .tdef)]

/-- Register majors of the 64-bit map, part 1 (R69, R70). -/
def rowsG64part1 : List (Nat × (G64 → Instr)) :=
  [(0x07 * 64 + 1, .tset),
   (0x07 * 64 + 2, .tget),
   (0x08 * 64 + 0, .beadq),
   (0x23 * 64 + 0, .bri),
   (0x23 * 64 + 1, .calli),
   (0x23 * 64 + 2, .retG64),
   (0x26 * 64 + 1, .breakc),
   (0x32 * 64 + 0, .ldx),
   (0x32 * 64 + 1, .stx),
   (0xC1 * 64 + 0, .vred4),
   (0x41 * 64 + 0, .hwait),
   (0x41 * 64 + 2, .launch),
   (0x41 * 64 + 3, .tspawn),
   (0x41 * 64 + 4, .tspawnw),
   (0x41 * 64 + 5, .tjoin),
   (0x41 * 64 + 6, .tdoneG64),
   (0x41 * 64 + 8, .wdq),
   (0x41 * 64 + 9, .fsopen),
   (0x41 * 64 + 10, .fsclose),
   (0x41 * 64 + 11, .fswait),
   (0x50 * 64 + 0, .pfh),
   (0x50 * 64 + 1, .place),
   (0x50 * 64 + 2, .tierq),
   (0x51 * 64 + 0, .cpy),
   (0x51 * 64 + 1, .wpwait),
   (0x51 * 64 + 2, .wprd),
   (0x51 * 64 + 3, .gather),
   (0x51 * 64 + 4, .scatter),
   (0x51 * 64 + 5, .evwait),
   (0x51 * 64 + 6, .tierin),
   (0x52 * 64 + 0, .fence),
   (0x52 * 64 + 1, .xfence),
   (0x52 * 64 + 2, .ntdrain),
   (0x60 * 64 + 0, .aadd),
   (0x60 * 64 + 1, .afadd),
   (0x60 * 64 + 2, .amin),
   (0x60 * 64 + 3, .amax),
   (0x60 * 64 + 4, .aand),
   (0x60 * 64 + 5, .aor),
   (0x60 * 64 + 6, .axor)]

/-- Register majors of the 64-bit map, part 2 (R69, R70). -/
def rowsG64part2 : List (Nat × (G64 → Instr)) :=
  [(0x60 * 64 + 7, .axchg),
   (0x60 * 64 + 8, .acas),
   (0x61 * 64 + 1, .bwait),
   (0x61 * 64 + 2, .bsig),
   (0x61 * 64 + 3, .bqry),
   (0x62 * 64 + 0, .xopen),
   (0x62 * 64 + 1, .xsend),
   (0x62 * 64 + 2, .xrecv),
   (0x62 * 64 + 3, .xclose),
   (0x70 * 64 + 0, .vadd),
   (0x70 * 64 + 1, .vsub),
   (0x70 * 64 + 2, .vmul),
   (0x70 * 64 + 3, .vfma),
   (0x70 * 64 + 4, .vmin),
   (0x70 * 64 + 5, .vmax),
   (0x70 * 64 + 6, .vabs),
   (0x70 * 64 + 7, .vneg),
   (0x70 * 64 + 8, .vcpy),
   (0x70 * 64 + 9, .vcvt),
   (0x70 * 64 + 10, .vsrnd),
   (0x70 * 64 + 11, .vrcp),
   (0x70 * 64 + 12, .vrsq),
   (0x70 * 64 + 13, .vsqrt),
   (0x70 * 64 + 14, .vexp2),
   (0x70 * 64 + 15, .vlog2),
   (0x70 * 64 + 16, .vpwl),
   (0x70 * 64 + 17, .vcmp),
   (0x70 * 64 + 18, .vsel),
   (0x70 * 64 + 19, .vand),
   (0x70 * 64 + 20, .vor),
   (0x70 * 64 + 21, .vxor),
   (0x70 * 64 + 22, .vshl),
   (0x70 * 64 + 23, .vshr),
   (0x70 * 64 + 24, .vclamp),
   (0x70 * 64 + 25, .vreds),
   (0x70 * 64 + 26, .vredm),
   (0x70 * 64 + 27, .vscan),
   (0x70 * 64 + 28, .vbcast),
   (0x70 * 64 + 29, .viota),
   (0x70 * 64 + 30, .vdot)]

/-- Register majors of the 64-bit map, part 3 (R69, R70). -/
def rowsG64part3 : List (Nat × (G64 → Instr)) :=
  [(0x70 * 64 + 31, .vscale),
   (0x90 * 64 + 0, .mfill),
   (0x90 * 64 + 1, .mpat),
   (0x90 * 64 + 2, .mzero),
   (0x90 * 64 + 3, .mma),
   (0x90 * 64 + 4, .mdrain),
   (0x90 * 64 + 5, .mloadb),
   (0x90 * 64 + 6, .mscl),
   (0x90 * 64 + 7, .mwait),
   (0xA0 * 64 + 0, .scout),
   (0xA0 * 64 + 1, .ksel),
   (0xA0 * 64 + 2, .kand),
   (0xA0 * 64 + 3, .kor),
   (0xA0 * 64 + 4, .knot),
   (0xA0 * 64 + 5, .kpop),
   (0xA0 * 64 + 6, .mmak),
   (0xB0 * 64 + 0, .eret),
   (0xB0 * 64 + 1, .bkpt),
   (0xB0 * 64 + 2, .halt)]

/-- The register majors of the 64-bit map with their FN values (R69). TCANCEL and BARM are two rows of one FN each,
told apart by MD and by the literal C (R233, R391). -/
def rowsG64 : List (Nat × (G64 → Instr)) :=
  rowsG64part0 ++ rowsG64part1 ++ rowsG64part2 ++ rowsG64part3 ++
  [(0x41 * 64 + 7, fun f => if f.md = 1 then .tcancelTask f else .tcancelScope f),
   (0x61 * 64 + 0, fun f => if f.c = 1 then .barmLeave f else .barmJoin f)]

/-- The immediate majors in their 64-bit form (R69). -/
def rowsI64 : List (Nat × (I64 → Instr)) :=
  [(0x10, .addI64),
   (0x11, .andI64),
   (0x12, .orI64),
   (0x13, .xorI64),
   (0x14, .shlI64),
   (0x15, .shrI64),
   (0x16, .sraI64),
   (0x17, .rolI64),
   (0x18, .mulI64),
   (0x19, .minI64),
   (0x1A, .maxI64),
   (0x1B, .minzI64),
   (0x1C, .maxzI64),
   (0x1D, .movlI64),
   (0x1E, .leaI64),
   (0x20, .brI64),
   (0x21, .brcI64),
   (0x22, .callI64),
   (0x24, .loopI64),
   (0x25, .loopoI64),
   (0x30, .ldI64),
   (0x31, .stI64),
   (0x33, .stntI64),
   (0x34, .ldacqI64),
   (0x35, .strelI64),
   (0xC0, .ldvI64),
   (0xB3, .trapI64),
   (0x40, .hstart)]

/-- The immediate majors in their 96-bit form (R46, R69). -/
def rowsW96 : List (Nat × (W96 → Instr)) :=
  [(0x10, .addW96),
   (0x11, .andW96),
   (0x12, .orW96),
   (0x13, .xorW96),
   (0x14, .shlW96),
   (0x15, .shrW96),
   (0x16, .sraW96),
   (0x17, .rolW96),
   (0x18, .mulW96),
   (0x19, .minW96),
   (0x1A, .maxW96),
   (0x1B, .minzW96),
   (0x1C, .maxzW96),
   (0x1D, .movlW96),
   (0x1E, .leaW96),
   (0x20, .brW96),
   (0x21, .brcW96),
   (0x22, .callW96),
   (0x24, .loopW96),
   (0x25, .loopoW96),
   (0x30, .ldW96),
   (0x31, .stW96),
   (0x33, .stntW96),
   (0x34, .ldacqW96),
   (0x35, .strelW96),
   (0xC0, .ldvW96),
   (0xB3, .trapW96)]

/-- SYSRD and SYSWR (R69). -/
def rowsSys : List (Nat × (SysForm → Instr)) := [(0xB1, .sysrd), (0xB2, .syswr)]

/-- An instruction that passes the field check, or the refusal of R65 step 7. -/
def checked (i : Instr) : Except Reject Instr := if i.wellFormed then .ok i else .error .badField

/-- Decoding of a 32-bit parcel (R65, R67). -/
def decode32 (p : Parcel) : Except Reject Instr :=
  let m := major32 p
  if 0x70 ≤ m then .ok (.reservedOpcodeTrap)
  else if m = 0x00 then .ok .nop
  else if m = 0x13 then
    if p.extractLsb' 6 18 = 0 then
      match (fn32 p).toNat with
      | 0 => .ok .retA32
      | 1 => .ok .iretA32
      | 2 => .ok .tdoneA32
      | 3 => .ok .hexitA32
      | _ => .error .unassignedFunction
    else if (fn32 p).toNat ≤ 3 then .error .badField else .error .unassignedFunction
  else if m = 0x03 then checked (.cmpA32 (fn32 p) (A32.read p))
  else match findRow m rowsI32, findRow m rowsJ32 with
    | some k, _ => checked (k (I32.read p))
    | none, some k => checked (k (J32.read p))
    | none, none =>
      match findRow (m * 64 + (fn32 p).toNat) rowsA32 with
      | some k => checked (k (A32.read p))
      | none => .error (missing m rowsA32)

/-- Decoding of a 64-bit instruction (R65, R69, R73). -/
def decode64 (p q : Parcel) : Except Reject Instr :=
  let m := major64 p
  if 0xE0 ≤ m then .ok (.reservedOpcodeTrap)
  else if 0xD0 ≤ m then .ok .hint64
  else if m = 0x02 then checked (.cmpG64 (fn64 q) (G64.read p q))
  else if m = 0x06 then checked (.sfcmp (fn64 q) (G64.read p q))
  else if m = 0x26 ∧ fn64 q = 0 then
    if G64.read p q = { } then .ok .iretG64 else .error .badField
  else if m = 0x41 ∧ fn64 q = 1 then
    let f := G64.read p q
    if f = { p := f.p, n := f.n } then .ok .hexitG64 else .error .badField
  else match findRow m rowsI64, findRow m rowsSys with
    | some k, _ => checked (k (I64.read p q))
    | none, some k => checked (k (SysForm.read false p q 0))
    | none, none =>
      match findRow (m * 64 + (fn64 q).toNat) rowsG64 with
      | some k => checked (k (G64.read p q))
      | none => .error (missing m rowsG64)

/-- Decoding of a 96-bit instruction (R46, R65, R73). -/
def decode96 (p q r : Parcel) : Except Reject Instr :=
  let m := major64 p
  if 0xE0 ≤ m then .ok (.reservedOpcodeTrap)
  else if 0xD0 ≤ m then .ok .hint96
  else match findRow m rowsW96, findRow m rowsSys with
    | some k, _ => checked (k (W96.read p q r))
    | none, some k => checked (k (SysForm.read true p q r))
    | none, none =>
      if m = 0x02 ∨ m = 0x06 ∨ (findRow m rowsI64).isSome ∨ rowsG64.any (fun r => r.1 / 64 == m)
      then .error .noLongForm else .error .unassignedMajor

/-- The decoder: the parcels from an instruction's first one to the end of its slot (R52), in the order of R65. -/
def decode : List Parcel → Except Reject Instr
  | [] => .error .crossesSlot
  | p :: rest =>
    if parcelCount p = 1 then decode32 p
    else if parcelCount p = 2 then
      match rest with
      | q :: _ => decode64 p q
      | [] => .error .crossesSlot
    else
      match rest with
      | q :: r :: _ => decode96 p q r
      | _ => .error .crossesSlot

/-- Parcel 0 of a 64- or 96-bit instruction (R45). -/
def head64 (long : Bool) (major : BitVec 8) (p : BitVec 3) (n : Bool) (d a : BitVec 6) (da opt : BitVec 3) : Parcel :=
  ((((((1#1 ++ bitOf long) ++ major) ++ (p ++ bitOf n)) ++ d) ++ a) ++ (da ++ opt)).cast (by decide)

/-- The words of a general-format instruction (R45). -/
def G64.words (major : BitVec 8) (fn : BitVec 6) (f : G64) : List Parcel :=
  [head64 false major f.p f.n f.d f.a f.da f.opt,
   ((((f.b ++ f.db) ++ (f.c ++ f.dc)) ++ fn) ++ (f.ty ++ (f.md ++ bitOf f.sat))).cast (by decide)]

/-- Parcel 1 of an immediate-format instruction (R45). -/
def immParcel (imm : BitVec 24) (ty : BitVec 4) (md : BitVec 3) (sat : Bool) : Parcel :=
  (imm ++ (ty ++ (md ++ bitOf sat))).cast (by decide)

/-- The words of an immediate-format instruction (R45). -/
def I64.words (major : BitVec 8) (f : I64) : List Parcel :=
  [head64 false major f.p f.n f.d f.a f.da f.opt, immParcel f.imm f.ty f.md f.sat]

/-- The words of a 96-bit instruction; the assembler writes IMM24 as zero (R46). -/
def W96.words (major : BitVec 8) (f : W96) : List Parcel :=
  [head64 true major f.p f.n f.d f.a f.da f.opt, immParcel 0 f.ty f.md f.sat, f.lit]

/-- The words of SYSRD and SYSWR (R434). -/
def SysForm.words (major : BitVec 8) (f : SysForm) : List Parcel :=
  if f.wide then [head64 true major f.p f.n f.d f.a f.da f.opt, immParcel 0 f.ty f.md f.sat, f.imm]
  else [head64 false major f.p f.n f.d f.a f.da f.opt, immParcel (f.imm.setWidth 24) f.ty f.md f.sat]

/-- The parcel of a 32-bit register instruction (R44). -/
def A32.words (major : BitVec 7) (fn : BitVec 6) (f : A32) : List Parcel :=
  [((0#1 ++ major) ++ ((f.d ++ f.a) ++ (f.b ++ fn))).cast (by decide)]

/-- The parcel of a 32-bit immediate instruction (R44). -/
def I32.words (major : BitVec 7) (f : I32) : List Parcel :=
  [((0#1 ++ major) ++ ((f.d ++ f.a) ++ f.imm)).cast (by decide)]

/-- The parcel of a 32-bit transfer (R44). -/
def J32.words (major : BitVec 7) (f : J32) : List Parcel :=
  [((0#1 ++ major) ++ ((f.p ++ bitOf f.n) ++ f.off)).cast (by decide)]

/-- The encoder. A hint is written as number 1, the filler (R74), and the 64-bit HEXIT with
the guard (p0); a reserved opcode is written as the first 32-bit
reserved major; an event has no words. -/
def encode : Instr → List Parcel
  | .nop => [0]
  | .hint64 => [head64 false 0xD1 0 false 0 0 0 0, 0]
  | .hint96 => [head64 true 0xD1 0 false 0 0 0 0, 0, 0]
  | .hexitG64 => G64.words 0x41 1 { }
  | .reservedOpcodeTrap => [0x70000000#32]
  | .retA32 => [0x13000000#32]
  | .iretA32 => [0x13000001#32]
  | .tdoneA32 => [0x13000002#32]
  | .hexitA32 => [0x13000003#32]
  | .iretG64 => G64.words 0x26 0 { }
  | .addA32 f => f.words 0x01 0
  | .addI32 f => f.words 0x04
  | .addG64 f => f.words 0x00 0
  | .addI64 f => f.words 0x10
  | .addW96 f => f.words 0x10
  | .subA32 f => f.words 0x01 1
  | .subG64 f => f.words 0x00 1
  | .mulA32 f => f.words 0x01 2
  | .mulG64 f => f.words 0x00 2
  | .mulI64 f => f.words 0x18
  | .mulW96 f => f.words 0x18
  | .mulhA32 f => f.words 0x01 3
  | .mulhG64 f => f.words 0x00 3
  | .mulhzA32 f => f.words 0x01 4
  | .mulhzG64 f => f.words 0x00 4
  | .divA32 f => f.words 0x01 5
  | .divG64 f => f.words 0x00 5
  | .divzA32 f => f.words 0x01 6
  | .divzG64 f => f.words 0x00 6
  | .remA32 f => f.words 0x01 7
  | .remG64 f => f.words 0x00 7
  | .remzA32 f => f.words 0x01 8
  | .remzG64 f => f.words 0x00 8
  | .andA32 f => f.words 0x01 9
  | .andI32 f => f.words 0x05
  | .andG64 f => f.words 0x00 9
  | .andI64 f => f.words 0x11
  | .andW96 f => f.words 0x11
  | .orA32 f => f.words 0x01 10
  | .orG64 f => f.words 0x00 10
  | .orI64 f => f.words 0x12
  | .orW96 f => f.words 0x12
  | .xorA32 f => f.words 0x01 11
  | .xorG64 f => f.words 0x00 11
  | .xorI64 f => f.words 0x13
  | .xorW96 f => f.words 0x13
  | .andnA32 f => f.words 0x01 12
  | .andnG64 f => f.words 0x00 12
  | .shlA32 f => f.words 0x01 13
  | .shlI32 f => f.words 0x06
  | .shlG64 f => f.words 0x00 13
  | .shlI64 f => f.words 0x14
  | .shlW96 f => f.words 0x14
  | .shrA32 f => f.words 0x01 14
  | .shrI32 f => f.words 0x07
  | .shrG64 f => f.words 0x00 14
  | .shrI64 f => f.words 0x15
  | .shrW96 f => f.words 0x15
  | .sraA32 f => f.words 0x01 15
  | .sraI32 f => f.words 0x08
  | .sraG64 f => f.words 0x00 15
  | .sraI64 f => f.words 0x16
  | .sraW96 f => f.words 0x16
  | .rolA32 f => f.words 0x01 16
  | .rolG64 f => f.words 0x00 16
  | .rolI64 f => f.words 0x17
  | .rolW96 f => f.words 0x17
  | .minA32 f => f.words 0x01 17
  | .minG64 f => f.words 0x00 17
  | .minI64 f => f.words 0x19
  | .minW96 f => f.words 0x19
  | .maxA32 f => f.words 0x01 18
  | .maxG64 f => f.words 0x00 18
  | .maxI64 f => f.words 0x1A
  | .maxW96 f => f.words 0x1A
  | .minzA32 f => f.words 0x01 19
  | .minzG64 f => f.words 0x00 19
  | .minzI64 f => f.words 0x1B
  | .minzW96 f => f.words 0x1B
  | .maxzA32 f => f.words 0x01 20
  | .maxzG64 f => f.words 0x00 20
  | .maxzI64 f => f.words 0x1C
  | .maxzW96 f => f.words 0x1C
  | .clzA32 f => f.words 0x01 21
  | .clzG64 f => f.words 0x00 21
  | .ctzA32 f => f.words 0x01 22
  | .ctzG64 f => f.words 0x00 22
  | .popcA32 f => f.words 0x01 23
  | .popcG64 f => f.words 0x00 23
  | .absA32 f => f.words 0x01 24
  | .absG64 f => f.words 0x00 24
  | .movA32 f => f.words 0x01 25
  | .movG64 f => f.words 0x00 25
  | .sext f => f.words 0x00 26
  | .zext f => f.words 0x00 27
  | .movlI32 f => f.words 0x09
  | .movlI64 f => f.words 0x1D
  | .movlW96 f => f.words 0x1D
  | .leaI64 f => f.words 0x1E
  | .leaW96 f => f.words 0x1E
  | .bfx f => f.words 0x01 0
  | .bfi f => f.words 0x01 1
  | .cmpA32 cond f => f.words 0x03 cond
  | .cmpG64 cond f => f.words 0x02 cond
  | .sel f => f.words 0x03 0
  | .pandA32 f => f.words 0x02 0
  | .pandG64 f => f.words 0x04 0
  | .porA32 f => f.words 0x02 1
  | .porG64 f => f.words 0x04 1
  | .pxorA32 f => f.words 0x02 2
  | .pxorG64 f => f.words 0x04 2
  | .pnotA32 f => f.words 0x02 3
  | .pnotG64 f => f.words 0x04 3
  | .sfadd f => f.words 0x05 0
  | .sfmul f => f.words 0x05 1
  | .sfma f => f.words 0x05 2
  | .sfcmp cond f => f.words 0x06 cond
  | .sfcvt f => f.words 0x05 3
  | .tdef f => f.words 0x07 0
  | .tset f => f.words 0x07 1
  | .tget f => f.words 0x07 2
  | .beadq f => f.words 0x08 0
  | .brJ32 f => f.words 0x10
  | .brI64 f => f.words 0x20
  | .brW96 f => f.words 0x20
  | .brcJ32 f => f.words 0x11
  | .brcI64 f => f.words 0x21
  | .brcW96 f => f.words 0x21
  | .callJ32 f => f.words 0x12
  | .callI64 f => f.words 0x22
  | .callW96 f => f.words 0x22
  | .bri f => f.words 0x23 0
  | .calli f => f.words 0x23 1
  | .retG64 f => f.words 0x23 2
  | .loopI64 f => f.words 0x24
  | .loopW96 f => f.words 0x24
  | .loopoI64 f => f.words 0x25
  | .loopoW96 f => f.words 0x25
  | .breakc f => f.words 0x26 1
  | .ldI32 f => f.words 0x0A
  | .ldI64 f => f.words 0x30
  | .ldW96 f => f.words 0x30
  | .stI32 f => f.words 0x0B
  | .stI64 f => f.words 0x31
  | .stW96 f => f.words 0x31
  | .ldx f => f.words 0x32 0
  | .stx f => f.words 0x32 1
  | .stntI64 f => f.words 0x33
  | .stntW96 f => f.words 0x33
  | .ldacqI64 f => f.words 0x34
  | .ldacqW96 f => f.words 0x34
  | .strelI64 f => f.words 0x35
  | .strelW96 f => f.words 0x35
  | .ldvI64 f => f.words 0xC0
  | .ldvW96 f => f.words 0xC0
  | .vred4 f => f.words 0xC1 0
  | .hstart f => f.words 0x40
  | .hwait f => f.words 0x41 0
  | .launch f => f.words 0x41 2
  | .tspawn f => f.words 0x41 3
  | .tspawnw f => f.words 0x41 4
  | .tjoin f => f.words 0x41 5
  | .tdoneG64 f => f.words 0x41 6
  | .tcancelScope f => f.words 0x41 7
  | .tcancelTask f => f.words 0x41 7
  | .wdq f => f.words 0x41 8
  | .fsopen f => f.words 0x41 9
  | .fsclose f => f.words 0x41 10
  | .fswait f => f.words 0x41 11
  | .pfh f => f.words 0x50 0
  | .place f => f.words 0x50 1
  | .tierq f => f.words 0x50 2
  | .cpy f => f.words 0x51 0
  | .wpwait f => f.words 0x51 1
  | .wprd f => f.words 0x51 2
  | .gather f => f.words 0x51 3
  | .scatter f => f.words 0x51 4
  | .evwait f => f.words 0x51 5
  | .tierin f => f.words 0x51 6
  | .fence f => f.words 0x52 0
  | .xfence f => f.words 0x52 1
  | .ntdrain f => f.words 0x52 2
  | .aadd f => f.words 0x60 0
  | .afadd f => f.words 0x60 1
  | .amin f => f.words 0x60 2
  | .amax f => f.words 0x60 3
  | .aand f => f.words 0x60 4
  | .aor f => f.words 0x60 5
  | .axor f => f.words 0x60 6
  | .axchg f => f.words 0x60 7
  | .acas f => f.words 0x60 8
  | .barmJoin f => f.words 0x61 0
  | .barmLeave f => f.words 0x61 0
  | .bwait f => f.words 0x61 1
  | .bsig f => f.words 0x61 2
  | .bqry f => f.words 0x61 3
  | .xopen f => f.words 0x62 0
  | .xsend f => f.words 0x62 1
  | .xrecv f => f.words 0x62 2
  | .xclose f => f.words 0x62 3
  | .vadd f => f.words 0x70 0
  | .vsub f => f.words 0x70 1
  | .vmul f => f.words 0x70 2
  | .vfma f => f.words 0x70 3
  | .vmin f => f.words 0x70 4
  | .vmax f => f.words 0x70 5
  | .vabs f => f.words 0x70 6
  | .vneg f => f.words 0x70 7
  | .vcpy f => f.words 0x70 8
  | .vcvt f => f.words 0x70 9
  | .vsrnd f => f.words 0x70 10
  | .vrcp f => f.words 0x70 11
  | .vrsq f => f.words 0x70 12
  | .vsqrt f => f.words 0x70 13
  | .vexp2 f => f.words 0x70 14
  | .vlog2 f => f.words 0x70 15
  | .vpwl f => f.words 0x70 16
  | .vcmp f => f.words 0x70 17
  | .vsel f => f.words 0x70 18
  | .vand f => f.words 0x70 19
  | .vor f => f.words 0x70 20
  | .vxor f => f.words 0x70 21
  | .vshl f => f.words 0x70 22
  | .vshr f => f.words 0x70 23
  | .vclamp f => f.words 0x70 24
  | .vreds f => f.words 0x70 25
  | .vredm f => f.words 0x70 26
  | .vscan f => f.words 0x70 27
  | .vbcast f => f.words 0x70 28
  | .viota f => f.words 0x70 29
  | .vdot f => f.words 0x70 30
  | .vscale f => f.words 0x70 31
  | .mfill f => f.words 0x90 0
  | .mpat f => f.words 0x90 1
  | .mzero f => f.words 0x90 2
  | .mma f => f.words 0x90 3
  | .mdrain f => f.words 0x90 4
  | .mloadb f => f.words 0x90 5
  | .mscl f => f.words 0x90 6
  | .mwait f => f.words 0x90 7
  | .scout f => f.words 0xA0 0
  | .ksel f => f.words 0xA0 1
  | .kand f => f.words 0xA0 2
  | .kor f => f.words 0xA0 3
  | .knot f => f.words 0xA0 4
  | .kpop f => f.words 0xA0 5
  | .mmak f => f.words 0xA0 6
  | .trapI64 f => f.words 0xB3
  | .trapW96 f => f.words 0xB3
  | .bkpt f => f.words 0xB0 1
  | .eret f => f.words 0xB0 0
  | .halt f => f.words 0xB0 2
  | .sysrd f => f.words 0xB1
  | .syswr f => f.words 0xB2
  | .asyncFaultTaken => []
  | .taskRetire => []
  | .launchdoor => []
  | .dispatch => []
  | .phasedDispatch => []
  | .arrival => []
  | .withdrawal => []
  | .memberLeave => []
  | .pagedone => []
  | .pageInComplete => []
  | .pageOutStart => []
  | .pageOutCopyDone => []
  | .migrationRequest => []
  | .migrationDrained => []
  | .migrationStreamDone => []
  | .migrationShootdownDone => []
  | .settleEnd => []
  | .forwardedRequest => []
  | .redirectNotice => []
  | .homeAccess => []
  | .atomicEngineRequest => []
  | .regionNotice => []
  | .recordClear => []
  | .shootdown => []
  | .shootdownComplete => []
  | .preempt => []
  | .preemptSaveComplete => []
  | .mvuEntryStart => []
  | .arbiterDecision => []
  | .mmaDecisionPoint => []
  | .chunkPromotion => []
  | .mvuEntryRetire => []
  | .copyStart => []
  | .copyElementDelivered => []
  | .indirectChunk => []
  | .iterationStart => []
  | .iterationRetire => []
  | .barrierRelease => []
  | .xopenArrive => []
  | .xsendTransmit => []
  | .exchangeArrival => []
  | .xrecvDeliver => []
  | .xcloseComplete => []
  | .windowEndDiscard => []
  | .sampleTick => []
  | .scrub => []
  | .eccError => []
  | .healthUpdate => []
  | .powerStepDown => []
  | .powerStepUp => []
  | .powerGood => []
  | .romImageCheck => []
  | .firmwareBringUp => []
  | .moduleReset => []
  | .attest => []
  | .attestComplete => []
  | .scopefree => []
  | .recfree => []
  | .queueEnable => []
  | .queueDisable => []
  | .partitionEnable => []
  | .partitionDisable => []
  | .partitionDrained => []
  | .domainValidSet => []
  | .domainValidClear => []
  | .sampleEnable => []
  | .rpheadWrite => []
  | .errheadWrite => []
  | .modidWrite => []
  | .registerWrite => []
  | .remoteRequest => []
  | .flitResend => []
  | .linkFail => []
  | .dmaRequest => []
  | .cxlPortFail => []
  | .thaquetTranslation => []
  | .bypass => []
  | .idcode => []
  | .samplePreload => []
  | .extest => []
  | .bootstat => []
  | .powerOff => []
  | .dynamicCapacity => []
  | .epochEnd => []

/-- The length of an instruction in parcels (R43). -/
def Instr.parcels (i : Instr) : Nat := (encode i).length

/-- The parcels of an instruction whose bits are `w`, numbered as the opcode table numbers them: parcel 0 is bits 31 to
0 (R43). Parcels beyond the given bits are zero, up to the longest instruction. -/
def tableParcels (w : Nat) : List Parcel :=
  [BitVec.ofNat 32 w, BitVec.ofNat 32 (w / 2 ^ 32), BitVec.ofNat 32 (w / 2 ^ 64)]

/-- The instruction the decoder reads from a table word of `nbits` bits; bits above `nbits` are zero. -/
def decodeTableWord (nbits w : Nat) : Option Instr :=
  match decode (tableParcels (w % 2 ^ nbits)) with
  | .ok i => some i
  | .error _ => none

end Sys2Proof
end

