-- ==== Sys2Proof/Config.lean ====
section
/-! DEFINITION. The fixed numbers of the part, and the free values: constants with no body, for the values that the manual
leaves open. Nothing can be proved of a free value beyond its type. -/

namespace Sys2Proof.Config

/-- Cores of a module (R2). -/
def cores : Nat := 768
/-- Clusters of a module (R2). -/
def clusters : Nat := 48
/-- Bytes of local memory (R14). -/
def localBytes : Nat := 0xC0000
/-- Bytes of cluster memory (R130). -/
def clusterBytes : Nat := 0x800000
/-- Bytes of a helper instruction store (R212). -/
def helperStoreBytes : Nat := 0x10000
/-- Entries of a dispatch queue (R293). -/
def dispatchEntries : Nat := 16
/-- Entries of an indirect engine's request queue (R354). -/
def indirectEntries : Nat := 32
/-- Entries of a TLB (R244). -/
def tlbEntries : Nat := 256
/-- Entries of a die's walk cache (R245). -/
def walkEntries : Nat := 512
/-- Regions of 2 MiB in a module's HBM of 576 GiB, each with a byte of the home map (R4, R448). -/
def regions : Nat := 294912
/-- Bytes of record space (R5, R243): 72 GiB hold this many blocks of 256 KiB. -/
def recordBlocks : Nat := 294912
/-- Cycles before a region tag may be assigned again (R371). -/
def tagReuse : Nat := 2 ^ 26

/-- Cycles that pass in step number `n`; no step's time is fixed by the model (DESIGN CHOICE, log 6). -/
opaque stepCycles : Nat → Nat
/-- The entry that gives way in a full TLB or walk cache, modulo the number of entries (DESIGN CHOICE, log 7). -/
opaque tlbVictim : Nat → Nat
/-- CHECK of a Locket, over its contents (DESIGN CHOICE, log 8). -/
opaque locketCheck : List (BitVec 64) → BitVec 64
/-- Mean power of the millisecond that began at a cycle, in watts (DESIGN CHOICE, log 9). -/
opaque meanPower : Nat → BitVec 32
/-- Worst timing-margin monitor of a die, and predicted life (DESIGN CHOICE, log 9). -/
opaque wear : Nat → BitVec 16
/-- SHA-512 of a text (DESIGN CHOICE, log 10). -/
opaque sha512 : List (BitVec 8) → BitVec 512
/-- Whether a firmware image's signature verifies under the fused key (DESIGN CHOICE, log 10). -/
opaque signatureOk : List (BitVec 8) → Bool
/-- A signature with the Signet key: r, then s (DESIGN CHOICE, log 10). -/
opaque sign : BitVec 512 → BitVec 1056
/-- SRSEED of a helper at its start (DESIGN CHOICE, log 11). -/
opaque helperSeed : Nat → BitVec 64
/-- The value that BOOTSTAT reads in a boot state, numbered in the order of R458 (DESIGN CHOICE, log 10). -/
opaque bootCode : Nat → BitVec 32
/-- A counter value of a sample record (DESIGN CHOICE, log 6). -/
opaque counterValue : Nat → BitVec 32
/-- The value that replaces an unstated one (DESIGN CHOICE, log 1). -/
opaque freeWord : Nat → BitVec 64
/-- Whether a partition owns an address on another module, by the counter of free values (DESIGN CHOICE, log 33). -/
opaque remoteOwned : Nat → Nat → Nat → Bool
/-- The setting of the length of an epoch, as a power of two cycles (DESIGN CHOICE, log 12). -/
opaque epochSetting : Nat
/-- The length that holds: a setting outside 16 to 24 is clamped (R258). -/
def epochLog : Nat := max 16 (min 24 epochSetting)
/-- Operand messages fetched ahead when a core is pre-empted, modulo 65 (DESIGN CHOICE, log 21). -/
opaque fetchedAhead : Nat → Nat
/-- A choice that firmware policy makes (DESIGN CHOICE, log 12). -/
opaque policy : Nat → Bool

end Sys2Proof.Config
end

