-- ==== Sys2Proof/Machine/State.lean ====
section
/-! DEFINITION. The state of one module, as plain data, and the state after reset. One core stands in focus, its parts
flat in the state; the others stand in `others`, where an unlisted core is as after reset. -/

namespace Sys2Proof.Machine

/-- Bytes by address, addresses strictly rising, no entry equal to what an unlisted address reads as. -/
abbrev Mem := List Host.Cell
/-- Data by number, numbers strictly rising; an unlisted number has the table's default. (DESIGN CHOICE, log 3.) -/
abbrev Tbl (α : Type) := List (Nat × α)

/-- The spaces an access can reach (R118, R128). -/
inductive Space where
  | localMem | clusterMem | globalMem
  deriving DecidableEq, Repr

/-- Access paths, numbered as PATH of a page request numbers them (R250, R367). -/
inductive Path where
  | ls | cp | mx | ix | at | fb | fetch | queueEngine
  deriving DecidableEq, Repr

/-- Operands of an act of an outside party or of a unit: each event says which it uses. (DESIGN CHOICE, log 33.) -/
structure Cmd where
  core : Nat := 0
  part : Nat := 0
  unit : Nat := 0
  addr : Nat := 0
  value : Word := 0
  tag : Word := 0
  flag : Bool := false
  bytes : List Byte := []
  /-- The leaf of the page that a request of another module names, its address then being an offset, and the page's virtual address
  (R250, R255). -/
  leaf : Option Nat := none
  va : Word := 0
  deriving DecidableEq, Repr

/-- What a context waits for while it holds its core (R29). (DESIGN CHOICE, log 17.) -/
inductive Wait where
  /-- A condition; the instruction has issued, issues again and sends nothing twice. -/
  | condition
  /-- The instruction has not issued: an operand of it is unfinished work (R131, R334). -/
  | operand
  /-- The instruction has not issued: the dispatch queue is full (R293). -/
  | dispatchFull
  /-- The instruction has not issued: the queue of another engine is full (R344, R354). -/
  | room
  /-- The instruction has not issued: its park, or its own save, waits until the engines have reached their stopping points
  (R426). -/
  | drain
  /-- Its access waits in order of arrival: 2 * line for a line of a hot-line store, 2 * leaf + 1 for a page that moves; the
  cycle of its arrival (R253, R384). -/
  | turn (key age : Nat)
  /-- BWAIT waits at this barrier for the phase to change (R393). -/
  | barrier (id : Nat) (phase : BitVec 16)
  /-- XOPEN has arrived (R406). -/
  | exchange (phase : BitVec 16)
  /-- The domain that the context waits at is no longer valid (R390). -/
  | domainLost
  /-- The phase that BWAIT waited for had ended when its domain's state was lost: BWAIT returns with the next phase (R396). -/
  | released (phase : BitVec 16)
  /-- A page request of the partition, without parking (R250). -/
  | page (part : Nat) (seq : BitVec 32)
  /-- A page-in of the leaf at this address, without parking (R255). -/
  | tier (leaf : Nat)
  /-- XSEND has passed its checks and read its operands: slot, destination and value (R407). -/
  | send (slot dest : Nat) (value : Word)
  /-- XRECV waits for the end of a slot (R407). -/
  | recv (slot : Nat)
  /-- TDONE has issued and drains (R235). -/
  | done
  /-- The event line that EVWAIT waits for has been signalled, and the signal was its own (R352). -/
  | signalled
  deriving DecidableEq, Repr

/-- A byte of a store that is not yet performed: of a held store of a loop (R278) or an STNT (R135). -/
structure HeldByte where
  space : Space
  addr : Nat
  byte : Byte
  nt : Bool := false
  /-- Its place in the order of the context's stores and engine work. -/
  order : Nat := 0
  /-- The virtual address, where a page table gave the physical one (R246). -/
  va : Option Nat := none
  deriving DecidableEq, Repr

/-- The state of one control or helper context (R14, R15). -/
structure Ctx where
  /-- 15 for the control context, 0 to 9 for a helper (R55). -/
  slot : Nat := 15
  /-- A task runs in the control context, or the helper is live. -/
  live : Bool := false
  pc : Word := 0
  regs : Vector Word 32 := Vector.replicate 32 0
  /-- p0 to p7; bit 0 is never read (R42). -/
  preds : BitVec 8 := 0
  retired : Word := 0
  region : Word := 0
  /-- The place of its region's start in the order of the starts of all regions (the model's own). -/
  regionAt : Nat := 0
  /-- Tag of the open region, once it has one (R371). -/
  tag : Option Nat := none
  /-- The region has made its first access to a checked page (R371). -/
  tagAsked : Bool := false
  fpflags : Word := 0
  srseed : Word := 0
  hold : Option Wait := none
  /-- STNT bytes not yet performed, oldest first (R135). -/
  nt : List HeldByte := []
  /-- The parcels of the instruction last fetched: the model's own register. -/
  ir : Vector Parcel 3 := Vector.replicate 3 0
  /-- PC and number of the HSTART that started a helper (R17). -/
  startPc : Word := 0
  startSeq : BitVec 32 := 0
  /-- PC is a task's code pointer, whose target checks are still to be made (R61). -/
  entry : Bool := false
  /-- Set by ERET: the next instruction matches no breakpoint (R444). -/
  skipBp : Bool := false
  deriving DecidableEq, Repr

/-- A bead, with the mark of a bead that a level's end set to 0 (R272, R291). -/
structure Bead where
  value : Word := 0
  cleared : Bool := false
  deriving DecidableEq, Repr

/-- A strand: its eight beads, youngest first, and the bead of the iteration in progress (R263, R268). -/
structure Strand where
  hist : Vector Bead 8 := Vector.replicate 8 {}
  cur : Option Word := none
  deriving DecidableEq, Repr

/-- A heap window as an engine-bound instruction captured it (R238). -/
structure HeapWin where
  base : Word := 0
  lim : Word := 0
  off : Word := 0
  deriving DecidableEq, Repr

/-- Who makes an access: identity (R372), partition, window, region tag and the core the spaces belong to. -/
structure Agent where
  ident : Nat := 0
  part : Nat := 0
  core : Nat := 0
  win : HeapWin := {}
  /-- The region in which the instruction issued, by the place of its start, and its tag, once it has one (R371). -/
  regionAt : Nat := 0
  tag : Option Nat := none
  deriving DecidableEq, Repr

/-- A CPY of a channel with what it captured at issue (R344). -/
structure Copy where
  pc : Word
  seq : BitVec 32
  dstId : Nat
  dst : Word512
  src : Word512
  links : List Word512
  displaced : Bool
  /-- Marked .near (R49). -/
  near : Bool := false
  agent : Agent
  started : Bool := false
  next : Nat := 0
  /-- Pieces of the element, or of the .bz8 segment, that are delivered already (R345). -/
  part : Nat := 0
  /-- Released from a loop body (R280). -/
  fromLoop : Bool := false
  /-- Elements written so far are all zero; some write was dropped (R123). -/
  allZero : Bool := true
  dropped : Bool := false
  /-- Its place in the order of the context's stores and engine work. -/
  order : Nat := 0
  deriving DecidableEq, Repr

/-- A copy channel (R340, R350). -/
structure Chan where
  wp : Word := 0
  queue : List Copy := []
  tmiss : Bool := false
  held : Bool := false
  pfhold : Bool := false
  stopped : Bool := false
  /-- The page request or the leaf the channel holds on. -/
  waiting : Option Wait := none
  deriving DecidableEq, Repr

/-- A TIERIN whose pages are not all resident (R353), with its PC and number. -/
structure TierWait where
  pc : Word
  seq : BitVec 32
  line : Nat
  leaves : List Nat
  deriving DecidableEq, Repr

/-- Where an iteration of a loop level stands. -/
inductive LoopPhase where
  | starting | running | complete
  deriving DecidableEq, Repr

/-- One loop level (R264 to R273). -/
structure LoopLevel where
  bodyPc : Word
  iretPc : Word
  exitPc : Word
  count : Nat
  iter : Nat := 0
  depth : Nat
  reach : Nat
  set : BitVec 32
  entryPreds : BitVec 8
  lastPreds : BitVec 8
  retiredAny : Bool := false
  broke : Bool := false
  phase : LoopPhase := .starting
  held : List HeldByte := []
  /-- RETIRED at the start of the iteration in progress, advanced by what counts apart from it: retired iterations of the inner
  level, and a handler's instructions (R277). -/
  begun : Word := 0
  /-- The strands as they stood at the level's entry, kept once a trap has suspended it (R269). -/
  entry : Option (Vector Strand 32) := none
  deriving DecidableEq, Repr

/-- The repetition buffer and the loop state: `inner` is the single or inner level, `outer` the outer one. -/
structure Loop where
  /-- Captured text: the parcels of the body by parcel index (R264). -/
  text : Tbl Parcel := []
  outer : Option LoopLevel := none
  inner : Option LoopLevel := none
  /-- A trap has suspended the loop (R285). -/
  susp : Bool := false
  /-- OITER, IITER and INNER of the last trap taken in a loop (R289). -/
  trapOuter : BitVec 24 := 0
  trapInner : BitVec 24 := 0
  trapInInner : Bool := false
  /-- RETIRED at that trap (R277). -/
  trapAt : Word := 0
  deriving DecidableEq, Repr

/-- Where a dispatch-queue entry stands (R293, R294). -/
inductive EntryStage where
  | waiting | started | finished
  deriving DecidableEq, Repr

/-- What a finished entry does at its retirement (R295). -/
structure EntryResult where
  flags : Word := 0
  /-- Zero summaries: tensor, every in-shape element written, all written are zero (R123). -/
  zs : List (Nat × Bool × Bool) := []
  /-- Cause and address of the fault it reports. -/
  fault : Option (Nat × Word) := none
  /-- A scalar or bead it writes at retirement (R334). -/
  scalar : Option (BitVec 6 × Word) := none
  deriving DecidableEq, Repr

/-- An operand message: its tag, that of its core apart, and up to 256 bytes of local memory with their addresses (R299). -/
structure Message where
  seq : BitVec 32
  chunk : Nat
  step : Nat
  bytes : List (Nat × Byte)
  deriving DecidableEq, Repr

/-- A dispatch-queue entry (R293). -/
structure Entry where
  instr : Instr
  guard : Bool
  pc : Word
  seq : BitVec 32
  /-- Captured tensor entries by identifier (R125). -/
  tens : Tbl Word512 := []
  /-- Scalar and bead operands read at issue. -/
  x : Word := 0
  y : Word := 0
  stage : EntryStage := .waiting
  /-- Chunk that the array does next, and the chunks left to do (R301). -/
  chunk : Nat := 0
  decided : Bool := false
  todo : List Nat := []
  /-- Cycles of the resource that a started entry still needs (R296). -/
  left : Nat := 0
  /-- Local bytes that the MVU holds: the tile scales, read at the start (R316), and the operands that earlier quanta have taken
  in, one list for each quantum: the first half of a 16-bit chunk (R297), the passes or rows of a started entry (R299). -/
  tiles : List (Nat × Byte) := []
  taken : List (List (Nat × Byte)) := []
  /-- A zero summary of either operand, and the mask, as sampled at the decision point (R318, R339). -/
  zs : Bool := false
  mask : MaskWord := 0
  result : EntryResult := {}
  /-- Released from a loop body (R280), and its place in the order of stores and engine work. -/
  fromLoop : Bool := false
  order : Nat := 0
  /-- Its iteration has been squashed: the bead that a KPOP names is gone (R282, R287). -/
  squashed : Bool := false
  /-- The generator as its first stochastic word finds it, once its words are reserved in program order (R98). -/
  seed : Option Word := none
  deriving DecidableEq, Repr

/-- What an engine-bound instruction of a loop body sends when it is released (R279): an entry of the dispatch queue, a CPY of a
channel, a TIERIN (PC, marked .near, line, destination, address, length), or nothing, its guard not holding. -/
inductive HeldWork where
  | entry (e : Entry)
  | copy (chan : Nat) (x : Copy)
  | tierin (agent : Agent) (pc : Word) (near : Bool) (line : Nat) (d : BitVec 6) (addr len : Word)
  | skipped
  deriving DecidableEq, Repr

/-- An instruction of a loop body that has issued and is not yet released (R279): whether it stands in the outer part of a
LOOPO body, and whether its iteration has retired. -/
structure Unreleased where
  work : HeldWork
  outer : Bool
  retired : Bool := false
  deriving DecidableEq, Repr

/-- An asynchronous fault not yet taken: source order, cause, SUB, launching PC and number, record (R418, R421). -/
structure Pending where
  source : Nat
  cause : Nat
  sub : Nat
  addr : Word
  seq : BitVec 32
  record : Word512
  /-- Of a VRED4, which restarts after ERET (R77). -/
  restart : Bool := false
  deriving DecidableEq, Repr

/-- An exchange window (R401 to R411). -/
structure Window where
  domain : Nat
  phase : BitVec 16
  lead : Nat
  slen : Nat
  nslot : Nat
  t0 : Nat := 0
  opened : Bool := false
  /-- The schedule: one 32-bit entry a slot. -/
  sched : List (BitVec 32)
  /-- Stored values by slot: an entry is an arrival bit set. -/
  store : Tbl Word := []
  sent : List Nat := []
  unexp : Nat := 0
  deriving DecidableEq, Repr

/-- A footprint: four ranges (R223). -/
structure Footprint where
  r0 : BitVec 32 := 0
  r1 : BitVec 32 := 0
  w0 : BitVec 32 := 0
  w1 : BitVec 32 := 0
  deriving DecidableEq, Repr

/-- The task of a context (R19, R211). -/
structure Task where
  /-- The model's name of a task: its membership and its place in the dependence table go by it. -/
  id : Nat := 0
  /-- Tag, once it holds a slot (R217). -/
  tag : Option Word := none
  queue : Nat := 0
  part : Nat := 0
  scope : Nat := 0
  prio : Nat := 0
  regsAddr : Word := 0
  tensAddr : Word := 0
  helpAddr : Word := 0
  hlines : Nat := 0
  wdq : BitVec 3 := 0
  phased : Bool := false
  /-- Entry of the dependence table, if its footprint is not empty. -/
  dep : Option Nat := none
  deriving DecidableEq, Repr

/-- A request of an indirect engine (R354, R355). -/
structure IxReq where
  core : Nat
  slot : Nat
  scatter : Bool
  mode : BitVec 3
  sat : Bool
  line : Nat
  pc : Word
  seq : BitVec 32
  dstId : Nat
  list : Word512
  src : Word512
  dst : Word512
  agent : Agent
  taskId : Nat
  chunk : Nat := 0
  /-- What the chunk's reads so far have returned, in their order (R356). -/
  got : List Nat := []
  flags : Word := 0
  allZero : Bool := true
  dropped : Bool := false
  /-- Marked .near (R49). -/
  near : Bool := false
  waiting : Option Wait := none
  deriving DecidableEq, Repr

/-- The task part of a core: everything of R14 that is not a context's own. The Locket saves it (R431). -/
structure Kern where
  task : Option Task := none
  strands : Vector Strand 32 := Vector.replicate 32 {}
  masks : Vector MaskWord 16 := Vector.replicate 16 0
  tens : Vector Word512 64 := Vector.replicate 64 0
  chans : Vector Chan 8 := Vector.replicate 8 {}
  events : BitVec 16 := 0
  tierins : List TierWait := []
  /-- A fault of the indirect engine is not yet reported (R419). -/
  ixStopped : Bool := false
  /-- Requests of the core to its indirect engine, while the task is saved (R357). -/
  ixSaved : List IxReq := []
  loop : Loop := {}
  localMem : Mem := []
  /-- Crown quarter: byte (row, column) at 256 * row + column (R302). -/
  crown : Mem := []
  /-- Bezel quarter: FP32 element (row, column) at 256 * row + column; +0 where unlisted (R304). -/
  bezel : Tbl (BitVec 32) := []
  engseq : BitVec 32 := 0
  heapbase : Word := 0
  heaplim : Word := 0
  heapoff : Word := 0
  trapcause : Word := 0
  trapaddr : Word := 0
  trapseq : Word := 0
  trappc : Word := 0
  trapvec : Word := 0
  /-- End status of each helper slot (R234). -/
  helperEnd : Vector (BitVec 2) 10 := Vector.replicate 10 0
  mvuq : List Entry := []
  /-- Issued and not yet released, oldest first (R279). -/
  unreleased : List Unreleased := []
  /-- The spill ring (R300). -/
  ring : List Message := []
  pending : List Pending := []
  window : Option Window := none
  /-- The other live contexts of the core (R15). -/
  peers : List Ctx := []
  deriving DecidableEq, Repr

/-- A cached translation (R244): page base, page size, the leaf, its address; whether its granules are checked, and the
regions of a large page whose blocks have been asked for, and refused, since it was cached (R243). -/
structure TlbEntry where
  base : Nat
  size : Nat
  leaf : Word
  leafAt : Nat
  checked : Bool
  part : Nat
  asked : List Nat := []
  refused : List Nat := []
  deriving DecidableEq, Repr

/-- A translation that a core of the partition has cached since the last shoot-down of its range: the frames that an entry has
named, which R82 speaks of. -/
structure Mapping where
  part : Nat
  base : Nat
  size : Nat
  frame : Nat
  deriving DecidableEq, Repr

/-- What has learned of an access, so that the access happens before what it does next or what learns from it (R361). -/
inductive Knower where
  /-- A context, by its task and slot. -/
  | ctx (task slot : Nat)
  /-- A helper that has ended, until its parent's HWAIT. -/
  | ended (task slot : Nat)
  /-- A byte that holds what a release has written: its space, its address, the releasing core and the scope. -/
  | byte (space : Space) (addr core : Nat) (scope : BitVec 3)
  /-- A task that is not yet dispatched. -/
  | task (id : Nat)
  /-- An entry of the dependence table. -/
  | dep (id : Nat)
  /-- A finish scope of a partition. -/
  | scope (part i : Nat)
  /-- The arrivals of a phase at a barrier. -/
  | barrier (id : Nat) (phase : BitVec 16)
  deriving DecidableEq, Repr

/-- A recorded access of a parent's open region, from before an HSTART, which happens before the helper's accesses (R361), with one
that has learned of it, and the places, among the starts of regions, at which it has and at which it ended. -/
structure Earlier where
  parent : Nat
  granule : Nat
  write : Bool
  by' : Knower
  since : Nat := 0
  until' : Option Nat := none
  deriving DecidableEq, Repr

/-- The issue group in progress (R58): the instruction fetched last, RETIRED before it, the one that follows it in the group if one
does, and the text of their line (R83). (DESIGN CHOICE, log 7.) -/
structure Group where
  at' : Word
  count : Word
  next : Option Word
  text : List Parcel
  deriving DecidableEq, Repr

/-- An instruction-cache line: virtual line address, physical address, 16 words (R50). -/
structure Line where
  va : Nat
  pa : Nat
  text : List Parcel
  locked : Bool := false
  deriving DecidableEq, Repr

/-- A pre-emption in progress (R425). -/
structure Preempting where
  part : Nat
  deriving DecidableEq, Repr

/-- Cycles of the sample interval in which a condition of R439 has held on a core: a group issued; a task ran; an operand was
waited for; a loop ran; a wait of R29; a full dispatch queue; a helper pipe issued; a save. -/
structure CoreCounts where
  issue : Nat := 0
  busy : Nat := 0
  operand : Nat := 0
  loop : Nat := 0
  hold : Nat := 0
  dqfull : Nat := 0
  helper : Nat := 0
  save : Nat := 0
  deriving DecidableEq, Repr

/-- The hardware part of a core. -/
structure CoreHw where
  helperText : Mem := []
  helperAddr : Word := 0
  helperLines : Nat := 0
  tlb : List TlbEntry := []
  icache : List Line := []
  serveq : Word := 0
  tracectl : Word := 0
  trtail : Word := 0
  trhead : Word := 0
  traceDropped : Bool := false
  bppc : Vector Word 4 := Vector.replicate 4 0
  bpctl : Vector Word 4 := Vector.replicate 4 0
  /-- The slot that issued last on each helper pipe (R16). -/
  pipe0 : Nat := 8
  pipe1 : Nat := 9
  /-- The control context, or a helper, has issued since a cycle last passed (R439). -/
  issued : Bool := false
  helped : Bool := false
  group : Option Group := none
  counts : CoreCounts := {}
  /-- Reserved for the phased record of this queue and slot (R398). -/
  reservation : Option (Nat × Nat) := none
  preempting : Option Preempting := none
  /-- Last tag that a context of the core assigned, by slot; and the CYCLE at which the region that last bore a tag ended,
  by 2048 * slot + tag (R371). -/
  lastTags : Tbl Nat := []
  tagEnds : Tbl Nat := []
  /-- The kind of engine of the core that looks first for something to do (the model's own). -/
  engineTurn : Nat := 0
  deriving DecidableEq, Repr

/-- A core out of focus. -/
structure CoreState where
  ctx : Ctx := {}
  k : Kern := {}
  hw : CoreHw := {}
  deriving DecidableEq, Repr

/-- Where a record slot's task stands (R22). -/
inductive RecState where
  | waiting | ready | running | parked
  deriving DecidableEq, Repr

/-- An occupied record slot (R211, R216). -/
structure Rec where
  img : Word512
  state : RecState
  regsAddr : Word := 0
  tensAddr : Word := 0
  helpAddr : Word := 0
  hlines : Nat := 0
  /-- Launch packet of a KIND 1 record. -/
  packet : BitVec 1024 := 0
  /-- Tag of the consumer it is linked to, or 0 (R227). -/
  cons : Word := 0
  readyAt : Nat := 0
  /-- Rank of its last placement at the head, 0 for none: the greater, the more recent. -/
  headRank : Nat := 0
  locket : Option Nat := none
  taskId : Nat := 0
  dep : Option Nat := none
  wdq : BitVec 3 := 0
  /-- Core that runs it, or the only core that may restore it (R428). -/
  core : Option Nat := none
  coreBound : Bool := false
  /-- The leaf whose page-in a task parked on a tier miss waits for (R255). -/
  onLeaf : Option Nat := none
  deriving DecidableEq, Repr

/-- A hardware queue (R213, R217). -/
structure Queue where
  ctl : Word := 0x3000000000000
  slots : Tbl Rec := []
  gens : Tbl (BitVec 32) := []
  deriving DecidableEq, Repr

/-- State of a finish-scope entry (R231). -/
inductive ScopeState where
  | free | opened | closed | complete
  deriving DecidableEq, Repr

/-- A finish-scope entry (R26, R231, R232). -/
structure Scope where
  state : ScopeState := .free
  kind : Nat := 0
  parent : Nat := 0
  count : Nat := 0
  cancelled : Bool := false
  faulted : Bool := false
  first : Option Word512 := none
  nfault : Nat := 0
  desc : Option Word512 := none
  deriving DecidableEq, Repr

/-- A version of a tile (R224); one without a buffer stands at the address that the map gives. -/
structure Version where
  graph : Nat
  handle : Nat
  num : Nat
  addr : Word
  buffer : Option Nat
  writer : Option Nat
  dead : Bool := false
  /-- The place of its writer in the order of pushes, and the version whose place in memory it has: its own number, or that of
  the version that was current when the pool was exhausted. -/
  place : Nat := 0
  root : Nat := 0
  deriving DecidableEq, Repr

/-- An entry of a dependence table (R224, R225). -/
structure Dep where
  id : Nat
  engine : Nat
  graph : Nat
  ranges : Nat
  /-- A launch record stands for the indices it has not dispatched; an index is an entry of its own. -/
  launch : Bool
  index : Bool := false
  live : Bool := true
  /-- Its place in the order of pushes: an index has its launch record's. -/
  place : Nat := 0
  /-- Of a launch record: its ranges, its next index, its count and FSTEP. -/
  foot : Footprint := {}
  next : Nat := 0
  count : Nat := 1
  step : Nat := 0
  /-- Handles with the versions that are bound. -/
  reads : List (Nat × Nat) := []
  writes : List (Nat × Nat) := []
  /-- Set when a predecessor ended without retiring (R224, R235). -/
  failed : Bool := false
  retiredOk : Bool := false
  /-- A page-out that reads a version (R226). -/
  swap : Bool := false
  deriving DecidableEq, Repr

/-- A page request not yet answered (R250): sequence number, ring image, and whether it is written. -/
structure PageReq where
  seq : BitVec 32
  image : BitVec 256
  written : Bool
  /-- Die of a PATH 8 request. -/
  pool : Option Nat := none
  /-- Tag of the task that is parked on it. -/
  parked : Option Word := none
  deriving DecidableEq, Repr

/-- The registers and pools of a partition (R450). -/
structure Part where
  ctl : Word := 0
  clusters : Word := 0
  sets0 : Word := 0
  sets1 : Word := 0
  tierSets0 : Word := 0
  tierSets1 : Word := 0
  ptroot : Word := 0
  sdva : Word := 0
  shootdown : Word := 0
  /-- SDVA as it stood when SHOOTDOWN was written (R246). -/
  sdStart : Word := 0
  preempt : Word := 0
  prring : Word := 0
  frtbase : Word := 0
  locketpool : Word := 0
  freepool : Word := 0
  replayctl : Word := 0
  rptail : Word := 0
  rphead : Word := 0
  prseq : BitVec 32 := 0
  requests : List PageReq := []
  cursor : Nat := 0
  /-- Lockets of the pool in use, by number. -/
  lockets : List Nat := []
  /-- EN was written 0 and the partition drains (R452). -/
  draining : Bool := false
  scopes : Tbl Scope := []
  deriving DecidableEq, Repr

/-- Where a move or tier change of a page stands (R253, R256, R257). -/
inductive MoveStage where
  /-- Resident: no move in progress. -/
  | none
  /-- A move is accepted and waits for a frame (R256). -/
  | waiting
  | holding | streaming | switching | forwarding
  /-- A page-in runs, or waits for a frame. -/
  | pageIn
  /-- A page-out whose shoot-down or copy runs. -/
  | pageOut
  deriving DecidableEq, Repr

/-- What the device keeps of a movable page, by the address of its leaf (R253 to R258). -/
structure Page where
  va : Word := 0
  part : Nat := 0
  stage : MoveStage := .none
  target : Nat := 0
  /-- The module of the new home (R253). -/
  targetMod : Nat := 0
  newFrame : Nat := 0
  /-- The entry as the move or the tier change has found it. -/
  oldLeaf : Word := 0
  /-- The die whose frames it has found none of in the pool (R256). -/
  starved : Option Nat := none
  /-- A page-in is to start when the page-out ends (R257). -/
  wanted : Bool := false
  /-- A page-out has been abandoned, and its readers are still in the dependence table (R226, R257). -/
  undone : Bool := false
  history : List Nat := []
  settle : Option Nat := none
  /-- Accesses marked .near since the last epoch's end, by cluster (R258). -/
  near : Tbl Nat := []
  /-- Entries of the dependence table that stand for a page-out as a reader (R226). -/
  readers : List Nat := []
  deriving DecidableEq, Repr

/-- A saved context (R431): the task part with the contexts of its helpers, and the header's fields. -/
structure Saved where
  ctx : Ctx
  k : Kern
  part : Nat
  core : Nat
  reason : Nat
  held : Bool
  coreBound : Bool
  check : Word
  deriving DecidableEq, Repr

/-- A numbered barrier or a barrier domain (R389): members and arrivals as pairs of task and core. -/
structure Barrier where
  members : List (Nat × Nat) := []
  arrived : List (Nat × Nat) := []
  /-- Members that stop being members when the phase ends (R393). -/
  leaving : List (Nat × Nat) := []
  phase : BitVec 16 := 0
  /-- Phases that have ended and whose waiting members have not yet returned to the ready set. -/
  releasing : List (BitVec 16) := []
  deriving DecidableEq, Repr

/-- A barrier domain: the entries of both dies (R390). -/
structure Domain where
  mask : Vector (BitVec 384) 2 := Vector.replicate 2 0
  part : Vector (BitVec 4) 2 := Vector.replicate 2 0
  valid : Vector Bool 2 := Vector.replicate 2 false
  bar : Barrier := {}
  deriving DecidableEq, Repr

/-- A request from another cluster or module for a line of a hot-line store (R384): identity and region tag of its context,
address and bytes, type and SAT, and the operation: 0 a read, 1 a write, 2 + FN an atomic; operand, expected value. -/
structure LineReq where
  ident : Nat
  tag : Option Nat
  addr : Nat
  size : Nat
  ty : BitVec 4
  sat : Bool
  op : Nat
  value : Word
  expect : Word
  /-- The page is checked, as its requester's translation says (R251), and the cycle of arrival (R384). -/
  checked : Bool := false
  age : Nat := 0
  deriving DecidableEq, Repr

/-- A line of a hot-line store with its waiting requests, oldest first (R383, R384). -/
structure HotLine where
  addr : Nat
  waiting : List LineReq := []
  /-- The leaf of the paged access that brought it in, which gives its home; without one the home map does (R239). -/
  via : Option Nat := none
  /-- A write has been made since the line was brought in, and its bytes as they stood before the first. -/
  dirty : Bool := false
  clean : List Byte := []
  deriving DecidableEq, Repr

/-- The arbiter of one shared resource of a quad (R296). -/
structure Arbiter where
  last : Option Nat := none
  grant : Option Nat := none
  deriving DecidableEq, Repr

/-- Boot states (R458). -/
inductive Boot where
  | reset | rom | recovery | firmware | running
  deriving DecidableEq, Repr

/-- Classes of units that a fence or an error record names (R456). -/
inductive UnitClass where
  | core | quad | cluster | queueEngine | pseudoChannel | shared
  deriving DecidableEq, Repr

/-- The instruction register of the test access port (R464). -/
inductive TapInstr where
  | bypass | idcode | samplePreload | extest | bootstat
  deriving DecidableEq, Repr

/-- Registers and units of the module (R437, R448, R456 to R464). -/
structure Module where
  modid : Word := 0
  sampctl : Word := 0x100
  samptail : Word := 0
  samphead : Word := 0
  sampSeq : Word := 0
  sampDropped : BitVec 32 := 0
  sampFirst : Bool := false
  /-- CYCLE of the next tick, and cycles of the interval so far (R438). -/
  sampNext : Nat := 0
  sampTime : Nat := 0
  /-- Cycles of the interval in which QFULL, DTFULL and LOCKOUT have held, by queue engine (R439). -/
  engineCounts : Tbl (Nat × Nat × Nat) := []
  /-- Cycles of the interval in which the array, the vector datapath and the transfer port have been busy, and a head entry has
  waited for a grant, by quad (R439). -/
  quadCounts : Tbl (Nat × Nat × Nat × Nat) := []
  /-- Epochs of the migration counts that have ended (R258), and CYCLE of the last clearing of records (R375). -/
  epochs : Nat := 0
  cleared : Nat := 0
  homemap : Word := 0
  /-- The cap, in watts (R463). -/
  powercap : Word := 2400
  health : Word := 0xFFFF000000000000
  /-- Periods of 2^30 cycles whose update of HEALTH has been made (R457). -/
  healthTurns : Nat := 0
  errring : Word := 0
  errtail : Word := 0
  errhead : Word := 0
  /-- Error records that wait for room (R456). -/
  errWait : List (BitVec 256) := []
  attest : Word := 0
  boot : Boot := .reset
  rollback : Word := 0
  measurement : Word512 := 0
  /-- The firmware image and its version; an update of it has been cut off (R458). -/
  image : List Byte := []
  imageVersion : Word := 0
  imageCut : Bool := false
  /-- Clock step: 0 is 850 MHz, 3 is 595 MHz; and CYCLE of its last change (R463). -/
  clock : Nat := 0
  clockAt : Nat := 0
  /-- Links that are up, with the module each serves (R460). -/
  links : Tbl Nat := []
  linkEnabled : Bool := false
  /-- Modules whose last link has failed (R460). -/
  lost : List Nat := []
  /-- Partition to which each root port is assigned, by 4 times the port's number plus the part of a split one (R461). -/
  rootPorts : Tbl Nat := []
  /-- CXL ports that have failed, and the slices whose capacity their ports have accepted (R462). -/
  portsDown : List Nat := []
  slices : List Nat := []
  tap : TapInstr := .idcode
  tapData : BitVec 32 := 0
  cells : Word := 0
  deriving DecidableEq, Repr

/-- An act that the outside world or a unit makes next (the model's interface to them). (DESIGN CHOICE, log 33.) -/
inductive Act where
  /-- An event of the opcode table, with its operands. -/
  | event (i : Instr) (c : Cmd)
  /-- The context of this core and slot runs next. -/
  | run (core slot : Nat)
  /-- Cycles pass. -/
  | tick (n : Nat)
  deriving DecidableEq, Repr

/-- The whole module (R1, R2). Of the cores, one is in focus. -/
structure State where
  /-- The core in focus: `ctx`, `k` and `hw` are its context in focus, its task part and its hardware (the model's own). -/
  coreNo : Nat := 0
  ctx : Ctx := {}
  k : Kern := {}
  hw : CoreHw := {}
  /-- The other cores; an unlisted one is as after reset. -/
  others : Tbl CoreState := []
  /-- Physical memory of the domain: HBM and second tier (R236). -/
  mem : Mem := []
  /-- Memory of all clusters, 8 MiB each in order (R130). -/
  clusterMem : Mem := []
  /-- Memory of the application cores, as far as the device writes it (R459). -/
  appMem : Mem := []
  /-- Walk caches: entries by physical address (R245). -/
  walks : Tbl Word := []
  /-- Regions of 2 MiB that hold a record block, and regions refused one (R243). -/
  recBlocks : List Nat := []
  refused : List Nat := []
  /-- Access records by granule (R372). -/
  records : Tbl Word := []
  /-- Region tags that homes hold of contexts of other modules (R374). -/
  homeTags : Tbl Nat := []
  /-- Accesses of parents in their open regions from before an HSTART, and who knows of them (R361, R376). -/
  before : List Earlier := []
  /-- Translations cached since the last shoot-down of their range (R82). -/
  translated : List Mapping := []
  /-- Ranges, by address and size, whose hot-line writes were lost with a fenced cluster, and that cluster (R455). -/
  poisoned : List (Nat × Nat × Nat) := []
  /-- Movable pages in a move, a tier change or a settle, by the address of the leaf (R253 to R258). -/
  pages : Tbl Page := []
  /-- Hardware queues (R213, R216, R217). -/
  queues : Tbl Queue := []
  /-- Partitions (R450). -/
  parts : Vector Part 16 := Vector.replicate 16 {}
  /-- Dependence tables and the versions of tiles (R224, R225). -/
  deps : List Dep := []
  versions : List Version := []
  /-- Saved contexts by the address of their Locket (R431). -/
  lockets : Tbl Saved := []
  /-- Request queues of the indirect engines, by cluster (R354). -/
  ix : Tbl (List IxReq) := []
  /-- Hot-line stores, by cluster (R383). -/
  hot : Tbl (List HotLine) := []
  /-- STNT bytes whose context has ended, behind requests for their lines (the model's own) (R384). -/
  late : List HeldByte := []
  /-- Numbered barriers, 32 for each cluster (R389). -/
  barriers : Tbl Barrier := []
  /-- Barrier domains (R390). -/
  domains : Vector Domain 64 := Vector.replicate 64 {}
  /-- Arbiters: 4 * quad + resource (R296). -/
  arbiters : Tbl Arbiter := []
  /-- Fenced units (R455), and corrected errors by unit (R456). -/
  fenced : List (UnitClass × Nat) := []
  corrected : Tbl Nat := []
  /-- Registers of the module (R437, R448, R456 to R464). -/
  mod : Module := {}
  /-- Messages between units, oldest first: arrivals, withdrawals, leavings, notices, releases and exchange values (R228, R229,
  R374, R393, R409, R435). -/
  inflight : List (Instr × Cmd) := []
  /-- CYCLE (R54). -/
  cycle : Word := 0
  /-- The act in progress (the model's own). -/
  cmd : Cmd := {}
  /-- Acts to come (the model's own). -/
  agenda : List Act := []
  /-- Counter of free values (the model's own). -/
  free : Nat := 0
  /-- Where the load or atomic in progress reads (the model's own). -/
  readAt : Option (Space × Nat) := none
  /-- Names given to tasks and to dependence entries (the model's own). -/
  names : Nat := 1
  /-- A unit goes on before the next context does: one of the core in focus, or of the module (the model's own). -/
  unitTurn : Bool := false
  moduleTurn : Bool := false
  /-- The kind of unit of the module that looks first for something to do (the model's own). -/
  kindTurn : Nat := 0
  deriving DecidableEq, Repr

/-- Why a step has no next state. -/
inductive Fault where
  /-- The core in focus is not a core of the module; raised by `step` in a state that no run reaches. Safe: the manual
  gives no such core. -/
  | noSuchCore
  deriving DecidableEq, Repr

/-- Why an instruction has no meaning. -/
inductive Refusal where
  /-- The instruction has no meaning in the model yet; raised by its arm of `exec`. Safe. -/
  | notModelled (mnemonic : String)
  deriving DecidableEq, Repr

/-- The machine right after reset: no task runs, no memory is listed, every register has the value of INVENTORY.md.
(DESIGN CHOICE, log 2.) -/
def State.reset : State := {}

end Sys2Proof.Machine
end

