-- ==== Sys2Proof/Machine/Mem.lean ====
section
/-! DEFINITION. Memories and tables as sorted lists in one canonical form, and the byte order of wide accesses (R10). -/

namespace Sys2Proof.Machine

/-- What an unlisted address reads as: memory that nothing has written holds zero bytes (log 3). -/
def Mem.empty : Byte := 0

/-- One byte. (DESIGN CHOICE, log 3.) -/
def Mem.get : Mem → Nat → Byte
  | [], _ => Mem.empty
  | (x, y) :: rest, a => if a = x then y else if a < x then Mem.empty else Mem.get rest a

/-- Write of one byte; a byte equal to what an unlisted address reads as is not listed. (DESIGN CHOICE, log 3.) -/
def Mem.set : Mem → Nat → Byte → Mem
  | [], a, b => if b = Mem.empty then [] else [(a, b)]
  | (x, y) :: rest, a, b =>
    if a < x then (if b = Mem.empty then (x, y) :: rest else (a, b) :: (x, y) :: rest)
    else if a = x then (if b = Mem.empty then rest else (a, b) :: rest)
    else (x, y) :: Mem.set rest a b

/-- Every listed address lies at or above `lo`, addresses rise strictly, and no entry holds the unlisted value. -/
def Mem.wfFrom : Nat → Mem → Bool
  | _, [] => true
  | lo, (x, y) :: rest => decide (lo ≤ x) && decide (y ≠ Mem.empty) && Mem.wfFrom (x + 1) rest

/-- The canonical form. (DESIGN CHOICE, log 3.) -/
def Mem.wf (m : Mem) : Bool := Mem.wfFrom 0 m

/-- `n` bytes from `a` as a number, the byte at `a` the least significant (R10). -/
def Mem.readLE (m : Mem) (a : Nat) : Nat → Nat
  | 0 => 0
  | n + 1 => (Mem.get m a).toNat + 256 * Mem.readLE m (a + 1) n

/-- The low `n` bytes of `v` written from `a`, the least significant at `a` (R10). -/
def Mem.writeLE (m : Mem) (a : Nat) : Nat → Nat → Mem
  | 0, _ => m
  | n + 1, v => Mem.writeLE (Mem.set m a (BitVec.ofNat 8 v)) (a + 1) n (v / 256)

/-- `n` bytes from `a` in address order. -/
def Mem.bytes (m : Mem) (a : Nat) : Nat → List Byte
  | 0 => []
  | n + 1 => Mem.get m a :: Mem.bytes m (a + 1) n

/-- Bytes written from `a` in address order. -/
def Mem.putBytes (m : Mem) (a : Nat) : List Byte → Mem
  | [] => m
  | b :: bs => Mem.putBytes (Mem.set m a b) (a + 1) bs

/-- `n` zero bytes written from `a`. -/
def Mem.zero (m : Mem) (a n : Nat) : Mem := m.filter (fun c => c.1 < a || a + n ≤ c.1)

/-- Copy of `n` bytes from `src` of one memory to `dst` of another (or of the same, all read before any is written). -/
def Mem.copyFrom (m : Mem) (dst : Nat) (from' : Mem) (src n : Nat) : Mem :=
  (from'.filter (fun c => src ≤ c.1 && c.1 < src + n)).foldl (fun acc c => Mem.set acc (dst + (c.1 - src)) c.2)
    (Mem.zero m dst n)

/-- Entry of a table. -/
def Tbl.find {α : Type} : Tbl α → Nat → Option α
  | [], _ => none
  | (x, y) :: rest, k => if k = x then some y else Tbl.find rest k

/-- Entry of a table with a default. -/
def Tbl.getD {α : Type} (t : Tbl α) (k : Nat) (d : α) : α := (Tbl.find t k).getD d

/-- Entry written. -/
def Tbl.put {α : Type} : Tbl α → Nat → α → Tbl α
  | [], k, v => [(k, v)]
  | (x, y) :: rest, k, v =>
    if k < x then (k, v) :: (x, y) :: rest else if k = x then (k, v) :: rest else (x, y) :: Tbl.put rest k v

/-- Entry removed. -/
def Tbl.del {α : Type} (t : Tbl α) (k : Nat) : Tbl α := t.filter (fun e => e.1 != k)

/-- `len` bits of `w` from bit `lo`, as a number. -/
def bits {n : Nat} (w : BitVec n) (lo len : Nat) : Nat := (w.toNat / 2 ^ lo) % 2 ^ len

/-- `w` with `len` bits from `lo` replaced by the low bits of `v`. -/
def setBits {n : Nat} (w : BitVec n) (lo len v : Nat) : BitVec n :=
  BitVec.ofNat n (w.toNat - bits w lo len * 2 ^ lo + (v % 2 ^ len) * 2 ^ lo)

/-- The low `n` bits of `v` as a signed number (R63). -/
def signExt (v n : Nat) : Int :=
  let u := v % 2 ^ n
  if n = 0 then 0 else if 2 ^ (n - 1) ≤ u then (u : Int) - (2 ^ n : Nat) else (u : Int)

/-- A number modulo 2 to the `n`, as an `n`-bit pattern (R63). -/
def wrap (v : Int) (n : Nat) : Nat := (v % ((2 ^ n : Nat) : Int)).toNat

/-- A number wrapped to a 64-bit word. -/
def wordOf (v : Int) : Word := BitVec.ofNat 64 (wrap v 64)

/-- A 512-bit word's bytes as a number come least significant first: bit b is bit b mod 8 of byte b/8 (R117). -/
def natOfBytes : List Byte → Nat
  | [] => 0
  | b :: bs => b.toNat + 256 * natOfBytes bs

/-- The `n` bytes of a number, least significant first. -/
def bytesOfNat : Nat → Nat → List Byte
  | 0, _ => []
  | n + 1, v => BitVec.ofNat 8 v :: bytesOfNat n (v / 256)

/-- The numbers from `lo` on, `n` of them. -/
def upFrom (lo : Nat) : Nat → List Nat
  | 0 => []
  | n + 1 => lo :: upFrom (lo + 1) n

end Sys2Proof.Machine
end

