-- ==== Sys2Proof/Machine/Operands.lean ====
section
/-! DEFINITION. Operands: the common form of the encodings (R68), registers, strands and predicates, and parcel
addresses (R51, R63). -/

namespace Sys2Proof.Machine

/-- The fields an effect uses, whatever the encoding that carried them: a 32-bit instruction has exactly the effect of
its 64-bit form with the default fields (R68), and a 96-bit one has LIT32 in place of IMM24 (R46). -/
structure Form where
  p : BitVec 3 := 0
  n : Bool := false
  d : BitVec 6 := 0
  a : BitVec 6 := 0
  b : BitVec 6 := 0
  c : BitVec 6 := 0
  da : BitVec 3 := 0
  db : BitVec 3 := 0
  dc : BitVec 3 := 0
  ty : BitVec 4 := 0
  md : BitVec 3 := 0
  sat : Bool := false
  opt : BitVec 3 := 0
  imm : Word := 0
  len : Nat := 2
  deriving DecidableEq, Repr

/-- The form of a general-format instruction. -/
def formG (f : G64) : Form :=
  { p := f.p, n := f.n, d := f.d, a := f.a, b := f.b, c := f.c, da := f.da, db := f.db, dc := f.dc,
    ty := f.ty, md := f.md, sat := f.sat, opt := f.opt }

/-- The form of an immediate-format instruction: the immediate is sign-extended (R45, R142). -/
def formI (f : I64) : Form :=
  { p := f.p, n := f.n, d := f.d, a := f.a, da := f.da, ty := f.ty, md := f.md, sat := f.sat, opt := f.opt,
    imm := f.imm.signExtend 64 }

/-- The form of a 96-bit instruction (R46). -/
def formW (f : W96) : Form :=
  { p := f.p, n := f.n, d := f.d, a := f.a, da := f.da, ty := f.ty, md := f.md, sat := f.sat, opt := f.opt,
    imm := f.lit.signExtend 64, len := 3 }

/-- The form of a 32-bit register instruction with default type `ty` (R68). -/
def formA (ty : BitVec 4) (f : A32) : Form := { d := f.d, a := f.a, b := f.b, ty := ty, len := 1 }

/-- The form of a 32-bit immediate instruction with default type `ty` (R68). -/
def formI32 (ty : BitVec 4) (f : I32) : Form :=
  { d := f.d, a := f.a, ty := ty, imm := f.imm.signExtend 64, len := 1 }

/-- The form of a 32-bit transfer: the offset is sign-extended; the condition of BRC stands in D and OPT (R68). -/
def formJ (f : J32) : Form :=
  { d := f.p.setWidth 6, opt := if f.n then 1 else 0, imm := f.off.signExtend 64, len := 1 }

/-- The form of SYSRD and SYSWR. -/
def formS (f : SysForm) : Form :=
  { p := f.p, n := f.n, d := f.d, a := f.a, da := f.da, ty := f.ty, md := f.md, sat := f.sat, opt := f.opt,
    imm := f.imm.setWidth 64, len := if f.wide then 3 else 2 }

/-- ParcelIndex (R51, R63). -/
def parcelIndex (a : Word) : Nat := a.toNat / 64 * 15 + a.toNat % 64 / 4

/-- ParcelAddr (R51, R63), of a possibly negative index. -/
def parcelAddr (i : Int) : Word := wordOf (i / 15 * 64 + i % 15 * 4)

/-- The address `n` parcels after `a` in the instruction stream (R51). -/
def parcelsAfter (a : Word) (n : Int) : Word := parcelAddr (parcelIndex a + n)

/-- Register `i` of the context in focus. -/
def State.reg (s : State) (i : Nat) : Word := s.ctx.regs.getD i 0

/-- Write of register `i` of the context in focus. -/
def State.setReg (s : State) (i : Nat) (v : Word) : State :=
  { s with ctx := { s.ctx with regs := s.ctx.regs.setIfInBounds i v } }

/-- Predicate `i`: p0 reads true (R42). -/
def State.pred (s : State) (i : Nat) : Bool := i == 0 || s.ctx.preds.getLsbD i

/-- Write of a predicate; a write of p0 discards the value (R40, R42). -/
def State.setPred (s : State) (i : Nat) (v : Bool) : State :=
  if i = 0 then s else { s with ctx := { s.ctx with preds := setBits s.ctx.preds i 1 v.toNat } }

/-- Guard (R42). -/
def State.guard (s : State) (p : BitVec 3) (n : Bool) : Bool := s.pred p.toNat != n

/-- The strand. -/
def State.strand (s : State) (g : Nat) : Strand := s.k.strands.getD g {}

/-- A strand replaced. -/
def State.setStrand (s : State) (g : Nat) (v : Strand) : State :=
  { s with k := { s.k with strands := s.k.strands.setIfInBounds g v } }

/-- The active loop level whose strand set holds `g`: the inner one's before the outer one's (R268, R283). -/
def Loop.owner (l : Loop) (g : Nat) : Option LoopLevel :=
  match l.inner with
  | some lv => if lv.set.getLsbD g then some lv else l.outer.filter (fun o => o.set.getLsbD g)
  | none => l.outer.filter (fun o => o.set.getLsbD g)

/-- The level whose iteration is in progress: the inner one while it is active. -/
def Loop.current (l : Loop) : Option LoopLevel := l.inner.or l.outer

/-- A bead pushed onto a history: the oldest is lost (R263). -/
def Strand.push (st : Strand) (b : Bead) : Strand :=
  { hist := #v[b, st.hist.getD 0 {}, st.hist.getD 1 {}, st.hist.getD 2 {}, st.hist.getD 3 {}, st.hist.getD 4 {},
      st.hist.getD 5 {}, st.hist.getD 6 {}], cur := none }

/-- A strand as the body in progress reads it: one outside a level's set stands as at the level's entry, whatever the handler of a
trap has written meanwhile (R269). -/
def State.frozen (s : State) (g : Nat) : Strand :=
  let outside := fun (l : Option LoopLevel) => l.any (fun lv => !(lv.set.getLsbD g))
  let old := fun (l : Option LoopLevel) =>
    match l.bind (fun lv => lv.entry) with
    | some v => v.getD g {}
    | none => s.strand g
  if s.k.loop.susp || s.k.loop.inner.any (fun lv => lv.set.getLsbD g) then s.strand g
  else if outside s.k.loop.outer then old s.k.loop.outer
  else if outside s.k.loop.inner then old s.k.loop.inner
  else s.strand g

/-- The bead that a read of strand `g` at distance `d` reaches (R263, R268). A history holds the beads of retired
iterations before those that stood at entry, so the read of an earlier iteration is a read of the history.
(DEDUCED, log 18.) -/
def State.bead (s : State) (g d : Nat) : Bead :=
  let st := s.frozen g
  match s.k.loop.owner g with
  | none => st.hist.getD d {}
  | some _ =>
    if d = 0 then
      match st.cur with
      | some v => { value := v }
      | none => st.hist.getD 0 {}
    else st.hist.getD (d - 1) {}

/-- ReadBead (R63). -/
def State.readBead (s : State) (g d : Nat) : Word := (s.bead g d).value

/-- WriteBead (R63): inside a level that owns the strand, the bead of the iteration; otherwise a push (R263). -/
def State.writeBead (s : State) (g : Nat) (v : Word) : State :=
  match s.k.loop.owner g with
  | none => s.setStrand g ((s.strand g).push { value := v })
  | some _ => s.setStrand g { s.strand g with cur := some v }

/-- ReadOp (R63). -/
def State.readOp (s : State) (r : BitVec 6) (dist : BitVec 3) : Word :=
  if r.toNat < 32 then s.reg r.toNat else s.readBead (r.toNat - 32) dist.toNat

/-- WriteOp (R63). -/
def State.writeOp (s : State) (r : BitVec 6) (v : Word) : State :=
  if r.toNat < 32 then s.setReg r.toNat v else s.writeBead (r.toNat - 32) v

/-- What a guarded-off instruction does to a destination: a strand's current bead takes the value at distance 1, which
outside a loop is a push of a copy of the youngest bead (R42, R263). -/
def State.passDest (s : State) (r : BitVec 6) : State :=
  if r.toNat < 32 then s
  else
    let g := r.toNat - 32
    match s.k.loop.owner g with
    | none => s.writeBead g (s.readBead g 0)
    | some _ => s.writeBead g (s.readBead g 1)

/-- The control context of the core in focus: in focus itself, or among the other live contexts. -/
def State.control (s : State) : Ctx :=
  if s.ctx.slot = 15 then s.ctx else (s.k.peers.find? (fun c => c.slot == 15)).getD {}

/-- A change of the control context of the core in focus. -/
def State.onControl (s : State) (f : Ctx → Ctx) : State :=
  if s.ctx.slot = 15 then { s with ctx := f s.ctx }
  else { s with k := { s.k with peers := s.k.peers.map (fun c => if c.slot == 15 then f c else c) } }

/-- ENGSEQ of the core advanced by one, modulo 2 to the 32 (R14, R414). -/
def State.bumpSeq (s : State) : State := { s with k := { s.k with engseq := s.k.engseq + 1 } }

/-- An advance of ENGSEQ taken back: the instruction takes its number at its release (R279). -/
def State.dropSeq (s : State) : State := { s with k := { s.k with engseq := s.k.engseq - 1 } }

/-- The instruction leaves its own parcels: the next PC in the stream, and RETIRED counts it (R51, R54). Breakpoints match again
after the first instruction behind an ERET (R444). -/
def State.retire (s : State) (len : Nat) : State :=
  { s with ctx := { s.ctx with
      pc := parcelsAfter s.ctx.pc len, retired := s.ctx.retired + 1, hold := none, skipBp := false } }

/-- A transfer to `target`, counted. -/
def State.goto (s : State) (target : Word) : State :=
  { s with ctx := { s.ctx with pc := target, retired := s.ctx.retired + 1, hold := none, skipBp := false } }

/-- The entries of the dispatch queue, and those that are still to join it, oldest first (R279, R293). -/
def Kern.posted (k : Kern) : List Entry :=
  k.mvuq ++ k.unreleased.filterMap (fun u => match u.work with | .entry e => some e | _ => none)

/-- Whether a captured body is being executed: a level is active and not suspended (R264, R286). -/
def Loop.running (l : Loop) : Bool := (l.inner.isSome || l.outer.isSome) && !l.susp

/-- No loop is active or suspended (R265 check 9). -/
def Loop.idle (l : Loop) : Bool := l.inner.isNone && l.outer.isNone

/-- The loop level in progress stands at a phase, and the control context is in focus. -/
def State.loopAt (s : State) (ph : LoopPhase) : Bool :=
  s.ctx.slot == 15 && s.k.loop.running && s.k.loop.current.any (fun l => l.phase == ph)

/-- An integer type's width in bits, 8 to 64 (R47). -/
def tyBits (ty : BitVec 4) : Nat := 8 * 2 ^ (ty.toNat % 4)

/-- Whether an integer type is signed (R47). -/
def tySigned (ty : BitVec 4) : Bool := decide (ty.toNat < 4)

/-- Bytes of an element of a type: integers by width, .f32 4, .bf16 and .f16 2, the 8-bit formats and .bz8 1 (R120). -/
def tyBytes (ty : BitVec 4) : Nat :=
  match ty.toNat with
  | 0 | 4 | 11 | 12 | 13 => 1
  | 1 | 5 | 9 | 10 => 2
  | 2 | 6 | 8 => 4
  | 3 | 7 => 8
  | _ => 1

/-- A value extended from `n` bits to 64 by signedness (R63, R140 step 4). -/
def extend (signed : Bool) (v n : Nat) : Word :=
  if signed then wordOf (signExt v n) else BitVec.ofNat 64 (v % 2 ^ n)

end Sys2Proof.Machine
end

