-- ==== Sys2Proof/Machine/Focus.lean ====
section
/-! DEFINITION. The context in focus: its core, its task and its identity (R2, R15, R372). -/

namespace Sys2Proof.Machine

/-- The focus moves to a core: the parts of the core left stand among the others. -/
def State.focusCore (s : State) (core : Nat) : State :=
  if core = s.coreNo then s
  else
    let here : CoreState := { ctx := s.ctx, k := s.k, hw := s.hw }
    let next := Tbl.getD s.others core {}
    { s with
      coreNo := core
      ctx := next.ctx
      k := next.k
      hw := next.hw
      others := Tbl.put (Tbl.del s.others core) s.coreNo here }

/-- The focus moves to a context of the core, if it is there. -/
def State.focusSlot (s : State) (slot : Nat) : State :=
  if s.ctx.slot = slot then s
  else
    match s.k.peers.find? (fun c => c.slot == slot) with
    | none => s
    | some c => { s with ctx := c, k := { s.k with peers := s.ctx :: s.k.peers.filter (fun x => x.slot != slot) } }

/-- A change made with another core of the module in focus. -/
def State.atCore (s : State) (core : Nat) (f : State → State) : State :=
  if core = s.coreNo then f s
  else if Config.cores ≤ core then s
  else (f (s.focusCore core)).focusCore s.coreNo

/-- The task of the core in focus; without one, the fields an idle core shows. -/
def State.task (s : State) : Task := s.k.task.getD {}

/-- The partition of the core in focus. -/
def State.myPart (s : State) : Nat := s.task.part

/-- Agent identity of a context (R372). -/
def identOf (modNo core slot : Nat) : Nat := modNo * 2 ^ 14 + core * 16 + slot

/-- The identity that names no context (R372). -/
def noIdent : Nat := 0xFFFFF

end Sys2Proof.Machine
end

