-- ==== Sys2Proof/Machine/Rings.lean ====
section
/-! DEFINITION. Who owns a unit (R2, R450), and the rings the device writes: error records (R456), trace records (R443),
page requests (R250) and replay records (R446). Ring writes are accesses of no context. -/

namespace Sys2Proof.Machine

/-- A partition's registers. -/
def State.part (s : State) (p : Nat) : Part := s.parts.getD p {}

/-- A change of a partition's registers. -/
def State.onPart (s : State) (p : Nat) (f : Part → Part) : State :=
  { s with parts := s.parts.setIfInBounds p (f (s.part p)) }

/-- Partition `p` owns cluster `c` (R450). -/
def State.ownsCluster (s : State) (p c : Nat) : Bool := (s.part p).clusters.getLsbD c

/-- Partition `p` owns queue engine `e` (R450). -/
def State.ownsEngine (s : State) (p e : Nat) : Bool := (s.part p).ctl.getLsbD (8 + e)

/-- Partition `p` owns HBM set `n` (R450). -/
def State.ownsSet (s : State) (p n : Nat) : Bool :=
  if n < 64 then (s.part p).sets0.getLsbD n else (s.part p).sets1.getLsbD (n - 64) && decide (n < 96)

/-- Partition `p` owns second-tier slice `n` (R450). -/
def State.ownsSlice (s : State) (p n : Nat) : Bool :=
  if n < 64 then (s.part p).tierSets0.getLsbD n else (s.part p).tierSets1.getLsbD (n - 64) && decide (n < 96)

/-- The partition that owns cluster `c`. -/
def State.clusterOwner (s : State) (c : Nat) : Option Nat := (upFrom 0 16).find? (fun p => s.ownsCluster p c)

/-- The partition that owns queue engine `e`. -/
def State.engineOwner (s : State) (e : Nat) : Option Nat := (upFrom 0 16).find? (fun p => s.ownsEngine p e)

/-- The partition that owns HBM set `n`. -/
def State.setOwner (s : State) (n : Nat) : Option Nat := (upFrom 0 16).find? (fun p => s.ownsSet p n)

/-- The engine that holds a partition's finish-scope table: the lowest it owns (R231). -/
def State.scopeEngine (s : State) (p : Nat) : Option Nat := (upFrom 0 8).find? (fun e => s.ownsEngine p e)

/-- MOD of a physical address (R236). -/
def modOf (pa : Nat) : Nat := pa / 2 ^ 46
/-- Offset of a physical address within its module (R236). -/
def offsetOf (pa : Nat) : Nat := pa % 2 ^ 46

/-- The number of this module (R460). -/
def State.modNo (s : State) : Nat := bits s.mod.modid 0 6

/-- HBM (R236). -/
def inHbm (pa : Nat) : Bool := decide (offsetOf pa < 0x9000000000)
/-- The second tier (R236). -/
def inTier (pa : Nat) : Bool := decide (0x100000000000 ≤ offsetOf pa) && decide (offsetOf pa < 0x118000000000)
/-- HBM set of an offset: 6 GiB each (R450). -/
def setOf (pa : Nat) : Nat := offsetOf pa / 0x180000000
/-- Second-tier slice of an address: 16 GiB each (R450). -/
def sliceOf (pa : Nat) : Nat := (offsetOf pa - 0x100000000000) / 0x400000000
/-- Compute die that an HBM address lies on: stacks 0 to 3 attach to die 0 (R2, R236). -/
def dieOf (pa : Nat) : Nat := if offsetOf pa < 0x4800000000 then 0 else 1

/-- HBM that programs see of this module: 576 GiB less 256 KiB for each record block (R5). Which end of HBM the blocks take is not
stated. (DESIGN CHOICE, log 35.) -/
def State.visibleHbm (s : State) : Nat := 0x9000000000 - 0x40000 * s.recBlocks.length

/-- An address is in the HBM that programs see: of another module the whole of it. (DESIGN CHOICE, log 35.) -/
def State.inView (s : State) (pa : Nat) : Bool := modOf pa != s.modNo || decide (offsetOf pa < s.visibleHbm)

/-- The module of an address is this one or one that a link reaches (R236, R460). -/
def State.moduleKnown (s : State) (pa : Nat) : Bool := modOf pa == s.modNo || s.mod.links.any (fun l => l.2 == modOf pa) ||
  s.mod.lost.contains (modOf pa)

/-- An address in HBM that the partition owns, on the module the address names (R237, R460); what another module's partition
owns is a free value (DESIGN CHOICE, log 33). -/
def State.hbmOwned (s : State) (p pa : Nat) : Bool :=
  decide (pa < 2 ^ 52) && inHbm pa && s.inView pa && s.moduleKnown pa &&
  (if modOf pa = s.modNo then s.ownsSet p (setOf pa)
   else Config.remoteOwned s.free p pa)

/-- An address in a second-tier slice that the partition owns (R237). -/
def State.tierOwned (s : State) (p pa : Nat) : Bool :=
  decide (pa < 2 ^ 52) && inTier pa && modOf pa == s.modNo && s.ownsSlice p (sliceOf pa)

/-- A number written to physical memory as `n` bytes. -/
def State.putMem (s : State) (pa n v : Nat) : State := { s with mem := Mem.writeLE s.mem pa n v }

/-- Entries of a partition's free-frame ring (R450). -/
def Part.poolSize (pt : Part) : Nat := 2 ^ (bits pt.freepool 0 4 + 10)

/-- The first of `n` ring entries from index `i` that `ok` accepts, as its index. -/
def scanRing (size : Nat) (ok : Nat → Bool) (i : Nat) : Nat → Option Nat
  | 0 => none
  | n + 1 => if ok (i % size) then some (i % size) else scanRing size ok (i + 1) n

/-- The address of ring entry `i` of the free-frame pool. -/
def Part.poolEntry (pt : Part) (i : Nat) : Nat := bits pt.freepool 12 40 * 4096 + i * 8

/-- Takes a frame that `fits` from the partition's pool: the next suitable valid entry from the cursor (R450). A pool
whose base is zero is empty (R465). -/
def State.takeFrame (s : State) (p : Nat) (fits : Nat → Bool) : Option (Nat × State) :=
  let pt := s.part p
  if bits pt.freepool 12 40 = 0 then none
  else
    let entry := fun i => Mem.readLE s.mem (pt.poolEntry i) 8
    let frameOf := fun i => entry i / 65536 % 2 ^ 36 * 65536
    match scanRing pt.poolSize (fun i => entry i % 2 == 1 && fits (frameOf i)) pt.cursor pt.poolSize with
    | none => none
    | some i =>
      let s1 := s.putMem (pt.poolEntry i) 8 (entry i - 1)
      some (frameOf i, s1.onPart p (fun q => { q with cursor := (i + 1) % q.poolSize }))

/-- A frame returns to the pool: into the first entry at or after the cursor whose valid bit is clear (R450). -/
def State.returnFrame (s : State) (p frame : Nat) : State :=
  let pt := s.part p
  if bits pt.freepool 12 40 = 0 then s
  else
    match scanRing pt.poolSize (fun i => Mem.readLE s.mem (pt.poolEntry i) 8 % 2 == 0) pt.cursor pt.poolSize with
    | none => s
    | some i => s.putMem (pt.poolEntry i) 8 (frame + 1)

/-- A unit is fenced (R455). -/
def State.isFenced (s : State) (c : UnitClass) (n : Nat) : Bool := s.fenced.contains (c, n)

/-- The number of a unit class in an error record (R456). -/
def UnitClass.code : UnitClass → Nat
  | .core => 1 | .quad => 2 | .cluster => 3 | .queueEngine => 4 | .pseudoChannel => 5 | .shared => 6

/-- Kinds of shared units, each of which is numbered from 0 (R2): what has no kind of its own, Birlan links, CXL ports, root ports. -/
inductive SharedKind where
  | plain | link | cxlPort | rootPort
  deriving DecidableEq, Repr

/-- The number of a shared unit among all of them: 4,096 to a kind, so that UNIT is the unit's own number. (DESIGN CHOICE,
log 29.) -/
def SharedKind.unit (k : SharedKind) (n : Nat) : Nat :=
  n % 4096 + 4096 * match k with
    | .plain => 0
    | .link => 1
    | .cxlPort => 2
    | .rootPort => 3

/-- The partition that owns a unit, none for a shared one (R456). -/
def State.unitOwner (s : State) (c : UnitClass) (n : Nat) : Option Nat :=
  match c with
  | .core => s.clusterOwner (n / 16)
  | .quad => s.clusterOwner (n / 4)
  | .cluster => s.clusterOwner n
  | .queueEngine => s.engineOwner n
  | .pseudoChannel => s.setOwner (n / 16)
  | .shared => none

/-- Records of 32 bytes a ring of `log` holds, with the base address; none while BASE is zero (R465). -/
def ringSlot (reg : Word) (log index size : Nat) : Option Nat :=
  let base := bits reg 12 40 * 4096
  if base = 0 then none else some (base + (index % 2 ^ log) * size)

/-- A ring of 2 to the `log` records is full when its indices differ by just that number (R437, R440, R442, R456). -/
def ringFull (tail head : Word) (log : Nat) : Bool := (tail - head).toNat % 2 ^ 32 == 2 ^ log

/-- One more dropped or corrected error counted (R456). -/
def State.countError (s : State) (c : UnitClass) (n : Nat) : State :=
  let key := c.code * 65536 + n
  { s with corrected := Tbl.put s.corrected key (Tbl.getD s.corrected key 0 + 1) }

/-- Writes the error record `rec` if the ring has room; true when it was written (R456). -/
def State.putErrorRecord (s : State) (rec : BitVec 256) : Option State :=
  let log := bits s.mod.errring 0 4 + 7
  match ringSlot s.mod.errring log s.mod.errtail.toNat 32 with
  | none => none
  | some at' =>
    if ringFull s.mod.errtail s.mod.errhead log then none
    else some { s.putMem at' 32 rec.toNat with
      mod := { s.mod with errtail := BitVec.ofNat 64 ((s.mod.errtail.toNat + 1) % 2 ^ 32) } }

/-- The image of an error record (R456): UNIT has twelve bits. -/
def State.errorImage (s : State) (kind : Nat) (c : UnitClass) (n : Nat) (part : Option Nat) (addr : Nat) : BitVec 256 :=
  let v := kind + c.code * 2 ^ 16 + n % 4096 * 2 ^ 24 + (part.getD 0) * 2 ^ 36 + (if part.isNone then 2 ^ 40 else 0)
    + (Tbl.getD s.corrected (c.code * 65536 + n) 0) * 2 ^ 64 + addr * 2 ^ 128 + s.cycle.toNat * 2 ^ 192
  BitVec.ofNat 256 v

/-- An error record of a unit: with no ring it is dropped and counted; on a full ring a corrected-error record is dropped
and counted, and any other waits for room, behind those that wait already (R456, R465). (DESIGN CHOICE, log 29.) -/
def State.errorRecord (s : State) (kind : Nat) (c : UnitClass) (n : Nat) (part : Option Nat) (addr : Nat) : State :=
  let rec' := s.errorImage kind c n part addr
  match (if s.mod.errWait.isEmpty then s.putErrorRecord rec' else none) with
  | some s' => s'
  | none =>
    if bits s.mod.errring 12 40 = 0 ∨ kind = 1 then s.countError c n
    else { s with mod := { s.mod with errWait := s.mod.errWait ++ [rec'] } }

/-- A trace record of the core in focus, if tracing and the kind are enabled (R442, R443). (DEDUCED, log 30.) -/
def State.trace (s : State) (kind : Nat) (pc : Word) (seq : BitVec 32) : State :=
  if s.hw.tracectl.getLsbD 0 && s.hw.tracectl.getLsbD kind then
    let log := bits s.hw.tracectl 8 4 + 7
    match ringSlot s.hw.tracectl log s.hw.trtail.toNat 32 with
    | none => s
    | some at' =>
      if ringFull s.hw.trtail s.hw.trhead log then { s with hw := { s.hw with traceDropped := true } }
      else
        let k := kind + (if s.hw.traceDropped then 128 else 0)
        let v := k + s.coreNo * 2 ^ 22 + seq.toNat * 2 ^ 32 + s.control.retired.toNat * 2 ^ 64 + pc.toNat * 2 ^ 128
          + s.cycle.toNat * 2 ^ 192
        { s.putMem at' 32 v with
          hw := { s.hw with trtail := BitVec.ofNat 64 ((s.hw.trtail.toNat + 1) % 2 ^ 32), traceDropped := false } }
  else s

/-- The image of a page request (R250). -/
def pageReqImage (tag : Nat) (seq : BitVec 32) (path level : Nat) (write : Bool) (va : Word) : BitVec 256 :=
  BitVec.ofNat 256 (bits va 0 57 + (if write then 2 ^ 88 else 0) + level * 2 ^ 89 + path * 2 ^ 92 + seq.toNat * 2 ^ 96
    + tag * 2 ^ 128)

/-- Writes every waiting page request whose ring place is free: the request before it at that index has been answered
(R450). While no ring is set a request is written nowhere, and waits as if it had been written (R465). -/
def State.flushRequests (s : State) (p : Nat) : State :=
  let pt := s.part p
  let log := bits pt.prring 0 4 + 6
  let go := pt.requests.foldl (fun (acc : State × List PageReq) r =>
    let clash := acc.2.any (fun q => q.written && q.seq.toNat % 2 ^ log == r.seq.toNat % 2 ^ log)
    match ringSlot pt.prring log r.seq.toNat 32 with
    | some at' =>
      if r.written || clash then (acc.1, acc.2 ++ [r])
      else (acc.1.putMem at' 32 r.image.toNat, acc.2 ++ [{ r with written := true }])
    | none => (acc.1, acc.2 ++ [{ r with written := true }])) (s, [])
  go.1.onPart p (fun q => { q with requests := go.2 })

/-- A page request takes the partition's next sequence number (R250). -/
def State.pageRequest (s : State) (p tag path level : Nat) (write : Bool) (va : Word) (pool : Option Nat)
    (parked : Option Word) : BitVec 32 × State :=
  let seq := (s.part p).prseq
  let req : PageReq :=
    { seq := seq, image := pageReqImage tag seq path level write va, written := false, pool := pool, parked := parked }
  let s1 := s.onPart p (fun q => { q with prseq := q.prseq + 1, requests := q.requests ++ [req] })
  (seq, s1.flushRequests p)

/-- Whether the partition's replay ring is on (R445). -/
def State.replayOn (s : State) (p : Nat) : Bool := (s.part p).replayctl.getLsbD 0

/-- Whether the replay ring is full (R447). -/
def State.replayFull (s : State) (p : Nat) : Bool :=
  let pt := s.part p
  ringFull pt.rptail pt.rphead (bits pt.replayctl 8 4 + 7)

/-- A replay record appended (R446). -/
def State.replay (s : State) (p kind bytesMask ident : Nat) (stamp addr data : Word) : State :=
  let pt := s.part p
  let log := bits pt.replayctl 8 4 + 7
  match ringSlot pt.replayctl log pt.rptail.toNat 32 with
  | none => s
  | some at' =>
    let v := kind + bytesMask * 2 ^ 36 + ident * 2 ^ 44 + stamp.toNat * 2 ^ 64 + addr.toNat * 2 ^ 128
      + data.toNat * 2 ^ 192
    (s.putMem at' 32 v).onPart p (fun q => { q with rptail := BitVec.ofNat 64 ((q.rptail.toNat + 1) % 2 ^ 32) })

/-- A free value that nothing constrains; the counter advances so that each is another (DESIGN CHOICE, log 1). -/
def State.freeValue (s : State) : Word × State := (Config.freeWord s.free, { s with free := s.free + 1 })

/-- A new name for a task, an entry or a store. -/
def State.fresh (s : State) : Nat × State := (s.names, { s with names := s.names + 1 })

end Sys2Proof.Machine
end

