-- ==== Sys2Proof/Machine/Orders.lean ====
section
/-! DEFINITION. Happens-before (R361) as far as a region conflict asks for it (R376): which contexts know of the accesses that a
parent's open region made before an HSTART. Every other access is known to others only once its region has ended. -/

namespace Sys2Proof.Machine

/-- The instruction in progress. -/
def State.inProgress (s : State) : Option Instr :=
  match decode s.ctx.ir.toList with
  | .ok i => some i
  | .error _ => none

/-- The scope of an instruction that acquires by what it reads (R360, R388). -/
def Instr.acquireScope : Instr → Option (BitVec 3)
  | .ldacqI64 f => some f.md
  | .ldacqW96 f => some f.md
  | .aadd f | .afadd f | .amin f | .amax f | .aand f | .aor f | .axor f | .axchg f | .acas f =>
    if f.c.toNat % 2 = 1 then some f.md else none
  | _ => none

/-- The instance of a scope that one of two contexts names holds both; the contexts are given by their cores (R364). -/
def sameInstance (scope : BitVec 3) (c d : Nat) : Bool :=
  match scope.toNat with
  | 0 => false
  | 1 => c / 4 == d / 4
  | 2 => c / 16 == d / 16
  | 3 => c / 384 == d / 384
  | _ => true

/-- What a release wrote into a range of bytes, as an acquire of a scope on a core reads it (R361). -/
def Knower.readBy (k : Knower) (sp : Space) (a n core : Nat) (scope : BitVec 3) : Bool :=
  match k with
  | .byte sp' a' core' scope' =>
    sp' == sp && decide (a ≤ a') && decide (a' < a + n) && sameInstance scope' core' core && sameInstance scope core' core
  | _ => false

/-- The task of a core of the module, by its name. -/
def State.taskOn (s : State) (core : Nat) : Nat :=
  if core = s.coreNo then s.task.id else ((Tbl.getD s.others core {}).k.task.getD {}).id

/-- The context in focus, as one that knows. -/
def State.me (s : State) : Knower := .ctx s.task.id s.ctx.slot

/-- Who has learned of the accesses that `src` names tells them to others. (DEDUCED, log 24.) -/
def State.teach (s : State) (src : Earlier → Bool) (dst : List Knower) : State :=
  if s.before.isEmpty then s
  else
    let told := (s.before.filter src).flatMap (fun x => dst.map (fun d => { x with by' := d, since := s.names, until' := none }))
    let isNew := fun (y : Earlier) => !(s.before.any (fun x => x.until'.isNone && { x with since := y.since } == y))
    { s with before := s.before ++ (told.filter isNew).eraseDups }

/-- A release of the context in focus. -/
def State.tell (s : State) (dst : List Knower) : State := s.teach (fun x => x.by' == s.me && x.until'.isNone) dst

/-- An acquire of the context in focus. -/
def State.learn (s : State) (src : List Knower) : State := s.teach (fun x => src.contains x.by') [s.me]

/-- What stood of the knowledge of some is gone. -/
def State.unlearn (s : State) (hit : Knower → Bool) : State :=
  if s.before.isEmpty then s else { s with before := s.before.filter (fun x => !(hit x.by')) }

/-- The bytes of a range, as a release writes them. -/
def State.releaseBytes (s : State) (sp : Space) (a n : Nat) (scope : BitVec 3) : List Knower :=
  (upFrom a n).map (fun b => .byte sp b s.coreNo scope)

/-- Bytes written by another write than a release or a read-modify-write: what a release wrote there is gone (R361).
(DEDUCED, log 24.) -/
def State.overwrite (s : State) (sp : Space) (a n : Nat) : State :=
  s.unlearn (fun k => match k with
    | .byte sp' a' _ _ => sp' == sp && decide (a ≤ a') && decide (a' < a + n)
    | _ => false)

/-- The maker of an access knows of a recorded access of a parent, which so happens before it; or it acquires it, by the release
whose value it reads (R361, R376). A context of another module is not followed. (DEDUCED, log 24.) -/
def State.happensBefore (s : State) (ag : Agent) (ident g : Nat) (write : Bool) (reads : Knower → Bool) : Bool :=
  let mine := Knower.ctx (s.taskOn ag.core) (ag.ident % 16)
  let knows := fun (x : Earlier) => x.by' == mine && ag.ident / 2 ^ 14 == s.modNo && decide (x.since ≤ ag.regionAt) &&
    x.until'.all (fun n => decide (ag.regionAt < n))
  s.before.any (fun x => x.parent == ident && x.granule == g && x.write == write && (knows x || reads x.by'))

/-- A recorded access of a parent after an HSTART: no other context knows of it. -/
def State.unnote (s : State) (ident g : Nat) (write : Bool) : State :=
  if s.before.isEmpty then s
  else { s with before := s.before.filter (fun x => !(x.parent == ident && x.granule == g && x.write == write)) }

/-- The region of a context ends: nothing of it stays open. -/
def State.forgetRegion (s : State) (ident : Nat) : State :=
  if s.before.isEmpty then s else { s with before := s.before.filter (fun x => x.parent != ident) }

/-- A helper ends: what it knew stands for the accesses that its engines still make for it, and for its parent's HWAIT if it ends by
HEXIT (R361). (DEDUCED, log 24.) -/
def State.retireHelper (s : State) (byExit : Bool) : State :=
  if s.before.isEmpty then s
  else
    let s1 := if byExit then s.tell [.ended s.task.id s.ctx.slot] else s
    { s1 with before := s1.before.map (fun x => if x.by' = s.me ∧ x.until'.isNone then { x with until' := some s.names } else x) }

end Sys2Proof.Machine
end

