-- ==== Sys2Proof/Machine/Translate.lean ====
section
/-! DEFINITION. Translation of data and fetch addresses: the heap window, the page walk, the TLB, homes, record blocks
and region records (R236 to R252, R371 to R377). -/

namespace Sys2Proof.Machine

/-- Why an instruction or an engine's access does not go through; nothing of it is performed. -/
inductive Stop where
  /-- A trap: cause, TRAPADDR, and DETAIL of the fault record (R413, R421). -/
  | trap (cause : Nat) (addr detail : Word)
  /-- A page fault: address, level of the invalid entry, whether the access writes (R250). -/
  | pageFault (va : Word) (level : Nat) (write : Bool) (path : Path)
  /-- A tier miss on the leaf at this address (R255). -/
  | tierMiss (leafAt : Nat) (va : Word)
  /-- The unit waits; nothing has happened. -/
  | hold (w : Wait)
  /-- The task ends Faulted with this cause: DETAIL and ADDR of its record (R423, R424). -/
  | ends (cause : Nat) (detail addr : Word)
  /-- A line whose parity stays wrong, by its physical address (R53). -/
  | parity (line : Nat)
  /-- The page-out of the leaf at this address is abandoned first, and the access is made again (R257). -/
  | abandon (leafAt : Nat)
  deriving DecidableEq, Repr

/-- PATH of a page request (R250). -/
def Path.code : Path → Nat
  | .ls => 0 | .cp => 1 | .mx => 2 | .ix => 3 | .at => 4 | .fb => 5 | .fetch => 6 | .queueEngine => 7

/-- Causes that the rest of the model names (R413). -/
def Stop.illegal : Stop := .trap 1 0 0

/-- Bits 63 to 57 equal bit 56 (R121). -/
def canonical (va : Word) : Bool := bits va 56 8 == 0 || bits va 56 8 == 255

/-- The aperture an address lies in: local memory or cluster memory (R128). -/
def apertureOf (va : Word) : Option Space :=
  if bits va 56 8 = 0x80 then some .localMem else if bits va 56 8 = 0x81 then some .clusterMem else none

/-- Leaf fields (R242). -/
def leafFrame (e : Word) : Nat := bits e 16 36 * 65536
def leafHome (e : Word) : Nat := bits e 10 6
def leafTier (e : Word) : Nat := bits e 59 2
def leafChk (e : Word) : Bool := e.getLsbD 61
def leafPin (e : Word) : Bool := e.getLsbD 58
def leafW (e : Word) : Bool := e.getLsbD 8
def leafX (e : Word) : Bool := e.getLsbD 7

/-- A movable page: unpinned, of 64 KiB (R249). -/
def movable (e : Word) (level : Nat) : Bool := level == 0 && !(leafPin e)

/-- Page size of a leaf at a level: 1 GiB, 2 MiB or 64 KiB (R240). -/
def levelSize (level : Nat) : Nat := if level = 2 then 2 ^ 30 else if level = 1 then 2 ^ 21 else 2 ^ 16

/-- Index of a level (R240). -/
def levelIndex (va : Word) (level : Nat) : Nat :=
  if level = 0 then bits va 16 5 else bits va (21 + 9 * (level - 1)) 9

/-- The outcome of a walk (R241, R242, R248). -/
inductive Walk where
  /-- A refusal under R12, of the entry at this address. -/
  | reserved (entryAt : Nat)
  /-- Any other refusal. -/
  | refused
  | invalid (level : Nat)
  /-- The memory that holds an entry is out of service (R455). -/
  | dead
  | leaf (entry : Word) (entryAt level : Nat)
  deriving DecidableEq, Repr

/-- Reserved bits of a leaf: 63, 62, 57 to 52, 9 and 6 to 2 (R242). -/
def leafReserved (e : Word) : Bool := bits e 62 2 != 0 || bits e 52 6 != 0 || e.getLsbD 9 || bits e 2 5 != 0
/-- Reserved bits of a table entry: 63 to 52 and 7 to 2 (R241). -/
def tableReserved (e : Word) : Bool := bits e 52 12 != 0 || bits e 2 6 != 0

/-- Judgement of a leaf (R242). -/
def State.judgeLeaf (s : State) (p : Nat) (e : Word) (at' level : Nat) : Walk :=
  if leafReserved e || (leafW e && leafX e) || leafTier e == 3 then .reserved at'
  else if level ≥ 3 then .refused
  else if leafFrame e % levelSize level ≠ 0 ∨ leafHome e ≥ 48 then .refused
  else if leafTier e ≠ 0 ∧ (level ≠ 0 ∨ leafPin e) then .refused
  else if leafTier e = 0 ∧ ¬ (s.hbmOwned p (leafFrame e) ∧ s.inView (leafFrame e + levelSize level - 1)) then .refused
  else if leafTier e = 1 ∧ ¬ s.tierOwned p (leafFrame e) then .refused
  else .leaf e at' level

/-- HBM at an address is in service, and so is a link to its module (R455, R460). -/
def State.memAlive (s : State) (pa : Nat) : Bool :=
  if modOf pa = s.modNo then !(s.fenced.any (fun f => f.1 == .pseudoChannel && f.2 / 16 == setOf pa))
  else !(s.mod.lost.contains (modOf pa))

/-- The key of a walk-cache entry: the die, and the entry's address. -/
def walkKey (die at' : Nat) : Nat := die * 2 ^ 52 + at'

/-- A table entry put into the walk cache of a die; of a full cache one entry gives way (R245). (DESIGN CHOICE, log 7.) -/
def State.walkPut (s : State) (die at' : Nat) (e : Word) : State :=
  let mine := s.walks.filter (fun (x : Nat × Word) => x.1 / 2 ^ 52 == die)
  if mine.length < Config.walkEntries then { s with walks := Tbl.put s.walks (walkKey die at') e }
  else
    let out := (mine.getD (Config.tlbVictim s.free % Config.walkEntries) (0, 0)).1
    { s with walks := Tbl.put (Tbl.del s.walks out) (walkKey die at') e, free := s.free + 1 }

/-- A table entry as the walkers of a die see it: the walk cache holds valid table entries of levels 4 to 2 (R245). None if
it has to be read from memory that is out of service (R455). (DESIGN CHOICE, log 7.) -/
def State.walkRead (s : State) (die level at' : Nat) : Option (Word × State) :=
  match (if level ≥ 2 then Tbl.find s.walks (walkKey die at') else none) with
  | some e => some (e, s)
  | none =>
    if !s.memAlive at' then none
    else
      let e := BitVec.ofNat 64 (Mem.readLE s.mem at' 8)
      some (e, if level ≥ 2 ∧ bits e 0 2 = 1 ∧ ¬ tableReserved e then s.walkPut die at' e else s)

/-- The walk from the table at `table`, levels downward (R240 to R242). -/
def State.walkFrom (s : State) (p die : Nat) (va : Word) : Nat → Nat → Walk × State
  | level, table =>
    if ¬ s.hbmOwned p table then (.refused, s)
    else
      let at' := table + 8 * levelIndex va level
      match s.walkRead die level at' with
      | none => (.dead, s)
      | some (e, s1) =>
        match bits e 0 2 with
        | 0 => (.invalid level, s1)
        | 1 =>
          match level with
          | 0 => (if tableReserved e then .reserved at' else .refused, s1)
          | next + 1 =>
            if tableReserved e then (.reserved at', s1)
            else if bits e 8 4 ≠ 0 ∧ next ≠ 0 then (.refused, s1)
            else s1.walkFrom p die va next (bits e 8 44 * 256)
        | 2 => (s1.judgeLeaf p e at' level, s1)
        | _ => (.reserved at', s1)

/-- The walk of a canonical address in a partition's space (R240). -/
def State.walk (s : State) (p die : Nat) (va : Word) : Walk × State :=
  s.walkFrom p die va 4 (bits (s.part p).ptroot 12 40 * 4096)

/-- A record block for a 2 MiB region of this module's memory: allocated, or refused beyond the cap with one error
record (R243). The region's records then read as no access. A region of another module has its block there. The block
takes its 256 KiB from the top of the HBM that programs see (R5). (DESIGN CHOICE, log 35.) -/
def State.needBlock (s : State) (p : Option Nat) (region : Nat) : Bool × State :=
  if modOf (region * 2 ^ 21) ≠ s.modNo ∨ s.recBlocks.contains region then (true, s)
  else if s.recBlocks.length < Config.recordBlocks then
    (true, { s with
      recBlocks := region :: s.recBlocks
      refused := s.refused.filter (fun r => r != region)
      records := s.records.filter (fun r => r.1 * 64 / 2 ^ 21 != region) })
  else if s.refused.contains region then (false, s)
  else (false, { s with refused := region :: s.refused }.errorRecord 6 .shared 0 p (region * 2 ^ 21))

/-- The home map (R448); zero names none. -/
def State.mapBase (s : State) : Nat := bits s.mod.homemap 12 40 * 4096

/-- The home-map byte of an address (R448). -/
def State.mapByte (s : State) (pa : Nat) : Byte := Mem.get s.mem (s.mapBase + offsetOf pa / 2 ^ 21)

/-- Home-map bytes, among those written, that mark a region as checked ask for its record block; the error record of a
refusal names the partition that owns the region (R243). (DEDUCED, log 24.) -/
def State.askBlocks (s : State) (cells : List (Nat × Byte)) : State :=
  let base := s.mapBase
  let asked := cells.filter (fun c => base != 0 && decide (base ≤ c.1) && decide (c.1 < base + Config.regions) && c.2.getLsbD 7)
  asked.foldl (fun (acc : State) c =>
    let region := s.modNo * 2 ^ 25 + (c.1 - base)
    (acc.needBlock ((upFrom 0 16).find? (fun p => s.ownsSet p (setOf (region * 2 ^ 21)))) region).2) s

/-- Where an access goes. -/
structure Target where
  space : Space
  addr : Nat
  home : Nat := 0
  checked : Bool := false
  /-- Address of the leaf, for a paged access. -/
  leafAt : Option Nat := none
  leaf : Word := 0
  deriving DecidableEq, Repr

/-- A translation remembered until its range is shot down (R82). -/
def State.noteTranslation (s : State) (part base size : Nat) (leaf : Word) : State :=
  let x : Mapping := { part := part, base := base, size := size, frame := leafFrame leaf }
  if s.translated.contains x then s else { s with translated := x :: s.translated }

/-- An entry put into the TLB of the core in focus; when it is full one gives way (R244). (DESIGN CHOICE, log 7.) -/
def State.tlbPut (s0 : State) (e : TlbEntry) : State :=
  let s := s0.noteTranslation e.part e.base e.size e.leaf
  let rest := s.hw.tlb.filter (fun t => !(t.base == e.base && t.size == e.size && t.part == e.part))
  if rest.length < Config.tlbEntries then { s with hw := { s.hw with tlb := e :: rest } }
  else { s with hw := { s.hw with tlb := e :: rest.eraseIdx (Config.tlbVictim s.free % Config.tlbEntries) },
                free := s.free + 1 }

/-- The cached translation of an address. -/
def State.tlbFind (s : State) (p : Nat) (va : Word) : Option TlbEntry :=
  s.hw.tlb.find? (fun t => t.part == p && decide (t.base ≤ va.toNat) && decide (va.toNat < t.base + t.size))

/-- The leaf at an address as memory holds it. -/
def State.leafAt (s : State) (at' : Nat) : Word := BitVec.ofNat 64 (Mem.readLE s.mem at' 8)

/-- The page record of a leaf. -/
def State.page (s : State) (leafAt : Nat) : Page := Tbl.getD s.pages leafAt {}

/-- A change of a page record. (DESIGN CHOICE, log 7.) -/
def State.onPage (s : State) (leafAt : Nat) (f : Page → Page) : State :=
  { s with pages := Tbl.put s.pages leafAt (f (s.page leafAt)) }

/-- Accesses to a region are recorded: it has its block. -/
def State.hasBlock (s : State) (pa : Nat) : Bool := modOf pa != s.modNo || s.recBlocks.contains (pa / 2 ^ 21)

/-- A valid, resident leaf is cached (R243, R244). -/
def State.cacheLeaf (s : State) (p : Nat) (va : Word) (e : Word) (at' level : Nat) : TlbEntry × State :=
  let size := levelSize level
  let region := (leafFrame e + va.toNat % size) / 2 ^ 21
  let r := if leafChk e then s.needBlock (some p) region else (false, s)
  let t : TlbEntry :=
    { base := va.toNat / size * size, size := size, leaf := e, leafAt := at', checked := r.1 || (leafChk e && level != 0),
      part := p, asked := if leafChk e then [region] else [], refused := if leafChk e && !r.1 then [region] else [] }
  (t, r.2.tlbPut t)

/-- A cached translation of a large page keeps a region whose block it has asked for, and whether it was refused: no access asks
again (R243). -/
def State.noteAsked (s : State) (t : TlbEntry) (region : Nat) (given : Bool) : State :=
  let same := fun (x : TlbEntry) => x.base == t.base && x.size == t.size && x.part == t.part
  let note := fun (x : TlbEntry) =>
    { x with asked := region :: x.asked, refused := if given then x.refused else region :: x.refused }
  { s with hw := { s.hw with tlb := s.hw.tlb.map (fun x => if same x then note x else x) } }

/-- A paged translation through a TLB entry: the block of each region of a large page is asked for at the first access to it. A
block that has been released comes back at a walk, and until then its region is not checked (R243). -/
def State.throughTlb (s : State) (p : Nat) (t : TlbEntry) (va : Word) : Target × State :=
  let pa := leafFrame t.leaf + va.toNat % t.size
  let region := pa / 2 ^ 21
  let r :=
    if !t.checked || t.refused.contains region then (false, s)
    else if t.size = 2 ^ 16 ∨ t.asked.contains region then (s.hasBlock pa, s)
    else
      let r := s.needBlock (some p) region
      (r.1, r.2.noteAsked t region r.1)
  ({ space := .globalMem, addr := pa, home := leafHome t.leaf, checked := r.1, leafAt := some t.leafAt, leaf := t.leaf },
    r.2)

/-- The window translation of R238 and the home of R239. A region is checked by its home-map bit if it has its block, which
the writing of that bit has asked for (R243). (DEDUCED, log 24.) The reserved bit 6 of a home-map byte is not examined.
(DESIGN CHOICE, log 24.) -/
def State.windowTarget (s : State) (ag : Agent) (va : Word) (n : Nat) : Except Stop (Target × State) :=
  let bad := Stop.trap 7 va 0
  if va.toNat + n > ag.win.lim.toNat then .error bad
  else
    let pa := (va + ag.win.off).toNat
    if ¬ s.hbmOwned ag.part pa then .error bad
    else
      if s.mapBase = 0 then .error bad
      else
        let byte := s.mapByte pa
        .ok ({ space := .globalMem, addr := pa, home := bits byte 0 6, checked := byte.getLsbD 7 && s.hasBlock pa }, s)

/-- The address lies in the agent's window (R238). -/
def inWindow (ag : Agent) (va : Word) : Bool :=
  decide (ag.win.base.toNat ≤ va.toNat) && decide (va.toNat < ag.win.lim.toNat)

/-! Order of arrival (R253, R384). -/

/-- A core's state, in focus or not. -/
def State.coreAt (s : State) (c : Nat) : CoreState :=
  if c = s.coreNo then { ctx := s.ctx, k := s.k, hw := s.hw } else Tbl.getD s.others c {}

/-- Cores that hold state of their own: the one in focus and those listed. -/
def State.coreList (s : State) : List Nat := s.coreNo :: s.others.map (fun (e : Nat × CoreState) => e.1)

/-- The same in ascending order. -/
def State.coresUp (s : State) : List Nat := (upFrom 0 Config.cores).filter s.coreList.contains

/-- The lane of a context in its core's port: the control context, then helpers in slot order (R384). -/
def laneOf (slot : Nat) : Nat := if slot = 15 then 0 else slot + 1

/-- The lane of an access: copies and indirect accesses have ports of their own. -/
def State.laneOfPath (s : State) (path : Path) : Nat :=
  match path with
  | .cp => 16
  | .ix => 17
  | _ => laneOf s.ctx.slot

/-- An access that waits in order of arrival. -/
structure Waiter where
  core : Nat
  lane : Nat
  age : Nat
  deriving DecidableEq, Repr

/-- The age of a wait for a key of a kind. -/
def ageFor (key : Nat → Bool) (w : Option Wait) : Option Nat :=
  match w with
  | some (.turn k a) => if key k then some a else none
  | _ => none

/-- A core's accesses that wait for a key of a kind. -/
def CoreState.waiters (x : CoreState) (key : Nat → Bool) (core : Nat) : List Waiter :=
  (x.ctx :: x.k.peers).filterMap (fun c => (ageFor key c.hold).map (fun a => { core := core, lane := laneOf c.slot, age := a })) ++
  x.k.chans.toList.filterMap (fun c => (ageFor key c.waiting).map (fun a => { core := core, lane := 16, age := a }))

/-- Every access that waits for a key of a kind. -/
def State.waitersOf (s : State) (key : Nat → Bool) : List Waiter :=
  s.coreList.flatMap (fun c => (s.coreAt c).waiters key c) ++
  s.ix.flatMap (fun (e : Nat × List IxReq) => e.2.filterMap (fun r =>
    (ageFor key r.waiting).map (fun a => { core := r.core, lane := 17, age := a })))

/-- Every access that waits for a key. -/
def State.waiters (s : State) (key : Nat) : List Waiter := s.waitersOf (fun k => k == key)

/-- An address in a 64 KiB frame. -/
def inFrame (frame a : Nat) : Bool := decide (frame ≤ a) && decide (a < frame + 65536)

/-- A key of a line of a frame. -/
def lineKeyIn (frame : Nat) (key : Nat) : Bool := key % 2 == 0 && inFrame frame (key / 2 * 64)

/-- The place of a waiter at a home: its cycle of arrival, then the port order of R384. -/
def Waiter.rank (w : Waiter) (home : Nat) : Nat :=
  let port := if w.core / 16 = home then (if 16 ≤ w.lane then w.lane else w.core % 16) else 18
  ((w.age * 32 + port) * 1024 + w.core) * 32 + w.lane

/-- An access of the core in focus as a waiter: it keeps the age of its first arrival. -/
def State.asWaiter (s : State) (key : Nat) (path : Path) : Waiter :=
  let lane := s.laneOfPath path
  let mine := (s.waiters key).filter (fun w => w.core == s.coreNo && w.lane == lane)
  { core := s.coreNo, lane := lane, age := mine.foldl (fun a w => min a w.age) s.cycle.toNat }

/-- No other access that waits for the key goes before this one. -/
def State.isFirst (s : State) (key home : Nat) (path : Path) : Bool :=
  let me := s.asWaiter key path
  (s.waiters key).all (fun w => (w.core == me.core && w.lane == me.lane) || decide (me.rank home < w.rank home))

/-- The access waits for a line of a frame already: it is in progress (R253, R384). -/
def State.waitsIn (s : State) (path : Path) (frame : Nat) : Bool :=
  (s.waitersOf (lineKeyIn frame)).any (fun w => w.core == s.coreNo && w.lane == s.laneOfPath path)

/-- A page that is being moved holds a new access (R253). -/
def State.pageHolds (s : State) (path : Path) (pg : Page) : Bool :=
  match pg.stage with
  | .holding => !(s.waitsIn path (leafFrame pg.oldLeaf))
  | .streaming | .switching => true
  | _ => false

/-- The access waits for its turn. -/
def State.turn (s : State) (key : Nat) (path : Path) : Stop := .hold (.turn key (s.asWaiter key path).age)

/-- The leaf of a page that has moved (R253). -/
def Page.movedLeaf (pg : Page) : Word := setBits (setBits pg.oldLeaf 16 36 (pg.newFrame / 65536)) 10 6 pg.target

/-- The entry of a page that a page-out has set to TIER 2 (R257). -/
def Page.outLeaf (pg : Page) : Word := setBits pg.oldLeaf 59 2 2

/-- A page-out abandoned (R257): by compare-and-swap the entry returns to TIER 0 with its old frame; the second-tier frame
returns to the pool. What waits for the page-out is released after it. -/
def State.abandonPageOut (s : State) (leafAt : Nat) : State :=
  let pg := s.page leafAt
  let s1 := if Mem.readLE s.mem leafAt 8 = pg.outLeaf.toNat then s.putMem leafAt 8 pg.oldLeaf.toNat else s
  (s1.returnFrame pg.part pg.newFrame).onPage leafAt (fun q => { q with stage := .none, wanted := false, undone := true })

/-- Accesses that a page has held go on in order of arrival (R253). -/
def State.inTurn (s : State) (path : Path) (t : TlbEntry) (r : Except Stop (TlbEntry × State)) :
    Except Stop (TlbEntry × State) :=
  let key := 2 * t.leafAt + 1
  if (Tbl.find s.pages t.leafAt).isNone || s.isFirst key (leafHome t.leaf) path then r else .error (s.turn key path)

/-- What a page in the middle of a move or a tier change does to an access that has a cached translation: held while the
page holds new requests; forwarded with a redirect notice once it has moved, if the translation names its old frame; a page-out is
abandoned by a parking kind, and waited for by any other (R252, R253, R257). -/
def State.movingPage (s : State) (p : Nat) (parking : Bool) (path : Path) (va : Word) (t : TlbEntry) :
    Except Stop (TlbEntry × State) :=
  let pg := s.page t.leafAt
  if s.pageHolds path pg then .error (s.turn (2 * t.leafAt + 1) path)
  else
  match pg.stage with
  | .forwarding =>
    if leafFrame t.leaf ≠ leafFrame pg.oldLeaf then s.inTurn path t (.ok (t, s))
    else
      let t' := { t with leaf := pg.movedLeaf, checked := leafChk pg.movedLeaf && s.hasBlock pg.newFrame }
      let note : Cmd := { core := s.coreNo, part := p, addr := t.leafAt, value := pg.movedLeaf, tag := t.leaf }
      s.inTurn path t' (.ok (t', { s with inflight := s.inflight ++ [(.redirectNotice, note)] }))
  | .pageOut =>
    .error (if parking && Mem.readLE s.mem t.leafAt 8 == pg.outLeaf.toNat then .abandon t.leafAt else .tierMiss t.leafAt va)
  | .holding => .ok (t, s)
  | _ => s.inTurn path t (.ok (t, s))

/-- The leaf that translates a canonical address, from the TLB or by a walk (R244, R248 orders 3 to 5). -/
def State.findLeaf (s : State) (p : Nat) (parking write : Bool) (path : Path) (va : Word) :
    Except Stop (TlbEntry × State) :=
  match s.tlbFind p va with
  | some t => s.movingPage p parking path va t
  | none =>
    match s.walk p (s.coreNo / 384) va with
    | (.reserved at', _) => .error (.trap 19 (BitVec.ofNat 64 at') va)
    | (.refused, _) => .error (.trap 7 va 0)
    | (.invalid level, _) => .error (.pageFault va level write path)
    | (.dead, _) => .error (.ends 24 0 va)
    | (.leaf e at' level, s1) =>
      if leafTier e ≠ 0 then
        let pg := s1.page at'
        .error (if parking ∧ pg.stage = .pageOut ∧ e = pg.outLeaf then .abandon at' else .tierMiss at' va)
      else
        if s1.pageHolds path (s1.page at') then .error (s1.turn (2 * at' + 1) path)
        else
          let r := s1.cacheLeaf p va e at' level
          if (s1.page at').stage = .holding then .ok r else s1.inTurn path r.1 (.ok r)

/-- An access to fenced HBM or to a page homed in a fenced cluster, or a granule poisoned there, ends the task with cause
24, until the page has another home (R455). -/
def State.unitAlive (s : State) (t : Target) : Bool :=
  s.memAlive t.addr && (modOf t.addr != s.modNo || (!(s.isFenced .cluster t.home) &&
    !(s.poisoned.any (fun r => decide (r.1 ≤ t.addr) && decide (t.addr < r.1 + r.2.1) && r.2.2 == t.home))))

/-- Lines that a home's hot-line store holds, the most recently used first (R383). -/
def State.lines (s : State) (home : Nat) : List HotLine := Tbl.getD s.hot home []

/-- A request waits for a held line: of another module, or of a context or an engine of this one (R383, R384). -/
def State.lineWaits (s : State) (l : HotLine) : Bool := !l.waiting.isEmpty || !(s.waiters (2 * l.addr)).isEmpty

/-- A store that holds 64 lines, each with requests waiting, can take in no other (R383). -/
def State.lineFull (s : State) (home line : Nat) : Bool :=
  let ls := s.lines home
  ls.all (fun l => l.addr != line && s.lineWaits l) && decide (64 ≤ ls.length)

/-- An access to a line waits for every request for it that arrived before it (R384); an atomic waits too while the store can take
in no line. (DEDUCED, log 34.) -/
def State.lineBusy (s : State) (path : Path) (home line : Nat) : Bool :=
  let key := 2 * line
  let me := s.asWaiter key path
  (path == .at && s.lineFull home line) || !(s.isFirst key home path) ||
  (s.lines home).any (fun l => l.addr == line &&
    l.waiting.any (fun r => decide (({ core := 0, lane := 18, age := r.age } : Waiter).rank 48 < me.rank home)))

/-- Requests that wait for a line (R384). -/
def State.waitCount (s : State) (line : Nat) : Nat :=
  (s.waiters (2 * line)).length + ((s.hot.flatMap (fun (e : Nat × List HotLine) => e.2)).filter (fun l => l.addr == line)).foldl
    (fun n l => n + l.waiting.length) 0

/-- An access waits for its turn at a line; where 64 requests wait already it is not taken in, and comes again (R384).
(DEDUCED, log 34.) -/
def State.lineTurn (s : State) (line : Nat) (path : Path) : Stop :=
  let mine := (s.waiters (2 * line)).any (fun w => w.core == s.coreNo && w.lane == s.laneOfPath path)
  if mine || decide (s.waitCount line < 64) then s.turn (2 * line) path else .hold .room

/-- A request of another module waits for the held line of an address (R384). -/
def State.queuedAt (s : State) (addr : Nat) : Bool :=
  s.hot.any (fun (e : Nat × List HotLine) => e.2.any (fun l => l.addr == addr / 64 && !l.waiting.isEmpty))

/-- Some access beside the one at hand waits for the line of an address (R384). -/
def State.othersAwait (s : State) (path : Path) (addr : Nat) : Bool :=
  s.queuedAt addr || (s.waiters (2 * (addr / 64))).any (fun w => !(w.core == s.coreNo && w.lane == s.laneOfPath path))

/-- A byte of a store that goes home now would overtake a request that waits for its line (R384). -/
def State.byteWaits (s : State) (h : HeldByte) : Bool :=
  match h.space with
  | .localMem => false
  | .clusterMem => s.othersAwait .ls (2 ^ 52 + h.addr)
  | .globalMem => s.othersAwait .ls h.addr

/-- An STNT of the context in focus, or of the core, cannot be performed yet: requests wait for its line (R384). -/
def State.ntBlocked (s : State) : Bool := s.ctx.nt.any s.byteWaits
def State.coreNtBlocked (s : State) : Bool := (s.ctx :: s.k.peers).any (fun c => c.nt.any s.byteWaits)

/-- An access served from the store that holds its line: that line is the one used last (R383). -/
def State.touchLine (s : State) (line : Nat) : State :=
  let first := fun (ls : List HotLine) => ls.filter (fun l => l.addr == line) ++ ls.filter (fun l => l.addr != line)
  { s with hot := s.hot.map (fun (e : Nat × List HotLine) => (e.1, first e.2)) }

/-- The same of an access to a home: another home's store, in which no request waits for it, has written the line back (R239,
R383). (DEDUCED, log 34.) -/
def State.claimLine (s : State) (home line : Nat) : State :=
  let stays := fun (h : Nat) (l : HotLine) => h == home || l.addr != line || s.lineWaits l
  State.touchLine { s with hot := s.hot.map (fun (e : Nat × List HotLine) => (e.1, e.2.filter (stays e.1))) } line

/-- A write that is to be made to a line that a hot-line store holds: the line is dirty, and what it held before is kept (R383,
R455). (DEDUCED, log 34.) -/
def State.soil (s : State) (addr : Nat) : State :=
  let line := addr / 64
  let bytes := if line < 2 ^ 46 then Mem.bytes s.mem (line * 64) 64 else []
  let mark := fun (l : HotLine) => if l.addr = line ∧ ¬ l.dirty then { l with dirty := true, clean := bytes } else l
  State.touchLine { s with hot := s.hot.map (fun (e : Nat × List HotLine) => (e.1, e.2.map mark)) } line

/-- Lines of a kind that no request waits for are written back (R383): memory holds what they hold. -/
def State.writeBack (s : State) (hit : Nat → HotLine → Bool) : State :=
  { s with hot := s.hot.map (fun (e : Nat × List HotLine) => (e.1, e.2.filter (fun l => !(hit e.1 l) || s.lineWaits l))) }

/-- A store's line is of a page or a region that still has this home and belongs to the cluster's partition; any other has been written
back (R239, R453, R455). (DEDUCED, log 34.) -/
def State.stillHome (s : State) (home : Nat) (l : HotLine) : Bool :=
  let at' := l.addr * 64
  let mapped := match l.via with
    | some leafAt =>
      let e := s.leafAt leafAt
      bits e 0 2 == 2 && leafTier e == 0 && leafHome e == home && decide (leafFrame e ≤ at') && decide (at' < leafFrame e + 2 ^ 30)
    | none => bits (s.mapByte at') 0 6 == home
  decide (2 ^ 46 ≤ l.addr) || (mapped && (upFrom 0 16).all (fun p => s.ownsSet p (setOf at') == s.ownsCluster p home))

/-- Translation of a data access to global memory: the checks of R248 in their order. `parking` says whether the access
is of a parking kind (R255). An address of HBM that the record blocks have taken since is none (R5). A context's own store soils its line when it is performed. (DEDUCED, log 24.) -/
def State.translate (s : State) (ag : Agent) (path : Path) (parking write : Bool) (va : Word) (n : Nat) :
    Except Stop (Target × State) :=
  if ¬ canonical va then .error (.trap 7 va 0)
  else do
    let (t, s1) ← (if inWindow ag va then s.windowTarget ag va n else do
      let (t, s1) ← s.findLeaf ag.part parking write path va
      if write && !leafW t.leaf then .error (.trap 8 va 0)
      else .ok (s1.throughTlb ag.part t va))
    if ¬ s1.inView (t.addr + n - 1) then .error (.trap 7 va 0)
    else if ¬ s1.unitAlive t then .error (.ends 24 0 va)
    else if modOf t.addr = s1.modNo ∧ s1.lineBusy path t.home (t.addr / 64) then .error (s1.lineTurn (t.addr / 64) path)
    else
      let s2 := if modOf t.addr = s1.modNo then s1.claimLine t.home (t.addr / 64) else s1
      .ok (t, if write && path != .at && path != .ls then s2.soil t.addr else s2)

/-- Translation of an instruction fetch: no window; execute access is asked for (R81, R158). A hint's fetch is of no parking
kind: it abandons no page-out (R73). (DEDUCED, log 24.) -/
def State.translateFetch (s : State) (p : Nat) (parking : Bool) (va : Word) : Except Stop (Target × State) :=
  if ¬ canonical va then .error (.trap 7 va 0)
  else do
    let (t, s1) ← s.findLeaf p parking false .fetch va
    if !leafX t.leaf then .error (.trap 9 va 0)
    else
      let (g, s2) := s1.throughTlb p t va
      if ¬ s2.inView g.addr then .error (.trap 7 va 0)
      else if s2.unitAlive g then .ok (g, s2)
      else .error (.ends 24 0 va)

/-- A context of this module, by core and slot, if it is live. -/
def State.findCtx (s : State) (core slot : Nat) : Option Ctx :=
  let cs : List Ctx :=
    if core = s.coreNo then s.ctx :: s.k.peers
    else match Tbl.find s.others core with
      | some o => o.ctx :: o.k.peers
      | none => []
  cs.find? (fun c => c.slot == slot)

/-- Open of a recorded access (R374): an application core's identity has slot 14 and is never open (R445). -/
def State.regionOpen (s : State) (ident tag : Nat) : Bool :=
  if ident = noIdent ∨ ident % 16 = 14 then false
  else if ident / 2 ^ 14 = s.modNo then
    match s.findCtx (ident / 16 % 1024) (ident % 16) with
    | some c => c.tag == some tag
    | none => false
  else Tbl.find s.homeTags ident == some tag

/-- Fields of an access record (R372); an unlisted record reads as no access. -/
def noRecord : Word := BitVec.ofNat 64 (noIdent * 2 ^ 44 + noIdent * 2 ^ 12)
def State.record (s : State) (g : Nat) : Word := Tbl.getD s.records g noRecord
def recWCtx (r : Word) : Nat := bits r 44 20
def recWTag (r : Word) : Nat := bits r 33 11
def recWAt (r : Word) : Bool := r.getLsbD 32
def recRCtx (r : Word) : Nat := bits r 12 20
def recRTag (r : Word) : Nat := bits r 1 11
def recRAt (r : Word) : Bool := r.getLsbD 0

/-- The conflict word (R377). -/
def conflictWord (octx : Nat) (owrite oat twrite tat : Bool) : Word :=
  BitVec.ofNat 64 (octx * 2 ^ 44 + owrite.toNat * 2 ^ 43 + oat.toNat * 2 ^ 42 + twrite.toNat * 2 ^ 41
    + tat.toNat * 2 ^ 40)

/-- A helper starts: what the records name of its parent's open region, and what its parent knows, it knows too (R361). The slot's
earlier helper is told of no more. -/
def State.noteBefore (s : State) (slot : Nat) : State :=
  let p := identOf s.modNo s.coreNo s.ctx.slot
  let helper := Knower.ctx s.task.id slot
  let s1 := (s.unlearn (fun k => k == .ended s.task.id slot)).tell [helper]
  let note := fun (g : Nat) (write : Bool) =>
    ({ parent := p, granule := g, write := write, by' := helper, since := s.names } : Earlier)
  match s.ctx.tag with
  | none => s1
  | some tag =>
    { s1 with before := s1.before ++ s.records.flatMap (fun (e : Nat × Word) =>
        (if recWCtx e.2 = p ∧ recWTag e.2 = tag then [note e.1 true] else []) ++
        (if recRCtx e.2 = p ∧ recRTag e.2 = tag then [note e.1 false] else [])) }

/-- The check of R373 at one granule: the conflict word of a report, or the record as the access leaves it. `writes` says
the access is a write or a read-modify-write for the check, `recordsWrite` how it is recorded (R387), and `reads` what an acquire
reads. -/
def State.checkGranule (s : State) (ag : Agent) (g : Nat) (writes recordsWrite atomic : Bool) (reads : Knower → Bool) :
    Except Word State :=
  let r := s.record g
  let other := fun (ident tag : Nat) (write : Bool) =>
    s.regionOpen ident tag && ident != ag.ident && !(s.happensBefore ag ident g write reads)
  if other (recWCtx r) (recWTag r) true && !(recWAt r && atomic) then
    .error (conflictWord (recWCtx r) true (recWAt r) writes atomic)
  else if writes && other (recRCtx r) (recRTag r) false && !(recRAt r && atomic) then
    .error (conflictWord (recRCtx r) false (recRAt r) writes atomic)
  else
    match ag.tag with
    | none => .ok s
    | some tag =>
      let r' := if recordsWrite then setBits r 32 32 (ag.ident * 2 ^ 12 + tag * 2 + atomic.toNat)
        else setBits r 0 32 (ag.ident * 2 ^ 12 + tag * 2 + atomic.toNat)
      .ok ({ s with records := Tbl.put s.records g r' }.unnote ag.ident g recordsWrite)

/-- A context's identity and a tag that it takes anew: no record names an ended region by them any more (R375). -/
def State.forgetTag (s : State) (ident tag : Nat) : State :=
  let clear := fun (r : Word) =>
    let r1 := if recWCtx r = ident ∧ recWTag r = tag then setBits r 32 32 (noIdent * 2 ^ 12) else r
    if recRCtx r1 = ident ∧ recRTag r1 = tag then setBits r1 0 32 (noIdent * 2 ^ 12) else r1
  { s with records := (s.records.map (fun (e : Nat × Word) => (e.1, clear e.2))).filter (fun e => e.2 != noRecord) }

/-- The check of an access of `n` bytes at a target; it is performed only if no granule reports (R373). -/
def State.checkAccess (s : State) (ag : Agent) (t : Target) (n : Nat) (writes recordsWrite atomic : Bool) :
    Except Word State :=
  if t.checked then do
    let g0 := t.addr / 64
    let g1 := (t.addr + n - 1) / 64
    let reads := fun (k : Knower) => match s.inProgress.bind Instr.acquireScope with
      | some scope => atomic && ag.ident == identOf s.modNo s.coreNo s.ctx.slot && k.readBy t.space t.addr n s.coreNo scope
      | none => false
    let s1 ← s.checkGranule ag g0 writes recordsWrite atomic reads
    if g1 = g0 then .ok s1 else s1.checkGranule ag g1 writes recordsWrite atomic reads
  else .ok s

end Sys2Proof.Machine
end

