-- ==== Sys2Proof/Machine/Entries.lean ====
section
/-! DEFINITION. A tensor-table entry's fields (R118, R119), element addresses (R120), usability (R121) and bounds (R122); the
operands of a product, and its operand messages (R299, R300). -/

namespace Sys2Proof.Machine

/-! Fields of an entry. -/

def tBase (e : Word512) : Nat := bits e 0 64
def tExtent (e : Word512) : Nat := bits e 64 48
def tFmt (e : Word512) : BitVec 4 := BitVec.ofNat 4 (bits e 112 4)
def tSpace (e : Word512) : Nat := bits e 116 2
def tMode (e : Word512) : Nat := bits e 118 2
def tStride1 (e : Word512) : Int := signExt (bits e 128 48) 48
def tStride2 (e : Word512) : Int := signExt (bits e 176 48) 48
def tSize (e : Word512) (n : Nat) : Nat := bits e (256 + 24 * n) 24
def tRank (e : Word512) : Nat := bits e 352 3
def tBexp (e : Word512) : Int := signExt (bits e 364 8) 8
def tScaleId (e : Word512) : Nat := bits e 372 6
def tScv (e : Word512) : Bool := e.getLsbD 378
def tZs (e : Word512) : Bool := e.getLsbD 379

/-- Bytes of an element (R120). -/
def tWidth (e : Word512) : Nat := tyBytes (tFmt e)

/-- An index tuple. -/
structure Tuple where
  i0 : Nat := 0
  i1 : Nat := 0
  i2 : Nat := 0
  i3 : Nat := 0
  deriving DecidableEq, Repr

/-- Elements of a tensor: the product of its sizes (R165). -/
def tCount (e : Word512) : Nat := tSize e 0 * tSize e 1 * tSize e 2 * tSize e 3

/-- The tuple of a linear index (R164). -/
def tupleOf (e : Word512) (m : Nat) : Tuple :=
  let r1 := m / tSize e 0
  let r2 := r1 / tSize e 1
  { i0 := m % tSize e 0, i1 := r1 % tSize e 1, i2 := r2 % tSize e 2, i3 := r2 / tSize e 2 }

/-- A broadcast dimension is read at index 0 (R165). -/
def bcast (e : Word512) (t : Tuple) : Tuple :=
  { i0 := if tSize e 0 = 1 then 0 else t.i0, i1 := if tSize e 1 = 1 then 0 else t.i1,
    i2 := if tSize e 2 = 1 then 0 else t.i2, i3 := if tSize e 3 = 1 then 0 else t.i3 }

/-- o0 of R120. -/
def innerOffset (fmt : BitVec 4) (i0 : Nat) : Nat := if fmt = 13 then 136 * (i0 / 128) + i0 % 128 else i0 * tyBytes fmt

/-- The offset of an element from BASE (R120). -/
def elemOffset (e : Word512) (t : Tuple) : Int :=
  innerOffset (tFmt e) t.i0 + t.i1 * tStride1 e + t.i2 * tStride2 e + t.i3 * tStride2 e * tSize e 2

/-- The address of an element (R120). -/
def elemAddr (e : Word512) (t : Tuple) : Int := tBase e + elemOffset e t

/-- The byte that holds a .bz8 element's delta (R92, R120). -/
def deltaAddr (e : Word512) (t : Tuple) : Int := elemAddr e t - (t.i0 % 128 : Nat) + 128 + (t.i0 % 128 / 16 : Nat)

/-- First bit of the delta in its byte: the half of even and odd blocks (R92). -/
def deltaShift (t : Tuple) : Nat := if t.i0 % 128 / 8 % 2 = 0 then 0 else 4

/-- `n` bytes lie in the buffer (R122). -/
def inBuf (e : Word512) (a : Int) (n : Nat) : Bool := decide ((tBase e : Int) ≤ a) && decide (a + n ≤ tBase e + tExtent e)

/-- An in-shape element is in the buffer, with its delta byte for .bz8 (R122). -/
def elemIn (e : Word512) (t : Tuple) : Bool :=
  inBuf e (elemAddr e t) (tWidth e) && (tFmt e != 13 || inBuf e (deltaAddr e t) 1)

/-- A tuple is in shape (R122). -/
def inShape (e : Word512) (t : Tuple) : Bool :=
  decide (t.i0 < tSize e 0) && decide (t.i1 < tSize e 1) && decide (t.i2 < tSize e 2) && decide (t.i3 < tSize e 3)

/-- Alignment of BASE and strides (R120). -/
def tAlign (e : Word512) : Nat := if tFmt e = 13 then 8 else tWidth e

/-- Every address of a global buffer is canonical (R121). -/
def globalCanonical (e : Word512) : Bool :=
  tExtent e == 0 ||
    (canonical (BitVec.ofNat 64 (tBase e)) && canonical (BitVec.ofNat 64 (tBase e + tExtent e - 1)) &&
      decide (tBase e / 2 ^ 56 = (tBase e + tExtent e - 1) / 2 ^ 56))

/-- Usable (R121), in a space that the instruction admits. -/
def usable (e : Word512) (space : Nat → Bool) : Bool :=
  decide (1 ≤ tRank e) && decide (tRank e ≤ 4) && (upFrom 0 4).all (fun n => decide (n < tRank e) || tSize e n == 1) &&
  tBase e % tAlign e == 0 && bits e 128 48 % tAlign e == 0 && bits e 176 48 % tAlign e == 0 && space (tSpace e) &&
  (match tSpace e with
    | 0 => decide (tBase e + tExtent e ≤ Config.localBytes)
    | 1 => decide (tBase e + tExtent e ≤ Config.clusterBytes)
    | _ => globalCanonical e)

/-- Usable with SPACE 0 (R166). -/
def usableLocal (e : Word512) : Bool := usable e (fun sp => sp == 0)

/-- The address of a local offset as a context names it (R128). -/
def localAddress (a : Int) : Word := BitVec.ofNat 64 (0x80 * 2 ^ 56 + wrap a 56)

/-- The first element of an entry outside its buffer, in shape-iteration order, where that is a fault (R122). -/
def boundsFault (e : Word512) : Option Int :=
  if tMode e = 1 then none
  else ((upFrom 0 (tCount e)).find? (fun m => !(elemIn e (tupleOf e m)))).map (fun m => elemAddr e (tupleOf e m))

/-- The first such element of several entries, in their order. (DEDUCED, log 20.) -/
def boundsFaults : List Word512 → Option Int
  | [] => none
  | e :: es => (boundsFault e).or (boundsFaults es)

/-- Reserved bits of a tensor-table entry (R119). -/
def entryReserved (e : Word512) : Bool :=
  bits e 224 32 != 0 || bits e 120 8 != 0 || bits e 380 132 != 0 || e.getLsbD 355

/-- Reserved bits and reserved values of an entry, and a SIZE of 0 beside a RANK that is not (R117, R138). -/
def entryRefused (e : Word512) : Bool :=
  entryReserved e || decide (14 ≤ bits e 112 4) ||
  bits e 116 2 == 3 || bits e 118 2 == 3 || decide (5 ≤ bits e 352 3) || decide (9 ≤ bits e 356 4) ||
  decide (9 ≤ bits e 360 4) ||
  (bits e 352 3 != 0 && (bits e 256 24 == 0 || bits e 280 24 == 0 || bits e 304 24 == 0 || bits e 328 24 == 0))

/-! Products. -/

/-- The two operands of an MMA, an MMAK or a SCOUT with the Crown origin. -/
structure MatOps where
  a : Word512
  b : Word512
  o : Nat

/-- K, M and N of a product (R315). -/
def MatOps.k (p : MatOps) : Nat := tSize p.a 0
def MatOps.m (p : MatOps) : Nat := if tRank p.a = 1 then 1 else tSize p.a 1
def MatOps.n (p : MatOps) : Nat := if tRank p.b = 1 then 1 else tSize p.b 1
/-- Chunks of 128 along K. -/
def MatOps.chunks (p : MatOps) : Nat := (p.k + 127) / 128

/-- A captured entry. -/
def Entry.ten (e : Entry) (id : BitVec 6) : Word512 := Tbl.getD e.tens id.toNat 0

/-- The operands of an MMA or MMAK entry. -/
def Entry.ops (e : Entry) (ida idb : BitVec 6) : MatOps := { a := e.ten ida, b := e.ten idb, o := e.x.toNat }

/-- Bit of tile (u, c) (R327). -/
def tileBit (m : MaskWord) (u c : Nat) : Bool := m.getLsbD (32 * u + c)

/-- Rows of A that chunk `c` is applied to (R335). -/
def rowKept (m : MaskWord) (c i : Nat) : Bool := tileBit m (i / 32) c

/-- The operands of an MMA or an MMAK, and the rows of A that take part in each chunk (R317, R335). -/
def Entry.product (e : Entry) : Option (MatOps × (Nat → Nat → Bool)) :=
  match e.instr with
  | .mma f => some (e.ops f.a f.b, fun _ _ => true)
  | .mmak f => some (e.ops f.a f.b, rowKept e.mask)
  | _ => none

/-- Operands of 16 bits: a chunk takes two quanta (R297). -/
def MatOps.wide (p : MatOps) : Bool := tyBytes (tFmt p.a) == 2

/-- Addresses of the local bytes of an element; outside the buffer none is read (R122). -/
def elemBytes (e : Word512) (t : Tuple) : List Nat :=
  if elemIn e t then upFrom (elemAddr e t).toNat (tWidth e) ++
    (if tFmt e = 13 && t.i0 % 16 == 0 then [(deltaAddr e t).toNat] else [])
  else []

/-- Local bytes that the K-steps `ks` of a chunk read (R109, R299). -/
def stepBytes (p : MatOps) (keep : Nat → Bool) (ks : List Nat) : List Nat :=
  ks.flatMap (fun k => ((upFrom 0 p.m).filter keep).flatMap (fun i => elemBytes p.a { i0 := k, i1 := i }))

/-- K-steps of a chunk: the first half of a 16-bit chunk's fill its first quantum (R297). -/
def MatOps.steps (p : MatOps) (c : Nat) : List Nat := upFrom (128 * c) (min 128 (p.k - 128 * c))
def MatOps.firstHalf (p : MatOps) (c : Nat) : List Nat := upFrom (128 * c) (min 64 (p.k - 128 * c))

/-- Local bytes of a chunk in the order of their messages: operands by K-step, then row scales (R299, R305).
(DESIGN CHOICE, log 21.) -/
def Entry.chunkBytes (e : Entry) (c : Nat) : List Nat :=
  match e.product with
  | none => []
  | some (p, keep) =>
    stepBytes p (keep c) (p.steps c) ++
      (if tScv p.a then ((upFrom 0 p.m).filter (keep c)).flatMap (fun i =>
        elemBytes (Tbl.getD e.tens (tScaleId p.a) 0) { i0 := c, i1 := i }) else [])

/-- Local bytes of the tile scales of an entry (R316). -/
def Entry.tileBytes (e : Entry) : List Nat :=
  match e.product with
  | none => []
  | some (p, _) =>
    if tScv p.b then
      let sc := Tbl.getD e.tens (tScaleId p.b) 0
      (upFrom 0 (tCount sc)).flatMap (fun m => elemBytes sc (tupleOf sc m))
    else []

/-- Bytes as local memory holds them, with their addresses. -/
def State.localBytes (s : State) (as : List Nat) : List (Nat × Byte) := as.map (fun a => (a, Mem.get s.k.localMem a))

/-- Local memory with bytes that the MVU already holds in place of its own. -/
def overlay (m : Mem) (bs : List (Nat × Byte)) : Mem := bs.foldl (fun acc b => Mem.set acc b.1 b.2) m

/-- Bytes cut into messages of 256, numbered from `step` on (R299). -/
def messagesOf (seq : BitVec 32) (chunk : Nat) (bs : List (Nat × Byte)) : Nat → Nat → List Message
  | 0, _ => []
  | n + 1, step =>
    { seq := seq, chunk := chunk, step := step, bytes := (bs.drop (256 * step)).take 256 } :: messagesOf seq chunk bs n (step + 1)

/-- Messages of the ring that feed a chunk of an entry (R299). -/
def Kern.replayed (k : Kern) (e : Entry) (c : Nat) : List Message :=
  k.ring.filter (fun m => m.seq == e.seq && m.chunk == c)

/-- The save of a core catches the messages that have been fetched for the next chunk of its product and not yet consumed, at
most 64; a message that waits to be replayed stays (R300). (DESIGN CHOICE, log 21.) -/
def State.catchMessages (s : State) : State :=
  match s.k.mvuq.find? (fun e => e.stage == .started && e.product.isSome) with
  | none => s
  | some e =>
    match e.todo with
    | [] => s
    | c :: _ =>
      let bs := s.localBytes (e.chunkBytes c)
      let all := messagesOf e.seq c bs ((bs.length + 255) / 256) 0
      let fresh := all.filter (fun m => !((s.k.replayed e c).any (fun x => x.step == m.step)))
      let n := Config.fetchedAhead s.free % 65 - s.k.ring.length
      { s with k := { s.k with ring := s.k.ring ++ fresh.take n }, free := s.free + 1 }

end Sys2Proof.Machine
end

