-- ==== Sys2Proof/Machine/Roles.lean ====
section
/-! DEFINITION. What each instruction reads and writes among scalars and strands, and what a captured loop body may hold
(R266). -/

namespace Sys2Proof

/-- The scalar and strand operands an instruction reads, each with its distance; a hint reads none (R74), and BEADQ asks of
a bead without reading it (R291). -/
def Instr.reads : Instr → List (BitVec 6 × BitVec 3)
  | .addA32 f | .subA32 f | .mulA32 f | .mulhA32 f | .mulhzA32 f | .divA32 f | .divzA32 f | .remA32 f | .remzA32 f
  | .andA32 f | .orA32 f | .xorA32 f | .andnA32 f | .shlA32 f | .shrA32 f | .sraA32 f | .rolA32 f | .minA32 f
  | .maxA32 f | .minzA32 f | .maxzA32 f | .cmpA32 _ f => [(f.a, 0), (f.b, 0)]
  | .addI32 f | .andI32 f | .shlI32 f | .shrI32 f | .sraI32 f | .clzA32 f | .ctzA32 f | .popcA32 f | .absA32 f
  | .movA32 f | .ldI32 f => [(f.a, 0)]
  | .addG64 f | .subG64 f | .mulG64 f | .mulhG64 f | .mulhzG64 f | .divG64 f | .divzG64 f | .remG64 f | .remzG64 f
  | .andG64 f | .orG64 f | .xorG64 f | .andnG64 f | .shlG64 f | .shrG64 f | .sraG64 f | .rolG64 f | .minG64 f
  | .maxG64 f | .minzG64 f | .maxzG64 f | .cmpG64 _ f | .sel f | .sfadd f | .sfmul f | .sfcmp _ f | .ldx f
  | .tspawnw f | .pfh f | .place f | .wpwait f | .tierin f | .aadd f | .afadd f | .amin f | .amax f | .aand f
  | .aor f | .axor f | .axchg f | .mpat f | .mzero f => [(f.a, f.da), (f.b, f.db)]
  | .addI64 f | .addW96 f | .mulI64 f | .mulW96 f | .andI64 f | .andW96 f | .orI64 f | .orW96 f | .xorI64 f
  | .xorW96 f | .shlI64 f | .shlW96 f | .shrI64 f | .shrW96 f | .sraI64 f | .sraW96 f | .rolI64 f | .rolW96 f
  | .minI64 f | .minW96 f | .maxI64 f | .maxW96 f | .minzI64 f | .minzW96 f | .maxzI64 f | .maxzW96 f | .clzG64 f
  | .ctzG64 f | .popcG64 f | .absG64 f | .movG64 f | .sext f | .zext f | .leaI64 f | .leaW96 f | .bfx f | .sfcvt f
  | .tdef f | .tset f | .bri f | .calli f | .loopI64 f | .loopW96 f | .loopoI64 f | .loopoW96 f | .ldI64 f
  | .ldW96 f | .ldacqI64 f | .ldacqW96 f | .launch f | .tjoin f | .tcancelScope f | .tcancelTask f | .fsclose f
  | .fswait f | .tierq f | .wprd f | .xrecv f | .vbcast f | .viota f | .mdrain f | .halt f | .syswr f => [(f.a, f.da)]
  | .bfi f | .stI64 f | .stW96 f | .stntI64 f | .stntW96 f | .strelI64 f | .strelW96 f | .ldvI64 f | .ldvW96 f => [(f.d, 0), (f.a, f.da)]
  | .sfma f | .stx f | .xsend f => [(f.a, f.da), (f.b, f.db), (f.c, f.dc)]
  | .stI32 f => [(f.d, 0), (f.a, 0)]
  | .tspawn f => [(f.a, f.da), (f.b, f.db)] ++ (if f.md = 1 then [(f.c, f.dc)] else [])
  | .fsopen f => (f.a, f.da) :: (if f.md = 1 then [(f.b, f.db)] else [])
  | .cpy f => (f.b, f.db) :: (if f.md < 4 then [] else [(f.c, f.dc)])
  | .acas f => [(f.d, 0), (f.a, f.da), (f.b, f.db)]
  | .xopen f => [(f.b, f.db), (f.c, f.dc)]
  | .vscale f | .mfill f | .mloadb f | .mscl f | .ksel f => [(f.b, f.db)]
  | .mma f | .scout f => [(f.c, f.dc)]
  | .mmak f => [(f.d, 0)]
  | _ => []

/-- The scalar or strand destination of an instruction; a hint has none (R73). -/
def Instr.dest : Instr → Option (BitVec 6)
  | .addA32 f | .addI32 f | .addG64 f | .addI64 f | .addW96 f | .subA32 f | .subG64 f | .mulA32 f | .mulG64 f
  | .mulI64 f | .mulW96 f | .mulhA32 f | .mulhG64 f | .mulhzA32 f | .mulhzG64 f | .divA32 f | .divG64 f | .divzA32 f
  | .divzG64 f | .remA32 f | .remG64 f | .remzA32 f | .remzG64 f | .andA32 f | .andI32 f | .andG64 f | .andI64 f
  | .andW96 f | .orA32 f | .orG64 f | .orI64 f | .orW96 f | .xorA32 f | .xorG64 f | .xorI64 f | .xorW96 f
  | .andnA32 f | .andnG64 f | .shlA32 f | .shlI32 f | .shlG64 f | .shlI64 f | .shlW96 f | .shrA32 f | .shrI32 f
  | .shrG64 f | .shrI64 f | .shrW96 f | .sraA32 f | .sraI32 f | .sraG64 f | .sraI64 f | .sraW96 f | .rolA32 f
  | .rolG64 f | .rolI64 f | .rolW96 f | .minA32 f | .minG64 f | .minI64 f | .minW96 f | .maxA32 f | .maxG64 f
  | .maxI64 f | .maxW96 f | .minzA32 f | .minzG64 f | .minzI64 f | .minzW96 f | .maxzA32 f | .maxzG64 f | .maxzI64 f
  | .maxzW96 f | .clzA32 f | .clzG64 f | .ctzA32 f | .ctzG64 f | .popcA32 f | .popcG64 f | .absA32 f | .absG64 f
  | .movA32 f | .movG64 f | .sext f | .zext f | .movlI32 f | .movlI64 f | .movlW96 f | .leaI64 f | .leaW96 f
  | .bfx f | .bfi f | .sel f | .sfadd f | .sfmul f | .sfma f | .sfcvt f | .tget f | .beadq f | .ldI32 f | .ldI64 f
  | .ldW96 f | .ldx f | .ldacqI64 f | .ldacqW96 f | .hstart f | .hwait f | .launch f | .tspawn f | .tspawnw f
  | .tcancelScope f | .tcancelTask f | .wdq f | .fsopen f | .fsclose f | .fswait f | .place f | .tierq f | .wprd f
  | .evwait f | .tierin f | .aadd f | .afadd f | .amin f | .amax f | .aand f | .aor f | .axor f | .axchg f | .acas f
  | .bwait f | .bqry f | .xopen f | .xrecv f | .xclose f | .kpop f | .sysrd f => some f.d
  | _ => none

/-- Store instructions, of which a body holds at most sixteen (R265). -/
def Instr.isStore : Instr → Bool
  | .stI32 _ | .stI64 _ | .stW96 _ | .stx _ | .stntI64 _ | .stntW96 _ => true
  | _ => false

/-- IRET in either form. -/
def Instr.isIret : Instr → Bool
  | .iretA32 | .iretG64 => true
  | _ => false

/-- The instructions of R266, its destinations apart. -/
def Instr.bodyGroup : Instr → Bool
  | .nop | .hint64 | .hint96 | .iretA32 | .iretG64 => true
  | .addA32 _ | .addI32 _ | .addG64 _ | .addI64 _ | .addW96 _ | .subA32 _ | .subG64 _ | .mulA32 _ | .mulG64 _
  | .mulI64 _ | .mulW96 _ | .mulhA32 _ | .mulhG64 _ | .mulhzA32 _ | .mulhzG64 _ | .divA32 _ | .divG64 _ | .divzA32 _
  | .divzG64 _ | .remA32 _ | .remG64 _ | .remzA32 _ | .remzG64 _ | .andA32 _ | .andI32 _ | .andG64 _ | .andI64 _
  | .andW96 _ | .orA32 _ | .orG64 _ | .orI64 _ | .orW96 _ | .xorA32 _ | .xorG64 _ | .xorI64 _ | .xorW96 _
  | .andnA32 _ | .andnG64 _ | .shlA32 _ | .shlI32 _ | .shlG64 _ | .shlI64 _ | .shlW96 _ | .shrA32 _ | .shrI32 _
  | .shrG64 _ | .shrI64 _ | .shrW96 _ | .sraA32 _ | .sraI32 _ | .sraG64 _ | .sraI64 _ | .sraW96 _ | .rolA32 _
  | .rolG64 _ | .rolI64 _ | .rolW96 _ | .minA32 _ | .minG64 _ | .minI64 _ | .minW96 _ | .maxA32 _ | .maxG64 _
  | .maxI64 _ | .maxW96 _ | .minzA32 _ | .minzG64 _ | .minzI64 _ | .minzW96 _ | .maxzA32 _ | .maxzG64 _ | .maxzI64 _
  | .maxzW96 _ | .clzA32 _ | .clzG64 _ | .ctzA32 _ | .ctzG64 _ | .popcA32 _ | .popcG64 _ | .absA32 _ | .absG64 _
  | .movA32 _ | .movG64 _ | .sext _ | .zext _ | .movlI32 _ | .movlI64 _ | .movlW96 _ | .leaI64 _ | .leaW96 _
  | .bfx _ | .bfi _ | .cmpA32 _ _ | .cmpG64 _ _ | .sel _ | .pandA32 _ | .pandG64 _ | .porA32 _ | .porG64 _
  | .pxorA32 _ | .pxorG64 _ | .pnotA32 _ | .pnotG64 _ | .sfadd _ | .sfmul _ | .sfma _ | .sfcmp _ _ | .sfcvt _
  | .tget _ | .beadq _ | .breakc _ | .ldI32 _ | .ldI64 _ | .ldW96 _ | .stI32 _ | .stI64 _ | .stW96 _ | .ldx _
  | .stx _ | .stntI64 _ | .stntW96 _ | .pfh _ | .tierq _ | .cpy _ | .wpwait _ | .wprd _ | .tierin _ | .vadd _
  | .vsub _ | .vmul _ | .vfma _ | .vmin _ | .vmax _ | .vabs _ | .vneg _ | .vcpy _ | .vcvt _ | .vsrnd _ | .vrcp _
  | .vrsq _ | .vsqrt _ | .vexp2 _ | .vlog2 _ | .vpwl _ | .vcmp _ | .vsel _ | .vand _ | .vor _ | .vxor _ | .vshl _
  | .vshr _ | .vclamp _ | .vreds _ | .vredm _ | .vscan _ | .vbcast _ | .viota _ | .vdot _ | .vscale _ | .mfill _
  | .mpat _ | .mzero _ | .mma _ | .mdrain _ | .mloadb _ | .mscl _ | .mwait _ | .scout _ | .ksel _ | .kand _ | .kor _
  | .knot _ | .kpop _ | .mmak _ | .bkpt _ => true
  | _ => false

/-- An instruction that a captured body may hold: none writes a scalar register (R266). -/
def Instr.bodyAllowed (i : Instr) : Bool :=
  i.bodyGroup && (match i.dest with | some d => decide (32 ≤ d.toNat) | none => true)

end Sys2Proof
end

