-- ==== Sys2Proof/Machine/Fetch.lean ====
section
/-! DEFINITION. Instruction fetch: lines and the line word (R50 to R53), the instruction cache (R84), the helper store
(R212), and the check of a transfer's target (R61, R158). -/

namespace Sys2Proof.Machine

/-- The sixteen words of a line from its bytes (R50). -/
def lineText (m : Mem) (a : Nat) : List Parcel := (upFrom 0 16).map (fun i => BitVec.ofNat 32 (Mem.readLE m (a + 4 * i) 4))

/-- The line word (R53). -/
def lineWord (text : List Parcel) : Parcel := text.getD 15 0

/-- Bits 60·`i` to 60·`i` + 59 of the instruction text, whose bit `b` is bit `b` mod 32 of parcel `b` / 32 (R53). -/
def textEighth (text : List Parcel) (i : Nat) : Word :=
  let k := 60 * i / 32
  let three := (text.getD (k + 2) 0 ++ text.getD (k + 1) 0 ++ text.getD k 0 : BitVec 96)
  (three >>> (60 * i % 32)).setWidth 60 |>.setWidth 64

/-- Whether a word has an odd count of ones. -/
def oddOnes (w : Word) : Bool :=
  let a := w ^^^ (w >>> 32)
  let b := a ^^^ (a >>> 16)
  let c := b ^^^ (b >>> 8)
  let d := c ^^^ (c >>> 4)
  let e := d ^^^ (d >>> 2)
  (e ^^^ (e >>> 1)).getLsbD 0

/-- The parity bit that eighth `i` of the text needs (R53). -/
def parityBit (text : List Parcel) (i : Nat) : Bool := oddOnes (textEighth (text.take 15) i)

/-- Every eighth of the text with its bit of PAR has an even count of ones (R53). -/
def parityOk (text : List Parcel) : Bool := (upFrom 0 8).all (fun i => (lineWord text).getLsbD (24 + i) == parityBit text i)

/-- Reserved bits 23 to 20 of the line word (R53). -/
def lineReserved (text : List Parcel) : Bool := bits (lineWord text) 20 4 != 0

/-- Parcel `i` of a line begins an instruction: its slot is read from its first parcel on (R52). -/
def beginsInstr (text : List Parcel) (i : Nat) : Bool :=
  let p := fun k => parcelCount (text.getD (i / 3 * 3 + k) 0)
  match i % 3 with
  | 0 => true
  | 1 => p 0 == 1
  | _ => (p 0 == 1 && p 1 == 1) || p 0 == 2

/-- A legal branch target: TGT is set and an instruction begins there (R61). -/
def targetOk (text : List Parcel) (i : Nat) : Bool := (lineWord text).getLsbD i && beginsInstr text i

/-- The line at an address of the helper store: beyond the image, and for a task without one, every line is a zero line
(R212). -/
def State.helperLine (s : State) (a : Nat) : List Parcel :=
  if a < Config.helperStoreBytes ∧ s.task.helpAddr ≠ 0 then lineText s.hw.helperText a else List.replicate 16 0

/-- The line address of a PC. -/
def lineOf (pc : Word) : Word := BitVec.ofNat 64 (pc.toNat / 64 * 64)

/-- The line that holds a PC of the control context, from the instruction cache or by a fetch, whose parity is checked (R53,
R81, R84). A fetch fault names the PC. A hint's fetch is of no parking kind (R73). The one refetch after a parity error finds the line as
the fetch has. (DESIGN CHOICE, log 7.) -/
def State.cachedLine (s : State) (parking : Bool) (pc : Word) : Except Stop (List Parcel × State) :=
  match s.hw.icache.find? (fun l => l.va == (lineOf pc).toNat) with
  | some l => .ok (l.text, s)
  | none => do
    let (t, s1) ← s.translateFetch s.myPart parking pc
    let at' := t.addr - pc.toNat % 64
    let text := lineText s1.mem at'
    if parityOk text then
      let line : Line := { va := (lineOf pc).toNat, pa := at', text := text }
      .ok (text, { s1 with hw := { s1.hw with icache := line :: s1.hw.icache } })
    else .error (.parity at')

/-- The parcel's number within its line (R50). -/
def slotOf (pc : Word) : Nat := pc.toNat % 64 / 4

/-- The line that holds a PC, for the context in focus. A helper's line is checked as any other (R53, R212): its error names
its address in the helper store. (DEDUCED, log 36.) -/
def State.lineAt (s : State) (pc : Word) : Except Stop (List Parcel × State) :=
  if s.ctx.slot = 15 then s.cachedLine true pc
  else
    let at' := pc.toNat / 64 * 64
    let text := s.helperLine at'
    if parityOk text then .ok (text, s) else .error (.parity at')

/-- A PC to which a transfer may never go, before any fetch: not a parcel, or in an aperture (R158 step 1). -/
def badPc (t : Word) : Bool := t.toNat % 4 != 0 || decide (60 ≤ t.toNat % 64) || (apertureOf t).isSome

/-- A fetch fault of a transfer's target names the target in TRAPADDR (R158 step 2). -/
def atTarget (t : Word) (r : Except Stop (List Parcel × State)) : Except Stop (List Parcel × State) :=
  match r with
  | .error (.trap cause addr detail) => .error (.trap cause (if cause = 19 then addr else t) detail)
  | .error (.pageFault _ level write path) => .error (.pageFault t level write path)
  | r => r

/-- Every check of a transfer's target (R158). -/
def State.checkTarget (s : State) (t : Word) : Except Stop State :=
  if badPc t then .error (.trap 3 t 0)
  else do
    let (text, s1) ← atTarget t (s.lineAt t)
    if targetOk text (slotOf t) then .ok s1 else .error (.trap 3 t 0)

/-- The parcels from a PC to the end of its slot: no instruction crosses it (R50, R52). -/
def slotParcels (text : List Parcel) (i : Nat) : List Parcel := (text.drop i).take (3 - i % 3)

/-- The instruction after the one at a PC stands in the same issue group: in the same slot, or in a later one of the line whose
predecessor's GRP bit is clear (R58). -/
def nextInGroup (text : List Parcel) (pc : Word) : Option Word :=
  let i := slotOf pc
  let next := parcelsAfter pc (parcelCount (text.getD i 0))
  let sameSlot := decide (slotOf next / 3 = i / 3)
  if lineOf next = lineOf pc ∧ (sameSlot ∨ ¬ (lineWord text).getLsbD (15 + i / 3)) then some next else none

/-- The text of the issue group in progress, if the instruction at the PC belongs to it: it completes as it was fetched, whatever a
shoot-down has done meanwhile (R83). -/
def State.groupText (s : State) : Option (List Parcel) :=
  match s.hw.group with
  | some g =>
    if s.ctx.slot = 15 ∧ ((g.at' = s.ctx.pc ∧ g.count = s.ctx.retired) ∨ (g.next = some s.ctx.pc ∧ g.count + 1 = s.ctx.retired)) then
      some g.text
    else none
  | none => none

/-- The line that holds the PC, with the issue group that the instruction belongs to. -/
def State.issueLine (s : State) : Except Stop (List Parcel × State) := do
  let pc := s.ctx.pc
  let (text, s1) ← (match s.groupText with
    | some text => .ok (text, s)
    | none => s.lineAt pc)
  if s.ctx.slot ≠ 15 then .ok (text, s1)
  else
    let g : Group := { at' := pc, count := s.ctx.retired, next := nextInGroup text pc, text := text }
    .ok (text, { s1 with hw := { s1.hw with group := some g } })

/-- The parcels that the context in focus reads at its PC: captured text inside a running loop (R264), or the line's, which
must have no reserved bit set (R53). -/
def State.fetch (s : State) : Except Stop (List Parcel × State) :=
  let pc := s.ctx.pc
  let i := parcelIndex pc
  let captured := if s.ctx.slot = 15 ∧ s.k.loop.running then Tbl.find s.k.loop.text i else none
  match captured with
  | some p =>
    let more := fun k => (Tbl.find s.k.loop.text (i + k)).toList
    let n := 3 - slotOf pc % 3
    .ok (p :: (if 2 ≤ n then more 1 else []) ++ (if 3 ≤ n then more 2 else []), s)
  | none => do
    let (text, s1) ← s.issueLine
    if lineReserved text then .error Stop.illegal else .ok (slotParcels text (slotOf pc), s1)

/-- The number of the point at which the control context in focus stands: the next instruction's, if it is engine-bound
(R441). -/
def State.pointSeq (s : State) : BitVec 32 :=
  let c := s.focusSlot 15
  match c.fetch with
  | .ok (ps, _) => (match decode ps with
    | .ok i => if i.engineBound then s.k.engseq + 1 else s.k.engseq
    | .error _ => s.k.engseq)
  | .error _ => s.k.engseq

end Sys2Proof.Machine
end

