-- ==== Sys2Proof/Machine/Clasp.lean ====
section
/-! DEFINITION. The Clasp unit's barriers as state: members, arrivals and phases (R389, R393 to R396). -/

namespace Sys2Proof.Machine

/-- The number of a barrier in the model: b`n` of a cluster, or domain `n` beyond them all. -/
def numberedId (cluster n : Nat) : Nat := cluster * 32 + n
def domainId (n : Nat) : Nat := 2048 + n

/-- The barrier that an instruction names (R391). -/
def State.barrierId (s : State) (f : G64) : Nat := if f.md = 4 then domainId f.a.toNat else numberedId (s.coreNo / 16) f.a.toNat

/-- A domain's entries (R390). -/
def State.domain (s : State) (n : Nat) : Domain := s.domains.getD n {}

/-- A change of a domain's entries. -/
def State.onDomain (s : State) (n : Nat) (f : Domain → Domain) : State :=
  { s with domains := s.domains.setIfInBounds n (f (s.domain n)) }

/-- A barrier by its number. -/
def State.barrier (s : State) (id : Nat) : Barrier :=
  if id < 2048 then Tbl.getD s.barriers id {} else (s.domain (id - 2048)).bar

/-- A barrier replaced. -/
def State.setBarrier (s : State) (id : Nat) (b : Barrier) : State :=
  if id < 2048 then { s with barriers := Tbl.put s.barriers id b } else s.onDomain (id - 2048) (fun d => { d with bar := b })

/-- A domain is valid when VALID is 1 in both entries with equal PART (R390). -/
def Domain.isValid (d : Domain) : Bool :=
  d.valid.getD 0 false && d.valid.getD 1 false && d.part.getD 0 0 == d.part.getD 1 0

/-- MASK admits a core: bit c of die d is core 384 d + c (R390). -/
def Domain.admits (d : Domain) (core : Nat) : Bool := (d.mask.getD (core / 384) 0).getLsbD (core % 384)

/-- Whether a task is a member, and whether it has arrived. -/
def Barrier.hasMember (b : Barrier) (task : Nat) : Bool := b.members.any (fun m => m.1 == task)
def Barrier.hasArrived (b : Barrier) (task : Nat) : Bool := b.arrived.any (fun m => m.1 == task)

/-- The test of R393, made after each event: when every member has arrived the phase advances by one, arrivals are
cleared and members that leave are gone. Whether it ended. -/
def Barrier.test (b : Barrier) : Barrier × Bool :=
  if b.arrived ≠ [] ∧ b.arrived.length = b.members.length then
    ({ members := b.members.filter (fun m => !(b.leaving.any (fun l => l.1 == m.1))), arrived := [], leaving := [],
       phase := b.phase + 1, releasing := b.releasing ++ [b.phase] }, true)
  else (b, false)

/-- An arrival of a member (R393). (DEDUCED, log 28.) -/
def Barrier.arrive (b : Barrier) (task core : Nat) : Barrier × Bool :=
  if b.hasArrived task then (b, false) else Barrier.test { b with arrived := b.arrived ++ [(task, core)] }

/-- `leave`: an arrival if none was made, and membership ends with the phase (R393). -/
def Barrier.leave (b : Barrier) (task core : Nat) : Barrier × Bool :=
  Barrier.arrive { b with leaving := b.leaving ++ [(task, core)] } task core

/-- A barrier's new state stored; a phase that ended sends the release of its waiting members (R36, R393). -/
def State.putBarrier (s : State) (id : Nat) (r : Barrier × Bool) : State :=
  let s1 := s.setBarrier id r.1
  let ended := (r.1.phase - 1).setWidth 64
  if r.2 then { s1 with inflight := s1.inflight ++ [(.barrierRelease, { unit := id, value := ended })] } else s1

/-- The numbers of the barriers and domains a task is a member of. -/
def State.memberships (s : State) (task : Nat) : List Nat :=
  (s.barriers.filter (fun b => b.2.hasMember task)).map (fun b => b.1) ++
  ((upFrom 0 64).filter (fun n => (s.domain n).bar.hasMember task)).map domainId

/-- BARM `leave` applied to every membership of a task that ends (R396). -/
def State.leaveAll (s : State) (task core : Nat) : State :=
  (s.memberships task).foldl (fun acc id => acc.putBarrier id ((acc.barrier id).leave task core)) s

end Sys2Proof.Machine
end

