-- ==== Sys2Proof/Machine/Queue.lean ====
section
/-! DEFINITION. The queue engines' stores: record slots (R216, R217), finish scopes (R231, R435), the dependence table
(R224 to R229), and the engines' own reads of memory (R208). -/

namespace Sys2Proof.Machine

/-- Tag of a slot (R217). -/
def tagOf (q slot : Nat) (gen : BitVec 32) : Word := BitVec.ofNat 64 (gen.toNat * 2 ^ 32 + q * 2 ^ 20 + slot)
def tagQueue (t : Word) : Nat := bits t 20 9
def tagSlot (t : Word) : Nat := bits t 0 20
def tagGen (t : Word) : BitVec 32 := BitVec.ofNat 32 (bits t 32 32)

/-- Control word fields of a queue (R213). -/
def Queue.enabled (q : Queue) : Bool := q.ctl.getLsbD 0
def Queue.isFenced (q : Queue) : Bool := q.ctl.getLsbD 1
def Queue.part (q : Queue) : Nat := bits q.ctl 52 4
def Queue.depth (q : Queue) : Nat := 2 ^ bits q.ctl 47 5
def Queue.base (q : Queue) : Nat := bits q.ctl 6 39 * 64

/-- Address of a queue's slot array, in this module's HBM; 0 while BASE is 0 (R213, R236). (DEDUCED, log 26.) -/
def State.slotsAt (s : State) (q : Queue) : Nat := if q.base = 0 then 0 else s.modNo * 2 ^ 46 + q.base

/-- A queue. -/
def State.queue (s : State) (q : Nat) : Queue := Tbl.getD s.queues q {}

/-- A change of a queue. -/
def State.onQueue (s : State) (q : Nat) (f : Queue → Queue) : State :=
  { s with queues := Tbl.put s.queues q (f (s.queue q)) }

/-- Fields of a continuation record (R216). -/
def recField (r : Rec) (lo len : Nat) : Nat := bits r.img lo len
def Rec.join (r : Rec) : Nat := recField r 256 16
def Rec.kind1 (r : Rec) : Bool := r.img.getLsbD 244
def Rec.scope (r : Rec) : Nat := recField r 248 8
def Rec.prio (r : Rec) : Nat := recField r 245 3
def Rec.demand (r : Rec) : Nat := recField r 236 4
def Rec.nextIndex (r : Rec) : Nat := recField r 288 31
def Rec.footprint (r : Rec) : Footprint :=
  { r0 := BitVec.ofNat 32 (recField r 384 32), r1 := BitVec.ofNat 32 (recField r 416 32),
    w0 := BitVec.ofNat 32 (recField r 448 32), w1 := BitVec.ofNat 32 (recField r 480 32) }

/-- A field of a record replaced. -/
def Rec.setField (r : Rec) (lo len v : Nat) : Rec := { r with img := setBits r.img lo len v }

/-- The record in a slot. -/
def State.record? (s : State) (q slot : Nat) : Option Rec := Tbl.find (s.queue q).slots slot

/-- Generation of a slot (R217). -/
def State.genOf (s : State) (q slot : Nat) : BitVec 32 := Tbl.getD (s.queue q).gens slot 0

/-- The record a tag names, if the generation is current (R217). -/
def State.byTag (s : State) (t : Word) : Option Rec :=
  if bits t 29 3 = 0 ∧ s.genOf (tagQueue t) (tagSlot t) = tagGen t then s.record? (tagQueue t) (tagSlot t) else none

/-- A record written, in its slot of the engine and of the slot array in memory (R213). (DEDUCED, log 26.) -/
def State.putRec (s : State) (q slot : Nat) (r : Rec) : State :=
  let s1 := s.onQueue q (fun x => { x with slots := Tbl.put x.slots slot r })
  let at' := s.slotsAt (s.queue q)
  if at' = 0 then s1 else s1.putMem (at' + 64 * slot) 64 r.img.toNat

/-- A slot freed: its generation advances (R217). -/
def State.freeSlot (s : State) (q slot : Nat) : State :=
  s.onQueue q (fun x => { x with slots := Tbl.del x.slots slot, gens := Tbl.put x.gens slot (s.genOf q slot + 1) })

/-- The free slot of a queue that a push or a first save takes: the lowest (R217). (DESIGN CHOICE, log 26.) -/
def State.freeSlotOf (s : State) (q : Nat) : Option Nat :=
  scanRing (s.queue q).depth (fun i => (s.record? q i).isNone) 0 (s.queue q).depth

/-- Ranges of a footprint (R223). -/
def rangeFirst (r : BitVec 32) : Nat := bits r 12 20
def rangeCount (r : BitVec 32) : Nat := bits r 0 8
def rangeBad (r : BitVec 32) : Bool := bits r 8 4 != 0 || decide (64 < rangeCount r)
def rangeHandles (r : BitVec 32) : List Nat := upFrom (rangeFirst r) (rangeCount r)
def Footprint.ranges (f : Footprint) : Nat :=
  ([f.r0, f.r1, f.w0, f.w1].filter (fun r => rangeCount r != 0)).length
def Footprint.isEmpty (f : Footprint) : Bool := f.ranges == 0
def Footprint.bad (f : Footprint) : Bool := [f.r0, f.r1, f.w0, f.w1].any rangeBad
def Footprint.reads (f : Footprint) : List Nat := rangeHandles f.r0 ++ rangeHandles f.r1
def Footprint.writes (f : Footprint) : List Nat := rangeHandles f.w0 ++ rangeHandles f.w1

/-- The ranges of task `i` of a launch: FIRST moves by `i` steps, modulo 2 to the 20 (R215). -/
def shiftRange (r : BitVec 32) (i step : Nat) : BitVec 32 :=
  setBits r 12 20 ((rangeFirst r + i * step) % 2 ^ 20)
def Footprint.shift (f : Footprint) (i step : Nat) : Footprint :=
  { r0 := shiftRange f.r0 i step, r1 := shiftRange f.r1 i step, w0 := shiftRange f.w0 i step, w1 := shiftRange f.w1 i step }

/-- A scope entry. -/
def State.scope (s : State) (p i : Nat) : Scope := Tbl.getD (s.part p).scopes i {}

/-- A change of a scope entry. -/
def State.onScope (s : State) (p i : Nat) (f : Scope → Scope) : State :=
  s.onPart p (fun q => { q with scopes := Tbl.put q.scopes i (f (s.scope p i)) })

/-- The scope status word (R232). -/
def Scope.status (c : Scope) : Word :=
  if c.state = .free then 8
  else BitVec.ofNat 64 (1 + 2 * c.cancelled.toNat + 4 * c.faulted.toNat + 2 ^ 16 * c.nfault
    + 2 ^ 32 * (match c.first with | some r => bits r 0 8 | none => 0))

/-- Why a scope does not admit a member, as a status of R218; a member task's spawn enters a closed scope (R26). -/
def Scope.refuses (c : Scope) (byMember : Bool) : Option Nat :=
  match c.state with
  | .free => some 8
  | .complete => some 4
  | .opened => if c.cancelled then some 4 else none
  | .closed => if c.cancelled || !byMember then some 4 else none

/-- Entry 0 is the root job (R231); a scope is job-like when an FSWAIT with release or SCOPEFREE frees it (R231). -/
def Scope.isReleasable (c : Scope) (i : Nat) : Bool :=
  c.state == .complete && i != 0 && (c.kind == 4 || c.parent == 0)

/-- A virtual address of the partition as the queue engines translate it, with no window (R208). -/
def State.engineXlate (s : State) (p : Nat) (va : Word) (write : Bool) : Except Stop Target :=
  if ¬ canonical va then .error (.trap 7 va 0)
  else
    match (s.walk p 0 va).1 with
    | .reserved at' => .error (.trap 19 (BitVec.ofNat 64 at') va)
    | .refused => .error (.trap 7 va 0)
    | .invalid level => .error (.pageFault va level write .queueEngine)
    | .dead => .error (.ends 24 0 va)
    | .leaf e at' level =>
      if leafTier e ≠ 0 then .error (.tierMiss at' va)
      else if write && !leafW e then .error (.trap 8 va 0)
      else
        let pa := leafFrame e + va.toNat % levelSize level
        let t : Target := { space := .globalMem, addr := pa, home := leafHome e, leafAt := some at', leaf := e }
        if s.unitAlive t then .ok t else .error (.ends 24 0 va)

/-- Requests or accesses wait for the line of an address (R384). -/
def State.awaited (s : State) (addr : Nat) : Bool := s.queuedAt addr || !(s.waiters (2 * (addr / 64))).isEmpty

/-- Some of `n` dwords that a queue engine is to access lie in such a line. -/
def State.engineAwaits (s : State) (p : Nat) (va : Word) (n : Nat) : Bool :=
  (upFrom 0 n).any (fun i => match s.engineXlate p (va + BitVec.ofNat 64 (8 * i)) false with
    | .ok t => s.awaited t.addr
    | .error _ => false)

/-- A page fault of a queue engine writes its page request, in which no task is named (R250). (DEDUCED, log 24.) -/
def State.noteFault (s : State) (p : Nat) (r : Stop) : State :=
  match r with
  | .pageFault va level write path => (s.pageRequest p 0 path.code level write va none none).2
  | _ => s

/-- A page-in of the page of a leaf is asked for, from the entry as it stands; while a page-out runs it starts when the page-out
ends (R255 to R257). -/
def State.askPageIn (s : State) (p leafAt : Nat) (va : Word) : State :=
  s.onPage leafAt (fun q =>
    match q.stage with
    | .none => { q with va := va, part := p, stage := .pageIn, oldLeaf := s.leafAt leafAt }
    | .pageOut => { q with wanted := true }
    | _ => q)

/-- A message stays on its way. -/
def State.requeue (s : State) (i : Instr) (k : Cmd) : State := { s with inflight := s.inflight ++ [(i, k)] }

/-- `n` aligned dwords read by a queue engine, as bytes. -/
def State.engineRead (s : State) (p : Nat) (va : Word) : Nat → Except Stop (List Byte)
  | 0 => .ok []
  | n + 1 => do
    let t ← s.engineXlate p va false
    let rest ← s.engineRead p (va + 8) n
    .ok (Mem.bytes s.mem t.addr 8 ++ rest)

/-- One dword written by a queue engine; a hot-line store's line is dirty then (R383). (DESIGN CHOICE, log 34.) -/
def State.engineWrite (s : State) (p : Nat) (va v : Word) : Except Stop State := do
  let t ← s.engineXlate p va true
  .ok (((s.overwrite .globalMem t.addr 8).soil t.addr).putMem t.addr 8 v.toNat)

/-- The graph that encloses a scope, for its tile map (R221). -/
def State.graphOf (s : State) (p : Nat) : Nat → Nat → Option Nat
  | 0, _ => none
  | n + 1, i =>
    let c := s.scope p i
    if c.state = .free then none
    else if c.kind = 2 then some i
    else if c.kind = 4 then none
    else s.graphOf p n c.parent

/-- Key of a graph in the dependence table. -/
def graphKey (p i : Nat) : Nat := p * 256 + i

/-- Fields of a tile-map descriptor (R221). -/
def descMap (d : Word512) : Word := BitVec.ofNat 64 (bits d 0 64)
def descTile (d : Word512) : Nat := bits d 64 64
def descPool (d : Word512) : Word := BitVec.ofNat 64 (bits d 128 64)
def descHandles (d : Word512) : Nat := bits d 192 20
def descBuffers (d : Word512) : Nat := bits d 236 20

/-- Versions of a handle, in the order of their writers' pushes. -/
def State.versionsOf (s : State) (g h : Nat) : List Version := s.versions.filter (fun v => v.graph == g && v.handle == h)

/-- The current version of a handle: the last that is not dead, with number 0 for the map's (R224, R228). -/
def State.currentVersion (s : State) (g h : Nat) : Option Version := ((s.versionsOf g h).filter (fun v => !v.dead)).getLast?

/-- The version that the last writer pushed no later than a place has written (R224). -/
def State.versionAt (s : State) (g h place : Nat) : Option Version :=
  ((s.versionsOf g h).filter (fun v => !v.dead && decide (v.place ≤ place))).getLast?

/-- A version by its number. -/
def State.version? (s : State) (g h num : Nat) : Option Version := (s.versionsOf g h).find? (fun v => v.num == num)

/-- The version whose place in memory a version has. -/
def State.rootOf (s : State) (g h num : Nat) : Nat := (s.version? g h num).elim num (fun v => v.root)

/-- An entry of the dependence table. -/
def State.dep (s : State) (id : Nat) : Option Dep := s.deps.find? (fun d => d.id == id)

/-- A name is that of a live entry. -/
def State.depLives (s : State) (id : Nat) : Bool := (s.dep id).any (fun d => d.live)

/-- Ranges of the indices that a launch record has not dispatched: FIRST comes round after 2 to the 20 steps (R215). -/
def Dep.ahead (d : Dep) : List Footprint :=
  (upFrom d.next (min (d.count - d.next) (2 ^ 20))).map (fun i => d.foot.shift i d.step)

/-- A launch record has an index to dispatch that writes a handle, or that names it. -/
def Dep.willWrite (d : Dep) (h : Nat) : Bool := d.launch && d.live && d.ahead.any (fun f => f.writes.contains h)
def Dep.willName (d : Dep) (h : Nat) : Bool :=
  d.launch && d.live && d.ahead.any (fun f => f.reads.contains h || f.writes.contains h)

/-- A live task binds version `num` of a handle, or an index of a launch record is to bind it. -/
def State.binds (s : State) (g h num : Nat) : Bool :=
  s.deps.any (fun d => d.live && d.graph == g && (d.reads.contains (h, num) || d.writes.contains (h, num) ||
    (d.willName h && (s.versionAt g h d.place).elim 0 (fun v => v.num) == num)))

/-- A version is newer than another of its handle: its writer's push is later. A dead one comes after dead ones alone. -/
def Version.follows (w v : Version) : Bool :=
  w.graph == v.graph && w.handle == v.handle && (v.dead || !w.dead) &&
    (decide (v.place < w.place) || (v.place == w.place && decide (v.num < w.num)))

/-- A version's buffer is not in the pool: a live task binds the version, or no newer one of its handle exists (R224). -/
def State.keepsBuffer (s : State) (v : Version) : Bool :=
  s.binds v.graph v.handle v.num || !(s.versions.any (fun w => w.follows v))

/-- Versions that nothing can come back to: no live task binds them, and a newer one of the handle, which cannot die any more or
is dead as they are, follows. Until then the last version that is not dead may be one of them: later tasks bind it, and the map
receives it, though its buffer has returned to the pool (R222, R224, R228). (DEDUCED, log 26.) -/
def State.dropVersions (s : State) : State :=
  let settled := fun (w : Version) => w.dead || !(w.writer.any s.depLives)
  { s with versions := s.versions.filter (fun v =>
      s.binds v.graph v.handle v.num || !(s.versions.any (fun w => w.follows v && settled w))) }

/-- The free rename buffer of a graph that a fresh version takes: the lowest (R224). (DESIGN CHOICE, log 26.) -/
def State.freeBuffer (s : State) (g n : Nat) : Option Nat :=
  scanRing n (fun k => !(s.versions.any (fun v => v.graph == g && v.buffer == some k && s.keepsBuffer v))) 0 n

/-- The writer of a version ended without retiring (R224). -/
def State.writerFailed (s : State) (v : Version) : Bool :=
  match v.writer with
  | some id => (s.dep id).any (fun x => !x.live && !x.retiredOk)
  | none => false

/-- The earlier tasks that one read of an entry waits for: the version's writer while it lives, a launch record with an index
pushed since that is to write the handle (R224), and a page-out that reads the version (R226). -/
def State.readWaits (s : State) (d : Dep) (x : Nat × Nat) : List Nat :=
  let v := s.version? d.graph x.1 x.2
  let since := v.elim 0 (fun w => w.place)
  let writer := (v.bind (fun w => w.writer)).toList.filter (fun id => id != d.id && s.depLives id)
  let others := s.deps.filter (fun l => l.live && l.graph == d.graph && decide (l.place < d.place) &&
    ((decide (since ≤ l.place) && l.willWrite x.1) || (l.swap && l.reads.contains x)))
  writer ++ others.map (fun l => l.id)

/-- An entry names a handle, or an index of it is to. -/
def Dep.names (d : Dep) (h : Nat) : Bool := d.reads.any (fun r => r.1 == h) || d.writes.any (fun r => r.1 == h) || d.willName h

/-- The earlier tasks that one write of an entry waits for: with a buffer of its own none, and otherwise every earlier-pushed live
reader and writer of the handle, among them the indices of an earlier launch, dispatched or not (R224). -/
def State.writeWaits (s : State) (d : Dep) (x : Nat × Nat) : List Nat :=
  let earlier := fun (e : Dep) => decide (e.place < d.place) || (e.place == d.place && !e.launch && decide (e.id < d.id))
  if s.rootOf d.graph x.1 x.2 = x.2 then []
  else (s.deps.filter (fun e => e.live && e.graph == d.graph && e.id != d.id && e.names x.1 && earlier e)).map (fun e => e.id)

/-- The tasks that an entry waits for (R224). -/
def State.waitsOf (s : State) (d : Dep) : List Nat :=
  (d.writes.flatMap (s.writeWaits d) ++ d.reads.flatMap (s.readWaits d)).eraseDups

/-- One read handle bound: the last earlier-pushed writer's version, or the map's (R224). -/
def State.bindRead (s : State) (d : Dep) (h : Nat) : Dep :=
  match s.versionAt d.graph h d.place with
  | none => { d with reads := d.reads ++ [(h, 0)] }
  | some v => { d with reads := d.reads ++ [(h, v.num)], failed := d.failed || s.writerFailed v }

/-- A version enters in the order of pushes. A task pushed later than its writer that had bound an older version, since the
index of a launch record was not yet dispatched, binds it; a later version without a buffer of its own stands at its
place. -/
def State.putVersion (s : State) (v : Version) : State :=
  let early := s.versions.filter (fun w => decide (w.place ≤ v.place))
  let late := s.versions.filter (fun w => decide (v.place < w.place))
  let older := fun (num : Nat) => (s.version? v.graph v.handle num).elim true (fun w => decide (w.place ≤ v.place))
  let move := fun (w : Version) =>
    if w.graph == v.graph && w.handle == v.handle && w.root != w.num && older w.root then
      { w with root := v.root, addr := v.addr, buffer := v.buffer }
    else w
  let take := fun (d : Dep) =>
    if d.live && !d.swap && d.graph == v.graph && decide (v.place < d.place) then
      { d with reads := d.reads.map (fun x => if x.1 == v.handle && older x.2 then (x.1, v.num) else x) }
    else d
  { s with versions := early ++ [v] ++ late.map move, deps := s.deps.map take }

/-- One write handle bound: a fresh version, or with no buffer free one at the place of the current one, after every earlier
live reader and writer (R224). A version without a buffer stands at the address that the map gives. (DEDUCED, log 26.) -/
def State.bindWrite (s : State) (desc : Word512) (d : Dep) (h : Nat) : Dep × State :=
  let num := ((s.versionsOf d.graph h).map (fun v => v.num)).foldl Nat.max 0 + 1
  let bound := { d with writes := d.writes ++ [(h, num)] }
  let v : Version := { graph := d.graph, handle := h, num := num, addr := 0, buffer := none, writer := some d.id, place := d.place, root := num }
  match s.freeBuffer d.graph (descBuffers desc) with
  | some k => (bound, s.putVersion { v with addr := descPool desc + BitVec.ofNat 64 (k * descTile desc), buffer := some k })
  | none =>
    let cur := s.versionAt d.graph h d.place
    (bound, s.putVersion { v with
      addr := cur.elim 0 (fun c => c.addr)
      buffer := cur.bind (fun c => c.buffer)
      root := cur.elim 0 (fun c => c.root) })

/-- A task's ranges bound, reads first (R224). -/
def State.bindTask (s : State) (desc : Word512) (f : Footprint) (d : Dep) : Dep × State :=
  f.writes.foldl (fun (acc : Dep × State) h => acc.2.bindWrite desc acc.1 h) (f.reads.foldl s.bindRead d, s)

/-- A task, or a launch record's index, with a nonempty footprint enters the table (R224, R225): its entry's name. -/
def State.enterDep (s : State) (g engine : Nat) (desc : Word512) (f : Footprint) (launch : Option Nat) : Nat × State :=
  let (id, s0) := s.fresh
  let d0 : Dep := { id := id, engine := engine, graph := g, ranges := f.ranges, launch := false, index := launch.isSome,
                    place := launch.getD id }
  let r := s0.bindTask desc f d0
  (id, { r.2 with deps := r.2.deps ++ [r.1] })

/-- A launch record enters the table, with the ranges of its indices (R225). -/
def State.enterLaunch (s : State) (g engine : Nat) (f : Footprint) (count step : Nat) : Nat × State :=
  let (id, s0) := s.fresh
  let d0 : Dep := { id := id, engine := engine, graph := g, ranges := f.ranges, launch := true, place := id, foot := f,
                    count := count, step := step }
  (id, { s0 with deps := s0.deps ++ [d0] })

/-- What a launch record's next index would wait for, were it bound now (R224, R225). -/
def State.nextWaits (s : State) (l : Dep) : List Nat :=
  match (s.scope (l.graph / 256) (l.graph % 256)).desc with
  | none => []
  | some desc =>
    let d0 : Dep := { id := s.names, engine := l.engine, graph := l.graph, ranges := 0, launch := false, index := true,
                      place := l.place }
    let r := s.bindTask desc (l.foot.shift l.next l.step) d0
    r.2.waitsOf r.1

/-- The tasks that an entry waits for; a launch record's, those of its next index. -/
def State.allWaits (s : State) (d : Dep) : List Nat := if d.launch then s.nextWaits d else s.waitsOf d

/-- Room in an engine's dependence table (R225): dispatched launch indices do not count. (DEDUCED, log 26.) -/
def State.depRoom (s : State) (engine : Nat) (f : Footprint) : Bool :=
  let mine := s.deps.filter (fun d => d.live && d.engine == engine && !d.index)
  f.isEmpty || (decide (mine.length < 2048) &&
    decide ((mine.map (fun d => d.ranges)).foldl (· + ·) 0 + f.ranges ≤ 8192))

/-- A task of the dependence table reaches a final state; those that waited for it go on, with WDQ bit 2 to come if it did
not retire (R224, R235). -/
def State.finishDep (s : State) (dep : Option Nat) (retired : Bool) : State :=
  match dep with
  | none => s
  | some id =>
    let mark := fun (d : Dep) => if d.id == id then { d with live := false, retiredOk := retired } else d
    let tell := fun (d : Dep) => if !retired && (s.allWaits d).contains id then { d with failed := true } else d
    let ds := (s.deps.map (fun d => mark (tell d))).filter
      (fun d => d.live || s.versions.any (fun v => v.writer == some d.id))
    State.dropVersions { s with deps := ds }

/-- The ordering of an entry has cleared (R224). -/
def State.depClear (s : State) (dep : Option Nat) : Bool := (dep.bind s.dep).all (fun d => (s.allWaits d).isEmpty)

/-- WDQ bit 2 of a task (R235). -/
def State.depFailed (s : State) (dep : Option Nat) : Bool :=
  match dep with
  | none => false
  | some id => (s.dep id).any (fun d => d.failed)

/-- A message that a member leaves its scope, with the fault record it leaves with (R28, R435). -/
def State.sendLeave (s : State) (p scope : Nat) (fr : Option Word512) : State :=
  let image := match fr with
    | some r => bytesOfNat 64 r.toNat
    | none => []
  let c : Cmd := { part := p, unit := scope, flag := fr.isSome, bytes := image }
  { s with inflight := s.inflight ++ [(.memberLeave, c)] }

/-- A Locket's address and number (R427): 4 MiB blocks from BASE. -/
def Part.locketAddr (pt : Part) (n : Nat) : Nat := bits pt.locketpool 22 30 * 2 ^ 22 + n * 2 ^ 22

/-- The lowest free Locket of the pool; while BASE is zero no Locket exists (R427, R465). -/
def Part.freeLocket (pt : Part) : Option Nat :=
  if bits pt.locketpool 22 30 = 0 then none
  else scanRing (bits pt.locketpool 0 10) (fun i => !(pt.lockets.contains i)) 0 (bits pt.locketpool 0 10)

/-- A Locket returns to the pool (R427). -/
def State.freeLocket (s : State) (p addr : Nat) : State :=
  let s1 := s.onPart p (fun q => { q with lockets := q.lockets.filter (fun i => q.locketAddr i != addr) })
  { s1 with lockets := Tbl.del s1.lockets addr }

/-- A record gone from its queue: its slot, its Locket, its place in the dependence table, its memberships, and its scope,
which each of its members leaves, with a fault record or none (R22, R27, R429, R455). -/
def State.removeWith (s : State) (q slot : Nat) (r : Rec) (fr : Option Word512) : State :=
  let p := (s.queue q).part
  let left := if r.kind1 then recField r 288 31 else 0
  let count := if r.kind1 then bits r.packet 288 31 + 1 - left else 1
  let s1 := match r.locket with | some a => s.freeLocket p a | none => s
  let s2 := (s1.freeSlot q slot).finishDep r.dep false
  (upFrom 0 count).foldl (fun acc _ => acc.sendLeave p r.scope fr)
    (if r.state = .parked ∨ r.coreBound then s2.leaveAll r.taskId (r.core.getD 0) else s2)

/-- A record Removed (R22, R27, R429). -/
def State.removeRec (s : State) (q slot : Nat) (r : Rec) : State := s.removeWith q slot r none

/-- Everything below and including scope `i`, as a test on scopes: an ancestor within `n` steps (R27). -/
def State.below (s : State) (p anc : Nat) : Nat → Nat → Bool
  | 0, i => i == anc
  | n + 1, i => i == anc || ((s.scope p i).state != .free && (s.scope p i).kind != 4 && (s.scope p i).kind != 0 &&
      s.below p anc n (s.scope p i).parent)

/-- The address of a handle's last version that is not dead; the map's own is what its entry holds (R222). -/
def State.lastAddress (s : State) (p g : Nat) (d : Word512) (h : Nat) : Except Stop Word :=
  match s.currentVersion g h with
  | some v => if v.buffer.isSome then .ok v.addr else
      (s.engineRead p (descMap d + BitVec.ofNat 64 (8 * h)) 1).map (fun bs => BitVec.ofNat 64 (natOfBytes bs))
  | none => (s.engineRead p (descMap d + BitVec.ofNat 64 (8 * h)) 1).map (fun bs => BitVec.ofNat 64 (natOfBytes bs))

/-- Requests wait for the line of some map entry of a graph: the map is written after them (R384). -/
def State.mapAwaited (s : State) (p i : Nat) : Bool :=
  (s.scope p i).desc.any (fun d => s.engineAwaits p (descMap d) (descHandles d))

/-- The first map entry of a graph that lies in the second tier: its leaf and its address. -/
def State.mapMiss (s : State) (p i : Nat) : Option (Nat × Word) :=
  match (s.scope p i).desc with
  | none => none
  | some d => (upFrom 0 (descHandles d)).findSome? (fun h =>
      match s.engineXlate p (descMap d + BitVec.ofNat 64 (8 * h)) true with
      | .error (.tierMiss leaf va) => some (leaf, va)
      | _ => none)

/-- A look again at a scope that is closed with no member left (R26). -/
def settleNote (p i : Nat) : Cmd := { part := p, unit := i, value := 1 }

/-- One handle of a complete graph written to the map; an unwritable entry makes the graph faulted with cause 26 (R222,
R422). An entry in the second tier is brought in before (`mapMiss`). (DESIGN CHOICE, log 16.) -/
def State.writeHandle (p g : Nat) (d : Word512) (acc : State × Scope) (h : Nat) : State × Scope :=
  let va := descMap d + BitVec.ofNat 64 (8 * h)
  let out : Except Stop State := do
    let a ← acc.1.lastAddress p g d h
    acc.1.engineWrite p va a
  match out with
  | .ok s' => (s', acc.2)
  | .error e =>
    let r : Word512 := BitVec.ofNat 512 (26 + va.toNat * 2 ^ 192 + acc.1.cycle.toNat * 2 ^ 320)
    (acc.1.noteFault p e, { acc.2 with faulted := true, first := acc.2.first.or (some r), nfault := min 65535 (acc.2.nfault + 1) })

/-- A complete graph's tile map: each handle's last version that is not dead (R222). (DEDUCED, log 26.) -/
def State.writeMap (s : State) (p i : Nat) (c : Scope) : State × Scope :=
  match c.desc with
  | none => (s, c)
  | some d =>
    let g := graphKey p i
    let r := (upFrom 0 (descHandles d)).foldl (State.writeHandle p g d) (s, c)
    ({ r.1 with versions := r.1.versions.filter (fun v => v.graph != g) }, r.2)

/-- Completion of scope `i` (R435): the fault-record table, the tile map, the status. Entries of its complete scopes that
only the parent's completion frees are freed (R231). -/
def State.finishScope (s : State) (p i : Nat) : State × Scope :=
  let c := s.scope p i
  let frt := bits (s.part p).frtbase 14 38 * 16384
  let s1 := match c.first with
    | some r => if frt = 0 then s else s.putMem (frt + 64 * i) 64 r.toNat
    | none => s
  let r := s1.writeMap p i c
  let s3 := r.1.onScope p i (fun _ => { r.2 with state := .complete })
  let free := fun (e : Nat × Scope) =>
    if e.2.state == .complete && e.2.parent == i && e.2.kind != 4 && i != 0 && e.1 != i then (e.1, ({} : Scope)) else e
  (s3.onPart p (fun q => { q with scopes := q.scopes.map free }), r.2)

/-- Leaving of one member, and every completion it causes, as one step (R435), then the parent. `fuel` bounds the height,
since a parent's type is greater than its own (R25). A graph whose map is away completes after the page-in (R255).
(DESIGN CHOICE, log 16.) -/
def State.leaveScope (s : State) (p : Nat) : Nat → Nat → Option Word512 → Bool → Bool → Nat → State
  | 0, _, _, _, _, _ => s
  | fuel + 1, i, fr, faulted, counted, nf =>
    let c0 := s.scope p i
    let c1 : Scope := { c0 with
      count := c0.count - (if counted then 1 else 0)
      faulted := c0.faulted || faulted || fr.isSome
      first := c0.first.or fr
      nfault := min 65535 (c0.nfault + nf) }
    let s1 := s.onScope p i (fun _ => c1)
    if c1.state = .closed ∧ c1.count = 0 then
      match s1.mapMiss p i with
      | some (leaf, va) => (s1.askPageIn p leaf va).requeue .memberLeave (settleNote p i)
      | none =>
        if s1.mapAwaited p i then s1.requeue .memberLeave (settleNote p i)
        else
        let r := s1.finishScope p i
        if r.2.kind = 4 then r.1
        else (r.1.teach (fun x => x.by' == .scope p i) [.scope p r.2.parent]).leaveScope p fuel r.2.parent r.2.first r.2.faulted true r.2.nfault
    else s1

end Sys2Proof.Machine
end

