-- ==== Sys2Proof/Machine/Ops.lean ====
section
/-! DEFINITION. Operations of every instruction and unit: the context in focus, regions (R371), fault records (R421), taking
a trap and returning from it (R416, R434), the end of a task (R423), the Locket (R426 to R433), and the issue of an
instruction. -/

namespace Sys2Proof.Machine

/-- The heap window as it stands (R238). -/
def State.window (s : State) : HeapWin := { base := s.k.heapbase, lim := s.k.heaplim, off := s.k.heapoff }

/-- The context in focus as the maker of an access. -/
def State.agent (s : State) : Agent :=
  { ident := identOf s.modNo s.coreNo s.ctx.slot, part := s.myPart, core := s.coreNo, win := s.window,
    regionAt := s.ctx.regionAt, tag := s.ctx.tag }

/-- The region ends and REGION advances; a notice of it goes to every home (R371, R374). -/
def State.closeRegion (s : State) : State :=
  let slot := s.ctx.slot
  let ends := match s.ctx.tag with
    | some t => Tbl.put s.hw.tagEnds (2048 * slot + t) s.cycle.toNat
    | none => s.hw.tagEnds
  let note : Cmd := { core := s.coreNo, unit := slot, value := s.ctx.region + 1 }
  let (name, s1) := s.fresh
  { s1.forgetRegion s.agent.ident with
    ctx := { s.ctx with region := s.ctx.region + 1, regionAt := name, tag := none, tagAsked := false }
    hw := { s.hw with tagEnds := ends }
    inflight := s.inflight ++ [(.regionNotice, note)] }

/-- The phase of a barrier in which the task in focus has just arrived, by the barrier as the arrival leaves it (R393). -/
def State.arrivedIn (s : State) (id : Nat) : BitVec 16 :=
  let b := s.barrier id
  if b.hasArrived s.task.id then b.phase else b.phase - 1

/-- An arrival as a release: of a barrier's phases, the last two may still be told of (R395). -/
def State.tellBarrier (s : State) (id : Nat) : State :=
  let ph := s.arrivedIn id
  let old := fun (k : Knower) => match k with
    | .barrier id' ph' => id' == id && ph' != ph && ph' != ph - 1
    | _ => false
  (s.unlearn old).tell [.barrier id ph]

/-- LDACQ as an acquire, of the bytes that it has read (R136). -/
def State.acquireAt (s : State) (ty : BitVec 4) (scope : BitVec 3) : State :=
  match s.readAt with
  | some (sp, a) => s.teach (fun x => x.by'.readBy sp a (tyBytes ty) s.coreNo scope) [s.me]
  | none => s

/-- What the synchronising instruction in progress tells and learns, where its operands alone say it (R361, R395, R412). The rest
stands with the instruction: STREL and the atomics, FSWAIT, TDONE and HEXIT, and the pushes. -/
def State.synchronise (s : State) : State :=
  if s.before.isEmpty then s
  else
    match s.inProgress, s.ctx.hold with
    | some (.ldacqI64 f), _ => s.acquireAt f.ty f.md
    | some (.ldacqW96 f), _ => s.acquireAt f.ty f.md
    | some (.hwait f), _ => s.learn [.ended s.task.id f.a.toNat]
    | some (.tjoin f), _ => match s.byTag (s.readOp f.a f.da) with
      | some r => s.tell [.task r.taskId]
      | none => s
    | some (.barmLeave f), _ => s.tellBarrier (s.barrierId f)
    | some (.bsig f), _ => s.tellBarrier (s.barrierId f)
    | some (.bwait f), some (.barrier _ ph) => s.learn [.barrier (s.barrierId f) ph]
    | some (.bwait f), some (.released ph) => s.learn [.barrier (s.barrierId f) ph]
    | some (.bwait f), _ => s.tellBarrier (s.barrierId f)
    | some (.xopen f), some (.exchange ph) => s.learn [.barrier (domainId f.a.toNat) ph]
    | some (.xopen f), _ => s.tellBarrier (domainId f.a.toNat)
    | _, _ => s

/-- A synchronising operation of the context in focus ends its region (R360, R371). -/
def State.endRegion (s : State) : State := s.synchronise.closeRegion

/-- Engine work of the region in focus bears the tag that the region has been given (R371). -/
def State.tellEngines (s : State) (t : Nat) : State :=
  let me := s.agent
  let change := fun (a : Agent) => if a.ident = me.ident ∧ a.regionAt = me.regionAt then { a with tag := some t } else a
  let held := fun (u : Unreleased) => match u.work with
    | .copy c x => { u with work := .copy c { x with agent := change x.agent } }
    | _ => u
  { s with
    k := { s.k with
      chans := s.k.chans.map (fun c => { c with queue := c.queue.map (fun x => { x with agent := change x.agent }) })
      unreleased := s.k.unreleased.map held }
    ix := s.ix.map (fun (e : Nat × List IxReq) => (e.1, e.2.map (fun r => { r with agent := change r.agent }))) }

/-- The region's first access to a checked page gives it the next tag, if that tag is free (R371). (DEDUCED, log 24.) -/
def State.takeTag (s : State) : State :=
  if s.ctx.tagAsked then s
  else
    let slot := s.ctx.slot
    let t := (Tbl.getD s.hw.lastTags slot 0 + 1) % 2048
    let ready := match Tbl.find s.hw.tagEnds (2048 * slot + t) with
      | some e => decide (e + Config.tagReuse ≤ s.cycle.toNat)
      | none => true
    if ready then
      { (s.forgetTag s.agent.ident t).tellEngines t with
        ctx := { s.ctx with tag := some t, tagAsked := true }
        hw := { s.hw with lastTags := Tbl.put s.hw.lastTags slot t } }
    else { s with ctx := { s.ctx with tagAsked := true } }

/-- The region of every context of the core ends, with no synchronising operation (R371). -/
def State.closeRegions (s : State) : State :=
  let here := s.ctx.slot
  ((here :: s.k.peers.map (fun c => c.slot)).foldl (fun acc slot => (acc.focusSlot slot).closeRegion) s).focusSlot here

/-- A byte of a store performed. -/
def State.putByte (s0 : State) (h : HeldByte) : State :=
  let s := s0.overwrite h.space h.addr 1
  match h.space with
  | .localMem => { s with k := { s.k with localMem := Mem.set s.k.localMem h.addr h.byte } }
  | .clusterMem => { s.soil (2 ^ 52 + h.addr) with clusterMem := Mem.set s.clusterMem h.addr h.byte }
  | .globalMem => { s.soil h.addr with mem := Mem.set s.mem h.addr h.byte }

/-- Every STNT byte of the context in focus performed, oldest first (R381). -/
def State.drainNt (s : State) : State :=
  let s1 := s.ctx.nt.foldl State.putByte s
  { s1 with ctx := { s1.ctx with nt := [] } }

/-- STNT bytes of a kind, of the context in focus, performed; the others stay (R135). -/
def State.drainSome (s : State) (hit : HeldByte → Bool) : State :=
  let s1 := (s.ctx.nt.filter hit).foldl State.putByte s
  { s1 with ctx := { s1.ctx with nt := s.ctx.nt.filter (fun h => !(hit h)) } }

/-- STNT bytes of a kind, of every context of the core, performed. -/
def State.drainCore (s : State) (hit : HeldByte → Bool) : State :=
  let here := s.ctx.slot
  ((here :: s.k.peers.map (fun c => c.slot)).foldl (fun acc slot => (acc.focusSlot slot).drainSome hit) s).focusSlot here

/-- The STNT bytes of every context of the core performed. -/
def State.drainAllNt (s : State) : State :=
  let here := s.ctx.slot
  ((here :: s.k.peers.map (fun c => c.slot)).foldl (fun acc slot => (acc.focusSlot slot).drainNt) s).focusSlot here

/-- STNT bytes of contexts that have ended, of a kind, performed. -/
def State.drainLate (s : State) (hit : HeldByte → Bool) : State :=
  if s.late.isEmpty then s
  else { (s.late.filter hit).foldl State.putByte s with late := s.late.filter (fun h => !(hit h)) }

/-- Those performed that no request for their lines is before, each STNT whole (R132, R384). -/
def State.flushLate (s : State) : State :=
  s.drainLate (fun h => !(s.late.any (fun x => x.order == h.order && s.byteWaits x)))

/-- A context ends: its STNT bytes are performed, those that have to wait as soon as they may (R381, R384). -/
def State.leaveNt (s : State) : State :=
  if s.ntBlocked then
    State.flushLate { s with late := s.late ++ s.ctx.nt, ctx := { s.ctx with nt := [] } }
  else s.drainNt

/-- The same for every context of the core. -/
def State.leaveAllNt (s : State) : State :=
  let here := s.ctx.slot
  ((here :: s.k.peers.map (fun c => c.slot)).foldl (fun acc slot => (acc.focusSlot slot).leaveNt) s).focusSlot here

/-- A pre-emption request completes with a result code (R425, R450). -/
def State.finishPreempt (s : State) (code : Nat) : State :=
  match s.hw.preempting with
  | none => s
  | some p =>
    let s1 := { s with hw := { s.hw with preempting := none } }
    s1.onPart p.part (fun q => { q with preempt := BitVec.ofNat 64 (s.coreNo + code * 2 ^ 32) })

/-- LOOPSTAT (R289). -/
def Loop.stat (l : Loop) : Word :=
  let lv := l.inner.or l.outer
  BitVec.ofNat 64 (l.trapOuter.toNat * 2 ^ 40 + l.trapInner.toNat * 2 ^ 16 + l.trapInInner.toNat * 2 ^ 12
    + l.susp.toNat * 2 ^ 11 + l.outer.isSome.toNat * 2 ^ 10 + l.inner.isSome.toNat * 2 ^ 9
    + (match lv with | some v => v.reach * 16 + v.depth | none => 0))

/-- The fault record (R421). -/
def State.faultRecord (s : State) (cause sub : Nat) (async : Bool) (addr detail pc : Word) (seq : BitVec 32) (slot : Nat) :
    Word512 :=
  let tag := (s.task.tag.getD 0).toNat
  let low := cause + sub * 2 ^ 8 + async.toNat * 2 ^ 16 + s.k.loop.running.toNat * 2 ^ 17 + slot * 2 ^ 28
    + s.coreNo * 2 ^ 32 + s.modNo * 2 ^ 42 + pc.toNat * 2 ^ 64
  let high := seq.toNat * 2 ^ 128 + addr.toNat * 2 ^ 192 + s.control.retired.toNat * 2 ^ 256 + s.cycle.toNat * 2 ^ 320
    + detail.toNat * 2 ^ 384 + tag * 2 ^ 448
  BitVec.ofNat 512 (low + high)

/-- FINAL set in a fault record (R421). -/
def finalRecord (r : Word512) : Word512 := setBits r 19 1 1

/-- The control context idle, and everything of R14 gone with its task; exchange lines are unlocked (R410). -/
def State.idleCore (s : State) : State :=
  { s with
    ctx := {}
    k := {}
    hw := { s.hw with icache := s.hw.icache.map (fun l => { l with locked := false }), group := none } }

/-- TDONE as a release: to the task's scope, and to those that wait for it in the dependence table (R361). -/
def State.tellDone (s : State) (t : Task) : State :=
  if s.before.isEmpty then s
  else
    let later := match t.dep with
      | some id => (s.deps.filter (fun d => (s.allWaits d).contains id)).map (fun d => Knower.dep d.id)
      | none => []
    s.tell (.scope t.part t.scope :: later)

/-- A task reaches a final state: its place in the dependence table, its memberships (R396), its slot (R217), its Locket
and, last, its scope (R22, R28). A pre-emption request that meets it completes with code 1 (R430). -/
def State.finishTask (s : State) (retired : Bool) (fr : Option Word512) : State :=
  let t := s.task
  let s0 := { s with ix := s.ix.map (fun (e : Nat × List IxReq) => (e.1, e.2.filter (fun r => r.core != s.coreNo))) }
  let told := if retired then s0.leaveAllNt.tellDone t else s0.leaveAllNt
  let s1 := (told.closeRegions).finishDep t.dep retired
  let s2 := s1.leaveAll t.id s.coreNo
  let s3 := match t.tag with
    | some tag => s2.freeSlot (tagQueue tag) (tagSlot tag)
    | none => s2
  ((s3.sendLeave t.part t.scope fr).finishPreempt 1).idleCore

/-- Started entries of a task that ends finish and retire, in order and without a report; none of their effects outlives the
task but the trace of it. Unstarted ones are discarded (R14, R423, R443). -/
def State.retireStarted (s : State) : State :=
  (s.k.mvuq.filter (fun e => e.guard && e.stage != .waiting)).foldl (fun (acc : State) e => acc.trace 5 e.pc e.seq) s

/-- The task ends Faulted, with its record (R423). An idle core has nothing to end. -/
def State.endFaulted (s : State) (fr : Word512) : State :=
  let s1 := (s.focusSlot 15).retireStarted
  s1.finishTask false (some (finalRecord fr))

/-- What a trap carries: cause, SUB, TRAPADDR, the PC and the number it names, whether it is asynchronous, and its fault
record. -/
structure Trap where
  cause : Nat
  sub : Nat := 0
  addr : Word
  pc : Word
  seq : BitVec 32
  async : Bool := false
  record : Word512
  /-- The number of its point: of a precise trap at an engine-bound instruction, that instruction's own (R441). -/
  pointSeq : BitVec 32 := seq
  deriving DecidableEq, Repr

/-- The PC of a trap's point: the trapping instruction's, or the launching one's, which its record names (R421, R441). -/
def Trap.point (t : Trap) : Word := BitVec.ofNat 64 (bits t.record 64 64)

/-- Trap entry of a control context (R416): HACT, the registers, the loop suspended (R285), and PC at the handler. With no
handler the task ends; a trap while HACT is set is a double trap. A handler whose page has yet to come is fetched, and
waited for, at its own first instruction. An asynchronous trap behind an ERET leaves its handler's first instruction the first
one issued after it (R444). (DEDUCED, log 18.) (DEDUCED, log 24.) (DEDUCED, log 27.) -/
def State.takeTrap (s0 : State) (t : Trap) : State :=
  let s := s0.focusSlot 15
  let double := s.faultRecord 22 t.cause false 0 0 t.point t.seq 15
  if s.k.trapcause.getLsbD 63 then s.endFaulted double
  else if t.cause = 22 ∨ t.cause = 24 ∨ t.cause = 25 ∨ t.cause = 26 then s.endFaulted t.record
  else
    let inLoop := s.k.loop.running
    let flags := 2 ^ 63 + inLoop.toNat * 2 ^ 17 + t.async.toNat * 2 ^ 16 + t.sub * 2 ^ 8 + t.cause
    let k1 := { s.k with
      trapcause := BitVec.ofNat 64 flags
      trapaddr := t.addr
      trappc := t.pc
      trapseq := t.seq.setWidth 64 }
    let v := s.k.trapvec
    let badFetch := match s.translateFetch s.myPart true v with
      | .error (.trap ..) => true
      | .error (.ends ..) => true
      | _ => false
    if v = 0 then s.endFaulted t.record
    else if badPc v || badFetch then s.endFaulted double
    else
      let kept := fun (lv : LoopLevel) => { lv with entry := lv.entry.or (some s.k.strands) }
      let outerIter := match s.k.loop.outer with | some l => BitVec.ofNat 24 l.iter | none => 0
      let innerIter := match s.k.loop.inner with | some l => BitVec.ofNat 24 l.iter | none => 0
      let loop1 : Loop :=
        if inLoop then
          { s.k.loop with
            outer := s.k.loop.outer.map kept
            inner := s.k.loop.inner.map kept
            susp := true
            trapAt := s.ctx.retired
            trapOuter := outerIter
            trapInner := innerIter
            trapInInner := s.k.loop.inner.isSome && s.k.loop.outer.isSome }
        else s.k.loop
      let s1 := s.trace 3 t.point t.pointSeq
      { s1 with
        ctx := { s1.ctx with pc := v, hold := none, entry := false, skipBp := t.async && s1.ctx.skipBp }
        k := { k1 with loop := loop1 } }

/-- Beads of a strand beyond the reach of a level that ends: 0, and marked (R272, R291). -/
def Strand.cut (st : Strand) (reach : Nat) : Strand :=
  let keep := fun (i : Nat) => if i ≤ reach then st.hist.getD i {} else { value := 0, cleared := true }
  { hist := #v[keep 0, keep 1, keep 2, keep 3, keep 4, keep 5, keep 6, keep 7], cur := none }

/-- The strands of a level that ends: cut at its reach if an iteration retired, else as they stood at entry (R272). -/
def State.endStrands (s : State) (lv : LoopLevel) : State :=
  (upFrom 0 32).foldl (fun acc g =>
    if lv.set.getLsbD g then
      acc.setStrand g (if lv.retiredAny then (acc.strand g).cut lv.reach else { acc.strand g with cur := none })
    else acc) s

/-- The predicates a level leaves (R273, R287). -/
def LoopLevel.preds (lv : LoopLevel) : BitVec 8 := if lv.retiredAny then lv.lastPreds else lv.entryPreds

/-- What abandonment keeps of the work that is not yet released: that of retired iterations (R287). -/
def Unreleased.kept (u : Unreleased) : Unreleased :=
  { u with work := match u.work with
    | .entry e => .entry { e with fromLoop := false }
    | .copy n x => .copy n { x with fromLoop := false }
    | w => w }

/-- The CYCLE at which a fault was reported (R421). -/
def Pending.cycle (p : Pending) : Nat := bits p.record 320 64

/-- An asynchronous fault becomes pending: in order of report, and faults of one cycle in the order of their sources; a source
holds one, and a further one of it is not kept (R418). (DESIGN CHOICE, log 27.) -/
def State.pend (s : State) (p : Pending) : State :=
  let after := fun (x : Pending) => x.cycle == p.cycle && decide (p.source < x.source)
  let q := s.k.pending
  if q.any (fun x => x.source == p.source) then s
  else { s with k := { s.k with pending := q.filter (fun x => !(after x)) ++ [p] ++ q.filter after } }

/-- The record of a pending fault as it leaves the context: LOOP and TAG are those of that moment (R415, R421). -/
def State.currentRecord (s : State) (r : Word512) : Word512 :=
  setBits (setBits r 17 1 s.k.loop.running.toNat) 448 64 (s.task.tag.getD 0).toNat

/-- A helper ends, with its end status; the focus returns to the control context (R234). -/
def State.endHelper (s : State) (status : Nat) : State :=
  let slot := s.ctx.slot
  let s1 := ((s.leaveNt.retireHelper (status == 1)).closeRegion).focusSlot 15
  { s1 with k := { s1.k with
      peers := s1.k.peers.filter (fun c => c.slot != slot)
      helperEnd := s1.k.helperEnd.setIfInBounds slot (BitVec.ofNat 2 status) } }

/-- A helper's trap ends it and is reported to the parent as cause 23 (R17, R417). (DEDUCED, log 27.) -/
def State.helperFault (s : State) (cause : Nat) (addr : Word) : State :=
  let c := s.ctx
  let r := s.faultRecord 23 cause true addr addr c.startPc c.startSeq c.slot
  (s.endHelper 2).pend { source := 9 + 1 + c.slot, cause := 23, sub := cause, addr := c.pc, seq := c.startSeq, record := r }

/-- A precise trap of the instruction of the context in focus, with the PC it names; an engine-bound instruction's point has the
number that it would have taken (R441). -/
def State.trapFrom (s : State) (engine : Bool) (cause : Nat) (addr detail pc : Word) : State :=
  if s.ctx.slot = 15 then
    s.takeTrap { cause := cause, addr := addr, pc := pc, seq := s.k.engseq,
                 record := s.faultRecord cause 0 false addr detail s.ctx.pc s.k.engseq 15,
                 pointSeq := if engine then s.k.engseq + 1 else s.k.engseq }
  else s.helperFault cause addr

/-- A precise trap of an instruction that is not engine-bound, with the PC it names. -/
def State.trapAt (s : State) (cause : Nat) (addr detail pc : Word) : State := s.trapFrom false cause addr detail pc

/-- A precise trap at the PC of the context in focus. -/
def State.trapHere (s : State) (cause : Nat) (addr detail : Word) : State := s.trapAt cause addr detail s.ctx.pc

/-- The task ends by a cause that no handler sees (R424). (DEDUCED, log 27.) -/
def State.endWith (s : State) (cause : Nat) (addr detail : Word) : State :=
  s.endFaulted (s.faultRecord cause 0 false addr detail s.ctx.pc s.k.engseq 15)

/-- A wait in an instruction that holds its core (R29): not that of one that has not issued for want of an operand or of room in
the dispatch queue, of an access that has been sent, or of a save (R432, R439). -/
def Wait.holding : Wait → Bool
  | .operand | .dispatchFull | .drain | .turn .. => false
  | _ => true

/-- A wait at a barrier or a domain, in progress (R396, R406). -/
def Wait.atBarrier : Wait → Bool
  | .barrier .. | .exchange _ | .domainLost | .released _ => true
  | _ => false

/-- Whether the task may resume only on this core: it is phased, has a window, or is a member of a barrier or in a wait at
one (R20, R396, R428). -/
def State.isCoreBound (s : State) : Bool :=
  s.task.phased || s.k.window.isSome || !(s.memberships s.task.id).isEmpty || s.control.hold.any Wait.atBarrier

/-- `n` words of a Locket's engine areas, whose form the manual does not lay out: free values (R431).
(DESIGN CHOICE, log 8.) -/
def State.freeArea (s : State) (at' : Nat) : Nat → State
  | 0 => s
  | n + 1 => State.freeArea { s.putMem at' 8 (Config.freeWord s.free).toNat with free := s.free + 1 } (at' + 8) n

/-- The words of the areas that CHECK covers (R432). -/
def checkedWords (m : Mem) (at' : Nat) : Nat → List Word
  | 0 => []
  | n + 1 => BitVec.ofNat 64 (Mem.readLE m at' 8) :: checkedWords m (at' + 8) n

/-- CHECK of the Locket at an address. (DESIGN CHOICE, log 8.) -/
def State.lockCheck (s : State) (at' : Nat) : Word := Config.locketCheck (checkedWords s.mem (at' + 0x1400) 15744)

/-- The predicate and register block of a Locket, sixteen words in order (R431). -/
def State.lockRegs (s : State) (c : Ctx) : List Word :=
  let t := s.task
  [(c.preds &&& 0xFE).setWidth 64, s.k.heapbase, s.k.heaplim, s.k.heapoff, s.k.trapcause, s.k.trapaddr, s.k.trapseq,
   s.k.trappc, s.k.trapvec, c.fpflags, c.srseed, s.k.loop.stat, t.regsAddr, t.tensAddr, t.helpAddr,
   BitVec.ofNat 64 t.hlines]

/-- Words written from an address on. -/
def State.putWords (s : State) (at' : Nat) : List Word → State
  | [] => s
  | w :: ws => State.putWords (s.putMem at' 8 w.toNat) (at' + 8) ws

/-- A Locket written from the control context in focus (R431, R432). (DESIGN CHOICE, log 8.) (DEDUCED, log 20.) -/
def State.writeLocket (s : State) (at' reason : Nat) (held bound : Bool) (pc : Word) : State :=
  let c := s.ctx
  let s0 := { s with mem := Mem.zero s.mem at' 0x400000 }
  let s1 := s0.putMem (at' + 0x40) 64 (match s.k.pending with | p :: _ => (s.currentRecord p.record).toNat | [] => 0)
  let s2 := (s1.putWords (at' + 0x80) c.regs.toList).putWords (at' + 0x180) (s.lockRegs c)
  let s3 := s2.putMem (at' + 0x200) 512 (natOfBytes (s.k.masks.toList.flatMap (fun m => bytesOfNat 32 m.toNat)))
  let s4 := s3.putMem (at' + 0x400) 4096 (natOfBytes (s.k.tens.toList.flatMap (fun m => bytesOfNat 64 m.toNat)))
  let s5 := s4.freeArea (at' + 0x1400) 15744
  let m6 := Mem.copyFrom s5.mem (at' + 0x100000) s.k.localMem 0 Config.localBytes
  let m7 := s.k.bezel.foldl (fun m e => Mem.writeLE m (at' + 0x1C0000 + 4 * e.1) 4 e.2.toNat) m6
  let m8 := Mem.copyFrom m7 (at' + 0x200000) s.k.crown 0 0x180000
  let s9 := { s5 with mem := m8 }
  let low := 1 + reason * 2 ^ 16 + held.toNat * 2 ^ 24 + bound.toNat * 2 ^ 25 + s.coreNo * 2 ^ 32 + s.cycle.toNat * 2 ^ 64
  let mid := (s.task.tag.getD 0).toNat * 2 ^ 128 + pc.toNat * 2 ^ 192 + s.k.engseq.toNat * 2 ^ 256
  let high := c.retired.toNat * 2 ^ 320 + c.region.toNat * 2 ^ 384 + (s9.lockCheck at').toNat * 2 ^ 448
  s9.putMem at' 64 (low + mid + high)

/-- A slot of its queue for a task that holds none (R217): it shows the task's scope and priority. -/
def State.takeSlot (s : State) : Option (Word × State) :=
  let t := s.task
  match t.tag with
  | some tag => some (tag, s)
  | none =>
    match s.freeSlotOf t.queue with
    | none => none
    | some slot =>
      let r0 : Rec :=
        { img := 0, state := .running, regsAddr := t.regsAddr, tensAddr := t.tensAddr, helpAddr := t.helpAddr,
          hlines := t.hlines, taskId := t.id, dep := t.dep, wdq := t.wdq, core := some s.coreNo }
      let r := (r0.setField 248 8 t.scope).setField 245 3 t.prio
      let tag := tagOf t.queue slot (s.genOf t.queue slot)
      let s1 := s.putRec t.queue slot r
      some (tag, { s1 with k := { s1.k with task := some { t with tag := some tag } } })

/-- The record of a task that is saved: its Locket, its core if it is bound to it, and the state it goes to (R22, R426). -/
def savedRec (r : Rec) (st : RecState) (locket core : Nat) (bound : Bool) (rank at' : Nat) (leaf : Option Nat) (t : Task) :
    Rec :=
  let r1 : Rec :=
    { r with
      state := st
      locket := some locket
      core := some core
      coreBound := bound
      readyAt := at'
      headRank := rank
      onLeaf := leaf
      dep := t.dep
      wdq := t.wdq }
  r1.setField 242 1 (if rank = 0 then 0 else 1)

/-- An instruction that starts again from its first step: VRED4 (R77). -/
def restarts : Instr → Bool
  | .vred4 _ => true
  | _ => false

/-- A save abandons a VRED4 that has not done its work: the control context, which has issued nothing since, is at its PC again
(R77). (DEDUCED, log 21.) -/
def State.abandonRed4 (s : State) : State :=
  match s.k.mvuq.find? (fun e => e.guard && e.stage != .finished && restarts e.instr) with
  | none => s
  | some e =>
    { s with
      ctx := { s.ctx with pc := e.pc, retired := s.ctx.retired - 1 }
      k := { s.k with
        mvuq := s.k.mvuq.filter (fun x => x.order != e.order)
        engseq := if s.k.engseq = e.seq then s.k.engseq - 1 else s.k.engseq } }

/-- A request whose chunk in progress is abandoned, and is read again from its first read (R357). -/
def IxReq.again (r : IxReq) : IxReq := { r with got := [] }

/-- A save of the whole context to a Locket, which frees the core; none if a slot or a Locket is missing (R426, R427). The
control context resumes at its PC as it stands. STNT bytes are performed (R135), operand messages are caught (R300), and
regions end (R371). -/
def State.save (s0 : State) (reason : Nat) (st : RecState) (held : Bool) (leaf : Option Nat) : Option (Word × State) :=
  let s := (((s0.focusSlot 15).drainAllNt).abandonRed4).catchMessages
  let p := s.myPart
  match s.takeSlot, (s.part p).freeLocket with
  | some (tag, s1), some n =>
    let at' := (s.part p).locketAddr n
    let bound := s1.isCoreBound
    let s2 := s1.closeRegions
    let s3 := s2.writeLocket at' reason held bound s2.ctx.pc
    let keep := match s2.ctx.hold with
      | some (.barrier id ph) => some (Wait.barrier id ph)
      | some .domainLost => some Wait.domainLost
      | some (.released ph) => some (Wait.released ph)
      | some (.exchange ph) => some (Wait.exchange ph)
      | some .signalled => some Wait.signalled
      | _ => none
    let mine := ((Tbl.getD s2.ix (s.coreNo / 16) []).filter (fun r => r.core == s.coreNo)).map IxReq.again
    let saved : Saved :=
      { ctx := { s2.ctx with hold := keep }, k := { s2.k with ixSaved := mine }, part := p,
        core := s.coreNo, reason := reason, held := held, coreBound := bound, check := 0 }
    let (name, s4) := s3.fresh
    let rank := if st = .ready then name else 0
    let r := savedRec ((s4.byTag tag).getD { img := 0, state := .running }) st at' s.coreNo bound rank s.cycle.toNat leaf
      s2.task
    let s5 := s4.putRec (tagQueue tag) (tagSlot tag) r
    let s6 := s5.onPart p (fun q => { q with lockets := n :: q.lockets })
    let others := (Tbl.getD s6.ix (s.coreNo / 16) []).filter (fun r => r.core != s.coreNo)
    let s7 := { s6 with ix := Tbl.put s6.ix (s.coreNo / 16) others }.trace 2 s2.ctx.pc s2.pointSeq
    some (tag, { s7 with lockets := Tbl.put s7.lockets at' saved }.idleCore)
  | _, _ => none

/-- A word of a Locket. -/
def State.locketWord (s : State) (at' off : Nat) : Word := BitVec.ofNat 64 (Mem.readLE s.mem (at' + off) 8)

/-- Reserved bits of the fields that system software may change (R433): the predicates' dword, TRAPCAUSE, FPFLAGS, LOOPSTAT and
HLINES, the low bits that HEAP registers do not have, and the tensor table. (DEDUCED, log 20.) -/
def State.locketReserved (s : State) (at' : Nat) : Bool :=
  let w := s.locketWord at'
  let zero := fun (v : Word) (lo len : Nat) => bits v lo len == 0
  !(zero (w 0x180) 0 1 && zero (w 0x180) 8 56 && zero (w 0x188) 0 16 && zero (w 0x190) 0 16 && zero (w 0x198) 0 16 &&
    zero (w 0x1A0) 18 45 && zero (w 0x1C8) 7 57 && zero (w 0x1D8) 13 3 && zero (w 0x1D8) 8 1 && zero (w 0x1F8) 16 48) ||
  (upFrom 0 64).any (fun i => entryReserved (BitVec.ofNat 512 (Mem.readLE s.mem (at' + 0x400 + 64 * i) 64)))

/-- Why a saved Locket is refused under R12: CHECK, FORMAT, REASON or a reserved bit (R433). -/
def State.locketBad (s : State) (at' : Nat) : Bool :=
  let h : Word512 := BitVec.ofNat 512 (Mem.readLE s.mem at' 64)
  bits h 0 16 != 1 || bits h 16 8 == 0 || decide (4 < bits h 16 8) || bits h 26 6 != 0 || bits h 42 22 != 0
    || bits h 288 32 != 0 || bits h 448 64 != (s.lockCheck at').toNat || s.locketReserved at'

/-- A started product reads its tile scales again, from the restored local memory (R317). -/
def Entry.resumed (e : Entry) (m : Mem) : Entry :=
  if e.stage == .started && e.product.isSome then { e with tiles := e.tileBytes.map (fun a => (a, Mem.get m a)) } else e

/-- Restore of a saved task on the idle core in focus, from its Locket as it stands (R428, R433); the helper store is loaded
by the caller. (DESIGN CHOICE, log 8.) -/
def State.loadLocket (s : State) (at' : Nat) (sv : Saved) (r : Rec) (tag : Word) : State :=
  let h : Word512 := BitVec.ofNat 512 (Mem.readLE s.mem at' 64)
  let w := s.locketWord at'
  let regs : Vector Word 32 := Vector.ofFn (fun i : Fin 32 => w (0x80 + 8 * i.val))
  let masks : Vector MaskWord 16 :=
    Vector.ofFn (fun i : Fin 16 => BitVec.ofNat 256 (Mem.readLE s.mem (at' + 0x200 + 32 * i.val) 32))
  let tens : Vector Word512 64 :=
    Vector.ofFn (fun i : Fin 64 => BitVec.ofNat 512 (Mem.readLE s.mem (at' + 0x400 + 64 * i.val) 64))
  let bezel := (upFrom 0 65536).filterMap (fun i =>
    let v := Mem.readLE s.mem (at' + 0x1C0000 + 4 * i) 4
    if v = 0 then none else some (i, BitVec.ofNat 32 v))
  let t0 := sv.k.task.getD {}
  let t : Task :=
    { t0 with
      tag := some tag
      regsAddr := w 0x1E0
      tensAddr := w 0x1E8
      helpAddr := w 0x1F0
      hlines := bits (w 0x1F8) 0 16
      wdq := r.wdq
      dep := r.dep }
  let ls := w 0x1D8
  let l := sv.k.loop
  let loop1 : Loop :=
    { l with
      susp := ls.getLsbD 11 && (l.inner.isSome || l.outer.isSome)
      trapOuter := BitVec.ofNat 24 (bits ls 40 24)
      trapInner := BitVec.ofNat 24 (bits ls 16 24)
      trapInInner := ls.getLsbD 12 }
  let ctx1 : Ctx :=
    { sv.ctx with
      live := true
      pc := BitVec.ofNat 64 (bits h 192 64)
      regs := regs
      preds := BitVec.ofNat 8 (bits (w 0x180) 0 8)
      retired := BitVec.ofNat 64 (bits h 320 64)
      region := BitVec.ofNat 64 (bits h 384 64)
      tag := none
      tagAsked := false
      fpflags := w 0x1C8
      srseed := w 0x1D0 }
  let memory := Mem.copyFrom [] 0 s.mem (at' + 0x100000) Config.localBytes
  let k1 : Kern :=
    { sv.k with
      task := some t
      masks := masks
      tens := tens
      localMem := memory
      mvuq := sv.k.mvuq.map (fun e => e.resumed memory)
      bezel := bezel
      crown := Mem.copyFrom [] 0 s.mem (at' + 0x200000) 0x180000
      engseq := BitVec.ofNat 32 (bits h 256 32)
      heapbase := w 0x188
      heaplim := w 0x190
      heapoff := w 0x198
      trapcause := w 0x1A0
      trapaddr := w 0x1A8
      trapseq := w 0x1B0
      trappc := w 0x1B8
      trapvec := w 0x1C0
      loop := loop1 }
  { s with ctx := ctx1, k := k1 }

end Sys2Proof.Machine
end

