-- ==== Sys2Proof/Machine/Access.lean ====
section
/-! DEFINITION. Loads and stores of a context (R128 to R137): apertures, alignment, the check of checked pages (R373), held
and non-temporal bytes (R135, R278), and the replay log (R445). -/

namespace Sys2Proof.Machine

/-- Bytes of tensor buffer that a captured entry may touch in local memory overlap a range (R131). -/
def localOverlap (e : Word512) (lo n : Nat) : Bool :=
  bits e 116 2 == 0 && decide (bits e 0 64 < lo + n) && decide (lo < bits e 0 64 + bits e 64 48)

/-- An unfinished entry of the dispatch queue names local bytes of the range: an access of the control context keeps
program order with it, so it waits (R131). An entry of the running loop's body waits for its release instead (R279, R280).
(DEDUCED, log 21.) -/
def State.mvuBusy (s : State) (lo n : Nat) : Bool :=
  s.ctx.slot == 15 && s.k.posted.any (fun e => e.stage != .finished && !(e.fromLoop && s.k.loop.running) &&
    e.tens.any (fun t => localOverlap t.2 lo n))

/-- First address of the cluster memory of the core in focus, in the module's cluster memories. -/
def State.clusterBase (s : State) : Nat := s.coreNo / 16 * Config.clusterBytes

/-- A conflict report as a trap (R377). -/
def conflictStop (va : Word) (r : Except Word State) : Except Stop State :=
  match r with
  | .ok s => .ok s
  | .error w => .error (.trap 10 va w)

/-- The line of a hot-line store that a byte of cluster memory lies in: numbers above those of global memory (R383). -/
def clusterLine (addr : Nat) : Nat := 2 ^ 46 + addr / 64

/-- Where an access by the context in focus of `n` bytes goes, and its checks in the order of R137: apertures (R128), then
translation (R248), then the conflict check of a checked page (R373). Every LS and AT access is of a parking kind (R255).
(DESIGN CHOICE, log 5.) (DEDUCED, log 34.) -/
def State.lsTarget (s : State) (path : Path) (va : Word) (n : Nat) (write recordsWrite atomic : Bool) :
    Except Stop (Target × State) :=
  let off := va.toNat % 2 ^ 56
  match apertureOf va with
  | some .localMem =>
    if Config.localBytes < off + n then .error (.trap 5 va 0)
    else if s.mvuBusy off n then .error (.hold .operand)
    else .ok ({ space := .localMem, addr := off }, s)
  | some _ =>
    if Config.clusterBytes < off + n then .error (.trap 6 va 0)
    else if s.lineBusy path (s.coreNo / 16) (clusterLine (s.clusterBase + off)) then
      .error (s.lineTurn (clusterLine (s.clusterBase + off)) path)
    else .ok ({ space := .clusterMem, addr := s.clusterBase + off }, s)
  | none => do
    let (t, s1) ← s.translate s.agent path true write va n
    let s2 := if t.checked then s1.takeTag else s1
    let s3 ← conflictStop va (s2.checkAccess s2.agent t n write recordsWrite atomic)
    .ok (t, s3)

/-- One byte of a space as memory holds it. -/
def State.byteAt (s : State) (sp : Space) (a : Nat) : Byte :=
  match sp with
  | .localMem => Mem.get s.k.localMem a
  | .clusterMem => Mem.get s.clusterMem a
  | .globalMem => Mem.get s.mem a

/-- The context's own stores that are not yet performed, oldest first: STNT bytes (R135) and, in the control context, the
held stores of the loop (R278). -/
def State.ownStores (s : State) : List HeldByte :=
  if s.ctx.slot = 15 then
    s.ctx.nt ++ (match s.k.loop.outer with | some l => l.held | none => []) ++
      (match s.k.loop.inner with | some l => l.held | none => [])
  else s.ctx.nt

/-- One byte as the context in focus sees it: its own youngest store to it, or memory (R135, R278, R366). -/
def State.seenByte (s : State) (sp : Space) (a : Nat) : Byte :=
  match (s.ownStores.reverse).find? (fun h => h.space == sp && h.addr == a) with
  | some h => h.byte
  | none => s.byteAt sp a

/-- `n` bytes as the context sees them, the first the least significant (R10). -/
def State.seen (s : State) (sp : Space) (a : Nat) : Nat → Nat
  | 0 => 0
  | n + 1 => (s.seenByte sp a).toNat + 256 * s.seen sp (a + 1) n

/-- The outside source of a granule's bytes: 1 an application core, 2 another module, none otherwise (R445).
(DEDUCED, log 30.) -/
def State.outside (s : State) (t : Target) : Option Nat :=
  if t.checked then
    let w := recWCtx (s.record (t.addr / 64))
    if w = noIdent then none
    else if w % 16 = 14 then some 1
    else if w / 2 ^ 14 = s.modNo then none
    else some 2
  else none

/-- The replay record of a read of bytes from a source (R445, R446); while the ring is full the context holds (R447).
(DEDUCED, log 30.) -/
def State.logReadFrom (s : State) (source : Option Nat) (t : Target) (va : Word) : Except Stop State :=
  let p := s.myPart
  if s.replayOn p then
    match source with
    | none => .ok s
    | some kind =>
      if s.replayFull p then .error (.hold .condition)
      else
        let data := s.seen t.space (t.addr / 8 * 8) 8
        .ok (s.replay p kind 0xFF s.agent.ident (s.ctx.retired + 1) va (BitVec.ofNat 64 data))
  else .ok s

/-- Where the read goes, for an acquire by it (R361); of cluster memory it is a use of a held line (R383). -/
def State.noteRead (s0 : State) (t : Target) : State :=
  let s := if t.space = .clusterMem then s0.touchLine (clusterLine t.addr) else s0
  if s.before.isEmpty then s else { s with readAt := some (t.space, t.addr) }

/-- The replay record of a read, by the source that the record of its granule names. -/
def State.logRead (s : State) (t : Target) (va : Word) : Except Stop State := (s.noteRead t).logReadFrom (s.outside t) t va

/-- Epochs of 2 to the k cycles that have passed (R258). -/
def State.epochsPast (s : State) : Nat := s.cycle.toNat / 2 ^ Config.epochLog

/-- An epoch that has ended takes its counts of .near accesses with it (R258). -/
def State.turnEpoch (s : State) : State :=
  if s.mod.epochs < s.epochsPast then
    { s with
      pages := s.pages.map (fun (e : Nat × Page) => (e.1, { e.2 with near := [] }))
      mod := { s.mod with epochs := s.epochsPast } }
  else s

/-- One more access marked .near from the core's cluster to a page, in the epoch (R258). -/
def State.countNear (s0 : State) (leafAt : Nat) : State :=
  let s := s0.turnEpoch
  let c := s.coreNo / 16
  s.onPage leafAt (fun q => { q with near := Tbl.put q.near c (Tbl.getD q.near c 0 + 1) })

/-- An access marked .near counts toward a move of its page (R49, R258). -/
def State.noteNear (s : State) (opt : BitVec 3) (t : Target) : State :=
  match t.leafAt with
  | some l => if opt.getLsbD 0 && t.leaf != 0 && !(leafPin t.leaf) then s.countNear l else s
  | none => s

/-- A load of `n` bytes by the context in focus: MemRead with path LS (R63, R134), its value and what it leaves. -/
def State.lsLoad (s : State) (va : Word) (n : Nat) (opt : BitVec 3) (atomic : Bool) : Except Stop (Nat × State) :=
  if va.toNat % n ≠ 0 then .error (.trap 4 va 0)
  else do
    let (t, s1) ← s.lsTarget .ls va n false false atomic
    let s2 ← s1.logRead t va
    .ok (s2.seen t.space t.addr n, s2.noteNear opt t)

/-- The bytes of a store. -/
def heldBytes (sp : Space) (a v order : Nat) (nt : Bool) (va : Option Nat) : Nat → List HeldByte
  | 0 => []
  | n + 1 => { space := sp, addr := a, byte := BitVec.ofNat 8 v, nt := nt, order := order, va := va } ::
      heldBytes sp (a + 1) (v / 256) order nt (va.map (· + 1)) n

/-- STNTs of the context to a line that are older than a store or an atomic to a range of it: those that name a byte of the range, with
those before them (R132, R366, R370 note 1). -/
def State.settles (s : State) (sp : Space) (a n : Nat) : List HeldByte :=
  match (s.ctx.nt.filter (fun h => h.space == sp && decide (a ≤ h.addr) && decide (h.addr < a + n))).getLast? with
  | none => []
  | some l => s.ctx.nt.filter (fun h => h.space == sp && h.addr / 64 == a / 64 && decide (h.order ≤ l.order))

/-- Those STNTs performed before it, in its turn at the line (R384). -/
def State.settleNt (s : State) (sp : Space) (a n : Nat) : State :=
  match s.settles sp a n with
  | [] => s
  | hs =>
    let s1 := hs.foldl State.putByte s
    { s1 with ctx := { s1.ctx with nt := s.ctx.nt.filter (fun h => !(hs.contains h)) } }

/-- Bytes of a store go where the context's stores go: into the iteration's held stores inside a loop body (R278), to the
STNT bytes (R135), or to memory at once. An STNT to an aperture is a store like any other (R135), and one to a checked
page is performed when its check is made (R373). -/
def State.putStore (s : State) (t : Target) (va : Word) (n v : Nat) (nt0 : Bool) : State :=
  let (name, s0) := s.fresh
  let sp := t.space
  let a := t.addr
  let nt := nt0 && !t.checked
  let bs := heldBytes sp a v name (nt && sp == .globalMem) (t.leafAt.map (fun _ => va.toNat)) n
  if s.ctx.slot = 15 ∧ s.k.loop.running then
    let l := s0.k.loop
    let l1 : Loop := match l.inner with
      | some lv => { l with inner := some { lv with held := lv.held ++ bs } }
      | none => { l with outer := l.outer.map (fun lv => { lv with held := lv.held ++ bs }) }
    { s0 with k := { s0.k with loop := l1 } }
  else if nt && sp == .globalMem then { s0 with ctx := { s0.ctx with nt := s0.ctx.nt ++ bs } }
  else bs.foldl State.putByte (s0.settleNt sp a n)

/-- A store of the low `n` bytes of `v` by the context in focus: MemWrite with path LS (R63, R134).
(DESIGN CHOICE, log 5.) -/
def State.lsStore (s : State) (va : Word) (n v : Nat) (opt : BitVec 3) (atomic nt : Bool) : Except Stop State :=
  if va.toNat % n ≠ 0 then .error (.trap 4 va 0)
  else do
    let (t, s1) ← s.lsTarget .ls va n true true atomic
    .ok ((s1.putStore t va n v nt).noteNear opt t)

/-- `n` ordinary 8-byte loads from an address on, ascending, as one number (R138, R235). -/
def State.lsWords (s : State) (va : Word) (opt : BitVec 3) : Nat → Except Stop (Nat × State)
  | 0 => .ok (0, s)
  | n + 1 => do
    let (x, s1) ← s.lsLoad va 8 opt false
    let (rest, s2) ← s1.lsWords (va + 8) opt n
    .ok (x + 2 ^ 64 * rest, s2)

end Sys2Proof.Machine
end

