-- ==== Sys2Proof/Machine/Issue.lean ====
section
/-! DEFINITION. The issue of an instruction: what stops it (R17, R408), parking (R250, R255), the guard (R42), and its
retirement (R54). -/

namespace Sys2Proof.Machine

/-- The context in focus waits. (DESIGN CHOICE, log 17.) -/
def State.wait (s : State) (w : Wait) : State := { s with ctx := { s.ctx with hold := some w } }

/-- A page fault of an access of a parking kind parks the task, or leaves the context waiting in its core (R250, R411). -/
def State.parkPage (s : State) (va : Word) (level : Nat) (write : Bool) (path : Path) : State :=
  let p := s.myPart
  let saved := if s.k.window.isSome then none else s.save 2 .parked false none
  match saved with
  | some (tag, s1) => (s1.pageRequest p tag.toNat path.code level write va none (some tag)).2
  | none =>
    let r := s.pageRequest p s.coreNo path.code level write va none none
    r.2.wait (.page p r.1)

/-- A tier miss of an access of a parking kind (R255). -/
def State.parkTier (s0 : State) (leafAt : Nat) (va : Word) : State :=
  let s := s0.askPageIn s0.myPart leafAt va
  let saved := if s.k.window.isSome then none else s.save 3 .parked false (some leafAt)
  match saved with
  | some (_, s1) => s1
  | none => s.wait (.tier leafAt)

/-- The arbiter of a resource of a quad: 4 * quad + resource (R296). -/
def arbiterKey (core res : Nat) : Nat := core / 4 * 4 + res
def State.arbiter (s : State) (key : Nat) : Arbiter := Tbl.getD s.arbiters key {}

/-- The array is granted to a core: a chunk of its product is in progress (R296). -/
def State.hasArray (s : State) (core : Nat) : Bool := (s.arbiter (arbiterKey core 0)).grant == some (core % 4)

/-- A started entry has yet to reach its stopping point: the finish, or for an MMA or an MMAK the end of a chunk, which is in
progress while the array is granted or half of it has been taken in (R301, R426); a VRED4 is abandoned instead (R77). -/
def Entry.midway (array : Bool) (e : Entry) : Bool :=
  e.stage == .started && !restarts e.instr && (e.product.isNone || e.left != 0 || array)

/-- The access of a context has been sent, and waits for others at its line or page (R253, R384). -/
def Wait.sent : Wait → Bool
  | .turn .. => true
  | _ => false

/-- The engines of the core in focus have reached their stopping points (R426), no STNT has to wait for others (R384), and no other
context of the core has an access on its way, which completes first (R426). -/
def State.atStop (s : State) : Bool :=
  !(s.k.mvuq.any (Entry.midway (s.hasArray s.coreNo))) && !s.coreNtBlocked && !(s.k.peers.any (fun c => c.hold.any Wait.sent))

/-- A line's parity stays wrong: the records of the retry and of its end, and the end of the task (R53, R424, R456). The retry
is of the same step, so that it finds the same line (R84). (DESIGN CHOICE, log 7.) -/
def State.parityEnd (s : State) (line : Nat) : State :=
  let note := fun (x : State) (kind : Nat) => x.errorRecord kind .core s.coreNo (some s.myPart) line
  (note (note s 4) 5).endWith 24 (BitVec.ofNat 64 line) 0

/-- What comes of an instruction that did not go through, engine-bound or not. A park waits until the engines have reached their
stopping points (R426). -/
def State.stoppedAs (s : State) (engine : Bool) (r : Stop) : State :=
  let park := fun (t : State) => if s.atStop then t else s.wait .drain
  match r with
  | .trap cause addr detail => s.trapFrom engine cause addr detail s.ctx.pc
  | .pageFault va level write path => park (s.parkPage va level write path)
  | .tierMiss leafAt va => park (s.parkTier leafAt va)
  | .hold w => s.wait w
  | .ends cause detail addr => s.endWith cause addr detail
  | .parity line => s.parityEnd line
  | .abandon leafAt => s.abandonPageOut leafAt

/-- The same of an instruction that is not engine-bound, or of a fetch. -/
def State.stopped (s : State) (r : Stop) : State := s.stoppedAs false r

/-- What the issue of an instruction needs to know beside its effect. -/
structure Meta where
  len : Nat := 2
  p : BitVec 3 := 0
  n : Bool := false
  /-- Destination operand for the guarded-off rule of R42; a tensor or predicate destination has none. -/
  dest : Option (BitVec 6) := none
  /-- Advances ENGSEQ (R14). -/
  engine : Bool := false
  /-- Allowed in an exchange window (R408). -/
  window : Bool := false
  /-- Allowed in helper code (R17). -/
  helper : Bool := true
  deriving DecidableEq, Repr

/-- Why the instruction may not issue here: a helper's illegal instruction (R17), whatever the guard (R42, R65); with the guard,
a window's (R408). (DEDUCED, log 23.) -/
def State.mayIssue (s : State) (m : Meta) : Except Stop Unit :=
  if s.ctx.slot ≠ 15 ∧ ¬ m.helper then .error Stop.illegal
  else if s.guard m.p m.n ∧ s.ctx.slot = 15 ∧ s.k.window.any (fun w => w.opened) ∧ ¬ m.window then .error (.trap 18 6 0)
  else .ok ()

/-- The engine-bound instruction advances ENGSEQ (R14). (DEDUCED, log 15.) -/
def State.countEngine (s : State) (m : Meta) : State := if m.engine then s.bumpSeq else s

/-- A guarded-off instruction advances ENGSEQ in its turn, behind those that a loop body still holds (R14, R279). -/
def State.countSkipped (s : State) (m : Meta) : State :=
  if m.engine ∧ s.ctx.slot = 15 ∧ s.k.loop.running ∧ s.k.unreleased ≠ [] then
    { s with k := { s.k with unreleased := s.k.unreleased ++ [{ work := .skipped, outer := s.k.loop.inner.isNone }] } }
  else s.countEngine m

/-- A guarded-off instruction writes nothing but the pass of R42 and counts as retired; engine-bound, it advances ENGSEQ. -/
def State.guardedOff (s : State) (m : Meta) : State :=
  let s1 := match m.dest with
    | some d => s.passDest d
    | none => s
  (s1.countSkipped m).retire m.len

/-- The issue of an instruction whose effect ends in states of its own: transfers, waits, ends. -/
def State.issueRaw (s : State) (m : Meta) (body : State → Except Stop State) : State :=
  match s.mayIssue m with
  | .error r => s.stoppedAs m.engine r
  | .ok () =>
    if s.guard m.p m.n then
      match body (s.countEngine m) with
      | .ok s1 => s1
      | .error r => s.stoppedAs m.engine r
    else s.guardedOff m

/-- The issue of an instruction that goes on to the next in the stream: its effect, then its retirement. -/
def State.issue (s : State) (m : Meta) (body : State → Except Stop State) : State :=
  s.issueRaw m (fun s0 => match body s0 with
    | .ok s1 => .ok (s1.retire m.len)
    | .error r => .error r)

/-- What an instruction of a form needs, when its class is S: it may issue everywhere. -/
def metaS (f : Form) (dest : Bool) : Meta :=
  { len := f.len, p := f.p, n := f.n, dest := if dest then some f.d else none, window := true }

/-- What an instruction of class B or M needs that a helper may issue. -/
def metaM (f : Form) (dest : Bool) : Meta := { len := f.len, p := f.p, n := f.n, dest := if dest then some f.d else none }

/-- The same for an instruction that only a control context may issue. -/
def metaC (f : Form) (dest : Bool) : Meta :=
  { len := f.len, p := f.p, n := f.n, dest := if dest then some f.d else none, helper := false }

/-- What an engine-bound instruction needs. (DEDUCED, log 15.) -/
def metaE (f : Form) (helper : Bool) (dest : Bool) : Meta :=
  { len := f.len, p := f.p, n := f.n, dest := if dest then some f.d else none, engine := true, helper := helper }

end Sys2Proof.Machine
end

