-- ==== Sys2Proof/Machine/Events.lean ====
section
/-! DEFINITION. Event lines (R351, R352), and the end of a TIERIN (R353). -/

namespace Sys2Proof.Machine

/-- The context waits at an EVWAIT of the line. -/
def Ctx.awaits (c : Ctx) (line : Nat) : Bool :=
  c.live && c.hold == some .condition && (match decode c.ir.toList with
    | .ok (.evwait f) => f.md == 0 && f.a.toNat == line
    | _ => false)

/-- The context that a signal of the line ends, by slot: the control context, then helpers in slot order (R352). -/
def State.waiterOf (s : State) (line : Nat) : Option Nat :=
  (15 :: upFrom 0 10).find? (fun slot => (s.findCtx s.coreNo slot).any (fun c => c.awaits line))

/-- An event line signalled (R351, R352). -/
def State.signal (s : State) (line : Nat) : State :=
  match s.waiterOf line with
  | none => { s with k := { s.k with events := setBits s.k.events line 1 1 } }
  | some slot => ((s.focusSlot slot).wait .signalled).focusSlot s.ctx.slot

/-- The leaf is not resident: valid, in the second tier or on its way out (R242). -/
def State.isAway (s : State) (leaf : Nat) : Bool := bits (s.leafAt leaf) 0 2 == 2 && leafTier (s.leafAt leaf) != 0

/-- TIERINs of the core in focus that are complete signal their lines; a counted page that has gone out again is asked for
once more (R353). -/
def State.settleTierins (s : State) : State :=
  let away := fun (w : TierWait) => w.leaves.any s.isAway
  let done := s.k.tierins.filter (fun w => !(away w))
  let left := s.k.tierins.filter away
  let s1 := { s with k := { s.k with tierins := left } }
  let s2 := done.foldl (fun (acc : State) w => acc.signal w.line) s1
  (left.flatMap (fun w => w.leaves.filter s.isAway)).foldl (fun (acc : State) leaf =>
    if (acc.page leaf).stage = .none then acc.askPageIn acc.myPart leaf (acc.page leaf).va else acc) s2

/-- The same on every core. -/
def State.settleAll (s : State) : State :=
  s.coreList.foldl (fun (acc : State) c => acc.atCore c State.settleTierins) s

end Sys2Proof.Machine
end

