-- ==== Sys2Proof/Machine/Flags.lean ====
section
/-! DEFINITION. FPFLAGS (R56, R107), the stochastic word (R98), and the overflow rule of integers (R86). -/

namespace Sys2Proof.Machine

/-- Flags of R56, as values of FPFLAGS bits 6 to 0. -/
def flagNV : Word := 0x01
def flagOF : Word := 0x02
def flagUF : Word := 0x04
def flagNX : Word := 0x08
def flagDZ : Word := 0x10
def flagICV : Word := 0x20
def flagSATF : Word := 0x40

/-- Sticky flags set in the context in focus (R56). -/
def State.setFlags (s : State) (f : Word) : State := { s with ctx := { s.ctx with fpflags := s.ctx.fpflags ||| f } }

/-- One step of the generator: the new state, whose bits 63 to 48 are the word (R98). -/
def stochStep (seed : Word) : Word :=
  let x0 := if seed = 0 then 0x9E3779B97F4A7C15 else seed
  let x1 := x0 ^^^ (x0 <<< 13)
  let x2 := x1 ^^^ (x1 >>> 7)
  x2 ^^^ (x2 <<< 17)

/-- What roundings carry along: the generator's state and the flags set so far. -/
structure Fpu where
  seed : Word := 0
  flags : Word := 0
  deriving DecidableEq, Repr

/-- Flags set. -/
def Fpu.raise (e : Fpu) (f : Word) : Fpu := { e with flags := e.flags ||| f }

/-- StochWord (R98). -/
def Fpu.word (e : Fpu) : Nat × Fpu :=
  let x := stochStep e.seed
  (bits x 48 16, { e with seed := x })

/-- The word of a rounding step: taken under .sr only (R98). -/
def Fpu.wordFor (e : Fpu) (mode : BitVec 3) : Nat × Fpu := if mode = 4 then e.word else (0, e)

/-- Limits of an integer type (R85). -/
def intMin (ty : BitVec 4) : Int := if tySigned ty then -(2 ^ (tyBits ty - 1) : Nat) else 0
def intMax (ty : BitVec 4) : Int := if tySigned ty then (2 ^ (tyBits ty - 1) : Nat) - 1 else (2 ^ tyBits ty : Nat) - 1

/-- The n-bit pattern of an exact integer result under the overflow rule, and whether it was clamped (R86). -/
def overflowRule (ty : BitVec 4) (sat : Bool) (r : Int) : Nat × Bool :=
  if sat then
    if r < intMin ty then (wrap (intMin ty) (tyBits ty), true)
    else if intMax ty < r then (wrap (intMax ty) (tyBits ty), true)
    else (wrap r (tyBits ty), false)
  else (wrap r (tyBits ty), false)

/-- An exact integer result made a 64-bit value: steps 3 and 4 of R140, and whether SATF is set. -/
def intResult (ty : BitVec 4) (sat : Bool) (r : Int) : Word × Bool :=
  let p := overflowRule ty sat r
  (extend (tySigned ty) p.1 (tyBits ty), p.2)

/-- IntSrc (R140): the low `n` bits of a source as a number. -/
def intSrc (signed : Bool) (v : Word) (n : Nat) : Int := if signed then signExt v.toNat n else ((v.toNat % 2 ^ n : Nat) : Int)

end Sys2Proof.Machine
end

