-- ==== Sys2Proof/Machine/Memory.lean ====
section
/-! DEFINITION. Loads and stores (R133 to R137), the tensor-table instructions TDEF, TSET and TGET (R138, R139), and LDV
(R78). -/

namespace Sys2Proof.Machine

/-- Bytes of a memory type (R134). -/
def memBytes (f : Form) : Nat := tyBytes f.ty

/-- The value a load delivers: extended by the type's signedness; floating types load raw bits (R134). -/
def loadValue (ty : BitVec 4) (x : Nat) : Word := if tySigned ty then wordOf (signExt x (8 * tyBytes ty)) else BitVec.ofNat 64 x

/-- A load from an address (R134). -/
def State.loadAt (s : State) (f : Form) (ea : Word) : Except Stop State := do
  let (x, s1) ← s.lsLoad ea (memBytes f) f.opt false
  .ok (s1.writeOp f.d (loadValue f.ty x))

/-- A store of the low bytes of a value (R134). -/
def State.storeAt (s : State) (f : Form) (ea v : Word) (nt : Bool) : Except Stop State :=
  s.lsStore ea (memBytes f) (v.toNat % 2 ^ (8 * memBytes f)) f.opt false nt

/-- Loads and stores whose addresses must lie in the local aperture while an exchange window is open (R405, R408).
The check comes before those of R137. (DEDUCED, log 23.) -/
def State.windowAddress (s : State) (ea : Word) : Except Stop Unit :=
  if s.ctx.slot = 15 ∧ s.k.window.any (fun w => w.opened) ∧ apertureOf ea ≠ some .localMem then .error (.trap 18 7 0) else .ok ()

/-- What LD, LDX, ST and STX need: they may stand in an exchange window (R408). -/
def metaL (f : Form) (dest : Bool) : Meta := { metaM f dest with window := true }

/-- The effective address of LD (R134). -/
def loadAddress (s : State) (f : Form) : Word := s.readOp f.a f.da + f.imm
/-- The effective address of ST and STNT: the base stands in D (R134). -/
def storeAddress (s : State) (f : Form) : Word := s.readOp f.d 0 + f.imm
/-- The effective address of LDX and STX (R134). -/
def indexAddress (s : State) (f : Form) : Word :=
  s.readOp f.a f.da + BitVec.ofNat 64 (memBytes f) * s.readOp f.b f.db

/-- LD (R134). -/
def State.load (s : State) (f : Form) : State :=
  s.issue (metaL f true) (fun t => do
    t.windowAddress (loadAddress t f)
    t.loadAt f (loadAddress t f))

/-- ST (R134). -/
def State.store (s : State) (f : Form) : State :=
  s.issue (metaL f false) (fun t => do
    t.windowAddress (storeAddress t f)
    t.storeAt f (storeAddress t f) (t.readOp f.a f.da) false)

/-- STNT (R135). -/
def State.storeNt (s : State) (f : Form) : State :=
  s.issue (metaM f false) (fun t => t.storeAt f (storeAddress t f) (t.readOp f.a f.da) true)

/-- A release at scope .sys waits until every notice sent from its module has reached every home (R374). -/
def State.noticesOut (s : State) : Bool :=
  s.inflight.any (fun e => match e.1 with | .regionNotice => true | _ => false)

/-- Copies of the context in focus that have not ended. -/
def State.ownCopies (s : State) : List Copy :=
  (s.k.chans.toList.flatMap (fun c => c.queue) ++
    s.k.unreleased.filterMap (fun u => match u.work with | .copy _ x => some x | _ => none)).filter
      (fun x => x.agent.ident % 16 == s.ctx.slot)

/-- Indirect requests of the context in focus that have not ended. -/
def State.ownRequests (s : State) : List IxReq :=
  (Tbl.getD s.ix (s.coreNo / 16) []).filter (fun r => r.core == s.coreNo && r.slot == s.ctx.slot)

/-- Every earlier access of the context has been performed: its loads, stores and atomics have when they have issued, and its
engines have no work left (R374). (DESIGN CHOICE, log 5.) -/
def State.accessesDone (s : State) : Bool :=
  s.ownCopies.isEmpty && s.ownRequests.isEmpty && (s.ctx.slot != 15 || s.k.posted.isEmpty)

/-- A release may complete (R374): of a narrower scope it waits for nothing in this model. -/
def State.releaseReady (s : State) (scope : BitVec 3) : Except Stop Unit :=
  if scope = 5 ∧ (s.noticesOut ∨ ¬ s.accessesDone) then .error (.hold .condition) else .ok ()

/-- LDACQ: an acquire load; it ends the region (R136, R360). -/
def State.loadAcquire (s : State) (f : Form) : State :=
  s.issue (metaM f true) (fun t =>
    if t.ctx.slot = 15 ∧ t.k.loop.running then .error Stop.illegal
    else do
      let (x, t1) ← t.lsLoad (loadAddress t f) (memBytes f) f.opt true
      .ok (t1.writeOp f.d (loadValue f.ty x)).endRegion)

/-- STREL: a release store; it ends the region (R136, R360). -/
def State.storeRelease (s : State) (f : Form) : State :=
  s.issue (metaM f false) (fun t =>
    if t.ctx.slot = 15 ∧ t.k.loop.running then .error Stop.illegal
    else do
      t.releaseReady f.md
      let v := (t.readOp f.a f.da).toNat % 2 ^ (8 * memBytes f)
      let t1 ← t.lsStore (storeAddress t f) (memBytes f) v f.opt true false
      let (g, _) ← t.lsTarget .ls (storeAddress t f) (memBytes f) true true true
      .ok (t1.tell (t1.releaseBytes g.space g.addr (memBytes f) f.md)).endRegion)

/-- LD, 32-bit form. -/
def execLdI32 (f : I32) (s : State) : Host.Outcome State Fault Refusal := .next (s.load (formI32 3 f))
/-- LD, 64-bit form. -/
def execLdI64 (f : I64) (s : State) : Host.Outcome State Fault Refusal := .next (s.load (formI f))
/-- LD with LIT32. -/
def execLdW96 (f : W96) (s : State) : Host.Outcome State Fault Refusal := .next (s.load (formW f))
/-- ST, 32-bit form. -/
def execStI32 (f : I32) (s : State) : Host.Outcome State Fault Refusal := .next (s.store (formI32 3 f))
/-- ST, 64-bit form. -/
def execStI64 (f : I64) (s : State) : Host.Outcome State Fault Refusal := .next (s.store (formI f))
/-- ST with LIT32. -/
def execStW96 (f : W96) (s : State) : Host.Outcome State Fault Refusal := .next (s.store (formW f))
/-- STNT. -/
def execStntI64 (f : I64) (s : State) : Host.Outcome State Fault Refusal := .next (s.storeNt (formI f))
/-- STNT with LIT32. -/
def execStntW96 (f : W96) (s : State) : Host.Outcome State Fault Refusal := .next (s.storeNt (formW f))
/-- LDACQ. -/
def execLdacqI64 (f : I64) (s : State) : Host.Outcome State Fault Refusal := .next (s.loadAcquire (formI f))
/-- LDACQ with LIT32. -/
def execLdacqW96 (f : W96) (s : State) : Host.Outcome State Fault Refusal := .next (s.loadAcquire (formW f))
/-- STREL. -/
def execStrelI64 (f : I64) (s : State) : Host.Outcome State Fault Refusal := .next (s.storeRelease (formI f))
/-- STREL with LIT32. -/
def execStrelW96 (f : W96) (s : State) : Host.Outcome State Fault Refusal := .next (s.storeRelease (formW f))

/-- LDX (R134). -/
def execLdx (f : G64) (s : State) : Host.Outcome State Fault Refusal :=
  .next (s.issue (metaL (formG f) true) (fun t => do
    t.windowAddress (indexAddress t (formG f))
    t.loadAt (formG f) (indexAddress t (formG f))))

/-- STX: the stored value stands in C (R134). -/
def execStx (f : G64) (s : State) : Host.Outcome State Fault Refusal :=
  .next (s.issue (metaL (formG f) false) (fun t => do
    t.windowAddress (indexAddress t (formG f))
    t.storeAt (formG f) (indexAddress t (formG f)) (t.readOp f.c f.dc) false))

/-! The tensor table. -/

/-- An entry of the table. -/
def State.tensor (s : State) (i : Nat) : Word512 := s.k.tens.getD i 0

/-- An entry written. -/
def State.setTensor (s : State) (i : Nat) (v : Word512) : State :=
  { s with k := { s.k with tens := s.k.tens.setIfInBounds i v } }

/-- The tensor entries that an engine-bound instruction names as destinations (R123, R185). -/
def tensorDest : Instr → List Nat
  | .vadd f | .vsub f | .vmul f | .vfma f | .vmin f | .vmax f | .vabs f | .vneg f | .vcpy f | .vcvt f | .vsrnd f
  | .vrcp f | .vrsq f | .vsqrt f | .vexp2 f | .vlog2 f | .vpwl f | .vcmp f | .vsel f | .vand f | .vor f | .vxor f
  | .vshl f | .vshr f | .vclamp f | .vreds f | .vredm f | .vbcast f | .viota f | .vdot f | .vscale f | .vred4 f
  | .mdrain f | .scout f => [f.d.toNat]
  | .vscan f => f.d.toNat :: (if f.opt.getLsbD 1 then [f.c.toNat] else [])
  | _ => []

/-- The tensor entries whose ZS an MMA or MMAK samples at its decision point (R318). -/
def sampledZs : Instr → List Nat
  | .mma f | .mmak f => [f.a.toNat, f.b.toNat]
  | _ => []

/-- Those that a TDEF or TSET leaves alone as well: of a SCOUT up to its decision point (R331, R339), and the codes of a KSEL up
to its retirement (R333). -/
def sampledTensors : Instr → List Nat
  | .scout f => [f.a.toNat, f.b.toNat]
  | .ksel f => [f.a.toNat]
  | _ => []

/-- An earlier instruction of the same context names an entry as a destination and has not made its update of ZS yet (R126),
or is a product that has not passed its decision point (R318): entries of the dispatch queue, which are a control context's, and
the copies and gathers of the context in focus. (DEDUCED, log 22.) -/
def State.zsOwed (s : State) (t : Nat) : Bool :=
  (s.ctx.slot == 15 && s.k.posted.any (fun e => e.guard && ((tensorDest e.instr).contains t ||
    (!e.decided && (sampledZs e.instr).contains t)))) ||
  s.ownCopies.any (fun x => x.dstId == t) || s.ownRequests.any (fun r => r.dstId == t)

/-- TDEF and TSET also wait for a scout or a selection of the context that has not sampled the tensor yet (R331, R333).
(DEDUCED, log 22.) -/
def State.updateOwed (s : State) (t : Nat) : Bool :=
  s.zsOwed t ||
  (s.ctx.slot == 15 && s.k.posted.any (fun e => e.guard && !e.decided && (sampledTensors e.instr).contains t))

/-- TDEF: eight loads, the checks of the image, and the entry (R138). -/
def execTdef (f : G64) (s : State) : Host.Outcome State Fault Refusal :=
  .next (s.issue (metaC (formG f) false) (fun t =>
    let ea := t.readOp f.a f.da
    if t.updateOwed f.d.toNat then .error (.hold .operand)
    else if ea.toNat % 64 ≠ 0 then .error (.trap 4 ea 0)
    else do
      let (x, t1) ← t.lsWords ea f.opt 8
      let img : Word512 := BitVec.ofNat 512 x
      if entryRefused img then .error (.trap 11 ea 0) else .ok (t1.setTensor f.d.toNat img)))

/-- Where a field of R139 lies: first bit, width, and whether it is signed. -/
def tensorField : Nat → Nat × Nat × Bool
  | 0 => (0, 64, false)
  | 1 => (64, 48, false)
  | 2 => (112, 4, false)
  | 3 => (116, 2, false)
  | 4 => (118, 2, false)
  | 5 => (128, 48, true)
  | 6 => (176, 48, true)
  | 7 => (256, 24, false)
  | 8 => (280, 24, false)
  | 9 => (304, 24, false)
  | 10 => (328, 24, false)
  | 11 => (352, 3, false)
  | 12 => (356, 4, false)
  | 13 => (360, 4, false)
  | 14 => (364, 8, true)
  | 15 => (372, 7, false)
  | _ => (379, 1, false)

/-- A reserved value of a field, or a SIZE of 0 (R139). -/
def fieldRefused (field : Nat) (v : Nat) : Bool :=
  match field with
  | 2 => decide (14 ≤ v)
  | 3 => v == 3
  | 4 => v == 3
  | 7 | 8 | 9 | 10 => v == 0
  | 11 => decide (5 ≤ v)
  | 12 | 13 => decide (9 ≤ v)
  | _ => false

/-- Whether a value fits a field (R139): every pattern fits BASE. -/
def fieldFits (field : Nat) (v : Word) : Bool :=
  let w := (tensorField field).2.1
  if field = 0 then true
  else if (tensorField field).2.2 then v == wordOf (signExt v.toNat w)
  else decide (v.toNat < 2 ^ w)

/-- TSET (R139). -/
def execTset (f : G64) (s : State) : Host.Outcome State Fault Refusal :=
  .next (s.issue (metaC (formG f) false) (fun t =>
    let v := t.readOp f.a f.da
    let c := f.c.toNat
    let w := (tensorField c).2.1
    if t.updateOwed f.d.toNat then .error (.hold .operand)
    else if ¬ fieldFits c v ∨ fieldRefused c (v.toNat % 2 ^ w) then .error (.trap 11 0 0)
    else .ok (t.setTensor f.d.toNat (setBits (t.tensor f.d.toNat) (tensorField c).1 w v.toNat))))

/-- TGET (R139). -/
def execTget (f : G64) (s : State) : Host.Outcome State Fault Refusal :=
  .next (s.issue (metaS (formG f) true) (fun t =>
    let p := tensorField f.c.toNat
    let x := bits (t.tensor f.a.toNat) p.1 p.2.1
    if f.c = 16 ∧ t.zsOwed f.a.toNat then .error (.hold .operand)
    else .ok (t.writeOp f.d (if p.2.2 then wordOf (signExt x p.2.1) else BitVec.ofNat 64 x))))

/-- LDV: 32 loads, and in the last step one local write of 256 bytes (R77, R78). -/
def State.loadVector (s : State) (f : Form) : State :=
  s.issue (metaC f false) (fun t =>
    let ga := t.readOp f.a f.da + f.imm
    let la := t.readOp f.d 0
    if t.k.loop.running then .error Stop.illegal
    else if ga.toNat % 8 ≠ 0 then .error (.trap 4 ga 0)
    else if la.toNat % 8 ≠ 0 ∨ Config.localBytes < la.toNat + 256 then .error (.trap 5 la 0)
    else if t.mvuBusy la.toNat 256 then .error (.hold .operand)
    else do
      let (x, t1) ← t.lsWords ga f.opt 32
      .ok { t1 with k := { t1.k with localMem := Mem.writeLE t1.k.localMem la.toNat 256 x } })

/-- LDV. -/
def execLdvI64 (f : I64) (s : State) : Host.Outcome State Fault Refusal := .next (s.loadVector (formI f))
/-- LDV with LIT32. -/
def execLdvW96 (f : W96) (s : State) : Host.Outcome State Fault Refusal := .next (s.loadVector (formW f))

end Sys2Proof.Machine
end

