-- ==== Sys2Proof/Machine/Float.lean ====
section
/-! DEFINITION. Floating values and formats (R87 to R90), rounding, overflow and flushing (R94 to R101), conversions (R102 to
R106), and exact sums and products (R108). -/

namespace Sys2Proof.Machine

/-- A value: a NaN with a sign, an infinity, or exactly (−1)^neg × mag × 2^exp. -/
inductive Val where
  | nan (neg : Bool)
  | inf (neg : Bool)
  | fin (neg : Bool) (mag : Nat) (exp : Int)
  deriving DecidableEq, Repr

/-- A floating format (R87). -/
structure Fmt where
  width : Nat
  expBits : Nat
  frac : Nat
  bias : Nat
  hasInf : Bool
  deriving DecidableEq, Repr

/-- The formats by TY (R47, R87); .bz8 elements have the E4M3 format (R91). -/
def fmtOf (ty : BitVec 4) : Fmt :=
  match ty.toNat with
  | 9 => { width := 16, expBits := 8, frac := 7, bias := 127, hasInf := true }
  | 10 => { width := 16, expBits := 5, frac := 10, bias := 15, hasInf := true }
  | 12 => { width := 8, expBits := 5, frac := 2, bias := 15, hasInf := true }
  | 11 | 13 => { width := 8, expBits := 4, frac := 3, bias := 7, hasInf := false }
  | _ => { width := 32, expBits := 8, frac := 23, bias := 127, hasInf := true }

/-- TY 8 to 13 are floating formats (R47). -/
def isFloat (ty : BitVec 4) : Bool := decide (8 ≤ ty.toNat)

/-- The exponent of the least subnormal, the grid of small results (R88). -/
def Fmt.lowExp (f : Fmt) : Int := 1 - (f.bias : Int) - f.frac

/-- The value an encoding stands for (R87). -/
def Fmt.decode (f : Fmt) (v : Nat) : Val :=
  let neg := v / 2 ^ (f.width - 1) % 2 == 1
  let e := v / 2 ^ f.frac % 2 ^ f.expBits
  let m := v % 2 ^ f.frac
  if f.hasInf && e == 2 ^ f.expBits - 1 then (if m = 0 then .inf neg else .nan neg)
  else if !f.hasInf && e == 2 ^ f.expBits - 1 && m == 2 ^ f.frac - 1 then .nan neg
  else if e = 0 then .fin neg m f.lowExp
  else .fin neg (2 ^ f.frac + m) (f.lowExp + (e : Int) - 1)

/-- The sign bit placed on an encoding. -/
def Fmt.signed (f : Fmt) (neg : Bool) (v : Nat) : Nat := v + (if neg then 2 ^ (f.width - 1) else 0)

/-- The canonical NaN (R88, R89). -/
def Fmt.nan (f : Fmt) : Nat :=
  if f.hasInf then (2 ^ f.expBits - 1) * 2 ^ f.frac + 2 ^ (f.frac - 1) else 2 ^ (f.width - 1) - 1
/-- The infinity's encoding (R88). -/
def Fmt.inf (f : Fmt) : Nat := (2 ^ f.expBits - 1) * 2 ^ f.frac
/-- The greatest finite encoding (R88). -/
def Fmt.top (f : Fmt) : Nat := if f.hasInf then f.inf - 1 else 2 ^ (f.width - 1) - 2

/-- The encoding of mag × 2^exp that lies on the format's grid: `exp` is the grid's exponent, `mag` below 2^(frac + 1). -/
def Fmt.pack (f : Fmt) (mag : Nat) (exp : Int) : Nat :=
  if mag < 2 ^ f.frac then mag else (exp - f.lowExp).toNat * 2 ^ f.frac + mag

/-- Units of 2^q in mag × 2^exp under a rounding mode, and whether anything was lost (R94, R97). -/
def roundUnits (mode : BitVec 3) (w : Nat) (neg : Bool) (mag : Nat) (exp q : Int) : Nat × Bool :=
  if q ≤ exp then (mag * 2 ^ (exp - q).toNat, false)
  else
    let k := (q - exp).toNat
    let t := mag / 2 ^ k
    let r := mag % 2 ^ k
    let up :=
      match mode.toNat with
      | 0 => decide (2 ^ k < 2 * r) || (decide (2 * r = 2 ^ k) && t % 2 == 1)
      | 1 => false
      | 2 => !neg && r != 0
      | 3 => neg && r != 0
      | _ => decide (w < r * 2 ^ 16 / 2 ^ k)
    (if up then t + 1 else t, r != 0)

/-- floor(log2) of a nonzero mag × 2^exp. -/
def topBit (mag : Nat) (exp : Int) : Int := (Nat.log2 mag : Int) + exp

/-- mag × 2^exp < 2^e, for mag nonzero. -/
def belowPow (mag : Nat) (exp e : Int) : Bool := decide (topBit mag exp < e)

/-- mag × 2^exp exceeds the greatest finite value of the format (R88). -/
def Fmt.exceeds (f : Fmt) (mag : Nat) (exp : Int) : Bool :=
  let topMag := if f.hasInf then 2 ^ (f.frac + 1) - 1 else 2 ^ (f.frac + 1) - 2
  let topExp := f.lowExp + (2 ^ f.expBits : Nat) - (if f.hasInf then 3 else 2)
  if exp ≤ topExp then decide (topMag * 2 ^ (topExp - exp).toNat < mag)
  else decide (topMag < mag * 2 ^ (exp - topExp).toNat)

/-- RoundTo (R63): a value rounded to a format by a mode, with the overflow rule of R95 and R96, the tininess of R99 and the
flush rule of R100. The word is taken first, whatever the value (R98). -/
def Fmt.roundWord (f : Fmt) (mode : BitVec 3) (sat : Bool) (w : Nat) (v : Val) : Nat × Word :=
  match v with
  | .nan neg => (f.signed neg f.nan, 0)
  | .inf neg => if f.hasInf && !sat then (f.signed neg f.inf, 0) else (f.signed neg f.top, flagSATF ||| flagNX)
  | .fin neg 0 _ => (f.signed neg 0, 0)
  | .fin neg mag exp =>
    let q0 := topBit mag exp - f.frac
    let free := roundUnits mode w neg mag exp q0
    if f.exceeds free.1 q0 then
      if f.hasInf && !sat then (f.signed neg f.inf, flagOF ||| flagNX)
      else (f.signed neg f.top, flagOF ||| flagNX ||| flagSATF)
    else
      let least := f.lowExp + f.frac
      let tiny := if mode = 4 then belowPow mag exp least else free.1 != 0 && belowPow free.1 q0 least
      let q := if q0 < f.lowExp then f.lowExp else q0
      let r := roundUnits mode w neg mag exp q
      let lost := if r.2 then flagNX ||| (if tiny then flagUF else 0) else 0
      if f.width ≤ 16 ∧ r.1 ≠ 0 ∧ belowPow r.1 q least then (f.signed neg 0, flagUF ||| flagNX)
      else
        let carry := r.1 = 2 ^ (f.frac + 1)
        (f.signed neg (if carry then f.pack (2 ^ f.frac) (q + 1) else f.pack r.1 q), lost)

/-- A result is tiny (R99): rounded with an unbounded exponent it lies below the least normal; under .sr, its exact value
does. -/
def Fmt.isTiny (f : Fmt) (mode : BitVec 3) (v : Val) : Bool :=
  match v with
  | .fin neg mag exp =>
    let least := f.lowExp + f.frac
    let q0 := topBit mag exp - f.frac
    let free := (roundUnits mode 0 neg mag exp q0).1
    mag != 0 && (if mode = 4 then belowPow mag exp least else free != 0 && belowPow free q0 least)
  | _ => false

/-- RoundTo with the generator and the flags carried along. -/
def Fmt.round (f : Fmt) (mode : BitVec 3) (sat : Bool) (v : Val) (e : Fpu) : Nat × Fpu :=
  let we := e.wordFor mode
  let r := f.roundWord mode sat we.1 v
  (r.1, we.2.raise r.2)

/-- Flush16 of an operand of a format (R100): formats wider than 16 bits keep their subnormals. -/
def Fmt.flush (f : Fmt) (v : Val) : Val :=
  match v with
  | .fin neg mag exp =>
    if f.width ≤ 16 ∧ mag ≠ 0 ∧ belowPow mag exp (f.lowExp + f.frac) then .fin neg 0 0 else v
  | v => v

/-- The sign of a value. -/
def Val.isNeg : Val → Bool
  | .nan n => n
  | .inf n => n
  | .fin n _ _ => n

/-- A NaN. -/
def Val.isNan : Val → Bool
  | .nan _ => true
  | _ => false

/-- An infinity. -/
def Val.isInf : Val → Bool
  | .inf _ => true
  | _ => false

/-- The integer mag × 2^(exp − q), signed; exact when q ≤ exp. -/
def scaled (neg : Bool) (mag : Nat) (exp q : Int) : Int :=
  let m := (mag * 2 ^ (exp - q).toNat : Nat)
  if neg then -(m : Int) else m

/-- A signed integer multiple of 2^q as a value; `zeroNeg` is the sign of an exact zero. -/
def ofScaled (z : Int) (q : Int) (zeroNeg : Bool) : Val := .fin (if z = 0 then zeroNeg else z < 0) z.natAbs q

/-- The exact sum (R90, R107): the NaN, and whether NV is set. -/
def Val.add (mode : BitVec 3) (x y : Val) : Val × Word :=
  match x, y with
  | .nan _, _ => (.nan false, 0)
  | _, .nan _ => (.nan false, 0)
  | .inf a, .inf b => if a = b then (.inf a, 0) else (.nan false, flagNV)
  | .inf a, _ => (.inf a, 0)
  | _, .inf b => (.inf b, 0)
  | .fin a m e, .fin b n g =>
    let q := if e < g then e else g
    let zeroNeg := if m = 0 ∧ n = 0 ∧ a = b then a else mode == 3
    (ofScaled (scaled a m e q + scaled b n g q) q zeroNeg, 0)

/-- The exact product (R90, R107). -/
def Val.mul (x y : Val) : Val × Word :=
  match x, y with
  | .nan _, _ => (.nan false, 0)
  | _, .nan _ => (.nan false, 0)
  | .inf a, .inf b => (.inf (a != b), 0)
  | .inf a, .fin b n _ => if n = 0 then (.nan false, flagNV) else (.inf (a != b), 0)
  | .fin a m _, .inf b => if m = 0 then (.nan false, flagNV) else (.inf (a != b), 0)
  | .fin a m e, .fin b n g => (.fin (a != b) (m * n) (e + g), 0)

/-- x × y + z with one exact value; 0 × ∞ sets no flag beside a NaN (R107, R152). -/
def Val.fma (mode : BitVec 3) (x y z : Val) : Val × Word :=
  if x.isNan || y.isNan || z.isNan then (.nan false, 0)
  else
    let p := x.mul y
    let r := Val.add mode p.1 z
    (r.1, p.2 ||| r.2)

/-- Order of two values that are not NaN; zeros are equal. -/
def Val.lt (x y : Val) : Bool :=
  match x, y with
  | .nan _, _ => false
  | _, .nan _ => false
  | .inf a, .inf b => a && !b
  | .inf a, .fin .. => a
  | .fin .., .inf b => !b
  | .fin a m e, .fin b n g =>
    let q := if e < g then e else g
    decide (scaled a m e q < scaled b n g q)

/-- Equality of two values that are not NaN; zeros are equal. -/
def Val.eqv (x y : Val) : Bool := !x.isNan && !y.isNan && !(x.lt y) && !(y.lt x)

/-- A value multiplied by a power of two (R91). -/
def Val.scale (v : Val) (k : Int) : Val :=
  match v with
  | .fin n m e => .fin n m (e + k)
  | v => v

/-- The value of an integer. -/
def Val.ofInt (z : Int) : Val := .fin (z < 0) z.natAbs 0

/-- A floating value to an integer type (R105): the n-bit pattern. -/
def toInteger (ty : BitVec 4) (mode : BitVec 3) (sat : Bool) (v : Val) (e : Fpu) : Nat × Fpu :=
  let we := e.wordFor mode
  match v with
  | .nan _ => (0, we.2.raise flagICV)
  | .inf neg => (wrap (if neg then intMin ty else intMax ty) (tyBits ty), we.2.raise flagICV)
  | .fin neg 0 _ => (0, if neg then we.2.raise flagICV else we.2)
  | .fin neg mag exp =>
    let r := roundUnits mode we.1 neg mag exp 0
    let p := overflowRule ty sat (if neg then -(r.1 : Int) else r.1)
    (p.1, (we.2.raise (if r.2 then flagNX else 0)).raise (if p.2 then flagSATF else 0))

/-- A widening conversion (R102). (DEDUCED, log 19.) -/
def isWidening (src dst : BitVec 4) : Bool :=
  (dst == 8 && (src == 9 || src == 10 || src == 11 || src == 12)) ||
  ((dst == 9 || dst == 10) && (src == 11 || src == 12))

/-- The encoding of a value that the format represents exactly, subnormals among them (R102). -/
def Fmt.exact (f : Fmt) (v : Val) : Nat :=
  match v with
  | .nan neg => f.signed neg f.nan
  | .inf neg => f.signed neg f.inf
  | .fin neg 0 _ => f.signed neg 0
  | .fin neg mag exp =>
    let q0 := topBit mag exp - f.frac
    let q := if q0 < f.lowExp then f.lowExp else q0
    f.signed neg (f.pack (roundUnits 1 0 neg mag exp q).1 q)

/-- Conversion of one value between two formats of TY 0 to 12 (R102 to R106): the target's pattern. A widening conversion
rounds nothing and takes no word. (DEDUCED, log 19.) -/
def convert (src dst : BitVec 4) (mode : BitVec 3) (sat : Bool) (v : Nat) (e : Fpu) : Nat × Fpu :=
  if isFloat src then
    let x := (fmtOf src).decode (v % 2 ^ (fmtOf src).width)
    if isFloat dst then
      if isWidening src dst then ((fmtOf dst).exact x, e)
      else (fmtOf dst).round mode sat ((fmtOf src).flush x) e
    else toInteger dst mode sat x e
  else
    let z := intSrc (tySigned src) (BitVec.ofNat 64 v) (tyBits src)
    if isFloat dst then (fmtOf dst).round mode sat (Val.ofInt z) e
    else
      let p := overflowRule dst sat z
      (p.1, e.raise (if p.2 then flagSATF else 0))

/-- The 32-bit pattern of a .f32 source (R151). -/
def f32Of (v : Word) : Val := (fmtOf 8).decode (v.toNat % 2 ^ 32)

/-- RoundF32 (R63). -/
def roundF32 (mode : BitVec 3) (sat : Bool) (v : Val) (e : Fpu) : Nat × Fpu := (fmtOf 8).round mode sat v e

end Sys2Proof.Machine
end

