-- ==== Sys2Proof/Machine/ScalarFloat.lean ====
section
/-! DEFINITION. Scalar floating instructions: SFADD, SFMUL, SFMA, SFCMP and SFCVT (R151 to R154). -/

namespace Sys2Proof.Machine

/-- The generator and an empty set of flags, for one instruction of the context in focus. -/
def State.fpu (s : State) : Fpu := { seed := s.ctx.srseed, flags := 0 }

/-- What an instruction's roundings leave in the context (R56, R98). -/
def State.setFpu (s : State) (e : Fpu) : State :=
  { s with ctx := { s.ctx with srseed := e.seed, fpflags := s.ctx.fpflags ||| e.flags } }

/-- A .f32 result rounded once from an exact value, written zero-extended (R151, R108). -/
def State.floatWrite (s : State) (f : Form) (v : Val × Word) : State :=
  let r := roundF32 f.md f.sat v.1 s.fpu
  (s.writeOp f.d (BitVec.ofNat 64 r.1)).setFpu (r.2.raise v.2)

/-- The conditions of SFCMP (R153). -/
def fcmpHolds (cond : Nat) (a b : Val) : Bool :=
  match cond with
  | 0 => a.eqv b
  | 1 => !(a.eqv b)
  | 2 => a.lt b
  | 3 => a.lt b || a.eqv b
  | 4 => b.lt a
  | 5 => b.lt a || a.eqv b
  | 6 => a.isNan || b.isNan
  | _ => !(a.isNan || b.isNan)

/-- SFADD (R152). -/
def execSfadd (f : G64) (s : State) : Host.Outcome State Fault Refusal :=
  .next (s.issue (metaS (formG f) true) (fun t =>
    .ok (t.floatWrite (formG f) (Val.add f.md (f32Of (t.readOp f.a f.da)) (f32Of (t.readOp f.b f.db))))))

/-- SFMUL (R152). -/
def execSfmul (f : G64) (s : State) : Host.Outcome State Fault Refusal :=
  .next (s.issue (metaS (formG f) true) (fun t =>
    .ok (t.floatWrite (formG f) ((f32Of (t.readOp f.a f.da)).mul (f32Of (t.readOp f.b f.db))))))

/-- SFMA (R152). -/
def execSfma (f : G64) (s : State) : Host.Outcome State Fault Refusal :=
  .next (s.issue (metaS (formG f) true) (fun t =>
    .ok (t.floatWrite (formG f)
      (Val.fma f.md (f32Of (t.readOp f.a f.da)) (f32Of (t.readOp f.b f.db)) (f32Of (t.readOp f.c f.dc))))))

/-- SFCMP: the condition ANDed with pC (R153). -/
def execSfcmp (cond : BitVec 6) (f : G64) (s : State) : Host.Outcome State Fault Refusal :=
  .next (s.issue (metaS (formG f) false) (fun t =>
    .ok (t.setPred f.d.toNat
      (fcmpHolds cond.toNat (f32Of (t.readOp f.a f.da)) (f32Of (t.readOp f.b f.db)) && t.pred f.c.toNat))))

/-- SFCVT from the type that the C field names to TY; an integer result is extended by its signedness (R151, R154). -/
def execSfcvt (f : G64) (s : State) : Host.Outcome State Fault Refusal :=
  .next (s.issue (metaS (formG f) true) (fun t =>
    let r := convert (f.c.setWidth 4) f.ty f.md f.sat (t.readOp f.a f.da).toNat t.fpu
    let v := if isFloat f.ty then BitVec.ofNat 64 r.1 else extend (tySigned f.ty) r.1 (tyBits f.ty)
    .ok ((t.writeOp f.d v).setFpu r.2)))

end Sys2Proof.Machine
end

