-- ==== Sys2Proof/Machine/Tensor.lean ====
section
/-! DEFINITION. Tensors as engines see them: elements of every format with .bz8 blocks (R91 to R93), writes, and the zero summary
(R123). -/

namespace Sys2Proof.Machine

/-! Elements in local memory. -/

/-- An element's bits; outside the buffer, under ZERO, zero bits (R122). -/
def State.elemRaw (s : State) (e : Word512) (t : Tuple) : Nat :=
  if elemIn e t then Mem.readLE s.k.localMem (elemAddr e t).toNat (tWidth e) else 0

/-- An element's delta. -/
def State.elemDelta (s : State) (e : Word512) (t : Tuple) : Nat :=
  if elemIn e t then (Mem.get s.k.localMem (deltaAddr e t).toNat).toNat / 2 ^ deltaShift t % 16 else 0

/-- An integer or a floating value. -/
inductive Num where
  | int (z : Int)
  | val (v : Val)
  deriving DecidableEq, Repr

/-- The value of an element's bits (R47, R87, R91), `scale` being b + d for .bz8; `flush` applies R100. -/
def numOf (fmt : BitVec 4) (scale : Int) (flush : Bool) (x : Nat) : Num :=
  if isFloat fmt then
    let f := fmtOf fmt
    let v := f.decode x
    let v1 := if flush then f.flush v else v
    .val (if fmt = 13 then v1.scale scale else v1)
  else .int (intSrc (tySigned fmt) (BitVec.ofNat 64 x) (tyBits fmt))

/-- An element read: flushed under R100, or at its exact value. -/
def State.elemNum (s : State) (e : Word512) (flush : Bool) (t : Tuple) : Num :=
  numOf (tFmt e) (tBexp e + s.elemDelta e t) flush (s.elemRaw e t)

/-- A value as a floating value. -/
def Num.toVal : Num → Val
  | .int z => Val.ofInt z
  | .val v => v

/-- A value as an integer; a floating value has none. -/
def Num.toInt : Num → Int
  | .int z => z
  | .val _ => 0

/-- Bits of an element that is zero (R123). -/
def zeroBits (fmt : BitVec 4) (x : Nat) : Bool := if isFloat fmt then x % 2 ^ ((fmtOf fmt).width - 1) == 0 else x == 0

/-- What an instruction forms for one element of its destination. -/
inductive Out where
  /-- Bits, and the delta that goes with them. -/
  | raw (x : Nat) (delta : Nat)
  /-- A value, rounded once into the format (R108, R173). -/
  | num (n : Num)
  /-- A truncated value of a function (R177). -/
  | approx (v : Val)
  /-- A function's result for a special input: an infinity is delivered whatever the overflow rule, and no flag is set beside the one
  that the table names, also where the format has no infinity (R178). -/
  | special (v : Val)
  /-- A value rounded under .sr with a word of its own (R176). -/
  | dither (v : Val) (w : Nat)
  deriving DecidableEq, Repr

/-- A value multiplied by 2^k before its rounding (R93). -/
def Out.scale (o : Out) (k : Int) : Out :=
  match o with
  | .raw x d => .raw x d
  | .num n => .num (.val (n.toVal.scale k))
  | .approx v => .approx (v.scale k)
  | .special v => .special (v.scale k)
  | .dither v w => .dither (v.scale k) w

/-- An element's bits in format `fmt`, by one rounding (R108). -/
def Out.encode (fmt : BitVec 4) (mode : BitVec 3) (sat : Bool) (o : Out) (e : Fpu) : Nat × Fpu :=
  match o with
  | .raw x _ => (x, e)
  | .num n =>
    if isFloat fmt then (fmtOf fmt).round mode sat n.toVal e
    else match n with
      | .int z =>
        let p := overflowRule fmt sat z
        (p.1, e.raise (if p.2 then flagSATF else 0))
      | .val v => toInteger fmt mode sat v e
  | .approx v =>
    let r := (fmtOf fmt).round mode sat v e
    (r.1, r.2.raise (flagNX ||| (if (fmtOf fmt).isTiny mode v then flagUF else 0)))
  | .special v =>
    let r := (fmtOf fmt).round mode (sat && !((fmtOf fmt).hasInf && v.isInf)) v e
    (r.1, { r.2 with flags := e.flags })
  | .dither v w =>
    let r := (fmtOf fmt).roundWord 4 sat w v
    (r.1, e.raise r.2)

/-- What an instruction's writes carry along: the state, the generator and flags, whether every element written is zero, and
whether a write was dropped (R123). -/
structure Acc where
  s : State
  e : Fpu
  zero : Bool := true
  dropped : Bool := false

/-- One element's bits written, or dropped outside the buffer under ZERO (R122). -/
def Acc.put (a : Acc) (d : Word512) (t : Tuple) (x : Nat) : Acc :=
  if elemIn d t then
    { a with
      s := { a.s with k := { a.s.k with localMem := Mem.writeLE a.s.k.localMem (elemAddr d t).toNat (tWidth d) x } }
      zero := a.zero && zeroBits (tFmt d) x }
  else { a with dropped := true }

/-- One byte of a .bz8 tensor written where it lies in the buffer (R92). -/
def Acc.putByte (a : Acc) (d : Word512) (at' : Int) (f : Byte → Byte) : Acc :=
  if inBuf d at' 1 then
    let m := a.s.k.localMem
    { a with s := { a.s with k := { a.s.k with localMem := Mem.set m at'.toNat (f (Mem.get m at'.toNat)) } } }
  else a

/-- A block's delta written (R92). -/
def Acc.putDelta (a : Acc) (d : Word512) (t : Tuple) (delta : Nat) : Acc :=
  a.putByte d (deltaAddr d t) (fun b => setBits b (deltaShift t) 4 delta)

/-- Padding after the last block of a row: zero bytes, and zero deltas of the blocks that are all padding (R92).
(DEDUCED, log 20.) -/
def Acc.pad (a : Acc) (d : Word512) (t : Tuple) : Acc :=
  let last := (tSize d 0 + 127) / 128 * 128
  if t.i0 / 8 = (tSize d 0 - 1) / 8 then
    (upFrom (tSize d 0) (last - tSize d 0)).foldl (fun acc i =>
      let u : Tuple := { t with i0 := i }
      let acc1 := acc.putByte d (elemAddr d u) (fun _ => 0)
      if i % 8 = 0 then acc1.putDelta d u 0 else acc1) a
  else a

/-- The magnitude of a value as a fraction to compare, for the greatest of a block. -/
def Val.absGt (x y : Val) : Bool :=
  match x, y with
  | .fin _ m e, .fin _ n g => (Val.fin false n g).lt (.fin false m e)
  | _, _ => false

/-- The value an element delivers, before rounding. -/
def Out.value : Out → Val
  | .raw _ _ => .fin false 0 0
  | .num n => n.toVal
  | .approx v => v
  | .special v => v
  | .dither v _ => v

/-- m / 2^(b + d), rounded to E4M3 by .rne with an unbounded exponent, does not exceed 448 (R93). -/
def deltaFits (v : Val) : Bool :=
  match v with
  | .fin _ 0 _ => true
  | .fin neg mag exp =>
    let q := topBit mag exp - 3
    !((fmtOf 11).exceeds (roundUnits 0 0 neg mag exp q).1 q)
  | _ => true

/-- The delta of a block (R93). -/
def blockDelta (b : Int) (os : List Out) : Nat :=
  let vals := (os.map Out.value).filter (fun v => match v with | .fin .. => true | _ => false)
  let m := vals.foldl (fun acc v => if v.absGt acc then v else acc) (.fin false 0 0)
  match m with
  | .fin _ 0 _ => 0
  | _ => ((upFrom 0 16).find? (fun (d : Nat) => deltaFits (m.scale (-(b + d))))).getD 15

/-- One block of a .bz8 destination written whole (R93): bits with their delta, or rounded values. -/
def Acc.block (a : Acc) (d : Word512) (mode : BitVec 3) (sat : Bool) (os : List (Tuple × Out)) : Acc :=
  match os with
  | [] => a
  | (t, o) :: _ =>
    let delta : Nat := match o with
      | .raw _ x => x
      | _ => blockDelta (tBexp d) (os.map (fun p => p.2))
    let k := -(tBexp d + delta)
    let a1 := os.foldl (fun (acc : Acc) p =>
      let r := (p.2.scale k).encode 13 mode sat acc.e
      Acc.put { acc with e := r.2 } d p.1 r.1) a
    (a1.putDelta d t delta).pad d t

/-- Two tuples stand in the same block of eight. -/
def sameBlock (t u : Tuple) : Bool := t.i0 / 8 == u.i0 / 8 && t.i1 == u.i1 && t.i2 == u.i2 && t.i3 == u.i3

/-- Elements cut into blocks. -/
def blocksOf : List (Tuple × Out) → List (List (Tuple × Out))
  | [] => []
  | p :: ps =>
    match blocksOf ps with
    | (q :: b) :: rest => if sameBlock p.1 q.1 then (p :: q :: b) :: rest else [p] :: (q :: b) :: rest
    | other => [p] :: other

/-- Elements delivered into a destination, in order (R168). -/
def Acc.write (a : Acc) (d : Word512) (mode : BitVec 3) (sat : Bool) (os : List (Tuple × Out)) : Acc :=
  if tFmt d = 13 then (blocksOf os).foldl (fun acc b => acc.block d mode sat b) a
  else os.foldl (fun (acc : Acc) p =>
    let r := p.2.encode (tFmt d) mode sat acc.e
    Acc.put { acc with e := r.2 } d p.1 r.1) a

/-- The update of ZS in the live entry (R123). -/
def State.updateZs (s : State) (z : Nat × Bool × Bool) : State :=
  let e := s.tensor z.1
  let v := if z.2.1 then z.2.2 else tZs e && z.2.2
  s.setTensor z.1 (setBits e 379 1 v.toNat)

/-- What a finished walk leaves for its destination's ZS: `whole` says that the instruction names every element. -/
def Acc.zs (a : Acc) (id : Nat) (whole : Bool) : Nat × Bool × Bool := (id, whole && !a.dropped, a.zero)

end Sys2Proof.Machine
end

