-- ==== Sys2Proof/Machine/Approx.lean ====
section
/-! DEFINITION. The approximating functions of the vector datapath (R177, R178): the exact value truncated toward zero to 20
significant bits, in integer arithmetic. -/

namespace Sys2Proof.Machine

/-- The functions. -/
inductive ApproxFn where
  | rcp | rsq | sqrt | exp2 | log2
  deriving DecidableEq, Repr

/-- Special inputs: a result with the one flag it sets (R178). -/
def ApproxFn.special (f : ApproxFn) (v : Val) : Option (Val × Word) :=
  let zero := fun n => Val.fin n 0 0
  let bad := some (Val.nan false, flagNV)
  match f, v with
  | _, .nan _ => some (.nan false, 0)
  | .rcp, .inf n => some (zero n, 0)
  | .rsq, .inf false => some (zero false, 0)
  | .sqrt, .inf false => some (.inf false, 0)
  | .exp2, .inf n => some (if n then zero false else .inf false, 0)
  | .log2, .inf false => some (.inf false, 0)
  | _, .inf true => bad
  | .rcp, .fin n 0 _ => some (.inf n, flagDZ)
  | .rsq, .fin n 0 _ => some (.inf n, flagDZ)
  | .sqrt, .fin n 0 _ => some (zero n, 0)
  | .exp2, .fin _ 0 _ => some (.fin false 1 0, 0)
  | .log2, .fin _ 0 _ => some (.inf true, flagDZ)
  | .rcp, _ => none
  | .exp2, _ => none
  | _, .fin true _ _ => bad
  | _, _ => none

/-- mag × 2^exp with at most 20 significant bits, truncated; and whether bits were lost. -/
def cut20 (mag : Nat) (exp : Int) : Nat × Int × Bool :=
  let n := Nat.log2 mag
  if n < 20 then (mag, exp, false)
  else (mag / 2 ^ (n - 19), exp + (n - 19 : Nat), mag % 2 ^ (n - 19) != 0)

/-- A truncated value with its sign, marked when it is not exact. -/
def truncated (neg : Bool) (mag : Nat) (exp : Int) (inexact : Bool) : Out :=
  let q := cut20 mag exp
  if q.2.2 || inexact then .approx (.fin neg q.1 q.2.1) else .num (.val (.fin neg q.1 q.2.1))

/-- 1 / (mag × 2^exp). -/
def rcpOf (neg : Bool) (mag : Nat) (exp : Int) : Out :=
  let k := Nat.log2 mag + 20
  truncated neg (2 ^ k / mag) (-exp - k) (2 ^ k % mag != 0)

/-- An even exponent, for square roots. -/
def evenExp (mag : Nat) (exp : Int) : Nat × Int := if exp % 2 = 0 then (mag, exp) else (2 * mag, exp - 1)

/-- 1 / √(mag × 2^exp). -/
def rsqOf (mag : Nat) (exp : Int) : Out :=
  let p := evenExp mag exp
  let k := Nat.log2 p.1 / 2 + 21
  let r := Nat.sqrt (2 ^ (2 * k) / p.1)
  truncated false r (-(p.2 / 2) - k) (r * r * p.1 != 2 ^ (2 * k))

/-- The exact square root, with a sticky bit below 64 bits of it. -/
def sqrtOf (mag : Nat) (exp : Int) : Out :=
  let p := evenExp mag exp
  let big := p.1 * 2 ^ 128
  let r := Nat.sqrt big
  .num (.val (.fin false (2 * r + (if r * r = big then 0 else 1)) (p.2 / 2 - 65)))

/-- Fractional bits that the two transcendental functions carry. -/
def workBits : Nat := 256

/-- A lower bound of 2^f in units of 2^-256, for f given by `n` bits of a fraction, the highest first. -/
def expBits (f : Nat) (root acc : Nat) : Nat → Nat
  | 0 => acc
  | n + 1 =>
    let next := Nat.sqrt (root * 2 ^ workBits)
    expBits f next (if f / 2 ^ n % 2 = 1 then acc * next / 2 ^ workBits else acc) n

/-- 2^a for a finite nonzero; beyond 2048 in magnitude every format's result is that of 2^±2048. -/
def exp2Of (neg : Bool) (mag : Nat) (exp : Int) : Out :=
  if 11 ≤ topBit mag exp then truncated false 1 (if neg then -2048 else 2048) true
  else
    let z := (if neg then -1 else 1) * ((mag * 2 ^ (exp + workBits).toNat / 2 ^ (-(exp + workBits)).toNat : Nat) : Int)
    let whole := z / (2 ^ workBits : Nat)
    let f := (z % (2 ^ workBits : Nat)).toNat
    if f = 0 then .num (.val (.fin false 1 whole))
    else truncated false (expBits f (2 * 2 ^ workBits) (2 ^ workBits) workBits) (whole - workBits) true

/-- Bits of the fraction of log2 y, for y in [1, 2) in units of 2^-256. -/
def logBits (y acc : Nat) : Nat → Nat
  | 0 => acc
  | n + 1 =>
    let sq := y * y / 2 ^ workBits
    if 2 * 2 ^ workBits ≤ sq then logBits (sq / 2) (2 * acc + 1) n else logBits sq (2 * acc) n

/-- log2 (mag × 2^exp). -/
def log2Of (mag : Nat) (exp : Int) : Out :=
  let e := topBit mag exp
  let n := Nat.log2 mag
  if mag = 2 ^ n then .num (.val (Val.ofInt e))
  else
    let f := logBits (mag * 2 ^ workBits / 2 ^ n) 0 96
    let z : Int := e * (2 ^ 96 : Nat) + f
    if 0 ≤ z then truncated false z.toNat (-96) true else truncated true ((-z).toNat - 1) (-96) true

/-- A function of an operand read under R100. -/
def ApproxFn.apply (f : ApproxFn) (v : Val) (e : Fpu) : Out × Fpu :=
  match f.special v with
  | some (r, flag) => (.special r, e.raise flag)
  | none =>
    match v with
    | .fin neg mag exp =>
      (match f with
        | .rcp => rcpOf neg mag exp
        | .rsq => rsqOf mag exp
        | .sqrt => sqrtOf mag exp
        | .exp2 => exp2Of neg mag exp
        | .log2 => log2Of mag exp, e)
    | _ => (.num (.val v), e)

end Sys2Proof.Machine
end

