-- ==== Sys2Proof/Machine/Release.lean ====
section
/-! DEFINITION. Engine-bound instructions on their way to their engines: what each of a loop body sends when it is released, and
the order in which that happens (R279, R287, R341). Iterations run one at a time, so each is firm, and an instruction is held only
for room. -/

namespace Sys2Proof.Machine

/-- A channel of the core in focus. -/
def State.chan (s : State) (n : Nat) : Chan := s.k.chans.getD n {}

/-- A change of a channel. -/
def State.onChan (s : State) (n : Nat) (f : Chan → Chan) : State :=
  { s with k := { s.k with chans := s.k.chans.setIfInBounds n (f (s.chan n)) } }

/-- A scalar or bead of the control context written by an engine. -/
def State.writeControl (s : State) (d : BitVec 6) (v : Word) : State :=
  ((s.focusSlot 15).writeOp d v).focusSlot s.ctx.slot

/-- Bytes that a prefetch or a TIERIN names: 0 counts as 1, and no more than 2^30 (R260). -/
def prefetchLength (v : Word) : Nat := if v = 0 then 1 else min v.toNat (2 ^ 30)

/-- The pages of an address range that lie in the second tier, ascending (R353): the leaf of each, and an address in it. -/
def State.tierPages (s : State) (ag : Agent) (near : Bool) (last : Nat) : Nat → Nat → List (Nat × Word) × State
  | 0, _ => ([], s)
  | n + 1, a =>
    if last ≤ a ∨ 2 ^ 64 ≤ a then ([], s)
    else
      let va := BitVec.ofNat 64 a
      let skip := (a / 65536 + 1) * 65536
      if ¬ canonical va ∨ inWindow ag va then s.tierPages ag near last n skip
      else
        match s.walk s.myPart (s.coreNo / 384) va with
        | (.leaf e at' level, s1) =>
          let next := (a / levelSize level + 1) * levelSize level
          let s2 := if near && movable e level then s1.countNear at' else s1
          let r := s2.tierPages ag near last n next
          if leafTier e = 0 then r else ((at', va) :: r.1, r.2)
        | _ => s.tierPages ag near last n skip

/-- TIERIN's page-ins asked for, with their number, and the line signalled at once if there are none (R353). -/
def State.tierIn (s : State) (ag : Agent) (pc : Word) (near : Bool) (line a len : Nat) : Nat × State :=
  let r := s.tierPages ag near (a + len) 16385 a
  let s1 := r.1.foldl (fun (acc : State) x => acc.askPageIn acc.myPart x.1 x.2) r.2
  if r.1 = [] then (0, s1.signal line)
  else
    let w : TierWait := { pc := pc, seq := s.k.engseq, line := line, leaves := r.1.map (fun x => x.1) }
    (r.1.length, { s1 with k := { s1.k with tierins := s1.k.tierins ++ [w] } })

/-- Its engine has room for released work: an entry of the dispatch queue, a place in the channel's queue (R293, R344). -/
def Kern.roomFor (k : Kern) : HeldWork → Bool
  | .entry _ => decide (k.mvuq.length < Config.dispatchEntries)
  | .copy n _ => decide ((k.chans.getD n {}).queue.length < 4)
  | .tierin .. | .skipped => true

/-- Work goes to its engine: ENGSEQ advances, and the instruction's number is the value it then has (R279, R414). -/
def State.sendWork (s0 : State) (w : HeldWork) : State :=
  let s := s0.bumpSeq
  match w with
  | .entry e => { s with k := { s.k with mvuq := s.k.mvuq ++ [{ e with seq := s.k.engseq }] } }
  | .copy n x => s.onChan n (fun c => { c with queue := c.queue ++ [{ x with seq := s.k.engseq }] })
  | .tierin ag pc near line d a len =>
    let r := s.tierIn ag pc near line a.toNat len.toNat
    r.2.writeControl d (BitVec.ofNat 64 r.1)
  | .skipped => s

/-- Held work released, oldest first, while its engine has room; at most `n` instructions (R279). (DEDUCED, log 18.) -/
def State.releaseUpTo (s : State) : Nat → State
  | 0 => s
  | n + 1 =>
    match s.k.unreleased with
    | [] => s
    | u :: rest =>
      if s.k.roomFor u.work then
        (State.sendWork { s with k := { s.k with unreleased := rest } } u.work).releaseUpTo n
      else s

/-- Everything that may be released is (R279). -/
def State.release (s : State) : State := s.releaseUpTo s.k.unreleased.length

/-- Abandonment of a suspended loop: every live iteration is squashed and each level ends. Work of retired iterations is released
as room appears, before the context issues again, and what the squashed iterations have issued does not count (R277, R287).
(DEDUCED, log 18.) -/
def State.abandonLoop (s : State) : State :=
  let l := s.k.loop
  let s1 := match l.inner with
    | some lv => s.endStrands lv
    | none => s
  let s2 := match l.outer with
    | some lv => s1.endStrands lv
    | none => s1
  let preds := match l.outer.or l.inner with
    | some lv => lv.preds
    | none => s.ctx.preds
  let loop1 : Loop := { l with text := [], outer := none, inner := none, susp := false }
  let counted := match l.outer.or l.inner with
    | some lv => l.trapAt - lv.begun
    | none => 0
  let lose := fun (e : Entry) => { e with squashed := e.squashed || e.fromLoop, fromLoop := false }
  State.release { s2 with
    ctx := { s2.ctx with preds := preds, retired := s2.ctx.retired - counted }
    k := { s2.k with
      loop := loop1
      mvuq := s2.k.mvuq.map lose
      unreleased := (s2.k.unreleased.filter (fun u => u.retired)).map Unreleased.kept } }

/-- A suspended loop goes on: what the handler has issued, the return with it, is none of the iteration's (R277, R286). -/
def State.resumeLoop (s : State) : State :=
  let l := s.k.loop
  let later := fun (lv : LoopLevel) => { lv with begun := lv.begun + (s.ctx.retired + 1 - l.trapAt) }
  { s with k := { s.k with loop := { l with susp := false, outer := l.outer.map later, inner := l.inner.map later } } }

/-- What a return to `target` does to a suspended loop: it resumes inside the captured body, is abandoned at the loop's exit
target, and otherwise stays suspended (R286). -/
def State.returnToLoop (s : State) (target : Word) : State :=
  let l := s.k.loop
  match l.outer.or l.inner with
  | none => s
  | some lv =>
    if !l.susp then s
    else if (Tbl.find l.text (parcelIndex target)).isSome then s.resumeLoop
    else if target = lv.exitPc then s.abandonLoop
    else s

/-- ERET's effect once HACT and the target have been checked (R434): HACT clear and PC at TRAPPC, with the outcome of R286
for a suspended loop. The next instruction matches no breakpoint (R444). -/
def State.eretTo (s : State) (target : Word) : State :=
  let s1 := s.returnToLoop target
  { s1 with
    ctx := { s1.ctx with pc := target, retired := s1.ctx.retired + 1, hold := none, skipBp := true }
    k := { s1.k with trapcause := setBits s1.k.trapcause 63 1 0 } }

/-- The control context executes a captured body. -/
def State.inBody (s : State) : Bool := s.ctx.slot == 15 && s.k.loop.running

/-- An instruction's work goes to its engine at once: there is room, and nothing that issued before it is still held. A handler's
work does not wait for that of the iteration it has suspended (R286). (DEDUCED, log 18.) -/
def Kern.goesAt (k : Kern) (w : HeldWork) : Bool := (k.unreleased.isEmpty || k.loop.susp) && k.roomFor w

/-- Work that an instruction of a body sends: released at once, or held for room (R279). (DEDUCED, log 18.) -/
def State.sendOrHold (s : State) (w : HeldWork) : State :=
  if s.k.goesAt w then s.sendWork w
  else { s with k := { s.k with unreleased := s.k.unreleased ++ [{ work := w, outer := s.k.loop.inner.isNone }] } }

/-- The work of the iteration that retires is that of a retired iteration (R279, R287); an outer one's takes in that of its inner
instances. (DEDUCED, log 18.) -/
def State.markRetired (s : State) : State :=
  let mark := fun (u : Unreleased) =>
    if s.k.loop.inner.isNone then { u with outer := true, retired := true }
    else if u.outer then u else { u with retired := true }
  { s with k := { s.k with unreleased := s.k.unreleased.map mark } }

/-- Entries that the iteration in progress is still to send, those of its own inner instances among them (R325). -/
def State.ownHeld (s : State) : Nat :=
  let own := fun (u : Unreleased) => if s.k.loop.inner.isNone then !u.outer || !u.retired else !u.outer && !u.retired
  if s.inBody then
    (s.k.unreleased.filter (fun u => own u && (match u.work with | .entry _ => true | _ => false))).length
  else 0

/-- The scalar or strand destinations that TIERINs not yet released owe (R341). -/
def Kern.owedDests (k : Kern) : List (BitVec 6) :=
  k.unreleased.filterMap (fun u => match u.work with | .tierin _ _ _ _ d _ _ => some d | _ => none)

end Sys2Proof.Machine
end

