-- ==== Sys2Proof/Machine/Mvu.lean ====
section
/-! DEFINITION. The dispatch queue of a core (R293, R308): the issue of a class X instruction, what it captures, and what an
entry's work carries to its retirement. -/

namespace Sys2Proof.Machine

/-- What a class X instruction needs: it is engine-bound, and no helper may issue it (R17, R170). (DEDUCED, log 15.) -/
def metaX (f : Form) : Meta := { len := f.len, p := f.p, n := f.n, engine := true, helper := false }

/-- The tensor entries that an instruction names, as they stand (R125). -/
def State.captured (s : State) (ids : List Nat) : Tbl Word512 := ids.foldl (fun t i => Tbl.put t i (s.tensor i)) []

/-- A check at issue: its fault is precise (R169, R309). -/
def need (c : Bool) (cause : Nat) : Except Stop Unit := if c then .ok () else .error (.trap cause 0 0)

/-- Causes of the checks: tensor record, tensor format, tensor shape (R413). -/
def causeRecord : Nat := 11
def causeFormat : Nat := 12
def causeShape : Nat := 13

/-- The issue of a class X instruction: it waits while all sixteen entries are taken, or work that issued before it is still to be
released, reads its guard and its operands, is checked, and takes an entry (R293). In a loop body it never waits: it is held until
it can be released (R279). A guarded-off instruction takes an entry too, which uses no resource. (DEDUCED, log 21.) -/
def State.enqueue (s : State) (f : Form) (i : Instr) (check : State → Except Stop Entry) : State :=
  let m := metaX f
  match s.mayIssue m with
  | .error r => s.stoppedAs true r
  | .ok () =>
    let g := s.guard m.p m.n
    let made := if g then check s else .ok { instr := i, guard := false, pc := 0, seq := 0 }
    if ¬ s.inBody ∧ ¬ s.k.goesAt (.entry { instr := i, guard := g, pc := 0, seq := 0 }) then s.wait .dispatchFull
    else
      match made with
      | .error r => s.stoppedAs true r
      | .ok e0 =>
        let (name, s1) := s.fresh
        let e : Entry :=
          { e0 with
            instr := i
            guard := g
            pc := s.ctx.pc
            stage := if g then .waiting else .finished
            fromLoop := s.k.loop.running
            order := name }
        (s1.sendOrHold (.entry e)).retire m.len

/-- An entry with its captured tensors and scalar operands, the rest filled at issue. -/
def Entry.of (tens : Tbl Word512) (x y : Word) : Entry :=
  { instr := .nop, guard := true, pc := 0, seq := 0, tens := tens, x := x, y := y }

/-- Words of an entry come from the control context's generator, which stands as the entry's first word finds it (R98). -/
def State.acc (s : State) : Acc := { s := s, e := { seed := s.control.srseed } }

/-- What an entry's work leaves: the state, the generator advanced, and its flags and zero summaries for retirement. -/
def Acc.done (a : Acc) (zs : List (Nat × Bool × Bool)) : State × EntryResult :=
  (a.s.onControl (fun c => { c with srseed := a.e.seed }), { flags := a.e.flags, zs := zs })

/-- A bounds fault found before the first element (R169, R310): the entry writes nothing. (DEDUCED, log 20.) -/
def State.boundsResult (s : State) (a : Int) : State × EntryResult := (s, { fault := some (14, localAddress a) })

end Sys2Proof.Machine
end

