-- ==== Sys2Proof/Machine/Quanta.lean ====
section
/-! DEFINITION. The quanta of an entry that is no product (R171, R296, R299): which local bytes each one reads, and the local memory
that an element is read from. An element is read in its pass's own quantum, also where another quantum reads its bytes again. -/

namespace Sys2Proof.Machine

/-- Lanes of a pass for the widest of some formats (R168). -/
def lanesOf (es : List Word512) : Nat := 1024 / (es.foldl (fun w e => max w (tWidth e)) 1)

/-- Tensors that a vector instruction reads element by element. -/
def elementSources : Instr → List (BitVec 6)
  | .vadd f | .vsub f | .vmul f | .vmin f | .vmax f | .vsrnd f | .vcmp f | .vand f | .vor f | .vxor f | .vshl f | .vshr f
  | .vdot f => [f.a, f.b]
  | .vfma f | .vsel f | .vclamp f => [f.a, f.b, f.c]
  | .vabs f | .vneg f | .vcpy f | .vcvt f | .vrcp f | .vrsq f | .vsqrt f | .vexp2 f | .vlog2 f | .vpwl f | .vscale f
  | .vreds f | .vredm f => [f.a]
  | .vscan f => f.a :: (if f.opt.getLsbD 0 then [f.b] else [])
  | _ => []

/-- The tensor whose elements a vector instruction goes through. -/
def Entry.walked (e : Entry) : Word512 :=
  match e.instr with
  | .vreds f | .vredm f | .vdot f | .vscan f => e.ten f.a
  | i => e.ten ((tensorDest i).headD 0)

/-- Cycles that one pass takes (R171). -/
def Entry.passCycles (e : Entry) : Nat :=
  let unit := if e.tens.any (fun t => tWidth t.2 == 8) then 2 else 1
  match e.instr with
  | .vrcp _ | .vrsq _ | .vsqrt _ | .vexp2 _ | .vlog2 _ => 4 * unit
  | .vpwl _ | .vscan _ => 2 * unit
  | _ => unit

/-- The pass of element number `m` of a reduction with `lanes` lanes: rows shorter than a pass are packed whole (R171). -/
def rowPass (n lanes m : Nat) : Nat :=
  if n ≤ lanes then m / n / max 1 (lanes / n) else m / n * ((n + lanes - 1) / lanes) + m % n / lanes

/-- The cycle of an entry at which the pass of element number `m` begins (R168, R171). -/
def Entry.cycleOf (e : Entry) (m : Nat) : Nat :=
  let pass := match e.instr with
    | .vreds f | .vredm f => rowPass (tSize (e.ten f.a) 0) (lanesOf [e.ten f.a]) m
    | .vdot f => rowPass (tSize (e.ten f.a) 0) (lanesOf [e.ten f.a, e.ten f.b]) m
    | _ => m / lanesOf (e.tens.map (fun t => t.2))
  pass * e.passCycles

/-- The quantum of 128 cycles in which element number `m` is read (R296). -/
def Entry.quantumOf (e : Entry) (m : Nat) : Nat := e.cycleOf m / 128

/-- Local bytes of all elements of a tensor. -/
def allBytes (t : Word512) : List Nat := (upFrom 0 (tCount t)).flatMap (fun m => elemBytes t (tupleOf t m))

/-- Local bytes that the Crown row `r` of an MFILL takes from each column of its tensor (R303, R312). -/
def fillReads (t : Word512) (r : Nat) : List Nat :=
  let fmt := tFmt t
  (upFrom 0 (tSize t 1)).flatMap (fun j =>
    if fmt = 13 ∧ 128 ≤ r % 136 then
      let a := deltaAddr t { i0 := r / 136 * 128 + 16 * (r % 136 - 128), i1 := j }
      if inBuf t a 1 then [a.toNat] else []
    else
      let k := if fmt = 13 then r / 136 * 128 + r % 136 else if tyBytes fmt = 2 then r / 2 else r
      if k < tSize t 0 then elemBytes t { i0 := k, i1 := j } else [])

/-- Local bytes that element number `m` of a vector instruction is read from, of .bz8 the delta of its block among them (R92). -/
def Entry.elementReads (e : Entry) (m : Nat) : List Nat :=
  (elementSources e.instr).flatMap (fun i =>
    let t := e.ten i
    let u := bcast t (tupleOf e.walked m)
    elemBytes t u ++ (if tFmt t = 13 ∧ inBuf t (deltaAddr t u) 1 then [(deltaAddr t u).toNat] else []))

/-- Local bytes that an entry reads in its cycles from `lo` to below `hi` (R168, R171, R299): SCOUT takes four K-steps a cycle
(R331), a transfer a row (R306). (DEDUCED, log 21.) -/
def Entry.reads (e : Entry) (lo hi : Nat) : List Nat :=
  let row := fun (t : Word512) (i : Nat) => (upFrom 0 (tSize t 0)).flatMap (fun j =>
    if i < tSize t 1 then elemBytes t { i0 := j, i1 := i } else [])
  let first := fun (t : Word512) => if lo = 0 then allBytes t else []
  let elements := ((upFrom 0 (tCount e.walked)).filter (fun m => decide (lo ≤ e.cycleOf m) && decide (e.cycleOf m < hi))).flatMap
    e.elementReads
  match e.instr with
  | .mfill f => (upFrom lo (hi - lo)).flatMap (fillReads (e.ten f.a))
  | .mloadb f => (upFrom lo (hi - lo)).flatMap (row (e.ten f.a))
  | .mscl f => (upFrom lo (hi - lo)).flatMap (fun i =>
      if i < tSize (e.ten f.a) 0 then elemBytes (e.ten f.a) { i0 := i } else [])
  | .scout f =>
    if e.zs then []
    else (upFrom (4 * lo) (min (4 * hi) (tSize (e.ten f.a) 0) - 4 * lo)).flatMap (fun k =>
      (upFrom 0 (tSize (e.ten f.a) 1)).flatMap (fun i => elemBytes (e.ten f.a) { i0 := k, i1 := i }))
  | .vpwl f => first (e.ten f.b) ++ elements
  | .vscan f => (if f.opt.getLsbD 1 then first (e.ten f.c) else []) ++ elements
  | _ => elements

/-- Local bytes that writing an element of a tensor may change: its own and, of .bz8, the deltas and the padding of its row
(R92). -/
def writtenBytes (t : Word512) (u : Tuple) : List Nat :=
  let byte := fun (a : Int) => if inBuf t a 1 then [a.toNat] else []
  let whole := (tSize t 0 + 127) / 128 * 128
  (if elemIn t u then upFrom (elemAddr t u).toNat (tWidth t) else []) ++
  (if tFmt t = 13 then byte (deltaAddr t u) ++
      (if u.i0 + 1 = tSize t 0 then (upFrom (tSize t 0) (whole - tSize t 0)).flatMap (fun i =>
        byte (elemAddr t { u with i0 := i }) ++ byte (deltaAddr t { u with i0 := i })) else [])
    else [])

/-- Local bytes that the work of an entry has written once `done` elements of its destination are: of a VSCAN, the carries of
whole rows among them. -/
def Entry.written (e : Entry) (done : Nat) : List Nat :=
  let upTo := fun (t : Word512) (n : Nat) => (upFrom 0 n).flatMap (fun m => writtenBytes t (tupleOf t m))
  upTo (e.ten ((tensorDest e.instr).headD 0)) done ++
  (match e.instr with
    | .vscan f => if f.opt.getLsbD 1 then upTo (e.ten f.c) (done / tSize (e.ten f.a) 0) else []
    | _ => [])

/-- Tensors that the work of an entry writes, the carries of a VSCAN among them (R186). -/
def Entry.targets (e : Entry) : List Word512 :=
  (tensorDest e.instr).map (fun i => e.ten (BitVec.ofNat 6 i))

/-- What quantum `i` of an entry reads at the addresses that `at'` picks, `done` elements of its destination being written: an
earlier quantum than the last has taken its bytes in before, but for those that the entry itself has written since (R168, R299). -/
def Entry.viewOf (e : Entry) (at' : Nat → Bool) (i done : Nat) (s : State) : State :=
  match e.taken.getD i [] with
  | [] => s
  | q =>
    let old := q.filter (fun b => at' b.1)
    let own := if old.any (fun b => e.targets.any (fun t => inBuf t b.1 1)) then e.written done else []
    { s with k := { s.k with localMem := overlay s.k.localMem (old.filter (fun b => !(own.contains b.1))) } }

/-- The state that quantum `i` of an entry reads. (DEDUCED, log 21.) -/
def Entry.view (e : Entry) (i done : Nat) (s : State) : State := e.viewOf (fun _ => true) i done s

/-- The states that the quanta of an entry read that writes no local memory. -/
def Entry.views (e : Entry) (s : State) : List State := (upFrom 0 e.taken.length).map (fun i => e.view i 0 s)

/-- The state that element number `m` is read from. -/
def Entry.viewAt (e : Entry) (m done : Nat) (s : State) : State :=
  let mine := e.elementReads m
  e.viewOf mine.contains (e.quantumOf m) done s

end Sys2Proof.Machine
end

