-- ==== Sys2Proof/Machine/Vector.lean ====
section
/-! DEFINITION. Element-wise and reduction instructions (R164 to R187) and VRED4 (R79): their checks at issue and the work
of their entries. -/

namespace Sys2Proof.Machine

/-! Values. -/

/-- The value with its sign turned; a NaN stays the canonical one. -/
def Val.neg (v : Val) : Val :=
  match v with
  | .nan _ => .nan false
  | .inf n => .inf (!n)
  | .fin n m e => .fin (!n) m e

/-- The magnitude. -/
def Val.abs (v : Val) : Val :=
  match v with
  | .nan _ => .nan false
  | .inf _ => .inf false
  | .fin _ m e => .fin false m e

/-- A NaN result is canonical, sign 0 (R89). -/
def Val.quiet (v : Val) : Val := if v.isNan then .nan false else v

/-- Order with −0 below +0 (R173, R183). -/
def Val.below (x y : Val) : Bool := x.lt y || (x.eqv y && x.isNeg && !y.isNeg)

/-- The lesser and the greater of two values; a NaN operand gives NaN (R173). -/
def numMin (a b : Num) : Num :=
  match a, b with
  | .int x, .int y => .int (min x y)
  | x, y => if x.toVal.isNan || y.toVal.isNan then .val (.nan false) else if y.toVal.below x.toVal then y else x
def numMax (a b : Num) : Num :=
  match a, b with
  | .int x, .int y => .int (max x y)
  | x, y => if x.toVal.isNan || y.toVal.isNan then .val (.nan false) else if x.toVal.below y.toVal then y else x

/-- Exact sums, differences and products, with the flag NV (R173). -/
def numAdd (mode : BitVec 3) (a b : Num) : Num × Word :=
  match a, b with
  | .int x, .int y => (.int (x + y), 0)
  | x, y => let r := Val.add mode x.toVal y.toVal; (.val r.1, r.2)
def numSub (mode : BitVec 3) (a b : Num) : Num × Word :=
  match a, b with
  | .int x, .int y => (.int (x - y), 0)
  | x, y => let r := Val.add mode x.toVal y.toVal.neg; (.val r.1, r.2)
def numMul (a b : Num) : Num × Word :=
  match a, b with
  | .int x, .int y => (.int (x * y), 0)
  | x, y => let r := x.toVal.mul y.toVal; (.val r.1, r.2)
def numFma (mode : BitVec 3) (a b c : Num) : Num × Word :=
  match a, b, c with
  | .int x, .int y, .int z => (.int (x * y + z), 0)
  | x, y, z => let r := Val.fma mode x.toVal y.toVal z.toVal; (.val r.1, r.2)

/-- |a| and −a (R173). -/
def numAbs (a : Num) : Num :=
  match a with
  | .int x => .int x.natAbs
  | .val v => .val v.abs
def numNeg (a : Num) : Num :=
  match a with
  | .int x => .int (-x)
  | .val v => .val v.neg

/-- Infinite two's-complement patterns of integers of at most 64 bits (R181). -/
def wide (a : Num) : BitVec 72 := BitVec.ofInt 72 a.toInt
def numAnd (a b : Num) : Num := .int (wide a &&& wide b).toInt
def numOr (a b : Num) : Num := .int (wide a ||| wide b).toInt
def numXor (a b : Num) : Num := .int (wide a ^^^ wide b).toInt

/-- The shift amount of R181. -/
def numShift (b : Num) : Nat := (min (max b.toInt 0) 64).toNat
def numShl (a b : Num) : Num := .int (a.toInt * (2 ^ numShift b : Nat))
def numShr (a b : Num) : Num := .int (a.toInt / (2 ^ numShift b : Nat))

/-- The conditions of VCMP (R180). -/
def numHolds (cond : Nat) (a b : Num) : Bool :=
  match a, b with
  | .int x, .int y =>
    match cond with
    | 0 => x == y
    | 1 => x != y
    | 2 => decide (x < y)
    | 3 => decide (x ≤ y)
    | 4 => decide (y < x)
    | 5 => decide (y ≤ x)
    | 6 => false
    | _ => true
  | x, y => fcmpHolds cond x.toVal y.toVal

/-! Checks at issue (R169). -/

def allFloat (es : List Word512) : Bool := es.all (fun e => isFloat (tFmt e))
def allInt (es : List Word512) : Bool := es.all (fun e => !(isFloat (tFmt e)))
/-- Class E of R167. -/
def allAlike (es : List Word512) : Bool := allFloat es || allInt es

/-- A value source matches an iteration shape, dimension by dimension or by broadcast (R165). -/
def fitsShape (it e : Word512) : Bool := (upFrom 0 4).all (fun n => tSize e n == tSize it n || tSize e n == 1)

/-- Two shapes are the same. -/
def sameShape (a b : Word512) : Bool := (upFrom 0 4).all (fun n => tSize a n == tSize b n)

/-- A shape with one element for each row of another (R182, R185). -/
def rowShape (a d : Word512) : Bool := tSize d 0 == 1 && (upFrom 1 3).all (fun n => tSize a n == tSize d n)

/-- The checks of a vector instruction over its entries in the order D, A, B, C: usability, formats, shapes (R169). -/
def State.vecCheck (s : State) (ids : List (BitVec 6)) (fmts shapes : List Word512 → Bool) (x : Word) : Except Stop Entry := do
  let es := ids.map (fun i => s.tensor i.toNat)
  need (es.all usableLocal) causeRecord
  need (fmts es) causeFormat
  need (es.all (fun e => decide (tCount e ≤ 2 ^ 20)) && shapes es) causeShape
  .ok (Entry.of (s.captured (ids.map BitVec.toNat)) x 0)

/-- Every source broadcasts to the shape of D. -/
def sourcesFit (es : List Word512) : Bool :=
  match es with
  | d :: srcs => srcs.all (fitsShape d)
  | [] => true

/-- An element-wise instruction whose tensors all belong to its class. -/
def State.vecIssue (s : State) (f : G64) (i : Instr) (ids : List (BitVec 6)) (fmts : List Word512 → Bool) : State :=
  s.enqueue (formG f) i (fun t => t.vecCheck ids fmts sourcesFit 0)

/-- The segment table's shape (R179). -/
def tableShape (b : Word512) : Bool :=
  tSize b 0 == 3 && decide (1 ≤ tSize b 1) && decide (tSize b 1 ≤ 64) && tSize b 2 == 1 && tSize b 3 == 1

/-! The work of an entry. -/

/-- What a walk computes for one tuple: from the state at the start of its pass. -/
abbrev ElemFn := State → Tuple → Nat → Fpu → Out × Fpu

/-- The outs at the end of a list that belong to a block whose last element is still to come (R168): a block that two passes
share is written with the later one. (DESIGN CHOICE, log 20.) -/
def openBlock (d : Word512) (os : List (Tuple × Out)) : Nat :=
  match os.getLast? with
  | some (t, _) =>
    if tFmt d ≠ 13 ∨ t.i0 % 8 = 7 ∨ t.i0 + 1 = tSize d 0 then 0 else (os.reverse.takeWhile (fun p => sameBlock p.1 t)).length
  | none => 0

/-- Passes from number `q` on: every source element of a pass is read, then every destination element written (R168). -/
def Entry.walkPasses (e : Entry) (d : Word512) (mode : BitVec 3) (sat : Bool) (lanes : Nat) (fn : ElemFn) :
    Nat → Nat → List (Tuple × Out) → Acc → Acc
  | 0, _, kept, a => a.write d mode sat kept
  | n + 1, q, kept, a =>
    let s := e.view (e.quantumOf (q * lanes)) (q * lanes - kept.length) a.s
    let r := (upFrom (q * lanes) (min lanes (tCount d - q * lanes))).foldl (fun (acc : List (Tuple × Out) × Fpu) m =>
      let t := tupleOf d m
      let o := fn s t m acc.2
      ((t, o.1) :: acc.1, o.2)) ([], a.e)
    let os := kept ++ r.1.reverse
    let cut := os.length - openBlock d os
    e.walkPasses d mode sat lanes fn n (q + 1) (os.drop cut) (Acc.write { a with e := r.2 } d mode sat (os.take cut))

/-- An element-wise instruction: bounds of every access first, then its passes (R168, R169). -/
def State.elementwise (s : State) (e : Entry) (f : G64) (ids : List (BitVec 6)) (fn : ElemFn) : State × EntryResult :=
  let es := ids.map e.ten
  match boundsFaults es with
  | some a => s.boundsResult a
  | none =>
    let d := e.ten f.d
    let lanes := lanesOf (e.tens.map (fun t => t.2))
    let r := e.walkPasses d f.md f.sat lanes fn ((tCount d + lanes - 1) / lanes) 0 [] s.acc
    r.done [r.zs f.d.toNat true]

/-- A source element at a tuple of the iteration shape (R165). -/
def Entry.src (e : Entry) (id : BitVec 6) (s : State) (t : Tuple) : Num := s.elemNum (e.ten id) true (bcast (e.ten id) t)

/-- Bits and delta of a source element. -/
def Entry.rawSrc (e : Entry) (id : BitVec 6) (s : State) (t : Tuple) : Out :=
  let x := e.ten id
  .raw (s.elemRaw x (bcast x t)) (s.elemDelta x (bcast x t))

/-- Element functions of one, two and three operands. -/
def Entry.fn1 (e : Entry) (f : G64) (op : Num → Num × Word) : ElemFn := fun s t _ u =>
  let r := op (e.src f.a s t)
  (.num r.1, u.raise r.2)
def Entry.fn2 (e : Entry) (f : G64) (op : Num → Num → Num × Word) : ElemFn := fun s t _ u =>
  let r := op (e.src f.a s t) (e.src f.b s t)
  (.num r.1, u.raise r.2)
def Entry.fn3 (e : Entry) (f : G64) (op : Num → Num → Num → Num × Word) : ElemFn := fun s t _ u =>
  let r := op (e.src f.a s t) (e.src f.b s t) (e.src f.c s t)
  (.num r.1, u.raise r.2)

/-- An operation that sets no flag. -/
def plain (n : Num) : Num × Word := (n, 0)

/-- VABS and VNEG: on floating operands of one format they act on the sign bit alone (R174). (DEDUCED, log 19.) -/
def Entry.signFn (e : Entry) (f : G64) (clear : Bool) (op : Num → Num) : ElemFn := fun s t m u =>
  let fmt := tFmt (e.ten f.d)
  if isFloat fmt ∧ fmt = tFmt (e.ten f.a) then
    match e.rawSrc f.a s t with
    | .raw x d =>
      let top := 2 ^ ((fmtOf fmt).width - 1)
      (.raw (x % top + (if clear || x / top == 1 then 0 else top)) d, u)
    | o => (o, u)
  else e.fn1 f (fun a => plain (op a)) s t m u

/-- VCVT (R102 to R106, R173): widening and .bz8 sources and conversions to integers read the exact value.
(DEDUCED, log 19.) -/
def Entry.cvtFn (e : Entry) (f : G64) : ElemFn := fun s t _ u =>
  let a := e.ten f.a
  let src := tFmt a
  let dst := tFmt (e.ten f.d)
  let exact := isWidening src dst || src == 13 || !(isFloat dst)
  let v := s.elemNum a (!exact) (bcast a t)
  if isWidening src dst then (.raw ((fmtOf dst).exact v.toVal) 0, (u.wordFor f.md).2) else (.num v, u)

/-- VPWL's table, read once: breakpoints, slopes and intercepts (R179). -/
def State.segments (s : State) (b : Word512) : List (Val × Val × Val) :=
  (upFrom 0 (tSize b 1)).map (fun i =>
    let at' := fun k => (s.elemNum b false { i0 := k, i1 := i }).toVal
    (at' 0, at' 1, at' 2))

/-- VPWL's element (R179). -/
def pwl (tab : List (Val × Val × Val)) (mode : BitVec 3) (a : Val) : Val × Word :=
  let pick := tab.foldl (fun (acc : Option (Val × Val × Val)) g => if g.1.lt a || g.1.eqv a then some g else acc) none
  let g := (pick.or tab.head?).getD (.fin false 0 0, .fin false 0 0, .fin false 0 0)
  if a.isNan || g.2.1.isNan || g.2.2.isNan then (.nan false, 0)
  else match g.2.1 with
    | .fin _ 0 _ => (g.2.2, 0)
    | m => Val.fma mode m a g.2.2

/-- The approximating functions (R177). -/
def Entry.approxFn (e : Entry) (f : G64) (g : ApproxFn) : ElemFn := fun s t _ u => g.apply (e.src f.a s t).toVal u

/-! Reductions and scans. -/

/-- A value rounded to .f32 and read back: one Op of R113 and R115. -/
def roundVal (mode : BitVec 3) (sat : Bool) (v : Val × Word) (u : Fpu) : Val × Fpu :=
  let r := (fmtOf 8).round mode sat v.1 (u.raise v.2)
  ((fmtOf 8).decode r.1, r.2)

/-- One level of the pairwise tree, from the left (R113). -/
def treeLevel (op : Val → Val → Fpu → Val × Fpu) : List Val → Fpu → List Val × Fpu
  | x :: y :: rest, u =>
    let r := op x y u
    let q := treeLevel op rest r.2
    (r.1 :: q.1, q.2)
  | xs, u => (xs, u)

/-- The tree of one pass (R113). -/
def tree (op : Val → Val → Fpu → Val × Fpu) : Nat → List Val → Fpu → Val × Fpu
  | 0, xs, u => (xs.headD (.fin false 0 0), u)
  | n + 1, xs, u =>
    match xs with
    | [] => (.fin false 0 0, u)
    | [x] => (x, u)
    | _ =>
      let r := treeLevel op xs u
      tree op n r.1 r.2

/-- The passes of a row after the first, combined in order (R113). -/
def treePasses (op : Val → Val → Fpu → Val × Fpu) (lanes : Nat) : Nat → Val → List Val → Fpu → Val × Fpu
  | 0, acc, _, u => (acc, u)
  | n + 1, acc, xs, u =>
    if xs.isEmpty then (acc, u)
    else
      let r := tree op 11 (xs.take lanes) u
      let q := op acc r.1 r.2
      treePasses op lanes n q.1 (xs.drop lanes) q.2

/-- A row reduced by the order of R113. -/
def reduceRow (op : Val → Val → Fpu → Val × Fpu) (lanes : Nat) (xs : List Val) (u : Fpu) : Val × Fpu :=
  let r := tree op 11 (xs.take lanes) u
  treePasses op lanes xs.length r.1 (xs.drop lanes) r.2

/-- Rows of a tensor (R182). -/
def rowCount (e : Word512) : Nat := tSize e 1 * tSize e 2 * tSize e 3

/-- The elements of row number `r` of a reduction's A, each with the state that its pass reads (R299). -/
def Entry.rowViews (e : Entry) (a : Word512) (s : State) (r : Nat) : List (Tuple × State) :=
  (upFrom (r * tSize a 0) (tSize a 0)).map (fun m => (tupleOf a m, e.viewAt m r s))

/-- An element of a reduction or scan, widened to .f32: a .bz8 value beyond its range is rounded under R103. -/
def State.elemF32 (s : State) (e : Word512) (t : Tuple) (u : Fpu) : Val × Fpu :=
  let v := (s.elemNum e true t).toVal.quiet
  if tFmt e = 13 then
    let r := (fmtOf 8).roundWord 0 false 0 v
    ((fmtOf 8).decode r.1, u.raise r.2)
  else (v, u)

/-- The elements of a row, widened, the row's tuples broadcast to the tensor (R165). -/
def rowF32 (e : Word512) (vs : List (Tuple × State)) (u : Fpu) : List Val × Fpu :=
  let r := vs.foldl (fun (acc : List Val × Fpu) x =>
    let v := x.2.elemF32 e (bcast e x.1) acc.2
    (v.1 :: acc.1, v.2)) ([], u)
  (r.1.reverse, r.2)

/-- One result delivered: into .f32 without a further word (R182). -/
def Acc.deliver (a : Acc) (d : Word512) (f : G64) (t : Tuple) (v : Num) : Acc :=
  let mode : BitVec 3 := if tFmt d = 8 then 0 else f.md
  a.write d mode f.sat [(t, .num v)]

/-- Lanes of a reduction: sources of 32 bits or more, 16 or 8 bits (R113). (DEDUCED, log 19.) -/
def reduceLanes (es : List Word512) : Nat := max 256 (lanesOf es)

/-- A reduction over rows: the value of each row, then its one result (R168, R182). -/
def State.reduceRows (s : State) (e : Entry) (f : G64) (ids : List (BitVec 6))
    (row : List (Tuple × State) → Fpu → Num × Fpu) : State × EntryResult :=
  match boundsFaults (ids.map e.ten) with
  | some a => s.boundsResult a
  | none =>
    let a := e.ten f.a
    let r := (upFrom 0 (rowCount a)).foldl (fun (acc : Acc) i =>
      let v := row (e.rowViews a acc.s i) acc.e
      Acc.deliver { acc with e := v.2 } (e.ten f.d) f (tupleOf a (i * tSize a 0)) v.1) s.acc
    r.done [r.zs f.d.toNat true]

/-- The sum that an addition under R113 makes. -/
def addOp (f : G64) (x y : Val) (u : Fpu) : Val × Fpu := roundVal f.md f.sat (Val.add f.md x y) u

/-- VREDS of one row (R114, R182). -/
def Entry.sumRow (e : Entry) (f : G64) (vs : List (Tuple × State)) (u : Fpu) : Num × Fpu :=
  let a := e.ten f.a
  if isFloat (tFmt a) then
    let xs := rowF32 a vs u
    let r := reduceRow (addOp f) (reduceLanes [a]) xs.1 xs.2
    (.val r.1, r.2)
  else (.int ((vs.map (fun v => (v.2.elemNum a true v.1).toInt)).foldl (· + ·) 0), u)

/-- VREDM of one row (R183): C = 0 selects the maximum. -/
def Entry.extremeRow (e : Entry) (f : G64) (vs : List (Tuple × State)) (u : Fpu) : Num × Fpu :=
  let a := e.ten f.a
  let op := if f.c = 0 then numMax else numMin
  if isFloat (tFmt a) then
    let xs := rowF32 a vs u
    match xs.1 with
    | x :: rest => ((rest.map Num.val).foldl op (.val x), xs.2)
    | [] => (.int 0, xs.2)
  else
    match vs.map (fun v => v.2.elemNum a true v.1) with
    | x :: rest => (rest.foldl op x, u)
    | [] => (.int 0, u)

/-- The products of a row, each rounded to .f32 (R184). -/
def dotProducts (f : G64) : List Val → List Val → Fpu → List Val × Fpu
  | x :: xs, y :: ys, u =>
    let r := roundVal f.md f.sat (x.mul y) u
    let q := dotProducts f xs ys r.2
    (r.1 :: q.1, q.2)
  | _, _, u => ([], u)

/-- VDOT of one row (R184). -/
def Entry.dotRow (e : Entry) (f : G64) (vs : List (Tuple × State)) (u : Fpu) : Num × Fpu :=
  let a := e.ten f.a
  let b := e.ten f.b
  if isFloat (tFmt a) then
    let xs := rowF32 a vs u
    let ys := rowF32 b vs xs.2
    let ps := dotProducts f xs.1 ys.1 ys.2
    let r := reduceRow (addOp f) (reduceLanes [a, b]) ps.1 ps.2
    (.val r.1, r.2)
  else
    (.int (vs.foldl (fun z v =>
      z + (v.2.elemNum a true v.1).toInt * (v.2.elemNum b true (bcast b v.1)).toInt) 0), u)

/-- What a scan carries along a row: the accumulator, if one stands, and outs of a block not yet whole. -/
structure Scan where
  a : Acc
  sum : Option Num := none
  kept : List (Tuple × Out) := []

/-- One element of VSCAN (R186): a reset mark or a missing accumulator takes the element alone. The delivery into a format
other than .f32 takes one word; of .bz8 destinations, the words follow each element's addition, and the block is written
when it is whole. (DEDUCED, log 19.) -/
def Entry.scanStep (e : Entry) (f : G64) (sc : Scan) (m : Nat) : Scan :=
  let src := e.ten f.a
  let d := e.ten f.d
  let t := tupleOf src m
  let s := e.viewAt m (m - sc.kept.length) sc.a.s
  let marked := f.opt.getLsbD 0 && s.elemRaw (e.ten f.b) t != 0
  let rd : Num × Fpu :=
    if isFloat (tFmt src) then
      let v := s.elemF32 src t sc.a.e
      (.val v.1, v.2)
    else (s.elemNum src true t, sc.a.e)
  let next : Num × Fpu :=
    match sc.sum with
    | none => rd
    | some acc =>
      if marked then rd
      else match acc, rd.1 with
        | .int x, .int y => (.int (x + y), rd.2)
        | x, y => let r := addOp f x.toVal y.toVal rd.2; (.val r.1, r.2)
  if tFmt d = 13 then
    let w := next.2.wordFor f.md
    let out : Out := if f.md = 4 then .dither next.1.toVal w.1 else .num next.1
    let os := sc.kept ++ [(t, out)]
    let whole := openBlock d os == 0
    let a1 : Acc := { sc.a with e := w.2 }
    { a := if whole then a1.write d f.md f.sat os else a1, sum := some next.1, kept := if whole then [] else os }
  else { a := Acc.deliver { sc.a with e := next.2 } d f t next.1, sum := some next.1 }

/-- The state of the carry tensor's own walk is kept apart from D's, for its own ZS (R185). -/
structure ScanRun where
  d : Acc
  carryZero : Bool := true
  carryDropped : Bool := false

/-- Row number `i` of VSCAN (R186): the carries are read at the start. -/
def Entry.scanRow (e : Entry) (f : G64) (r : ScanRun) (i : Nat) : ScanRun :=
  let src := e.ten f.a
  let cy := e.ten f.c
  let carried := f.opt.getLsbD 1
  let m := i * tSize src 0
  let t := tupleOf src m
  let init := if carried then some ((e.view 0 m r.d.s).elemNum cy false t) else none
  let sc := (upFrom m (tSize src 0)).foldl (e.scanStep f) { a := r.d, sum := init }
  if carried then
    let n := sc.sum.getD (.int 0)
    let base : Acc := { s := sc.a.s, e := sc.a.e }
    let w := base.write cy 0 false [(t, .num n)]
    { d := { sc.a with s := w.s }, carryZero := r.carryZero && w.zero, carryDropped := r.carryDropped || w.dropped }
  else { r with d := sc.a }

/-- The tensors of a VSCAN in the order D, A, B, C (R185). -/
def scanIds (f : G64) : List (BitVec 6) :=
  [f.d, f.a] ++ (if f.opt.getLsbD 0 then [f.b] else []) ++ (if f.opt.getLsbD 1 then [f.c] else [])

/-- VSCAN's work (R185, R186). -/
def State.scanWork (s : State) (e : Entry) (f : G64) : State × EntryResult :=
  match boundsFaults ((scanIds f).map e.ten) with
  | some a => s.boundsResult a
  | none =>
    let r := (upFrom 0 (rowCount (e.ten f.a))).foldl (e.scanRow f) { d := s.acc }
    let carry := if f.opt.getLsbD 1 then [(f.c.toNat, !r.carryDropped, r.carryZero)] else []
    r.d.done (r.d.zs f.d.toNat true :: carry)

/-- VRED4 (R79): groups of four, every element read before any is written. -/
def State.red4Work (s : State) (e : Entry) (f : G64) : State × EntryResult :=
  let a := e.ten f.a
  let d := e.ten f.d
  match boundsFaults [d, a] with
  | some x => s.boundsResult x
  | none =>
    let at' := fun m => s.elemNum a false (tupleOf a m)
    let r := (upFrom 0 (tCount d)).foldl (fun (acc : List (Tuple × Out) × Fpu) j =>
      let q := fun k => at' (4 * j + k)
      let o : Out × Fpu :=
        match q 0, q 1, q 2, q 3 with
        | .int w, .int x, .int y, .int z => (.num (.int (w + x + y + z)), acc.2)
        | w, x, y, z =>
          let lo := addOp f w.toVal x.toVal acc.2
          let hi := addOp f y.toVal z.toVal lo.2
          let v := addOp f lo.1 hi.1 hi.2
          (.num (.val v.1), v.2)
      ((tupleOf d j, o.1) :: acc.1, o.2)) ([], s.acc.e)
    let w := Acc.write { s.acc with e := r.2 } d 0 f.sat r.1.reverse
    w.done [w.zs f.d.toNat true]

/-- The work of a vector entry whose guard held (R173 to R187). -/
def State.vectorWork (s : State) (e : Entry) : State × EntryResult :=
  match e.instr with
  | .vadd f => s.elementwise e f [f.d, f.a, f.b] (e.fn2 f (numAdd f.md))
  | .vsub f => s.elementwise e f [f.d, f.a, f.b] (e.fn2 f (numSub f.md))
  | .vmul f => s.elementwise e f [f.d, f.a, f.b] (e.fn2 f numMul)
  | .vfma f => s.elementwise e f [f.d, f.a, f.b, f.c] (e.fn3 f (numFma f.md))
  | .vmin f => s.elementwise e f [f.d, f.a, f.b] (e.fn2 f (fun a b => plain (numMin a b)))
  | .vmax f => s.elementwise e f [f.d, f.a, f.b] (e.fn2 f (fun a b => plain (numMax a b)))
  | .vabs f => s.elementwise e f [f.d, f.a] (e.signFn f true numAbs)
  | .vneg f => s.elementwise e f [f.d, f.a] (e.signFn f false numNeg)
  | .vcpy f => s.elementwise e f [f.d, f.a] (fun t u _ x => (e.rawSrc f.a t u, x))
  | .vcvt f => s.elementwise e f [f.d, f.a] (e.cvtFn f)
  | .vsrnd f => s.elementwise e f [f.d, f.a, f.b] (fun t u _ x =>
      (.dither (e.src f.a t u).toVal (e.src f.b t u).toInt.toNat, x))
  | .vrcp f => s.elementwise e f [f.d, f.a] (e.approxFn f .rcp)
  | .vrsq f => s.elementwise e f [f.d, f.a] (e.approxFn f .rsq)
  | .vsqrt f => s.elementwise e f [f.d, f.a] (e.approxFn f .sqrt)
  | .vexp2 f => s.elementwise e f [f.d, f.a] (e.approxFn f .exp2)
  | .vlog2 f => s.elementwise e f [f.d, f.a] (e.approxFn f .log2)
  | .vpwl f =>
    let tab := (e.view 0 0 s).segments (e.ten f.b)
    s.elementwise e f [f.d, f.a, f.b] (e.fn1 f (fun a => let r := pwl tab f.md a.toVal; (.val r.1, r.2)))
  | .vcmp f => s.elementwise e f [f.d, f.a, f.b] (e.fn2 f (fun a b => plain (.int (numHolds f.c.toNat a b).toNat)))
  | .vsel f => s.elementwise e f [f.d, f.a, f.b, f.c] (fun t u _ x =>
      (if (e.src f.c t u).toInt = 0 then e.rawSrc f.b t u else e.rawSrc f.a t u, x))
  | .vand f => s.elementwise e f [f.d, f.a, f.b] (e.fn2 f (fun a b => plain (numAnd a b)))
  | .vor f => s.elementwise e f [f.d, f.a, f.b] (e.fn2 f (fun a b => plain (numOr a b)))
  | .vxor f => s.elementwise e f [f.d, f.a, f.b] (e.fn2 f (fun a b => plain (numXor a b)))
  | .vshl f => s.elementwise e f [f.d, f.a, f.b] (e.fn2 f (fun a b => plain (numShl a b)))
  | .vshr f => s.elementwise e f [f.d, f.a, f.b] (e.fn2 f (fun a b => plain (numShr a b)))
  | .vclamp f => s.elementwise e f [f.d, f.a, f.b, f.c] (e.fn3 f (fun a b c => plain (numMin (numMax a b) c)))
  | .vreds f => s.reduceRows e f [f.d, f.a] (e.sumRow f)
  | .vredm f => s.reduceRows e f [f.d, f.a] (e.extremeRow f)
  | .vscan f => s.scanWork e f
  | .vbcast f => s.elementwise e f [f.d] (fun _ _ _ x => (.raw (e.x.toNat % 2 ^ (8 * tWidth (e.ten f.d))) 0, x))
  | .viota f => s.elementwise e f [f.d] (fun _ _ m x => (.num (.int (signExt e.x.toNat 64 + m)), x))
  | .vdot f => s.reduceRows e f [f.d, f.a, f.b] (e.dotRow f)
  | .vscale f =>
    let k := min (max (signExt e.x.toNat 64) (-512)) 512
    s.elementwise e f [f.d, f.a] (e.fn1 f (fun a => plain (.val (a.toVal.quiet.scale k))))
  | .vred4 f => s.red4Work e f
  | _ => (s, {})

/-! The instructions. -/

/-- VADD (R173). -/
def execVadd (f : G64) (s : State) : Host.Outcome State Fault Refusal := .next (s.vecIssue f (.vadd f) [f.d, f.a, f.b] allAlike)
/-- VSUB (R173). -/
def execVsub (f : G64) (s : State) : Host.Outcome State Fault Refusal := .next (s.vecIssue f (.vsub f) [f.d, f.a, f.b] allAlike)
/-- VMUL (R173). -/
def execVmul (f : G64) (s : State) : Host.Outcome State Fault Refusal := .next (s.vecIssue f (.vmul f) [f.d, f.a, f.b] allAlike)
/-- VFMA (R173). -/
def execVfma (f : G64) (s : State) : Host.Outcome State Fault Refusal :=
  .next (s.vecIssue f (.vfma f) [f.d, f.a, f.b, f.c] allAlike)
/-- VMIN (R173). -/
def execVmin (f : G64) (s : State) : Host.Outcome State Fault Refusal := .next (s.vecIssue f (.vmin f) [f.d, f.a, f.b] allAlike)
/-- VMAX (R173). -/
def execVmax (f : G64) (s : State) : Host.Outcome State Fault Refusal := .next (s.vecIssue f (.vmax f) [f.d, f.a, f.b] allAlike)
/-- VABS (R173, R174). -/
def execVabs (f : G64) (s : State) : Host.Outcome State Fault Refusal := .next (s.vecIssue f (.vabs f) [f.d, f.a] allAlike)
/-- VNEG (R173, R174). -/
def execVneg (f : G64) (s : State) : Host.Outcome State Fault Refusal := .next (s.vecIssue f (.vneg f) [f.d, f.a] allAlike)
/-- VCPY: one format (R175). -/
def execVcpy (f : G64) (s : State) : Host.Outcome State Fault Refusal :=
  .next (s.vecIssue f (.vcpy f) [f.d, f.a] (fun es => (es.map tFmt).eraseDups.length == 1))
/-- VCVT: any formats (R173). -/
def execVcvt (f : G64) (s : State) : Host.Outcome State Fault Refusal := .next (s.vecIssue f (.vcvt f) [f.d, f.a] (fun _ => true))
/-- VSRND: floating, with .z16 words (R176). -/
def execVsrnd (f : G64) (s : State) : Host.Outcome State Fault Refusal :=
  .next (s.vecIssue f (.vsrnd f) [f.d, f.a, f.b] (fun es => allFloat (es.take 2) && (es.drop 2).all (fun e => tFmt e == 5)))
/-- VRCP (R177). -/
def execVrcp (f : G64) (s : State) : Host.Outcome State Fault Refusal := .next (s.vecIssue f (.vrcp f) [f.d, f.a] allFloat)
/-- VRSQ (R177). -/
def execVrsq (f : G64) (s : State) : Host.Outcome State Fault Refusal := .next (s.vecIssue f (.vrsq f) [f.d, f.a] allFloat)
/-- VSQRT (R177). -/
def execVsqrt (f : G64) (s : State) : Host.Outcome State Fault Refusal := .next (s.vecIssue f (.vsqrt f) [f.d, f.a] allFloat)
/-- VEXP2 (R177). -/
def execVexp2 (f : G64) (s : State) : Host.Outcome State Fault Refusal := .next (s.vecIssue f (.vexp2 f) [f.d, f.a] allFloat)
/-- VLOG2 (R177). -/
def execVlog2 (f : G64) (s : State) : Host.Outcome State Fault Refusal := .next (s.vecIssue f (.vlog2 f) [f.d, f.a] allFloat)
/-- VPWL: the table is .f32 with a shape of its own (R179). -/
def execVpwl (f : G64) (s : State) : Host.Outcome State Fault Refusal :=
  .next (s.enqueue (formG f) (.vpwl f) (fun t => t.vecCheck [f.d, f.a, f.b]
    (fun es => allFloat (es.take 2) && (es.drop 2).all (fun e => tFmt e == 8))
    (fun es => sourcesFit (es.take 2) && (es.drop 2).all tableShape) 0))
/-- VCMP: sources alike, an integer destination (R180). -/
def execVcmp (f : G64) (s : State) : Host.Outcome State Fault Refusal :=
  .next (s.vecIssue f (.vcmp f) [f.d, f.a, f.b] (fun es => allAlike (es.drop 1) && allInt (es.take 1)))
/-- VSEL: one format that is not .bz8, and an integer selector (R175). -/
def execVsel (f : G64) (s : State) : Host.Outcome State Fault Refusal :=
  .next (s.vecIssue f (.vsel f) [f.d, f.a, f.b, f.c] (fun es =>
    ((es.take 3).map tFmt).eraseDups.length == 1 && (es.take 3).all (fun e => tFmt e != 13) && allInt (es.drop 3)))
/-- VAND (R181). -/
def execVand (f : G64) (s : State) : Host.Outcome State Fault Refusal := .next (s.vecIssue f (.vand f) [f.d, f.a, f.b] allInt)
/-- VOR (R181). -/
def execVor (f : G64) (s : State) : Host.Outcome State Fault Refusal := .next (s.vecIssue f (.vor f) [f.d, f.a, f.b] allInt)
/-- VXOR (R181). -/
def execVxor (f : G64) (s : State) : Host.Outcome State Fault Refusal := .next (s.vecIssue f (.vxor f) [f.d, f.a, f.b] allInt)
/-- VSHL (R181). -/
def execVshl (f : G64) (s : State) : Host.Outcome State Fault Refusal := .next (s.vecIssue f (.vshl f) [f.d, f.a, f.b] allInt)
/-- VSHR (R181). -/
def execVshr (f : G64) (s : State) : Host.Outcome State Fault Refusal := .next (s.vecIssue f (.vshr f) [f.d, f.a, f.b] allInt)
/-- VCLAMP (R173). -/
def execVclamp (f : G64) (s : State) : Host.Outcome State Fault Refusal :=
  .next (s.vecIssue f (.vclamp f) [f.d, f.a, f.b, f.c] allAlike)

/-- The shapes of a reduction: D has one element for each row of A; B broadcasts to A (R182, R184). -/
def reduceShapes (es : List Word512) : Bool :=
  match es with
  | d :: a :: rest => rowShape a d && rest.all (fitsShape a)
  | _ => true

/-- VREDS (R182). -/
def execVreds (f : G64) (s : State) : Host.Outcome State Fault Refusal :=
  .next (s.enqueue (formG f) (.vreds f) (fun t => t.vecCheck [f.d, f.a] allAlike reduceShapes 0))
/-- VREDM (R183). -/
def execVredm (f : G64) (s : State) : Host.Outcome State Fault Refusal :=
  .next (s.enqueue (formG f) (.vredm f) (fun t => t.vecCheck [f.d, f.a] allAlike reduceShapes 0))
/-- VDOT (R184). -/
def execVdot (f : G64) (s : State) : Host.Outcome State Fault Refusal :=
  .next (s.enqueue (formG f) (.vdot f) (fun t => t.vecCheck [f.d, f.a, f.b] allAlike reduceShapes 0))

/-- VSCAN: head flags .z8 of A's shape, the carry .f32 or .s64 with one element for each row (R167, R185). -/
def execVscan (f : G64) (s : State) : Host.Outcome State Fault Refusal :=
  .next (s.enqueue (formG f) (.vscan f) (fun t => t.vecCheck (scanIds f)
    (fun es =>
      let a := es.getD 1 0
      allAlike (es.take 2) && (!(f.opt.getLsbD 0) || tFmt (t.tensor f.b.toNat) == 4) &&
      (!(f.opt.getLsbD 1) || tFmt (t.tensor f.c.toNat) == (if isFloat (tFmt a) then 8 else 3)))
    (fun es =>
      let a := es.getD 1 0
      sameShape a (es.getD 0 0) && (!(f.opt.getLsbD 0) || sameShape a (t.tensor f.b.toNat)) &&
      (!(f.opt.getLsbD 1) || rowShape a (t.tensor f.c.toNat))) 0))

/-- VBCAST: any format but .bz8 (R175). -/
def execVbcast (f : G64) (s : State) : Host.Outcome State Fault Refusal :=
  .next (s.enqueue (formG f) (.vbcast f) (fun t =>
    t.vecCheck [f.d] (fun es => es.all (fun e => tFmt e != 13)) (fun _ => true) (t.readOp f.a f.da)))
/-- VIOTA (R173). -/
def execViota (f : G64) (s : State) : Host.Outcome State Fault Refusal :=
  .next (s.enqueue (formG f) (.viota f) (fun t => t.vecCheck [f.d] (fun _ => true) (fun _ => true) (t.readOp f.a f.da)))
/-- VSCALE (R173). -/
def execVscale (f : G64) (s : State) : Host.Outcome State Fault Refusal :=
  .next (s.enqueue (formG f) (.vscale f) (fun t => t.vecCheck [f.d, f.a] allFloat sourcesFit (t.readOp f.b f.db)))

/-- VRED4: both .f32 or both .s32, four elements for each of at most 256 (R79); illegal while a loop is active (R77). -/
def execVred4 (f : G64) (s : State) : Host.Outcome State Fault Refusal :=
  .next (s.enqueue (formG f) (.vred4 f) (fun t =>
    if t.k.loop.running then .error Stop.illegal
    else t.vecCheck [f.d, f.a] (fun es => es.all (fun e => tFmt e == 8) || es.all (fun e => tFmt e == 2))
      (fun es => decide (1 ≤ tCount (es.getD 0 0)) && decide (tCount (es.getD 0 0) ≤ 256) &&
        tCount (es.getD 1 0) == 4 * tCount (es.getD 0 0)) 0))

end Sys2Proof.Machine
end

