-- ==== Sys2Proof/Machine/Matrix.lean ====
section
/-! DEFINITION. Matrix instructions: the Crown (R302, R303, R311 to R313), the Bezel (R304, R314, R321 to R323), MMA by chunks
(R109 to R112, R315 to R320) and MWAIT (R325). -/

namespace Sys2Proof.Machine

/-! The Crown and the Bezel of the core in focus. -/

/-- A byte of the Crown quarter, by row and column (R302). -/
def State.crownByte (s : State) (r j : Nat) : Nat := (Mem.get s.k.crown (256 * r + j)).toNat
def State.setCrown (s : State) (r j v : Nat) : State :=
  { s with k := { s.k with crown := Mem.set s.k.crown (256 * r + j) (BitVec.ofNat 8 v) } }

/-- An element of the Bezel quarter (R304). -/
def State.bezelAt (s : State) (i j : Nat) : Nat := (Tbl.getD s.k.bezel (256 * i + j) 0).toNat
def State.setBezel (s : State) (i j v : Nat) : State :=
  let x : BitVec 32 := BitVec.ofNat 32 v
  { s with k := { s.k with
      bezel := if x = 0 then Tbl.del s.k.bezel (256 * i + j) else Tbl.put s.k.bezel (256 * i + j) x } }

/-- Rows that K elements of a format take (R311). -/
def crownRows (fmt : BitVec 4) (n : Nat) : Nat :=
  if fmt = 13 then 136 * ((n + 127) / 128) else if tyBytes fmt = 2 then 2 * n else n

/-- The row of element k below the origin (R303). -/
def crownRow (fmt : BitVec 4) (k : Nat) : Nat := if tyBytes fmt = 2 then 2 * k else innerOffset fmt k

/-- Rows at which an operand of a format may start (R311). -/
def crownAlign (fmt : BitVec 4) : Nat := if fmt = 13 then 136 else tyBytes fmt

/-- An operand of K extent `n` fits at an origin (R311). -/
def crownFits (fmt : BitVec 4) (o n : Nat) : Bool :=
  decide (1 ≤ n) && o % crownAlign fmt == 0 && decide (o + crownRows fmt n ≤ 6144)

/-- The formats of a B operand (R311). -/
def crownFormat (fmt : BitVec 4) : Bool := [0, 9, 10, 11, 12, 13].contains fmt.toNat

/-- Bits of an element in the Crown (R303). -/
def State.crownRaw (s : State) (fmt : BitVec 4) (o k j : Nat) : Nat :=
  let r := o + crownRow fmt k
  s.crownByte r j + (if tyBytes fmt = 2 then 256 * s.crownByte (r + 1) j else 0)

/-- The delta of a .bz8 element in the Crown (R303). -/
def State.crownDelta (s : State) (o k j : Nat) : Nat :=
  let t : Tuple := { i0 := k }
  s.crownByte (o + 136 * (k / 128) + 128 + k % 128 / 16) j / 2 ^ deltaShift t % 16

/-- Bits of an element written into the Crown. -/
def State.putCrown (s : State) (fmt : BitVec 4) (o k j x : Nat) : State :=
  let r := o + crownRow fmt k
  let s1 := s.setCrown r j x
  if tyBytes fmt = 2 then s1.setCrown (r + 1) j (x / 256) else s1

/-- A delta byte of a .bz8 row of a tensor; outside the buffer it is not read (R92). (DEDUCED, log 20.) -/
def State.deltaByte (s : State) (e : Word512) (t : Tuple) : Nat :=
  if inBuf e (deltaAddr e t) 1 then (Mem.get s.k.localMem (deltaAddr e t).toNat).toNat else 0

/-- One column of MFILL (R312), `view` being the state that a row's quantum reads. -/
def State.fillColumn (s : State) (view : Nat → State) (e : Word512) (o j : Nat) : State :=
  let fmt := tFmt e
  let n := tSize e 0
  let s1 := (upFrom 0 n).foldl (fun acc k =>
    acc.putCrown fmt o k j ((view (crownRow fmt k)).elemRaw e { i0 := k, i1 := j })) s
  if fmt = 13 then
    let segs := (n + 127) / 128
    let s2 := (upFrom 0 (8 * segs)).foldl (fun acc x =>
      let row := 136 * (x / 8) + 128 + x % 8
      acc.setCrown (o + row) j ((view row).deltaByte e { i0 := 128 * (x / 8) + 16 * (x % 8), i1 := j })) s1
    (upFrom n (128 * segs - n)).foldl (fun acc k => acc.setCrown (o + crownRow fmt k) j 0) s2
  else s1

/-- MFILL's work (R312). -/
def State.fillWork (s : State) (e : Entry) (f : G64) : State × EntryResult :=
  let t := e.ten f.a
  match boundsFault t with
  | some a => s.boundsResult a
  | none =>
    let views := e.views s
    ((upFrom 0 (tSize t 1)).foldl (fun acc j => acc.fillColumn (fun r => views.getD (r / 128) s) t e.x.toNat j) s, {})

/-- The one of a format (R313). -/
def patOne (ty : BitVec 4) : Nat :=
  match ty.toNat with
  | 0 => 0x01 | 9 => 0x3F80 | 10 => 0x3C00 | 11 => 0x38 | _ => 0x3C

/-- The patterns of MPAT (R313). -/
def patSet (c : Nat) (k j : Nat) : Bool :=
  match c with
  | 0 => k == j
  | 1 => decide (k ≤ j)
  | 2 => decide (k < j)
  | _ => true

/-- MPAT's work (R313). -/
def State.patternWork (s : State) (e : Entry) (f : G64) : State × EntryResult :=
  ((upFrom 0 e.y.toNat).foldl (fun acc k => (upFrom 0 256).foldl (fun acc1 j =>
    acc1.putCrown f.ty e.x.toNat k j (if patSet f.c.toNat k j then patOne f.ty else 0)) acc) s, {})

/-- MZERO's work (R314). -/
def State.zeroWork (s : State) (e : Entry) : State × EntryResult :=
  let lo := 256 * e.x.toNat
  let hi := lo + 256 * e.y.toNat
  ({ s with k := { s.k with bezel := s.k.bezel.filter (fun p => decide (p.1 < lo) || decide (hi ≤ p.1)) } }, {})

/-- MDRAIN's element (R321): .f32 bits unchanged, otherwise one rounding. (DEDUCED, log 19.) -/
def drainOut (fmt : BitVec 4) (x : Nat) : Out := if fmt = 8 then .raw x 0 else .num (.val ((fmtOf 8).decode x))

/-- MDRAIN's work (R321). -/
def State.drainWork (s : State) (e : Entry) (f : G64) : State × EntryResult :=
  let d := e.ten f.d
  match boundsFault d with
  | some a => s.boundsResult a
  | none =>
    let row := e.x.toNat
    let os := (upFrom 0 (tCount d)).map (fun m =>
      let t := tupleOf d m
      (t, drainOut (tFmt d) (s.bezelAt (row + t.i1) t.i0)))
    let a := s.acc.write d f.md f.sat os
    let s1 := if f.opt.getLsbD 0 then os.foldl (fun acc p => acc.setBezel (row + p.1.i1) p.1.i0 0) a.s else a.s
    Acc.done { a with s := s1 } [a.zs f.d.toNat true]

/-- MLOADB's element: its .f32 bits (R322). -/
def State.loadOut (s : State) (e : Word512) (f : G64) (t : Tuple) (u : Fpu) : Nat × Fpu :=
  let fmt := tFmt e
  let v := (s.elemNum e false t).toVal
  if fmt = 8 then (s.elemRaw e t, u)
  else if fmt = 13 then
    let r := (fmtOf 8).roundWord 0 f.sat 0 v
    (r.1, u.raise r.2)
  else if isFloat fmt then ((fmtOf 8).exact v, u)
  else (fmtOf 8).round f.md f.sat v u

/-- MLOADB's work (R322). -/
def State.loadBezelWork (s : State) (e : Entry) (f : G64) : State × EntryResult :=
  let a := e.ten f.a
  match boundsFault a with
  | some x => s.boundsResult x
  | none =>
    let views := e.views s
    let r := (upFrom 0 (tCount a)).foldl (fun (acc : State × Fpu) m =>
      let t := tupleOf a m
      let v := (views.getD (t.i1 / 128) s).loadOut a f t acc.2
      (acc.1.setBezel (e.x.toNat + t.i1) t.i0 v.1, v.2)) (s, s.acc.e)
    Acc.done { s := r.1, e := r.2 } []

/-- MSCL's work (R323). -/
def State.scaleWork (s : State) (e : Entry) (f : G64) : State × EntryResult :=
  let a := e.ten f.a
  match boundsFault a with
  | some x => s.boundsResult x
  | none =>
    let views := e.views s
    let r := (upFrom 0 (tSize a 0 * 256)).foldl (fun (acc : State × Fpu) m =>
      let i := m / 256
      let j := m % 256
      let factor := ((views.getD (i / 128) s).elemNum a false { i0 := i }).toVal
      let p := ((fmtOf 8).decode (acc.1.bezelAt (e.x.toNat + i) j)).mul factor
      let v := (fmtOf 8).round f.md f.sat p.1 (acc.2.raise p.2)
      (acc.1.setBezel (e.x.toNat + i) j v.1, v.2)) (s, s.acc.e)
    Acc.done { s := r.1, e := r.2 } []

/-! Chunks (R109 to R112). -/

/-- Val(A, i, k): flushed; a .bz8 element times 2^d (R109, R317). -/
def State.valA (s : State) (p : MatOps) (i k : Nat) : Val :=
  let t : Tuple := { i0 := k, i1 := i }
  (numOf (tFmt p.a) (s.elemDelta p.a t) true (s.elemRaw p.a t)).toVal

/-- Val(B, k, j), from the Crown (R109, R317). -/
def State.valB (s : State) (p : MatOps) (k j : Nat) : Val :=
  (numOf (tFmt p.b) (s.crownDelta p.o k j) true (s.crownRaw (tFmt p.b) p.o k j)).toVal

/-- The base exponents of both operands (R109). -/
def MatOps.base (p : MatOps) : Int :=
  (if tFmt p.a = 13 then tBexp p.a else 0) + (if tFmt p.b = 13 then tBexp p.b else 0)

/-- The exact sum of finite values; an exact zero is +0 (R109). -/
def sumVals (vs : List Val) : Val := vs.foldl (fun acc v => (Val.add 0 acc v).1) (.fin false 0 0)

/-- A finite value truncated toward zero to a multiple of 2^q, and whether bits were lost (R111). -/
def truncTo (q : Int) (v : Val) : Val × Bool :=
  match v with
  | .fin neg mag exp =>
    let r := roundUnits 1 0 neg mag exp q
    if q ≤ exp then (v, false) else (.fin neg r.1 q, r.2)
  | v => (v, false)

/-- Window(P) over the products of a chunk of 16-bit operands (R111). -/
def windowSum (ps : List Val) : Val × Bool :=
  let tops := ps.filterMap (fun v => match v with | .fin _ 0 _ => none | .fin _ m e => some (topBit m e) | _ => none)
  match tops with
  | [] => (.fin false 0 0, false)
  | t :: ts =>
    let q := ts.foldl max t - 63
    let cut := ps.map (truncTo q)
    (sumVals (cut.map (fun p => p.1)), cut.any (fun p => p.2))

/-- One rounding by .rne under .ovf (R109). -/
def roundPlain (v : Val × Word) (flags : Word) : Val × Word :=
  let r := (fmtOf 8).roundWord 0 false 0 v.1
  ((fmtOf 8).decode r.1, flags ||| v.2 ||| r.2)

/-- The value of a chunk before its scales (R109 to R112). -/
def chunkValue (wide : Bool) (base : Int) (xs : List (Val × Val)) : Val × Word :=
  let ps := xs.map (fun p => p.1.mul p.2)
  let nv := ps.any (fun p => p.2 != 0)
  let vals := ps.map (fun p => p.1)
  let plus := vals.any (fun v => v == .inf false)
  let minus := vals.any (fun v => v == .inf true)
  if nv || xs.any (fun p => p.1.isNan || p.2.isNan) then (.nan false, if nv then flagNV else 0)
  else if plus && minus then (.nan false, flagNV)
  else if plus || minus then (.inf minus, 0)
  else if wide then
    let w := windowSum vals
    roundPlain (w.1.scale base, if w.2 then flagNX else 0) 0
  else roundPlain ((sumVals vals).scale base, 0) 0

/-- Scale factors of a chunk: of a row of A and of a tile of B (R316), in local memory as the array holds its bytes. -/
def State.scaleOf (s : State) (e : Entry) (owner : Word512) (c x : Nat) : Option Val :=
  if tScv owner then some (s.elemNum (Tbl.getD e.tens (tScaleId owner) 0) false { i0 := c, i1 := x }).toVal else none

/-- A multiplication by a scale, where there is one (R109). -/
def scaleStep (sc : Option Val) (v : Val × Word) : Val × Word :=
  match sc with
  | some x => roundPlain (v.1.mul x) v.2
  | none => v

/-- Chunk `c` applied to Bezel(i, j) (R109): the new element and flags; `half` is what the first half of its K-steps read, where
that was a quantum of its own (R297). -/
def State.chunkAt (s half : State) (e : Entry) (p : MatOps) (c i j : Nat) : Nat × Word :=
  let early := fun (k : Nat) => decide (k < 128 * c + 64)
  let v0 := chunkValue (tyBytes (tFmt p.a) == 2) p.base
    ((p.steps c).map (fun k => ((if early k then half else s).valA p i k, s.valB p k j)))
  let v1 := scaleStep (s.scaleOf e p.a c i) v0
  let v2 := scaleStep (s.scaleOf e p.b c (j / 128)) v1
  let sum := Val.add 0 ((fmtOf 8).decode (s.bezelAt i j)) v2.1
  let r := (fmtOf 8).roundWord 0 false 0 sum.1
  (r.1, v2.2 ||| sum.2 ||| r.2)

/-- A chunk applied to every element of the rows that take it (R317, R335): the flags it sets. -/
def State.applyChunk (s half : State) (e : Entry) (p : MatOps) (c : Nat) (keep : Nat → Bool) : State × Word :=
  (upFrom 0 (p.m * p.n)).foldl (fun (acc : State × Word) x =>
    let i := x / p.n
    let j := x % p.n
    if keep i then
      let r := s.chunkAt half e p c i j
      (acc.1.setBezel i j r.1, acc.2 ||| r.2)
    else acc) (s, 0)

/-! Checks at issue (R309, R315, R316). -/

/-- The admitted pairs of formats (R315). -/
def pairOk (a b : BitVec 4) : Bool :=
  let eight := fun (x : BitVec 4) => x == 11 || x == 12 || x == 13
  (eight a && eight b) || (a == b && (a == 0 || a == 9 || a == 10))

/-- The scale entries that a pair names (R316). -/
def scaleIds (a b : Word512) : List Nat :=
  (if tScv a then [tScaleId a] else []) ++ (if tScv b then [tScaleId b] else [])

/-- Shapes of the two operands and the place of B in the Crown (R315). -/
def productShape (p : MatOps) (most : Nat) : Bool :=
  decide (tRank p.a ≤ 2) && decide (tRank p.b ≤ 2) && decide (1 ≤ p.k) && decide (p.k ≤ most) && decide (1 ≤ p.m) &&
  decide (p.m ≤ 256) && tSize p.b 0 == p.k && decide (1 ≤ p.n) && decide (p.n ≤ 256) && crownFits (tFmt p.b) p.o p.k

/-- The shape of a scale entry (R316). -/
def scaleShape (e : Word512) (n0 n1 : Nat) : Bool :=
  tSize e 0 == n0 && tSize e 1 == n1 && tSize e 2 == 1 && tSize e 3 == 1

/-- The checks of MMA and MMAK (R309, R315, R316). -/
def State.productCheck (s : State) (ida idb : BitVec 6) (o : Word) (most : Nat) : Except Stop Entry := do
  let p : MatOps := { a := s.tensor ida.toNat, b := s.tensor idb.toNat, o := o.toNat }
  let sc := scaleIds p.a p.b
  need (usableLocal p.a && tRank p.b != 0 && sc.all (fun i => usableLocal (s.tensor i))) causeRecord
  need (pairOk (tFmt p.a) (tFmt p.b) && sc.all (fun i => tFmt (s.tensor i) == 8)) causeFormat
  need (productShape p most && (!(tScv p.a) || scaleShape (s.tensor (tScaleId p.a)) p.chunks p.m) &&
    (!(tScv p.b) || scaleShape (s.tensor (tScaleId p.b)) p.chunks ((p.n + 127) / 128))) causeShape
  .ok (Entry.of (s.captured (ida.toNat :: idb.toNat :: sc)) o 0)

/-- Rank 1 or 2 with both sizes from 1 to 256: a tensor that MDRAIN or MLOADB walks beside Bezel rows (R321). -/
def bezelShape (e : Word512) (row : Word) : Bool :=
  decide (tRank e ≤ 2) && decide (1 ≤ tSize e 0) && decide (tSize e 0 ≤ 256) && decide (1 ≤ tSize e 1) &&
  decide (row.toNat + tSize e 1 ≤ 256)

/-- MFILL (R312). -/
def execMfill (f : G64) (s : State) : Host.Outcome State Fault Refusal :=
  .next (s.enqueue (formG f) (.mfill f) (fun t => do
    let a := t.tensor f.a.toNat
    let o := t.readOp f.b f.db
    need (usableLocal a) causeRecord
    need (crownFormat (tFmt a)) causeFormat
    need (decide (tRank a ≤ 2) && decide (1 ≤ tSize a 1) && decide (tSize a 1 ≤ 256) &&
      crownFits (tFmt a) o.toNat (tSize a 0)) causeShape
    .ok (Entry.of (t.captured [f.a.toNat]) o 0)))

/-- MPAT (R313). -/
def execMpat (f : G64) (s : State) : Host.Outcome State Fault Refusal :=
  .next (s.enqueue (formG f) (.mpat f) (fun t => do
    let o := t.readOp f.a f.da
    let n := t.readOp f.b f.db
    need (crownFits f.ty o.toNat n.toNat) causeShape
    .ok (Entry.of [] o n)))

/-- MZERO (R314). -/
def execMzero (f : G64) (s : State) : Host.Outcome State Fault Refusal :=
  .next (s.enqueue (formG f) (.mzero f) (fun t => do
    let a := t.readOp f.a f.da
    let m := t.readOp f.b f.db
    need (decide (1 ≤ m.toNat) && decide (a.toNat + m.toNat ≤ 256)) causeShape
    .ok (Entry.of [] a m)))

/-- MMA (R315 to R317). -/
def execMma (f : G64) (s : State) : Host.Outcome State Fault Refusal :=
  .next (s.enqueue (formG f) (.mma f) (fun t => t.productCheck f.a f.b (t.readOp f.c f.dc) 6144))

/-- MDRAIN (R321). -/
def execMdrain (f : G64) (s : State) : Host.Outcome State Fault Refusal :=
  .next (s.enqueue (formG f) (.mdrain f) (fun t => do
    let row := t.readOp f.a f.da
    need (usableLocal (t.tensor f.d.toNat)) causeRecord
    need (bezelShape (t.tensor f.d.toNat) row) causeShape
    .ok (Entry.of (t.captured [f.d.toNat]) row 0)))

/-- MLOADB (R322). -/
def execMloadb (f : G64) (s : State) : Host.Outcome State Fault Refusal :=
  .next (s.enqueue (formG f) (.mloadb f) (fun t => do
    let row := t.readOp f.b f.db
    need (usableLocal (t.tensor f.a.toNat)) causeRecord
    need (bezelShape (t.tensor f.a.toNat) row) causeShape
    .ok (Entry.of (t.captured [f.a.toNat]) row 0)))

/-- MSCL (R323). -/
def execMscl (f : G64) (s : State) : Host.Outcome State Fault Refusal :=
  .next (s.enqueue (formG f) (.mscl f) (fun t => do
    let a := t.tensor f.a.toNat
    let row := t.readOp f.b f.db
    need (usableLocal a) causeRecord
    need (tFmt a == 8) causeFormat
    need (tRank a == 1 && decide (1 ≤ tSize a 0) && decide (tSize a 0 ≤ 256) && decide (row.toNat + tSize a 0 ≤ 256)) causeShape
    .ok (Entry.of (t.captured [f.a.toNat]) row 0)))

/-- MWAIT: at most `n` entries that issued before it remain; in a body, of those not released, the iteration's own (R325). -/
def execMwait (f : G64) (s : State) : Host.Outcome State Fault Refusal :=
  .next (s.issue (metaC (formG f) false) (fun t =>
    if t.k.mvuq.length + t.ownHeld ≤ f.c.toNat then .ok t else .error (.hold .condition)))

end Sys2Proof.Machine
end

