-- ==== Sys2Proof/Machine/Facet.lean ====
section
/-! DEFINITION. Facet instructions: SCOUT (R330, R331), KSEL (R332, R333), mask logic (R334) and MMAK (R335 to R337). -/

namespace Sys2Proof.Machine

/-- A facet mask (R327). -/
def State.mask (s : State) (i : Nat) : MaskWord := s.k.masks.getD i 0

/-- A facet mask written. -/
def State.setMask (s : State) (i : Nat) (v : MaskWord) : State :=
  { s with k := { s.k with masks := s.k.masks.setIfInBounds i v } }

/-- The three most significant significand bits, truncated (R331). -/
def tr3 (v : Val) : Val :=
  match v with
  | .fin neg mag exp =>
    let n := Nat.log2 mag
    if n < 3 then v else .fin neg (mag / 2 ^ (n - 2)) (exp + (n - 2 : Nat))
  | v => v

/-- The operands of a SCOUT entry: origin in bits 12 to 0 of C (R330). -/
def Entry.scoutOps (e : Entry) (f : G64) : MatOps := { a := e.ten f.a, b := e.ten f.b, o := bits e.x 0 13 }

/-- One score of SCOUT, `view` being the state that the quantum of a K-step reads; none stands for +∞ (R299, R331). -/
def State.score (s : State) (view : Nat → State) (p : MatOps) (i j : Nat) : Option Val :=
  let xs := (upFrom 0 p.k).map (fun k => ((view k).valA p i k, s.valB p k j))
  let odd := fun (v : Val) => match v with | .fin .. => false | _ => true
  if xs.any (fun x => odd x.1 || odd x.2) then none
  else some ((sumVals (xs.map (fun x => ((tr3 x.1).mul (tr3 x.2)).1))).scale p.base)

/-- The greater score. -/
def bestScore (a b : Option Val) : Option Val :=
  match a, b with
  | some x, some y => if x.lt y then some y else some x
  | _, _ => none

/-- The scout code of row `i` and key tile `q` (R331). -/
def State.scoutCode (s : State) (view : Nat → State) (p : MatOps) (i q : Nat) : Nat :=
  let js := upFrom (128 * q) (min 128 (p.n - 128 * q))
  match js.foldl (fun acc j => bestScore acc (s.score view p i j)) (some (.inf true)) with
  | none => 0x7F80
  | some v => ((fmtOf 9).roundWord 1 true 0 v).1

/-- SCOUT's work (R331): it writes only some elements of its tensor unless its codes cover every column. -/
def State.scoutWork (s : State) (e : Entry) (f : G64) : State × EntryResult :=
  let d := e.ten f.d
  let p := e.scoutOps f
  let c0 := bits e.x 16 5
  let tiles := (p.n + 127) / 128
  let cells := (upFrom 0 (p.m * tiles)).map (fun x => (x / tiles, x % tiles))
  let outside := if tMode d = 1 then none
    else (cells.find? (fun c => !(elemIn d { i0 := c0 + c.2, i1 := c.1 }))).map
      (fun c => elemAddr d { i0 := c0 + c.2, i1 := c.1 })
  match outside.or (if e.zs then none else boundsFault p.a) with
  | some a => s.boundsResult a
  | none =>
    let views := e.views s
    let r := cells.foldl (fun (acc : Acc) c =>
      acc.put d { i0 := c0 + c.2, i1 := c.1 } (if e.zs then 0 else s.scoutCode (fun k => views.getD (k / 512) s) p c.1 c.2)) s.acc
    r.done [r.zs f.d.toNat (c0 == 0 && tiles == tSize d 0)]

/-- A value that KSEL compares: a NaN counts as +∞ (R333). -/
def kselValue (n : Num) : Val := if n.toVal.isNan then .inf false else n.toVal

/-- x ≥ y on exact values. -/
def Val.ge (x y : Val) : Bool := y.lt x || y.eqv x

/-- Whether a code is kept: mode 0 is relative to the row's greatest (R333). -/
def kept (mode : Nat) (theta m x : Val) : Bool :=
  if theta.isNan then true
  else if mode = 0 then
    let d := Val.add 0 m theta.neg
    d.1.isNan || x.ge d.1
  else x.ge theta

/-- KSEL's work (R333). -/
def State.kselWork (s : State) (e : Entry) (f : G64) : State × EntryResult :=
  let a := e.ten f.a
  match boundsFault a with
  | some x => s.boundsResult x
  | none =>
    let theta := f32Of e.x
    let nc := tSize a 0
    let mask := (upFrom 0 (tSize a 1)).foldl (fun (acc : MaskWord) i =>
      let xs := (upFrom 0 nc).map (fun c => kselValue (s.elemNum a true { i0 := c, i1 := i }))
      let m := xs.foldl (fun (b : Val) x => if b.lt x then x else b) (.inf true)
      (upFrom 0 nc).foldl (fun (acc1 : MaskWord) c =>
        if kept f.c.toNat theta m (xs.getD c (.inf true)) then setBits acc1 (32 * (i / 32) + c) 1 1 else acc1) acc) 0
    (s.setMask f.d.toNat mask, {})

/-- The live chunks of an MMAK (R335). -/
def liveChunks (p : MatOps) (m : MaskWord) : List Nat :=
  (upFrom 0 p.chunks).filter (fun c => (upFrom 0 ((p.m + 31) / 32)).any (fun u => tileBit m u c))

/-- Bounds of an MMAK: the operand elements of kept tiles, their row scales, and the tile scales (R335). -/
def maskedBounds (e : Entry) (p : MatOps) (m : MaskWord) : Option Int :=
  let first := fun (t : Word512) (ok : Tuple → Bool) =>
    if tMode t = 1 then none
    else ((upFrom 0 (tCount t)).find? (fun x => ok (tupleOf t x) && !(elemIn t (tupleOf t x)))).map
      (fun x => elemAddr t (tupleOf t x))
  let a := first p.a (fun t => rowKept m (t.i0 / 128) t.i1)
  let ra := if tScv p.a then first (Tbl.getD e.tens (tScaleId p.a) 0) (fun t => rowKept m t.i0 t.i1) else none
  let rb := if tScv p.b then first (Tbl.getD e.tens (tScaleId p.b) 0) (fun _ => true) else none
  a.or (ra.or rb)

/-- SCOUT (R330). -/
def execScout (f : G64) (s : State) : Host.Outcome State Fault Refusal :=
  .next (s.enqueue (formG f) (.scout f) (fun t => do
    let c := t.readOp f.c f.dc
    let d := t.tensor f.d.toNat
    let p : MatOps := { a := t.tensor f.a.toNat, b := t.tensor f.b.toNat, o := bits c 0 13 }
    need (usable d (fun _ => true) && usableLocal p.a && tRank p.b != 0) causeRecord
    need (tSpace d == 0 && tFmt d == 9 && pairOk (tFmt p.a) (tFmt p.b)) causeFormat
    need (bits c 13 3 == 0 && bits c 21 43 == 0 && productShape p 6144 && decide (tRank d ≤ 2) && tSize d 1 == p.m &&
      decide (1 ≤ tSize d 0) && decide (tSize d 0 ≤ 32) &&
      decide (bits c 16 5 + (p.n + 127) / 128 ≤ tSize d 0)) causeShape
    .ok (Entry.of (t.captured [f.d.toNat, f.a.toNat, f.b.toNat]) c 0)))

/-- KSEL (R332). -/
def execKsel (f : G64) (s : State) : Host.Outcome State Fault Refusal :=
  .next (s.enqueue (formG f) (.ksel f) (fun t => do
    let a := t.tensor f.a.toNat
    need (usable a (fun _ => true)) causeRecord
    need (tSpace a == 0 && tFmt a == 9) causeFormat
    need (decide (tRank a ≤ 2) && decide (1 ≤ tSize a 0) && decide (tSize a 0 ≤ 32) && decide (1 ≤ tSize a 1) &&
      decide (tSize a 1 ≤ 256)) causeShape
    .ok (Entry.of (t.captured [f.a.toNat]) (t.readOp f.b f.db) 0)))

/-- KAND (R334). -/
def execKand (f : G64) (s : State) : Host.Outcome State Fault Refusal :=
  .next (s.enqueue (formG f) (.kand f) (fun _ => .ok (Entry.of [] 0 0)))
/-- KOR (R334). -/
def execKor (f : G64) (s : State) : Host.Outcome State Fault Refusal :=
  .next (s.enqueue (formG f) (.kor f) (fun _ => .ok (Entry.of [] 0 0)))
/-- KNOT (R334). -/
def execKnot (f : G64) (s : State) : Host.Outcome State Fault Refusal :=
  .next (s.enqueue (formG f) (.knot f) (fun _ => .ok (Entry.of [] 0 0)))
/-- KPOP: its destination is written at its retirement (R334). -/
def execKpop (f : G64) (s : State) : Host.Outcome State Fault Refusal :=
  .next (s.enqueue (formG f) (.kpop f) (fun _ => .ok (Entry.of [] 0 0)))

/-- MMAK: the Crown origin stands in D, and K is at most 4096 (R335). -/
def execMmak (f : G64) (s : State) : Host.Outcome State Fault Refusal :=
  .next (s.enqueue (formG f) (.mmak f) (fun t => t.productCheck f.a f.b (t.readOp f.d 0) 4096))

end Sys2Proof.Machine
end

