-- ==== Sys2Proof/Machine/Quad.lean ====
section
/-! DEFINITION. The quad (R292 to R301): which entry of a core's dispatch queue may start, the arbiters, decision points
(R318, R339), chunks, and retirement in program order (R295). -/

namespace Sys2Proof.Machine

/-- The task part of a core, in focus or not. -/
def State.kernOf (s : State) (core : Nat) : Kern := if core = s.coreNo then s.k else (Tbl.getD s.others core {}).k

/-- The hardware part of a core. -/
def State.hwOf (s : State) (core : Nat) : CoreHw := if core = s.coreNo then s.hw else (Tbl.getD s.others core {}).hw

/-- The resource of an instruction: 0 array, 1 vector datapath, 2 transfer port, 3 the core's own mask unit (R292). -/
def resourceOf : Instr → Nat
  | .mma _ | .mmak _ | .scout _ => 0
  | .mfill _ | .mpat _ | .mzero _ | .mdrain _ | .mloadb _ | .mscl _ => 2
  | .ksel _ | .kand _ | .kor _ | .knot _ | .kpop _ => 3
  | _ => 1

/-- A location of R294: 0 local bytes, 1 Crown rows, 2 Bezel rows, 3 masks; first, and first beyond. -/
structure Place where
  kind : Nat
  lo : Nat
  hi : Nat
  deriving DecidableEq, Repr

/-- Two ranges meet. -/
def Place.meets (p q : Place) : Bool := p.kind == q.kind && decide (p.lo < q.hi) && decide (q.lo < p.hi)

/-- The buffer of a captured local tensor. -/
def bufferPlace (t : Word512) : List Place :=
  if tSpace t = 0 then [{ kind := 0, lo := tBase t, hi := tBase t + tExtent t }] else []

/-- Crown rows of an operand. -/
def crownPlace (fmt : BitVec 4) (o n : Nat) : Place := { kind := 1, lo := o, hi := o + crownRows fmt n }

/-- Locations that an entry writes (R294). -/
def Entry.writes (e : Entry) : List Place :=
  (tensorDest e.instr).flatMap (fun i => bufferPlace (Tbl.getD e.tens i 0)) ++
  (match e.instr with
    | .mfill f => [crownPlace (tFmt (e.ten f.a)) e.x.toNat (tSize (e.ten f.a) 0)]
    | .mpat f => [crownPlace f.ty e.x.toNat e.y.toNat]
    | .mzero _ => [{ kind := 2, lo := e.x.toNat, hi := e.x.toNat + e.y.toNat }]
    | .mma f | .mmak f => [{ kind := 2, lo := 0, hi := (e.ops f.a f.b).m }]
    | .mdrain f =>
      if f.opt.getLsbD 0 then [{ kind := 2, lo := e.x.toNat, hi := e.x.toNat + tSize (e.ten f.d) 1 }] else []
    | .mloadb f => [{ kind := 2, lo := e.x.toNat, hi := e.x.toNat + tSize (e.ten f.a) 1 }]
    | .mscl f => [{ kind := 2, lo := e.x.toNat, hi := e.x.toNat + tSize (e.ten f.a) 0 }]
    | .ksel f | .kand f | .kor f | .knot f => [{ kind := 3, lo := f.d.toNat, hi := f.d.toNat + 1 }]
    | _ => [])

/-- Locations that an entry reads or writes (R294). -/
def Entry.places (e : Entry) : List Place :=
  e.writes ++ e.tens.flatMap (fun t => bufferPlace t.2) ++
  (match e.instr with
    | .mma f => [crownPlace (tFmt (e.ten f.b)) e.x.toNat (tSize (e.ten f.a) 0)]
    | .mmak f => [crownPlace (tFmt (e.ten f.b)) e.x.toNat (tSize (e.ten f.a) 0),
        { kind := 3, lo := f.c.toNat, hi := f.c.toNat + 1 }]
    | .scout f => [crownPlace (tFmt (e.ten f.b)) (bits e.x 0 13) (tSize (e.ten f.a) 0)]
    | .mdrain f => [{ kind := 2, lo := e.x.toNat, hi := e.x.toNat + tSize (e.ten f.d) 1 }]
    | .kand f | .kor f => [{ kind := 3, lo := f.a.toNat, hi := f.a.toNat + 1 }, { kind := 3, lo := f.b.toNat, hi := f.b.toNat + 1 }]
    | .knot f | .kpop f => [{ kind := 3, lo := f.a.toNat, hi := f.a.toNat + 1 }]
    | _ => [])

/-- An earlier executing entry holds an entry back (R294); one with a fault to report holds back every younger one, which
that fault discards (R419). -/
def holdsBack (e x : Entry) : Bool :=
  x.result.fault.isSome ||
  (x.stage == .started && (resourceOf x.instr == resourceOf e.instr ||
    x.writes.any (fun w => e.places.any w.meets) || e.writes.any (fun w => x.places.any w.meets)))

/-- An instruction with a decision point (R318, R339). -/
def hasDecision : Instr → Bool
  | .mma _ | .mmak _ | .scout _ => true
  | _ => false

/-- Held stores of the loop that an entry released from the body comes after (R280). -/
def Kern.storesBefore (k : Kern) (order : Nat) : Bool :=
  let held := (match k.loop.outer with | some l => l.held | none => []) ++
    (match k.loop.inner with | some l => l.held | none => [])
  held.any (fun h => decide (h.order < order))

/-- An entry released from a loop body reads or writes local memory, and so comes after the stores held before it (R280). -/
def Entry.afterStores (e : Entry) : Bool := e.fromLoop && e.tens.any (fun t => tSpace t.2 == 0)

/-- The entry at the head: the oldest unstarted one, if nothing holds it back (R294). (DEDUCED, log 21.) -/
def Kern.head (k : Kern) : Option Entry :=
  match k.mvuq.find? (fun e => e.stage == .waiting) with
  | none => none
  | some e =>
    let earlier := k.mvuq.takeWhile (fun x => x.order != e.order)
    if earlier.any (holdsBack e) || (hasDecision e.instr && !e.decided) || (e.afterStores && k.storesBefore e.order) then none
    else some e

/-- The entry that is executing on a resource. -/
def Kern.running (k : Kern) (res : Nat) : Option Entry :=
  k.mvuq.find? (fun e => e.stage == .started && resourceOf e.instr == res)

/-- A core takes part in a decision of an arbiter (R296): one whose engines are to stop, only with an entry that has yet to
reach its stopping point (R301, R426). -/
def Kern.wants (k : Kern) (stopping array : Bool) (res : Nat) : Bool :=
  (k.running res).any (fun e => !stopping || e.midway array) || (!stopping && k.head.any (fun e => resourceOf e.instr == res))

/-- The engines of a core are to stop: it is being pre-empted, outside a window, and no TDONE is in progress, or a context of it
waits to park (R411, R426, R430). -/
def State.stopping (s : State) (core : Nat) : Bool :=
  let c := if core = s.coreNo then s.ctx else (Tbl.getD s.others core {}).ctx
  let cs := c :: (s.kernOf core).peers
  ((s.hwOf core).preempting.isSome && !((s.kernOf core).window.any (fun w => w.opened)) &&
    !(cs.any (fun x => x.hold == some .done))) || cs.any (fun x => x.hold == some .drain)

/-- A core takes part in a decision, as things stand. -/
def State.wants (s : State) (core res : Nat) : Bool := (s.kernOf core).wants (s.stopping core) (s.hasArray core) res

/-- The arbiter of a resource of a quad. -/
def State.setArbiter (s : State) (key : Nat) (a : Arbiter) : State := { s with arbiters := Tbl.put s.arbiters key a }

/-- Cores of a quad in the round-robin order after the last one granted (R296). -/
def Arbiter.order (a : Arbiter) : List Nat :=
  let first := match a.last with | some p => p + 1 | none => 0
  (upFrom first 4).map (fun p => p % 4)

/-- A grant of a resource (R296): while a core is being pre-empted, its started entry goes first. -/
def State.grantNext (s : State) (key : Nat) : State :=
  let a := s.arbiter key
  let base := key / 4 * 4
  let res := key % 4
  let urgent := a.order.find? (fun p => s.stopping (base + p) && s.wants (base + p) res)
  let pick := urgent.or (a.order.find? (fun p => s.wants (base + p) res))
  s.setArbiter key { last := pick.or a.last, grant := pick }

/-- A quantum ends (R296). -/
def State.endQuantum (s : State) (res : Nat) : State :=
  if res = 3 then s
  else
    let key := arbiterKey s.coreNo res
    s.setArbiter key { s.arbiter key with grant := none }

/-- The resource serves the core in focus: the mask unit is its own. -/
def State.granted (s : State) (res : Nat) : Bool :=
  res == 3 || (s.arbiter (arbiterKey s.coreNo res)).grant == some (s.coreNo % 4)

/-- An entry of the core in focus replaced. -/
def State.setEntry (s : State) (e : Entry) : State :=
  { s with k := { s.k with mvuq := s.k.mvuq.map (fun x => if x.order == e.order then e else x) } }

/-- An entry replaced, in the queue or not yet released. -/
def State.setPosted (s : State) (e : Entry) : State :=
  let t := s.setEntry e
  { t with k := { t.k with unreleased := t.k.unreleased.map (fun u => match u.work with
    | .entry x => if x.order == e.order then { u with work := .entry e } else u
    | _ => u) } }

/-- The work of a mask-unit entry: masks are written whole (R334), and KPOP's count waits for its retirement. -/
def State.maskWork (s : State) (e : Entry) : State × EntryResult :=
  match e.instr with
  | .ksel f => s.kselWork e f
  | .kand f => (s.setMask f.d.toNat (s.mask f.a.toNat &&& s.mask f.b.toNat), {})
  | .kor f => (s.setMask f.d.toNat (s.mask f.a.toNat ||| s.mask f.b.toNat), {})
  | .knot f => (s.setMask f.d.toNat (~~~(s.mask f.a.toNat)), {})
  | .kpop f =>
    let n := ((upFrom 0 256).filter (fun i => (s.mask f.a.toNat).getLsbD i)).length
    (s, { scalar := some (f.d, BitVec.ofNat 64 n) })
  | _ => (s, {})

/-- The work of a transfer-port entry. -/
def State.transferWork (s : State) (e : Entry) : State × EntryResult :=
  match e.instr with
  | .mfill f => s.fillWork e f
  | .mpat f => s.patternWork e f
  | .mzero _ => s.zeroWork e
  | .mdrain f => s.drainWork e f
  | .mloadb f => s.loadBezelWork e f
  | .mscl f => s.scaleWork e f
  | _ => (s, {})

/-- Bounds of an MMA or MMAK: everything it reads in local memory (R310, R335). -/
def productBounds (e : Entry) : Option Int :=
  match e.instr with
  | .mma f =>
    let p := e.ops f.a f.b
    boundsFaults (p.a :: (scaleIds p.a p.b).map (fun i => Tbl.getD e.tens i 0))
  | .mmak f => maskedBounds e (e.ops f.a f.b) e.mask
  | _ => none

/-- An entry finished with its result. -/
def State.finishEntry (s : State) (e : Entry) (r : EntryResult) : State := s.setEntry { e with stage := .finished, result := r }

/-- The work of an entry that is no product. -/
def State.entryWork (s : State) (e : Entry) : State × EntryResult :=
  match e.instr with
  | .scout f => s.scoutWork e f
  | i => if resourceOf i = 3 then s.maskWork e else if resourceOf i = 2 then s.transferWork e else s.vectorWork e

/-- Cycles of the vector datapath (R171). -/
def Entry.vectorCycles (e : Entry) : Nat :=
  let lanes := lanesOf (e.tens.map (fun t => t.2))
  let passes := fun (n : Nat) => (n + lanes - 1) / lanes * e.passCycles
  let rows := fun (a : Word512) (lanes : Nat) =>
    let n := tSize a 0
    let each := max 1 (lanes / n)
    (if n ≤ lanes then (rowCount a + each - 1) / each else rowCount a * ((n + lanes - 1) / lanes)) * e.passCycles + 10
  match e.instr with
  | .vreds f | .vredm f => rows (e.ten f.a) (lanesOf [e.ten f.a])
  | .vdot f => rows (e.ten f.a) (lanesOf [e.ten f.a, e.ten f.b])
  | .vred4 f => passes (tCount (e.ten f.a))
  | _ => passes (tCount e.walked)

/-- Cycles for which an entry that is no product holds its resource: R171; R306, a row a cycle; R331. -/
def Entry.cycles (e : Entry) : Nat :=
  match e.instr with
  | .scout f => if e.zs then 0 else (tSize (e.ten f.a) 0 + 3) / 4
  | .mfill f => crownRows (tFmt (e.ten f.a)) (tSize (e.ten f.a) 0)
  | .mpat f => crownRows f.ty e.y.toNat
  | .mzero _ => e.y.toNat
  | .mdrain f => tSize (e.ten f.d) 1
  | .mloadb f => tSize (e.ten f.a) 1
  | .mscl f => tSize (e.ten f.a) 0
  | .ksel _ | .kand _ | .kor _ | .knot _ | .kpop _ => 1
  | _ => e.vectorCycles

/-! Words of the generator (R98). They are taken in program order: an entry that has words to take reserves them before a later
instruction takes any. -/

/-- The instruction rounds under .sr, with words of the generator (R98). -/
def stochastic : Instr → Bool
  | .vadd f | .vsub f | .vmul f | .vfma f | .vmin f | .vmax f | .vabs f | .vneg f | .vcvt f | .vrcp f | .vrsq f
  | .vsqrt f | .vexp2 f | .vlog2 f | .vpwl f | .vclamp f | .vreds f | .vredm f | .vscan f | .viota f | .vdot f
  | .vscale f | .vred4 f | .mdrain f | .mloadb f | .mscl f => f.md == 4
  | _ => false

/-- An entry has still to reserve its words. -/
def Entry.unreserved (e : Entry) : Bool :=
  e.guard && e.stage == .waiting && e.seed.isNone && stochastic e.instr

/-- Some entry has. -/
def State.seedOwed (s : State) : Bool := s.k.posted.any Entry.unreserved

/-- The generator of the control context set. -/
def State.setSeed (s : State) (w : Word) : State := s.onControl (fun c => { c with srseed := w })

/-- The number of words that an entry takes is known: it depends on no data but the head flags of VSCAN, which an earlier entry may
still have to write. Behind entries that wait for stores the loop holds they are counted as they stand (R186, R280).
(DESIGN CHOICE, log 21.) -/
def State.wordsKnown (s : State) (e : Entry) : Bool :=
  match e.instr with
  | .vscan f =>
    let earlier := s.k.posted.takeWhile (fun x => x.order != e.order)
    !(f.opt.getLsbD 0) ||
      !(earlier.any (fun x => x.stage != .finished && x.writes.any (fun w => (bufferPlace (e.ten f.b)).any w.meets))) ||
      earlier.any (fun x => x.stage == .waiting && x.afterStores && s.k.storesBefore x.order)
  | _ => true

/-- An entry reserves the words that its work will take: it keeps the generator as it stands, which advances by them.
(DEDUCED, log 21.) -/
def State.reserve (s : State) (e : Entry) : State :=
  (s.setPosted { e with seed := some s.control.srseed }).setSeed (s.entryWork e).1.control.srseed

/-- Entries reserve their words in program order, as far as their numbers are known. -/
def State.reserveAll : List Entry → State → State
  | [], s => s
  | e :: es, s =>
    if ¬ e.unreserved then State.reserveAll es s
    else if s.wordsKnown e then State.reserveAll es (s.reserve e)
    else s

/-- What waits for the generator waits once the earlier entries have reserved their words (R98). -/
def State.reserveWords (s : State) : State := State.reserveAll s.k.posted s

/-- The work of an entry, with the words that it has reserved. -/
def State.wordedWork (s : State) (e : Entry) : State × EntryResult :=
  match e.seed with
  | none => s.entryWork e
  | some w =>
    let r := (s.setSeed w).entryWork e
    (r.1.setSeed s.control.srseed, r.2)

/-- A quantum of a started entry that is no product: at most 128 of its cycles, whose operands it takes in; its work is done in the
last one, on what has been taken in (R296, R297, R299). (DEDUCED, log 21.) -/
def State.serveEntry (s : State) (e : Entry) : State :=
  if e.left ≤ 128 then
    let r := s.wordedWork e
    (r.1.finishEntry { e with left := 0 } r.2).endQuantum (resourceOf e.instr)
  else
    let done := e.cycles - e.left
    (s.setEntry { e with left := e.left - 128, taken := e.taken ++ [s.localBytes (e.reads done (done + 128)).eraseDups] }).endQuantum
      (resourceOf e.instr)

/-- An entry that is no product starts: its bounds are checked before its first element, and of one that lasts longer than a
quantum the words are reserved (R98, R169). -/
def State.startWork (s : State) (e : Entry) : State :=
  let first : Entry := { e with stage := .started, left := e.cycles }
  if e.cycles ≤ 128 then s.serveEntry first
  else
    match (s.wordedWork e).2.fault with
    | some x => (s.finishEntry { e with left := 0 } { fault := some x }).endQuantum (resourceOf e.instr)
    | none =>
      if e.unreserved then (s.reserve e).serveEntry { first with seed := some s.control.srseed } else s.serveEntry first

/-- The entry at the head starts on its granted resource, with its first quantum (R296); a product reads its tile scales
(R316). (DEDUCED, log 21.) -/
def State.startEntry (s : State) : State :=
  match s.k.head with
  | none => s
  | some e =>
    if ¬ s.granted (resourceOf e.instr) ∨ s.stopping s.coreNo then s
    else
      let s0 := s.trace 4 e.pc e.seq
      match e.product with
      | some _ =>
        match productBounds e with
        | some a => (s0.finishEntry e { fault := some (14, localAddress a) }).endQuantum 0
        | none => s0.setEntry { e with stage := .started, tiles := s.localBytes e.tileBytes }
      | none => s0.startWork e

/-- The state that a quantum of a chunk of a product reads: messages that the ring replays, then what its partial holds, then the
tile scales, before any new read (R297, R299, R300, R316). -/
def State.chunkView (s : State) (e : Entry) (c : Nat) (held : List (Nat × Byte)) : State :=
  { s with k := { s.k with
      localMem := overlay s.k.localMem ((s.k.replayed e c).flatMap (fun m => m.bytes) ++ held ++ e.tiles) } }

/-- The first quantum of a 16-bit chunk: its partial takes in the operands of the first 64 K-steps (R296, R297).
(DEDUCED, log 21.) -/
def State.takeHalf (s : State) (e : Entry) (p : MatOps) (keep : Nat → Nat → Bool) (c : Nat) : State :=
  let as := stepBytes p (keep c) (p.firstHalf c)
  (s.setEntry { e with left := 1, taken := [(s.chunkView e c []).localBytes as] }).endQuantum 0

/-- The quantum of a running entry ends with its chunk not yet whole, or an entry that is no product has had 128 cycles more
(R296). -/
def State.quantum (s : State) (res : Nat) : State :=
  match s.k.running res with
  | none => s
  | some e =>
    match e.product, e.todo with
    | none, _ => s.serveEntry e
    | some (p, keep), c :: _ => if p.wide && e.left == 0 then s.takeHalf e p keep c else s
    | some _, [] => s

/-- A quantum that the resource has granted is over at its next decision: a started entry's, but for that of a chunk that
CHUNK_PROMOTION ends. -/
def Kern.quantumDue (k : Kern) (res : Nat) : Bool :=
  (k.running res).any (fun e => match e.product with
    | none => true
    | some (p, _) => p.wide && e.left == 0 && !e.todo.isEmpty)

/-- A decision (R296): a quantum in progress ends, then the next core is granted the resource. -/
def State.decideArbiter (s : State) (key : Nat) : State :=
  let base := key / 4 * 4
  let res := key % 4
  match (s.arbiter key).grant with
  | none => s.grantNext key
  | some p =>
    if ¬ s.wants (base + p) res then s.grantNext key
    else if (s.kernOf (base + p)).quantumDue res then (s.atCore (base + p) (fun t => t.quantum res)).grantNext key
    else s

/-- Entries before `e` in the queue: none of them has retired. -/
def Kern.before (k : Kern) (e : Entry) : List Entry := k.mvuq.takeWhile (fun x => x.order != e.order)

/-- Masks that an instruction writes. -/
def maskDest : Instr → List Nat
  | .ksel f | .kand f | .kor f | .knot f => [f.d.toNat]
  | _ => []

/-- An entry has come to its decision point: no earlier entry that names its operands as destinations, or its mask, is still to
retire, its guard holding or not (R318, R339). -/
def Kern.atDecision (k : Kern) (e : Entry) : Bool :=
  let free := fun (ids : List Nat) (dests : Instr → List Nat) =>
    !((k.before e).any (fun x => (dests x.instr).any (fun d => ids.contains d)))
  hasDecision e.instr && e.guard && !e.decided && e.stage == .waiting &&
  (match e.instr with
    | .mma f | .scout f => free [f.a.toNat, f.b.toNat] tensorDest
    | .mmak f => free [f.a.toNat, f.b.toNat] tensorDest && free [f.c.toNat] maskDest
    | _ => false)

/-- A decision point (R318, R319, R337): the summaries and the mask are sampled; an absorbing or wholly cleared product is
finished. -/
def State.decidePoint (s : State) : State :=
  match s.k.mvuq.find? (fun e => s.k.atDecision e) with
  | none => s
  | some e =>
    let live := fun (i : BitVec 6) => tZs (s.tensor i.toNat)
    match e.instr with
    | .mma f =>
      let zs := live f.a || live f.b
      let todo := upFrom 0 (e.ops f.a f.b).chunks
      s.setEntry { e with decided := true, zs := zs, todo := todo, stage := if zs then .finished else .waiting }
    | .mmak f =>
      let zs := live f.a || live f.b
      let m := s.mask f.c.toNat
      let todo := liveChunks (e.ops f.a f.b) m
      let done := zs || todo.isEmpty
      s.setEntry { e with decided := true, zs := zs, mask := m, todo := todo, stage := if done then .finished else .waiting }
    | .scout f => s.setEntry { e with decided := true, zs := live f.a || live f.b }
    | _ => s

/-- A chunk of an executing product and its promotion, from what the array holds of it (R305, R317, R335): the entry goes on to
its next chunk. -/
def State.finishChunk (s : State) (e : Entry) (p : MatOps) (keep : Nat → Nat → Bool) (c : Nat) (rest : List Nat) : State :=
  let r := (s.chunkView e c []).applyChunk (s.chunkView e c e.taken.flatten) e p c (keep c)
  let e1 : Entry :=
    { e with
      todo := rest
      chunk := rest.headD 0
      left := 0
      taken := []
      stage := if rest.isEmpty then .finished else .started
      result := { e.result with flags := e.result.flags ||| r.2 } }
  let used := fun (m : Message) => m.seq == e.seq && m.chunk == c
  (({ r.1 with k := { r.1.k with localMem := s.k.localMem, ring := s.k.ring.filter (fun m => !(used m)) } }).setEntry
    e1).endQuantum 0

/-- The chunk of an executing product is promoted (R305): the last quantum that it needs, which a core whose engines are to stop
lets go on only if the chunk is in progress (R301). (DEDUCED, log 21.) -/
def State.promoteChunk (s : State) : State :=
  match s.k.running 0 with
  | none => s
  | some e =>
    if ¬ s.granted 0 ∨ (s.stopping s.coreNo ∧ ¬ e.midway (s.hasArray s.coreNo)) ∨ s.k.quantumDue 0 then s
    else
      match e.product, e.todo with
      | some (p, keep), c :: rest => s.finishChunk e p keep c rest
      | some _, [] => s.setEntry { e with stage := .finished }
      | none, _ => s

/-- An asynchronous fault of an engine's instruction becomes pending, with its record (R418, R421). -/
def State.pendFault (s : State) (source cause : Nat) (addr detail pc : Word) (seq : BitVec 32) (restart : Bool) : State :=
  let c := s.focusSlot 15
  s.pend { source := source, cause := cause, sub := 0, addr := pc, seq := seq,
           record := c.faultRecord cause 0 true addr detail pc seq 15, restart := restart }

/-- The oldest entry is over (R295): flags, zero summaries, KPOP's value or its pass (R42, R329), or its fault, which discards
every younger entry of the queue (R419). The bead of a squashed iteration is gone (R287). -/
def State.endEntry (s : State) : State :=
  match s.k.mvuq with
  | [] => s
  | e :: rest =>
    if e.stage ≠ .finished then s
    else
      let s0 := { s with k := { s.k with mvuq := rest } }.trace 5 e.pc e.seq
      match e.result.fault with
      | some (cause, addr) => { s0 with k := { s0.k with mvuq := [] } }.pendFault 0 cause addr 0 e.pc e.seq (restarts e.instr)
      | none =>
        let s1 := s0.onControl (fun c => { c with fpflags := c.fpflags ||| e.result.flags })
        let s2 := e.result.zs.foldl State.updateZs s1
        match e.result.scalar, e.instr with
        | some (d, v), _ => if e.squashed && decide (32 ≤ d.toNat) then s2 else s2.writeControl d v
        | none, .kpop f => if e.guard || e.squashed then s2 else ((s2.focusSlot 15).passDest f.d).focusSlot s2.ctx.slot
        | none, _ => s2

/-- The oldest entry retires once it has finished, and work that waits for room is released (R279, R295). -/
def State.retireEntry (s : State) : State := s.endEntry.release

/-- What a core of the quad of the core in focus does next with a resource that it wants: the core that holds the grant goes
on. -/
def State.nextQuantum (s : State) (res : Nat) : Instr × Cmd :=
  if res = 3 then (.mvuEntryStart, { core := s.coreNo })
  else
    let key := arbiterKey s.coreNo res
    match (s.arbiter key).grant with
    | none => (.arbiterDecision, { unit := key })
    | some p =>
      let core := s.coreNo / 4 * 4 + p
      let k := s.kernOf core
      if !(s.wants core res) || k.quantumDue res then (.arbiterDecision, { unit := key })
      else (if (k.running res).isSome then .chunkPromotion else .mvuEntryStart, { core := core })

/-- What the quad of the core in focus does next. -/
def State.nextMvu (s : State) : Option (Instr × Cmd) :=
  let here : Cmd := { core := s.coreNo }
  let wanted := (upFrom 0 4).find? (fun res => s.wants s.coreNo res)
  match s.k.mvuq with
  | [] => none
  | e :: _ =>
    if e.stage = .finished then some (.mvuEntryRetire, here)
    else if s.k.mvuq.any (fun x => s.k.atDecision x) && !(s.stopping s.coreNo) then some (.mmaDecisionPoint, here)
    else wanted.map s.nextQuantum

/-- MVU_ENTRY_START at a core. -/
def execMvuEntryStart (s : State) : Host.Outcome State Fault Refusal := .next (s.atCore s.cmd.core State.startEntry)
/-- ARBITER_DECISION of a resource of a quad. -/
def execArbiterDecision (s : State) : Host.Outcome State Fault Refusal :=
  .next (if s.cmd.unit % 4 < 3 then s.decideArbiter s.cmd.unit else s)
/-- MMA_DECISION_POINT at a core. -/
def execMmaDecisionPoint (s : State) : Host.Outcome State Fault Refusal := .next (s.atCore s.cmd.core State.decidePoint)
/-- CHUNK_PROMOTION at a core. -/
def execChunkPromotion (s : State) : Host.Outcome State Fault Refusal := .next (s.atCore s.cmd.core State.promoteChunk)
/-- MVU_ENTRY_RETIRE at a core. -/
def execMvuEntryRetire (s : State) : Host.Outcome State Fault Refusal := .next (s.atCore s.cmd.core State.retireEntry)

end Sys2Proof.Machine
end

