-- ==== Sys2Proof/Machine/Tasks.lean ====
section
/-! DEFINITION. Launches, spawns and finish scopes (R207 to R232, R25 to R28), and the task and scope instructions (R233 to
R235). An engine's reply comes with the instruction. -/

namespace Sys2Proof.Machine

/-- A failure's result word (R218). -/
def failWord (code : Nat) : Word := BitVec.ofNat 64 (2 ^ 31 + code)

/-! Launch packets and record images. -/

/-- Footprint ranges of a launch packet (R207). -/
def packetFootprint (p : BitVec 1024) : Footprint :=
  { r0 := BitVec.ofNat 32 (bits p 352 32), r1 := BitVec.ofNat 32 (bits p 384 32),
    w0 := BitVec.ofNat 32 (bits p 416 32), w1 := BitVec.ofNat 32 (bits p 448 32) }

/-- Task count of a launch packet (R207). -/
def packetCount (p : BitVec 1024) : Nat := bits p 288 31 + 1
def packetPhased (p : BitVec 1024) : Bool := p.getLsbD 319
def packetStep (p : BitVec 1024) : Nat := bits p 480 20
def packetQueue (p : BitVec 1024) : Nat := bits p 328 9
def packetPart (p : BitVec 1024) : Nat := bits p 337 4
def packetScope (p : BitVec 1024) : Nat := bits p 320 8

/-- A reserved bit of the ranges is set (R223). -/
def Footprint.reserved (f : Footprint) : Bool := [f.r0, f.r1, f.w0, f.w1].any (fun r => bits r 8 4 != 0)

/-- A reserved bit of a launch packet is set; STATUS is ignored (R207). -/
def packetReserved (p : BitVec 1024) : Bool :=
  bits p 592 368 != 0 || bits p 500 12 != 0 || bits p 344 8 != 0 || (packetFootprint p).reserved

/-- A launch packet is refused (R207, R223, R397). Its own address and REGS are not tested for a multiple of 64: the spec states
their alignment and lists no refusal for it. (DESIGN CHOICE, log 16.) -/
def packetBad (p : BitVec 1024) : Bool :=
  packetReserved p || (packetFootprint p).bad || (packetPhased p && decide (768 < packetCount p)) ||
  decide (1024 < bits p 576 16) || bits p 512 64 % 64 != 0 || (bits p 512 64 == 0 && bits p 576 16 != 0) ||
  bits p 256 32 % 8 != 0

/-- Footprint ranges of a record image (R216). -/
def imageFootprint (r : Word512) : Footprint := Rec.footprint { img := r, state := .waiting }

/-- A reserved bit of a record image is set (R216). -/
def recordReserved (r : Word512) : Bool := bits r 240 2 != 0 || bits r 128 108 != 0 || (imageFootprint r).reserved

/-- A pushed record image is refused (R216, R223): reserved bits, fields of the engine, KIND, or NS with no slot. -/
def recordBad (r : Word512) : Bool :=
  recordReserved r || (imageFootprint r).bad || bits r 242 1 != 0 || bits r 236 4 != 0 || bits r 288 96 != 0 ||
  r.getLsbD 244 || (r.getLsbD 243 && bits r 272 16 == 0)

/-- A queue's state as a status, for a push by partition `p` (R209 order 2). (DEDUCED, log 16.) -/
def State.queueRefuses (s : State) (p q : Nat) : Option Nat :=
  let x := s.queue q
  if ¬ x.enabled ∨ x.isFenced then some 7
  else if x.part ≠ p ∨ ¬ s.ownsEngine p (q / 64) then some 5
  else none

/-- A queue of another partition (R235). -/
def State.queueForeign (s : State) (p q : Nat) : Bool :=
  (match s.engineOwner (q / 64) with | some o => o != p | none => false) || (s.ownsEngine p (q / 64) && (s.queue q).part != p)

/-- Every range of a footprint ends below NHANDLES (R221). -/
def Footprint.within (f : Footprint) (handles : Nat) : Bool :=
  [f.r0, f.r1, f.w0, f.w1].all (fun r => rangeCount r == 0 || decide (rangeFirst r + rangeCount r ≤ handles))

/-- The graph that a footprint's handles belong to, with its tile-map descriptor: no graph for an empty footprint, status 3
for a nonempty one without a map or with a handle beyond it (R221). The ranges of later launch indices count too (R215). -/
def State.footprintGraph (s : State) (p scope : Nat) (f : Footprint) (count step : Nat) : Except Nat (Option (Nat × Word512)) :=
  if f.isEmpty then .ok none
  else
    match s.graphOf p 5 scope with
    | none => .error 3
    | some g =>
      match (s.scope p g).desc with
      | none => .error 3
      | some d =>
        let shifts := if step = 0 then 1 else min count (2 ^ 20)
        if (upFrom 0 shifts).all (fun i => (f.shift i step).within (descHandles d)) then .ok (some (graphKey p g, d))
        else .error 3

/-- The lowest free entry of a partition's scope table; entry 0 is the root job (R231). -/
def State.freeScope (s : State) (p : Nat) : Option Nat := (upFrom 1 255).find? (fun i => (s.scope p i).state == .free)

/-- A member added to a scope (R26). -/
def State.addMembers (s : State) (p i n : Nat) : State := s.onScope p i (fun c => { c with count := c.count + n })

/-- A task's place in the dependence table, if it has a footprint (R224): of a launch record, with the count and the step of its
indices (R225). -/
def State.enterTable (s : State) (q : Nat) (graph : Option (Nat × Word512)) (f : Footprint) (launch : Option (Nat × Nat)) :
    Option Nat × State :=
  match graph, launch with
  | none, _ => (none, s)
  | some (g, d), none =>
    let r := s.enterDep g (q / 64) d f none
    (some r.1, r.2)
  | some (g, _), some (count, step) =>
    let r := s.enterLaunch g (q / 64) f count step
    (some r.1, r.2)

/-- Acceptance of a launch packet at an address, for partition `p` (R209): the launch scope's index, or a failure's code.
R221's status 3 (a footprint without a descriptor, or a handle that it does not have) comes after the fourth row of R209, status
2, and before the fifth, status 1. (DEDUCED, log 16.) -/
def State.acceptLaunch (s : State) (p : Nat) (addr : Word) (pkt : BitVec 1024) : Except Nat (Nat × State) := do
  let q := packetQueue pkt
  let f := packetFootprint pkt
  if packetBad pkt then .error 3
  match s.queueRefuses (packetPart pkt) q with
  | some c => .error c
  | none => .ok ()
  if packetPart pkt ≠ p then .error 5
  match (s.scope p (packetScope pkt)).refuses false with
  | some c => .error c
  | none => .ok ()
  match s.freeScope p with
  | none => .error 2
  | some index => do
    let graph ← s.footprintGraph p (packetScope pkt) f (packetCount pkt) (packetStep pkt)
    match s.freeSlotOf q with
    | none => .error 1
    | some slot =>
      if ¬ s.depRoom (q / 64) f then .error 6
      let (dep, s1) := s.enterTable q graph f (some (packetCount pkt, packetStep pkt))
      let (name, s2) := s1.fresh
      let blank : Rec :=
        { img := 0, state := .ready, regsAddr := BitVec.ofNat 64 (bits pkt 64 64),
          tensAddr := BitVec.ofNat 64 (bits pkt 128 64), helpAddr := BitVec.ofNat 64 (bits pkt 512 64),
          hlines := bits pkt 576 16, packet := pkt, readyAt := s.cycle.toNat, taskId := name, dep := dep }
      let r1 := (((blank.setField 0 64 (bits pkt 0 64)).setField 64 64 addr.toNat).setField 244 1 1).setField 245 3 (bits pkt 341 3)
      let r2 := (r1.setField 248 8 index).setField 384 128 (bits pkt 352 128)
      let child : Scope := { state := .closed, kind := 1, parent := packetScope pkt, count := packetCount pkt }
      let s3 := ((s2.unlearn (· == .scope p index)).onScope p index (fun _ => child)).addMembers p (packetScope pkt) 1
      .ok (index, (s3.tell [.task name]).putRec q slot r2)

/-- The result word of a launch, and its effect. -/
def State.launchPacket (s : State) (p : Nat) (addr : Word) (pkt : BitVec 1024) : Word × State :=
  match s.acceptLaunch p addr pkt with
  | .ok (i, s1) => (BitVec.ofNat 64 i, s1)
  | .error c => (failWord c, s)

/-- PROD's form of a tag (R217). -/
def prodOf (tag : Word) : Nat := bits tag 0 29 + bits tag 32 3 * 2 ^ 29

/-- A producer's tag written into its consumer's first zero PROD field (R227). -/
def linkTo (c : Rec) (producer : Word) : Rec :=
  if recField c 320 32 = 0 then c.setField 320 32 (prodOf producer)
  else if recField c 352 32 = 0 then c.setField 352 32 (prodOf producer)
  else c

/-- A push by the task in focus, linked to a consumer or not (R216, R227, R211): the new tag, or a failure's code. Where several
codes of R235 apply the first of these stands: 3 of the image, 7 or 5 of the queue, 8 or 4 of the scope, 8 of the link, 3 of the
graph, 1, and 6. (DEDUCED, log 16.) -/
def State.pushTask (s : State) (img : Word512) (queue : Word) (link : Option Word) : Except Nat (Word × State) := do
  let t := s.task
  let p := t.part
  let q := queue.toNat % 512
  let f := imageFootprint img
  let scope := bits img 248 8
  if 512 ≤ queue.toNat ∨ recordBad img then .error 3
  match s.queueRefuses p q with
  | some c => .error c
  | none => .ok ()
  match (s.scope p scope).refuses (t.scope == scope) with
  | some c => .error c
  | none => .ok ()
  match link with
  | none => .ok ()
  | some l => if (s.byTag l).isNone ∨ s.queueForeign p (tagQueue l) then .error 8 else .ok ()
  let graph ← s.footprintGraph p scope f 1 0
  match s.freeSlotOf q with
  | none => .error 1
  | some slot =>
    if ¬ s.depRoom (q / 64) f then .error 6
    let tag := tagOf q slot (s.genOf q slot)
    let (dep, s1) := s.enterTable q graph f none
    let (name, s2) := s1.fresh
    let r : Rec :=
      { img := setBits img 236 4 (if link.isSome then 1 else 0)
        state := if bits img 256 16 = 0 then .ready else .waiting
        regsAddr := t.regsAddr
        tensAddr := t.tensAddr
        helpAddr := t.helpAddr
        hlines := t.hlines
        cons := link.getD 0
        readyAt := s.cycle.toNat
        taskId := name
        dep := dep }
    let s3 := ((s2.tell [.task name]).addMembers p scope 1).putRec q slot r
    let s4 := match link with
      | none => s3
      | some l => match s3.byTag l with
        | some c => s3.putRec (tagQueue l) (tagSlot l) (linkTo c tag)
        | none => s3
    .ok (tag, s4)

/-- A reserved field of an image that an engine reads is reported to the task as cause 19, with the structure's address
(R12, R418). (DEDUCED, log 16.) -/
def State.reportReserved (s : State) (reserved : Bool) (addr : Word) : State :=
  if reserved then s.pendFault 20 19 addr 0 s.ctx.pc s.k.engseq false else s

/-! Finish scopes. -/

/-- A scope that is closed with no member left completes, with every completion that this causes (R26, R435). -/
def State.settleScope (s : State) (p i : Nat) : State := s.leaveScope p 5 i none false false 0

/-- No core stays reserved for a phased record that has left its queue (R398). -/
def State.dropReservation (s : State) (q slot : Nat) : State :=
  let clear := fun (h : CoreHw) => if h.reservation = some (q, slot) then { h with reservation := none } else h
  { s with
    hw := clear s.hw
    others := s.others.map (fun (e : Nat × CoreState) => (e.1, { e.2 with hw := clear e.2.hw })) }

/-- A record removed with its reservation (R27, R220). -/
def State.cancelRec (s : State) (q slot : Nat) (r : Rec) : State := (s.removeRec q slot r).dropReservation q slot

/-- Records of a partition's queues, with queue and slot. -/
def State.recordsOf (s : State) (p : Nat) : List (Nat × Nat × Rec) :=
  (s.queues.filter (fun (e : Nat × Queue) => e.2.part == p && s.ownsEngine p (e.1 / 64))).flatMap
    (fun (e : Nat × Queue) => e.2.slots.map (fun (x : Nat × Rec) => (e.1, x.1, x.2)))

/-- A scope's last member has left, and with it the last below it: it completes in that step, which a tile map in the second tier
only defers (R435). -/
def State.completing (s : State) (p : Nat) : Nat → Nat → Bool
  | 0, _ => false
  | fuel + 1, i =>
    let c := s.scope p i
    i != 0 && c.state == .closed &&
      c.count == ((s.part p).scopes.filter (fun e => e.2.parent == i && e.2.kind != 4 && e.1 != i && s.completing p fuel e.1)).length

/-- Cancel of a scope and of every scope below it (R27, R231): their waiting, ready and parked members are removed, and a
scope that has no member left is complete. The root job stays open. -/
def State.cancelScope (s : State) (p i : Nat) : State :=
  let hit := fun (n : Nat) => s.below p i 5 n && (s.scope p n).state != .free && (s.scope p n).state != .complete &&
    !(s.completing p 4 n)
  let all := (upFrom 0 256).filter hit
  let mark := fun (acc : State) (n : Nat) =>
    acc.onScope p n (fun c => { c with cancelled := true, state := if n = 0 then c.state else .closed })
  let s1 := all.foldl mark s
  let gone := (s1.recordsOf p).filter (fun x => all.contains x.2.2.scope && x.2.2.state != .running)
  let s2 := gone.foldl (fun (acc : State) x => acc.cancelRec x.1 x.2.1 x.2.2) s1
  let lowest := fun (kind : Nat) => all.filter (fun n => (s.scope p n).kind == kind && n != 0)
  (lowest 1 ++ lowest 2 ++ lowest 3 ++ lowest 4).foldl (fun (acc : State) n =>
    if (acc.scope p n).state = .closed then acc.settleScope p n else acc) s2

/-- A scope or one of its ancestors has been cancelled (R235 WDQ bit 0). -/
def State.scopeCancelled (s : State) (p : Nat) : Nat → Nat → Bool
  | 0, _ => false
  | n + 1, i =>
    let c := s.scope p i
    c.cancelled || (c.state != .free && c.kind != 4 && i != 0 && s.scopeCancelled p n c.parent)

/-- A change of the task that runs on a core. -/
def State.onTask (s : State) (core : Nat) (f : Task → Task) : State :=
  s.atCore core (fun x => { x with k := { x.k with task := x.k.task.map f } })

/-- TCANCEL of a task (R235): its status. -/
def State.cancelTask (s : State) (p : Nat) (tag : Word) : Word × State :=
  if s.queueForeign p (tagQueue tag) then (failWord 5, s)
  else
    match s.byTag tag with
    | none => (failWord 8, s)
    | some r =>
      if r.state = .running then (0, s.onTask (r.core.getD 0) (fun t => { t with wdq := t.wdq ||| 1 }))
      else (0, s.cancelRec (tagQueue tag) (tagSlot tag) r)

/-- A tile-map descriptor is refused: reserved bits, no handle, or a tile size of 0 or no multiple of 64 (R221). -/
def descBad (d : Word512) : Bool :=
  bits d 256 256 != 0 || bits d 212 24 != 0 || descHandles d == 0 || descTile d == 0 || descTile d % 64 != 0

/-- The page request of an FSOPEN whose descriptor is on a missing page (R208, R250). -/
def State.noteDesc (s : State) (desc : Option Word) : State :=
  match desc with
  | some a => if a.toNat % 64 ≠ 0 then s else
      (match s.engineRead s.myPart a 8 with
        | .error r => s.noteFault s.myPart r
        | .ok _ => s)
  | none => s

/-- The tier miss of an FSOPEN whose descriptor is away: the task parks, as for the images that LAUNCH and TSPAWN read (R255).
(DESIGN CHOICE, log 16.) -/
def State.descMiss (s : State) (desc : Option Word) : Except Stop Unit :=
  match desc with
  | some a => if a.toNat % 64 ≠ 0 then .ok () else
      (match s.engineRead s.myPart a 8 with
        | .error (.tierMiss leaf va) => .error (.tierMiss leaf va)
        | _ => .ok ())
  | none => .ok ()

/-- FSOPEN (R235): the new index, or a failure's code. A descriptor in the second tier is looked for before (`descMiss`), so that
code 9 stands for what cannot be read at all. (DEDUCED, log 16.) -/
def State.openScope (s : State) (kind parent : Nat) (desc : Option Word) : Except Nat (Nat × State) := do
  let p := s.myPart
  let map ← (match desc with
    | none => .ok none
    | some a =>
      if a.toNat % 64 ≠ 0 then .error 3
      else match s.engineRead p a 8 with
        | .ok bs =>
          let d : Word512 := BitVec.ofNat 512 (natOfBytes bs)
          if descBad d then .error 3 else .ok (some d)
        | .error _ => .error 9)
  if kind ≠ 4 then
    match (s.scope p parent).refuses false with
    | some c => .error c
    | none => if (s.scope p parent).kind ≤ kind then .error 4 else .ok ()
  match s.freeScope p with
  | none => .error 2
  | some i =>
    let c : Scope := { state := .opened, kind := kind, parent := if kind = 4 then 0 else parent, desc := map }
    let s1 := (s.unlearn (· == .scope p i)).onScope p i (fun _ => c)
    .ok (i, if kind = 4 then s1 else s1.addMembers p parent 1)

/-- FSCLOSE (R231, R235): the root job is never closed. -/
def State.closeScope (s : State) (i : Nat) : Word × State :=
  let p := s.myPart
  match (s.scope p i).state with
  | .free => (failWord 8, s)
  | .opened =>
    if i = 0 then (0, s) else (0, (s.onScope p i (fun c => { c with state := .closed })).settleScope p i)
  | _ => (0, s)

/-- An entry released (R231). -/
def State.releaseScope (s : State) (p i : Nat) : State :=
  if (s.scope p i).isReleasable i then s.onScope p i (fun _ => {}) else s

/-! Helpers. -/

/-- The lowest free helper slot of the core (R234). -/
def State.freeHelper (s : State) : Option Nat := (upFrom 0 10).find? (fun n => !(s.k.peers.any (fun c => c.slot == n)))

/-- The context of a helper that starts: copies of the parent's registers and predicates (R234).
(DESIGN CHOICE, log 11.) -/
def State.newHelper (s : State) (slot : Nat) (entry : Word) : Ctx :=
  { slot := slot
    live := true
    pc := entry
    regs := Vector.ofFn (fun i : Fin 32 => if i.val < 16 then s.reg i.val else 0)
    preds := s.ctx.preds
    srseed := Config.helperSeed s.free
    startPc := s.ctx.pc
    startSeq := s.k.engseq
    regionAt := s.names }

/-- The TGT check of a helper's entry ends it at once (R234, R17). -/
def State.checkEntry (s : State) (slot : Nat) (entry : Word) : Except Stop State :=
  let h := s.focusSlot slot
  match h.checkTarget entry with
  | .ok s1 => .ok (s1.focusSlot 15)
  | .error (.trap cause addr _) => .ok (h.helperFault cause addr)
  | .error r => .error r

/-- HSTART (R234): the parent's accesses so far happen before the helper's (R361). -/
def State.startHelper (s : State) (f : Form) : State :=
  s.issue (metaE f false false) (fun t =>
    match t.freeHelper with
    | none => .error (.hold .condition)
    | some slot =>
      let h := t.newHelper slot f.imm
      let t0 := t.noteBefore slot
      let t1 := { t0 with k := { t0.k with peers := h :: t0.k.peers }, free := t0.free + 1, names := t0.names + 1 }
      (t1.writeOp f.d (BitVec.ofNat 64 slot)).checkEntry slot f.imm)

/-- HWAIT (R234): an acquire. -/
def State.waitHelper (s : State) (f : Form) : State :=
  s.issue (metaC f false) (fun t =>
    let n := f.a.toNat
    if t.k.peers.any (fun c => c.slot == n) then .error (.hold .condition)
    else .ok ((t.writeOp f.d ((t.k.helperEnd.getD n 0).setWidth 64)).endRegion))

/-- HEXIT (R234): a release; in a control context it is illegal, unless its guard fails (R42, R65). (DEDUCED, log 23.) -/
def State.exitHelper (s : State) (m : Meta) : State :=
  if s.ctx.slot = 15 ∧ s.guard m.p m.n then s.stopped Stop.illegal
  else s.issueRaw m (fun t => if t.ntBlocked then .error (.hold .condition) else .ok (t.endHelper 1))

/-- The guard of the 64-bit instruction in the instruction register. (DESIGN CHOICE, log 13.) -/
def State.latchedGuard (s : State) : BitVec 3 × Bool :=
  let g := G64.read (s.ctx.ir.getD 0 0) (s.ctx.ir.getD 1 0)
  (g.p, g.n)

/-- HSTART. -/
def execHstart (f : I64) (s : State) : Host.Outcome State Fault Refusal := .next (s.startHelper (formI f))
/-- HWAIT. -/
def execHwait (f : G64) (s : State) : Host.Outcome State Fault Refusal := .next (s.waitHelper (formG f))
/-- HEXIT, 32-bit form. -/
def execHexitA32 (s : State) : Host.Outcome State Fault Refusal := .next (s.exitHelper { len := 1 })
/-- HEXIT, 64-bit form, with its guard. -/
def execHexitG64 (s : State) : Host.Outcome State Fault Refusal :=
  .next (s.exitHelper { len := 2, p := s.latchedGuard.1, n := s.latchedGuard.2 })

/-- LAUNCH (R235): a release. -/
def execLaunch (f : G64) (s : State) : Host.Outcome State Fault Refusal :=
  .next (s.issue (metaE (formG f) false false) (fun t => do
    let at' := t.readOp f.a f.da
    let (x, t1) ← t.lsWords at' f.opt 16
    let pkt : BitVec 1024 := BitVec.ofNat 1024 x
    let r := t1.launchPacket t1.myPart at' pkt
    .ok (((r.2.reportReserved (packetReserved pkt) at').endRegion).writeOp f.d r.1)))

/-- The result word of a spawn. -/
def spawnResult (s : State) (r : Except Nat (Word × State)) : Word × State :=
  match r with
  | .ok x => x
  | .error c => (failWord c, s)

/-- TSPAWN (R235): a release. -/
def execTspawn (f : G64) (s : State) : Host.Outcome State Fault Refusal :=
  .next (s.issue (metaE (formG f) false false) (fun t => do
    let at' := t.readOp f.a f.da
    let (x, t1) ← t.lsWords at' f.opt 8
    let img : Word512 := BitVec.ofNat 512 x
    let link := if f.md.getLsbD 0 then some (t1.readOp f.c f.dc) else none
    let r := spawnResult t1 (t1.pushTask img (t1.readOp f.b f.db) link)
    .ok (((r.2.reportReserved (recordReserved img) at').endRegion).writeOp f.d r.1)))

/-- The issuing task's JOIN gains 1 (R235). -/
def State.gainJoin (s : State) (tag : Word) : State :=
  match s.byTag tag with
  | some r => s.putRec (tagQueue tag) (tagSlot tag) (r.setField 256 16 (r.join + 1))
  | none => s

/-- TSPAWNW's push and save: a task with no slot takes one first, code 1 if none is free, and needs a Locket (R217, R235, R427).
(DEDUCED, log 26.) -/
def State.spawnWait (s : State) (f : Form) (img : Word512) (queue : Word) : Except Nat State :=
  match s.takeSlot, (s.part s.myPart).freeLocket with
  | none, _ => .error 1
  | some (me, s1), some _ => do
    let (tag, s2) ← s1.pushTask img queue (some me)
    let s3 := ((s2.gainJoin me).writeOp f.d tag).retire f.len
    match s3.save 4 .waiting false none with
    | some (_, s4) => .ok s4
    | none => .error 1
  | some _, none => do
    let _ ← s.pushTask img queue none
    .error 1

/-- TSPAWNW (R235): a release; on success the task waits off its core, once its engines have reached their stopping points
(R426). -/
def execTspawnw (f : G64) (s : State) : Host.Outcome State Fault Refusal :=
  .next (s.issueRaw (metaE (formG f) false false) (fun t => do
    let at' := t.readOp f.a f.da
    let (x, t1) ← t.lsWords at' f.opt 8
    let img : Word512 := BitVec.ofNat 512 x
    match t1.spawnWait (formG f) img (t1.readOp f.b f.db) with
    | .ok t2 => if t.atStop then .ok t2 else .error (.hold .drain)
    | .error c =>
      .ok ((((t1.reportReserved (recordReserved img) at').endRegion).writeOp f.d (failWord c)).retire 2)))

/-- TJOIN (R235): a release; ZS is read under R126, of an entry that is usable in any space (R121). -/
def execTjoin (f : G64) (s : State) : Host.Outcome State Fault Refusal :=
  .next (s.issue (metaE (formG f) false false) (fun t => do
    if f.md = 2 ∧ t.zsOwed f.b.toNat then .error (.hold .operand)
    need (f.md != 2 || usable (t.tensor f.b.toNat) (fun sp => decide (sp ≤ 2))) causeRecord
    do
      let abs := f.md == 1 || (f.md == 2 && tZs (t.tensor f.b.toNat))
      let c : Cmd := { core := t.coreNo, part := t.myPart, unit := f.c.toNat, tag := t.readOp f.a f.da, flag := abs }
      .ok { t with inflight := t.inflight ++ [(Instr.arrival, c)] }.endRegion))

/-- A task that ends discards a loop that is suspended (R286). -/
def State.dropLoop (s : State) : State := if s.k.loop.susp then s.abandonLoop else s

/-- TDONE (R235): the task drains, and its retirement follows. (DESIGN CHOICE, log 17.) -/
def State.tdone (s : State) (m : Meta) : State := s.issueRaw m (fun t => .ok (t.dropLoop.wait .done))

/-- TDONE, 64-bit form. -/
def execTdoneG64 (f : G64) (s : State) : Host.Outcome State Fault Refusal :=
  .next (s.tdone { metaC (formG f) false with window := true })
/-- TDONE, 32-bit form. -/
def execTdoneA32 (s : State) : Host.Outcome State Fault Refusal := .next (s.tdone { len := 1, helper := false, window := true })

/-- TCANCEL of a scope of the context's own partition (R235). -/
def execTcancelScope (f : G64) (s : State) : Host.Outcome State Fault Refusal :=
  .next (s.issue (metaE (formG f) false false) (fun t =>
    let i := bits (t.readOp f.a f.da) 0 8
    if (t.scope t.myPart i).state = .free then .ok (t.writeOp f.d (failWord 8))
    else .ok ((t.cancelScope t.myPart i).writeOp f.d 0)))

/-- TCANCEL of a task (R235). -/
def execTcancelTask (f : G64) (s : State) : Host.Outcome State Fault Refusal :=
  .next (s.issue (metaE (formG f) false false) (fun t =>
    let r := t.cancelTask t.myPart (t.readOp f.a f.da)
    .ok (r.2.writeOp f.d r.1)))

/-- WDQ (R235). -/
def execWdq (f : G64) (s : State) : Host.Outcome State Fault Refusal :=
  .next (s.issue (metaC (formG f) false) (fun t =>
    let c := (t.scopeCancelled t.myPart 5 t.task.scope).toNat
    .ok (t.writeOp f.d (t.task.wdq.setWidth 64 ||| BitVec.ofNat 64 c))))

/-- FSOPEN (R235). -/
def execFsopen (f : G64) (s : State) : Host.Outcome State Fault Refusal :=
  .next (s.issue (metaC (formG f) false) (fun t =>
    let desc := if f.md.getLsbD 0 then some (t.readOp f.b f.db) else none
    do
    t.descMiss desc
    match t.openScope f.c.toNat (bits (t.readOp f.a f.da) 0 8) desc with
    | .ok (i, t1) => .ok (t1.writeOp f.d (BitVec.ofNat 64 i))
    | .error c => .ok ((t.noteDesc desc).writeOp f.d (failWord c))))

/-- FSCLOSE (R235). -/
def execFsclose (f : G64) (s : State) : Host.Outcome State Fault Refusal :=
  .next (s.issue (metaC (formG f) false) (fun t =>
    let r := t.closeScope (bits (t.readOp f.a f.da) 0 8)
    .ok (r.2.writeOp f.d r.1)))

/-- FSWAIT (R235): an acquire. -/
def execFswait (f : G64) (s : State) : Host.Outcome State Fault Refusal :=
  .next (s.issue (metaC (formG f) false) (fun t =>
    let p := t.myPart
    let i := bits (t.readOp f.a f.da) 0 8
    let c := t.scope p i
    if c.state = .opened ∨ c.state = .closed then .error (.hold .condition)
    else
      let t1 := (t.learn [.scope p i]).writeOp f.d c.status
      .ok (if f.md.getLsbD 0 then t1.releaseScope p i else t1).endRegion))

end Sys2Proof.Machine
end

