-- ==== Sys2Proof/Machine/Pops.lean ====
section
/-! DEFINITION. The queue engines' events: dispatch and restore (R21, R34, R210 to R220, R398, R428), arrivals and withdrawals
(R228, R229), doorbells (R208), the leaving of members (R435), and the end of a task (R235). -/

namespace Sys2Proof.Machine

/-! Which record a core pops. -/

/-- The queues a core serves, in order of preference (R214, R449). -/
def servedQueues (w : Word) : List Nat :=
  ((upFrom 0 4).filter (fun i => w.getLsbD (36 + i))).map (fun i => bits w (9 * i) 9)

/-- A partition dispatches tasks: it is enabled and does not drain (R452), and firmware has released the compute dies (R458). -/
def State.partRuns (s : State) (p : Nat) : Bool :=
  s.mod.boot == .running && (s.part p).ctl.getLsbD 0 && !(s.part p).draining

/-- The partition that may run tasks on a core: its cluster's owner (R20). -/
def State.corePart (s : State) (core : Nat) : Option Nat := (s.clusterOwner (core / 16)).filter s.partRuns

/-- A queue gives out records of its partition (R213, R449). -/
def State.queueServes (s : State) (p q : Nat) : Bool := (s.queueRefuses p q).isNone && !(s.isFenced .queueEngine (q / 64))

/-- Effective priority (R34). -/
def State.effective (s : State) (r : Rec) : Nat := min 7 (r.prio + (s.cycle.toNat - r.readyAt) / 65536)

/-- Record `a` goes before record `b` in one queue (R34): one placed at the head before every other, the latest first
(DEDUCED, log 25). Of two that became Ready on one cycle the lower name, the one created first, goes first (DESIGN CHOICE,
log 25). -/
def State.goesFirst (s : State) (a b : Rec) : Bool :=
  if a.headRank ≠ b.headRank then decide (b.headRank < a.headRank)
  else if s.effective a ≠ s.effective b then decide (s.effective b < s.effective a)
  else if a.readyAt ≠ b.readyAt then decide (a.readyAt < b.readyAt)
  else decide (a.taskId < b.taskId)

/-- The record of a list that goes first. -/
def State.firstOf (s : State) (l : List (Nat × Nat × Rec)) : Option (Nat × Nat × Rec) :=
  l.foldl (fun (best : Option (Nat × Nat × Rec)) x =>
    match best with
    | none => some x
    | some b => if s.goesFirst x.2.2 b.2.2 then some x else some b) none

/-- Ranges of a launch's task `i` (R215). -/
def Rec.indexFootprint (r : Rec) (i : Nat) : Footprint := (packetFootprint r.packet).shift i (packetStep r.packet)

/-- The frame of a launch's next index (R215). -/
def Rec.nextFrame (r : Rec) : Word := BitVec.ofNat 64 (bits r.packet 192 64 + r.nextIndex * bits r.packet 256 32)

/-- The graph of a record's footprint; its push has checked that there is one (R221). -/
def State.recGraph (s : State) (p : Nat) (r : Rec) : Option (Nat × Word512) :=
  match s.graphOf p 5 r.scope with
  | none => none
  | some g => (s.scope p g).desc.map (fun d => (graphKey p g, d))

/-- The next index of a launch enters the dependence table, in the place of its launch record (R225). -/
def State.bindIndex (s : State) (p q : Nat) (r : Rec) : Option Nat × State :=
  let f := r.indexFootprint r.nextIndex
  match (if f.isEmpty then none else s.recGraph p r), r.dep with
  | some (g, d), some l =>
    let e := s.enterDep g (q / 64) d f (some l)
    (some e.1, e.2)
  | _, _ => (none, s)

/-- A launch record's entry after its index has been dispatched: it goes with the last. -/
def State.passIndex (s : State) (r : Rec) : State :=
  let i := r.nextIndex + 1
  let pass := fun (d : Dep) => if some d.id == r.dep then { d with next := i, failed := false } else d
  if packetCount r.packet ≤ i then { s with deps := s.deps.filter (fun d => some d.id != r.dep) }
  else { s with deps := s.deps.map pass }

/-- A phased launch record (R397). -/
def Rec.isPhased (r : Rec) : Bool := r.kind1 && packetPhased r.packet

/-- A launch's record at its next index. -/
def Rec.nextRec (r : Rec) : Rec := r.setField 288 31 (r.nextIndex + 1)

/-- A record that a core may pop, phased ones apart (R224, R255, R428). -/
def State.canPop (s : State) (core : Nat) (r : Rec) : Bool :=
  r.state == .ready && r.onLeaf.isNone && !r.isPhased && (!r.coreBound || r.core == some core) &&
  s.depClear r.dep

/-- Requests wait for a line of the frame header that the dispatch of a record is to write: it comes after them (R219, R384). -/
def State.headerWaits (s : State) (p : Nat) (r : Rec) : Bool :=
  let f := if r.kind1 then r.indexFootprint r.nextIndex else r.footprint
  let frame := if r.kind1 then r.nextFrame else BitVec.ofNat 64 (recField r 64 64)
  r.locket.isNone && !(r.kind1 && f.isEmpty) && s.engineAwaits p frame (2 + f.reads.length + f.writes.length)

/-- The same of any of a launch's next indices. -/
def State.headersWait (s : State) (p : Nat) : Nat → Rec → Bool
  | 0, _ => false
  | n + 1, r => s.headerWaits p r || s.headersWait p n r.nextRec

/-- Records of one queue, with queue and slot. -/
def State.recordsIn (s : State) (q : Nat) : List (Nat × Nat × Rec) :=
  (s.queue q).slots.map (fun (x : Nat × Rec) => (q, x.1, x.2))

/-- Every task of a phased launch can be bound one after the other: their ordering has cleared (R224, R398). -/
def State.phasedClear (s : State) (p q : Nat) : Nat → Rec → Bool
  | 0, _ => true
  | n + 1, r => s.depClear r.dep && ((s.bindIndex p q r).2.passIndex r).phasedClear p q n r.nextRec

/-- The phased record of a partition that may reserve cores, one that is dispatchable (R224, R398). -/
def State.phasedChoice (s : State) (p : Nat) : Option (Nat × Nat × Rec) :=
  s.firstOf ((s.recordsOf p).filter (fun x => x.2.2.isPhased && x.2.2.state == .ready && x.2.2.onLeaf.isNone &&
    s.queueServes p x.1 && s.phasedClear p x.1 (packetCount x.2.2.packet) x.2.2))

/-- What an idle core does: reserve itself for the phased record, or pop a record (R214, R398). -/
inductive Pop where
  | reserve (q slot : Nat)
  | take (q slot : Nat) (r : Rec)
  deriving DecidableEq, Repr

/-- The choice of a core with the given SERVEQ: its first queue that holds something for it. The phased record that may reserve
reserves the core also where another record of its queue goes before it (R34, R398). (DESIGN CHOICE, log 26.) -/
def State.popOf (s : State) (core : Nat) (serveq : Word) : Option Pop :=
  match s.corePart core with
  | none => none
  | some p =>
    let phased := s.phasedChoice p
    let look := fun (q : Nat) =>
      if ¬ s.queueServes p q then none
      else match phased with
        | some (pq, slot, _) => if pq = q then some (Pop.reserve q slot) else
            (s.firstOf ((s.recordsIn q).filter (fun x => s.canPop core x.2.2))).map (fun x => Pop.take x.1 x.2.1 x.2.2)
        | none => (s.firstOf ((s.recordsIn q).filter (fun x => s.canPop core x.2.2))).map (fun x => Pop.take x.1 x.2.1 x.2.2)
    (servedQueues serveq).findSome? look

/-- The context part of a core, in focus or not. -/
def State.ctxOf (s : State) (core : Nat) : Ctx := if core = s.coreNo then s.control else
  let o := Tbl.getD s.others core {}
  if o.ctx.slot = 15 then o.ctx else (o.k.peers.find? (fun c => c.slot == 15)).getD {}

/-- A core in service whose control context is idle. -/
def State.isIdle (s : State) (core : Nat) : Bool :=
  decide (core < Config.cores) && !(s.ctxOf core).live && (s.kernOf core).task.isNone && !(s.isFenced .core core) &&
  !(s.isFenced .quad (core / 4)) && !(s.isFenced .cluster (core / 16))

/-! Images and bindings. -/

/-- What an engine has read, or why it could not. -/
abbrev Got (α : Type) := Except Stop α

/-- An engine's access that a tier miss defers: the leaf and the address of the miss (R255); otherwise what has come of it. -/
def deferred {α : Type} (r : Got α) : Except (Nat × Word) (Got α) :=
  match r with
  | .error (.tierMiss leaf at') => .error (leaf, at')
  | r => .ok r

/-- A read of an engine at a dispatch. -/
def State.readImage (s : State) (p : Nat) (va : Word) (dwords : Nat) : Except (Nat × Word) (Got (List Byte)) :=
  deferred (s.engineRead p va dwords)

/-- Execute access at an address of a helper image (R212, R80). -/
def State.grantsExecute (s : State) (p : Nat) (va : Word) : Bool :=
  match (s.walk p 0 va).1 with
  | .leaf e _ _ => leafX e
  | _ => false

/-- The helper store for a task, as the core loads it: nothing to read when the store still holds the image, or when the
task has none, which leaves the store as it is (R212). -/
def State.readHelpers (s : State) (p : Nat) (h : CoreHw) (at' : Word) (lines : Nat) : Except (Nat × Word) (Got CoreHw) :=
  if at' = 0 ∨ (at' = h.helperAddr ∧ lines = h.helperLines) then .ok (.ok h)
  else do
    let r ← s.readImage p at' (lines * 8)
    let okX := (upFrom 0 lines).all (fun i => s.grantsExecute p (at' + BitVec.ofNat 64 (64 * i)))
    .ok (r.bind (fun bs =>
      if okX then .ok { h with helperText := Mem.putBytes [] 0 bs, helperAddr := at', helperLines := lines }
      else .error (.trap 9 at' 0)))

/-- The bound address of a handle: its version's buffer, or the map's entry for a version without one (R219, R224). The error side of
the value names a map entry that cannot be read, and why. -/
def State.boundAddress (s : State) (p g : Nat) (d : Word512) (h : Nat × Nat) :
    Except (Nat × Word) (Except (Word × Stop) Word) :=
  match s.versions.find? (fun v => v.graph == g && v.handle == h.1 && v.num == h.2 && v.buffer.isSome) with
  | some v => .ok (.ok v.addr)
  | none => do
    let at' := descMap d + BitVec.ofNat 64 (8 * h.1)
    let r ← s.readImage p at' 1
    .ok (match r with
      | .ok bs => .ok (BitVec.ofNat 64 (natOfBytes bs))
      | .error e => .error (at', e))

/-- The bound addresses of a list of handles, in its order. -/
def State.boundAddresses (s : State) (p g : Nat) (d : Word512) : List (Nat × Nat) →
    Except (Nat × Word) (Except (Word × Stop) (List Word))
  | [] => .ok (.ok [])
  | h :: hs => do
    let a ← s.boundAddress p g d h
    let rest ← s.boundAddresses p g d hs
    .ok (match a, rest with
      | .ok x, .ok xs => .ok (x :: xs)
      | .error e, _ => .error e
      | _, .error e => .error e)

/-- The bound addresses of an entry of the dependence table, reads before writes (R219). (DEDUCED, log 26.) -/
def State.bindings (s : State) (p : Nat) (r : Rec) (dep : Option Nat) :
    Except (Nat × Word) (Except (Word × Stop) (List Word)) :=
  match dep.bind s.dep, s.recGraph p r with
  | some d, some (g, desc) => s.boundAddresses p g desc (d.reads ++ d.writes)
  | _, _ => .ok (.ok [])

/-- Byte order of a dword of an image. -/
def dwordOf (bs : List Byte) (off : Nat) : Word := BitVec.ofNat 64 (natOfBytes ((bs.drop off).take 8))

/-- A register image is refused (R210): a reserved byte or bit, or a heap bound with low bits. -/
def regsRefused (bs : List Byte) : Bool :=
  let p := dwordOf bs 768
  bits p 8 56 != 0 || p.getLsbD 0 || (bs.drop 816).any (fun b => b != 0) ||
  [776, 784, 792].any (fun o => bits (dwordOf bs o) 0 16 != 0)

/-- The entries of a tensor-table image (R117). -/
def tensorsOf (bs : List Byte) : List Word512 :=
  (upFrom 0 64).map (fun i => BitVec.ofNat 512 (natOfBytes ((bs.drop (64 * i)).take 64)))

/-- The control context as dispatch loads it (R21, R210): its code pointer is yet to be checked as a target (R61). -/
def ctxOfImage (bs : List Byte) (code frame s1 : Word) : Ctx :=
  let reg := fun (i : Nat) => if i = 1 then s1 else if i = 2 then frame else dwordOf bs (8 * i)
  { live := true
    pc := code
    entry := true
    regs := Vector.ofFn (fun i : Fin 32 => reg i.val)
    preds := BitVec.ofNat 8 (bits (dwordOf bs 768) 0 8)
    srseed := dwordOf bs 808 }

/-- The task part of a core as dispatch loads it; everything the images do not give is zero (R210). -/
def kernOfImage (t : Task) (bs tens : List Byte) : Kern :=
  { task := some t
    masks := Vector.ofFn (fun i : Fin 16 => BitVec.ofNat 256 (natOfBytes ((bs.drop (256 + 32 * i.val)).take 32)))
    tens := Vector.ofFn (fun i : Fin 64 => (tensorsOf tens).getD i.val 0)
    heapbase := dwordOf bs 776
    heaplim := dwordOf bs 784
    heapoff := dwordOf bs 792
    trapvec := dwordOf bs 800 }

/-! Dispatch. -/

/-- Words written through the engine's translation from an address on. -/
def State.engineWords (s : State) (p : Nat) (va : Word) : List Word → Except Stop State
  | [] => .ok s
  | w :: ws => do
    let s1 ← s.engineWrite p va w
    s1.engineWords p (va + 8) ws

/-- The frame header written (R219): none for a launch task without a footprint. -/
def State.writeHeader (s : State) (p : Nat) (frame : Word) (header : List Word) : Except (Nat × Word) (Got State) :=
  deferred (s.engineWords p frame header)

/-- A task ends at its dispatch (R210, R212, R221): it holds the core in focus for as long as that takes. -/
def State.failDispatch (s : State) (t : Task) (code : Word) (cause : Nat) (addr : Word) : State :=
  { s with ctx := { live := true, pc := code }, k := { task := some t } }.endWith cause addr 0

/-- The same for memory that the engine could not read or write: cause 26, with the page request of a missing page (R250). -/
def State.failRead (s : State) (t : Task) (code : Word) (addr : Word) (r : Stop) : State :=
  (s.noteFault t.part r).failDispatch t code 26 addr

/-- A task started on the idle core in focus (R219, R21): `binds` are its bound addresses, `header` the first two dwords
of its frame header, if it has one, and `told` holds what releases told of it (R361). The error side defers the dispatch. The images are read from the addresses as given,
whether or not they are multiples of 64. (DESIGN CHOICE, log 16.) Of several images that fail the first of map, registers, tensors
and helpers counts, and a header that cannot be written ends the task. (DESIGN CHOICE, log 26.) -/
def State.startTask (s : State) (t : Task) (code frame arg : Word) (binds : Except (Word × Stop) (List Word))
    (header : Option (Word × Word)) (told : List Knower) : Except (Nat × Word) State := do
  let regs ← s.readImage t.part t.regsAddr 128
  let tens ← s.readImage t.part t.tensAddr 512
  let help ← s.readHelpers t.part s.hw t.helpAddr t.hlines
  match binds, regs, tens, help with
  | .error (at', e), _, _, _ => .ok (s.failRead t code at' e)
  | _, .error e, _, _ => .ok (s.failRead t code t.regsAddr e)
  | _, _, .error e, _ => .ok (s.failRead t code t.tensAddr e)
  | _, _, _, .error e => .ok (s.failRead t code t.helpAddr e)
  | .ok addrs, .ok rb, .ok tb, .ok h =>
    if regsRefused rb then .ok (s.failDispatch t code 19 t.regsAddr)
    else if (tensorsOf tb).any entryRefused then .ok (s.failDispatch t code 19 t.tensAddr)
    else
      let c := { ctxOfImage rb code frame arg with regionAt := s.names }
      let s1 := { s with ctx := c, k := kernOfImage t rb tb, hw := h }.learn told
      let s2 : State := { s1 with names := s.names + 1 }
      let s3 := s2.trace 1 code s2.pointSeq
      match header with
      | none => .ok s3
      | some (d0, d1) => do
        let r ← s3.writeHeader t.part frame (d0 :: d1 :: addrs)
        .ok (match r with
          | .ok s4 => s4
          | .error e => s.failRead t code frame e)

/-- A record that a core runs (R22). -/
def runningRec (r : Rec) (core : Nat) : Rec :=
  { r with state := .running, core := some core, headRank := 0, locket := none, onLeaf := none }.setField 242 1 0

/-- Dispatch of a KIND 0 record on the idle core in focus (R211, R219). -/
def State.startRecord (s : State) (p q slot : Nat) (r : Rec) : Except (Nat × Word) State := do
  let tag := tagOf q slot (s.genOf q slot)
  let binds ← s.bindings p r r.dep
  let failed := if s.depFailed r.dep then 4 else 0
  let t : Task :=
    { id := r.taskId, tag := some tag, queue := q, part := p, scope := r.scope, prio := r.prio, regsAddr := r.regsAddr,
      tensAddr := r.tensAddr, helpAddr := r.helpAddr, hlines := r.hlines, wdq := r.wdq ||| failed, dep := r.dep }
  let s1 := s.putRec q slot (runningRec r s.coreNo)
  s1.startTask t (BitVec.ofNat 64 (recField r 0 64)) (BitVec.ofNat 64 (recField r 64 64)) tag binds
    (some (BitVec.ofNat 64 (recField r 288 32), r.cons)) (.task r.taskId :: r.dep.toList.map Knower.dep)

/-- A launch record after its index `i` has been dispatched: it leaves the queue with the last (R23). -/
def State.advanceLaunch (s : State) (q slot : Nat) (r : Rec) : State :=
  let i := r.nextIndex
  (if packetCount r.packet ≤ i + 1 then s.freeSlot q slot else s.putRec q slot (r.setField 288 31 (i + 1))).passIndex r

/-- Dispatch of a launch record's next index on the idle core in focus (R215, R219, R225). -/
def State.startIndex (s : State) (p q slot : Nat) (r : Rec) : Except (Nat × Word) State := do
  let i := r.nextIndex
  let f := r.indexFootprint i
  let failed := s.depFailed r.dep
  let (dep, s1) := s.bindIndex p q r
  let s2 := s1.advanceLaunch q slot r
  let (name, s3) := s2.fresh
  let binds ← s3.bindings p r dep
  let wdq : BitVec 3 := if failed || s3.depFailed dep then 4 else 0
  let t : Task :=
    { id := name, queue := q, part := p, scope := r.scope, prio := r.prio, regsAddr := r.regsAddr,
      tensAddr := r.tensAddr, helpAddr := r.helpAddr, hlines := r.hlines, wdq := wdq, phased := packetPhased r.packet,
      dep := dep }
  s3.startTask t (BitVec.ofNat 64 (recField r 0 64)) r.nextFrame (BitVec.ofNat 64 i) binds
    (if f.isEmpty then none else some (0, 0)) (.task r.taskId :: (r.dep.toList ++ dep.toList).map Knower.dep)

/-- An agent moved with its task to the core in focus: its region has ended (R371). -/
def State.moveAgent (s : State) (a : Agent) : Agent :=
  { a with ident := identOf s.modNo s.coreNo (a.ident % 16), core := s.coreNo, tag := none }

/-- Work of the engines that a restored task brings back to its core (R428). -/
def State.resumeEngines (s : State) : State :=
  let chans := s.k.chans.map (fun c => { c with queue := c.queue.map (fun x => { x with agent := s.moveAgent x.agent }) })
  let held := s.k.unreleased.map (fun u => { u with work := match u.work with
    | .copy n x => .copy n { x with agent := s.moveAgent x.agent }
    | .tierin ag pc near line d a len => .tierin (s.moveAgent ag) pc near line d a len
    | w => w })
  let mine := s.k.ixSaved.map (fun r => { r with core := s.coreNo, agent := s.moveAgent r.agent })
  let cl := s.coreNo / 16
  { s with
    k := { s.k with chans := chans, ixSaved := [], unreleased := held }
    ix := if mine = [] then s.ix else Tbl.put s.ix cl (Tbl.getD s.ix cl [] ++ mine) }

/-- Restore of a saved record on the idle core in focus (R428, R433). -/
def State.restoreRecord (s : State) (p q slot at' : Nat) (r : Rec) (sv : Saved) : Except (Nat × Word) State := do
  let tag := tagOf q slot (s.genOf q slot)
  let s1 := s.loadLocket at' sv r tag
  let t := s1.task
  let s2 := (s1.freeLocket p at').putRec q slot (runningRec r s.coreNo)
  if s.locketBad at' then .ok (s2.failDispatch t s1.ctx.pc 19 (BitVec.ofNat 64 at'))
  else do
    let help ← s.readHelpers p s.hw t.helpAddr t.hlines
    match help with
    | .error e => .ok (s2.failRead t s1.ctx.pc t.helpAddr e)
    | .ok h => .ok ({ s2 with hw := h }.resumeEngines.settleTierins.trace 1 s2.ctx.pc { s2 with hw := h }.pointSeq)

/-- A record popped by the idle core in focus (R22). A dispatch that meets a tier miss is deferred: the record stays Ready,
and comes again after the page-in (R255). -/
def State.popRecord (s : State) (p q slot : Nat) (r : Rec) : State :=
  let go :=
    if r.kind1 then s.startIndex p q slot r
    else match r.locket with
      | some at' => (match Tbl.find s.lockets at' with
          | some sv => s.restoreRecord p q slot at' r sv
          | none => s.startRecord p q slot r)
      | none => s.startRecord p q slot r
  match go with
  | .ok s1 => s1
  | .error (leaf, va) => (s.askPageIn p leaf va).putRec q slot { r with onLeaf := some leaf }

/-- A core is reserved for the phased record that reserves cores in its partition (R398). -/
def State.isReserved (s : State) (core : Nat) : Bool :=
  match (s.hwOf core).reservation, s.corePart core with
  | some (q, slot), some p => (s.phasedChoice p).any (fun x => x.1 == q && x.2.1 == slot)
  | _, _ => false

/-- Reservations of a partition's cores for another record than this one end: one record at a time reserves cores (R398). -/
def State.dropOthers (s : State) (p q slot : Nat) : State :=
  let old := (s.recordsOf p).filter (fun x => x.2.2.isPhased && (x.1 != q || x.2.1 != slot))
  old.foldl (fun (acc : State) x => acc.dropReservation x.1 x.2.1) s

/-- Dispatch at a core that is idle (R214, R219, R398). -/
def State.dispatchAt (s : State) (core : Nat) : State :=
  if ¬ s.isIdle core ∨ s.isReserved core then s
  else
    let reserve := fun (r : Option (Nat × Nat)) (x : State) => ({ x with hw := { x.hw with reservation := r } } : State)
    match s.popOf core (s.hwOf core).serveq, s.corePart core with
    | some (.reserve q slot), some p => (s.dropOthers p q slot).atCore core (reserve (some (q, slot)))
    | some (.take q slot r), some p =>
      if s.headerWaits p r then s else s.atCore core (fun x => (reserve none x).popRecord p q slot r)
    | _, _ => s

/-- Cores reserved for a phased record, lowest first (R398). -/
def State.reservedCores (s : State) (q slot : Nat) : List Nat :=
  let keys := s.coreNo :: s.others.map (fun (e : Nat × CoreState) => e.1)
  (upFrom 0 Config.cores).filter (fun c => keys.contains c && s.isIdle c && (s.hwOf c).reservation == some (q, slot))

/-- The map entries and the frame headers of a launch's next indices are resident (R219, R255). -/
def State.framesThere (s : State) (p q : Nat) : Nat → Rec → Except (Nat × Word) Unit
  | 0, _ => .ok ()
  | n + 1, r => do
    let e := s.bindIndex p q r
    let b ← e.2.bindings p r e.1
    match b with
    | .ok addrs =>
      if (r.indexFootprint r.nextIndex).isEmpty then .ok ()
      else do
        let _ ← e.2.writeHeader p r.nextFrame (0 :: 0 :: addrs)
        .ok ()
    | .error _ => .ok ()
    (e.2.passIndex r).framesThere p q n r.nextRec

/-- The memory that the dispatch of a phased launch reads and writes is resident, so no task of it is deferred (R255). -/
def State.imagesThere (s : State) (p q n : Nat) (r : Rec) : Except (Nat × Word) Unit := do
  let _ ← s.readImage p r.regsAddr 128
  let _ ← s.readImage p r.tensAddr 512
  let _ ← s.readHelpers p {} r.helpAddr r.hlines
  s.framesThere p q n r

/-- The next task of a phased launch on one core. -/
def State.phasedStart (p q slot : Nat) (s : State) (core : Nat) : State :=
  match s.record? q slot with
  | none => s
  | some r => s.atCore core (fun x => x.popRecord p q slot r)

/-- Dispatch of a partition's phased record once enough cores are reserved for it (R398). -/
def State.phasedAt (s : State) (p : Nat) : State :=
  match s.phasedChoice p with
  | none => s
  | some (q, slot, r) =>
    let n := packetCount r.packet
    let cores := s.reservedCores q slot
    if ¬ s.partRuns p ∨ cores.length < n ∨ s.headersWait p n r then s
    else
      match s.imagesThere p q n r with
      | .error (leaf, va) => (s.askPageIn p leaf va).putRec q slot { r with onLeaf := some leaf }
      | .ok () => ((cores.take n).foldl (State.phasedStart p q slot) s).dropReservation q slot

/-! Arrivals and withdrawals. -/

/-- The record becomes Ready (R22). -/
def State.makeReady (s : State) (r : Rec) : Rec := { r with state := .ready, readyAt := s.cycle.toNat }

/-- A read that an early fire withdraws from its producer binds the version that was current before, with the end of its writer
(R228). -/
def State.rebindRead (s : State) (producer : Nat) (d : Dep) (x : Nat × Nat) : Dep :=
  if (s.version? d.graph x.1 x.2).any (fun v => v.writer == some producer) then
    match (((s.versionsOf d.graph x.1).takeWhile (fun v => v.num != x.2)).filter (fun v => !v.dead)).getLast? with
    | some v => { d with reads := d.reads ++ [(x.1, v.num)], failed := d.failed || s.writerFailed v }
    | none => { d with reads := d.reads ++ [(x.1, 0)] }
  else { d with reads := d.reads ++ [x] }

/-- The dependence entry of a producer, by PROD (R217). -/
def State.producerDep (s : State) (prod : Nat) : Option Nat :=
  ((s.record? (prod / 2 ^ 20 % 512) (prod % 2 ^ 20)).filter
    (fun _ => bits (s.genOf (prod / 2 ^ 20 % 512) (prod % 2 ^ 20)) 0 3 == prod / 2 ^ 29)).bind (fun r => r.dep)

/-- The consumer's reads taken from one producer that it withdraws from (R228). -/
def State.rebind (s : State) (consumer : Option Nat) (prod : Nat) : State :=
  match consumer, s.producerDep prod with
  | some c, some producer =>
    let change := fun (d : Dep) => if d.id == c then d.reads.foldl (s.rebindRead producer) { d with reads := [] } else d
    { s with deps := s.deps.map change }
  | _, _ => s

/-- An early fire (R228): a withdrawal to each linked producer. -/
def State.fireEarly (s : State) (r : Rec) : State :=
  let prods := [recField r 320 32, recField r 352 32].filter (fun p => p != 0)
  let send := fun (p : Nat) => (Instr.withdrawal, ({ value := BitVec.ofNat 64 p, unit := r.dep.getD 0 } : Cmd))
  let s1 := prods.foldl (fun (acc : State) p => acc.rebind r.dep p) s
  { s1 with inflight := s1.inflight ++ prods.map send }

/-- An arrival at a record (R228). An absorbing one on an NSMASK slot fires early also where it brings JOIN to 0; at a Parked
record it counts as at a Running one. (DEDUCED, log 26.) -/
def State.arrive (s : State) (tag : Word) (slot : Nat) (abs : Bool) : State :=
  match s.byTag tag with
  | none => s
  | some r =>
    let q := tagQueue tag
    let n := tagSlot tag
    let r1 := (if r.kind1 then r else r.setField (288 + slot) 1 1).setField 256 16 (r.join - 1)
    if r.state ≠ .waiting then s.putRec q n r1
    else
      let r2 := if abs then r1.setField (304 + slot) 1 1 else r1
      if r.img.getLsbD 243 && abs && r.img.getLsbD (272 + slot) then (s.putRec q n (s.makeReady r2)).fireEarly r2
      else if r2.join = 0 then s.putRec q n (s.makeReady r2)
      else s.putRec q n r2

/-- Versions that a producer writes are dead (R228). -/
def State.killVersions (s : State) (dep : Option Nat) : State :=
  match dep with
  | none => s
  | some id => { s with versions := s.versions.map (fun v => if v.writer == some id then { v with dead := true } else v) }

/-- An entry of the dependence table binds a version, or one in its place (R224), or an index of its launch is to. -/
def State.bindsVersion (s : State) (d : Dep) (v : Version) : Bool :=
  d.live && d.graph == v.graph &&
  ((d.reads ++ d.writes).any (fun x => x.1 == v.handle && s.rootOf v.graph x.1 x.2 == v.root) ||
    (d.willName v.handle && (s.versionAt v.graph v.handle d.place).any (fun w => w.root == v.root)))

/-- Some live task beside the firing consumer binds a version that a producer writes (R229). -/
def State.othersRead (s : State) (producer : Option Nat) (consumer : Nat) : Bool :=
  match producer with
  | none => false
  | some id => s.versions.any (fun v => v.writer == some id &&
      s.deps.any (fun d => d.id != consumer && d.id != id && s.bindsVersion d v))

/-- A withdrawal at a producer, named by PROD (R229). -/
def State.withdraw (s : State) (prod consumer : Nat) : State :=
  let q := prod / 2 ^ 20 % 512
  let n := prod % 2 ^ 20
  match (s.record? q n).filter (fun _ => bits (s.genOf q n) 0 3 == prod / 2 ^ 29) with
  | none => s
  | some r =>
    let left := r.demand - 1
    let s1 := if left = 0 then s.killVersions r.dep else s
    if left ≠ 0 ∨ s.othersRead r.dep consumer then s1.putRec q n (r.setField 236 4 left)
    else
      match r.state with
      | .waiting | .ready => s1.cancelRec q n r
      | .parked => s1.putRec q n ({ r with wdq := r.wdq ||| 2 }.setField 236 4 0)
      | .running =>
        (s1.putRec q n (r.setField 236 4 0)).onTask (r.core.getD 0) (fun t => { t with wdq := t.wdq ||| 2 })

/-- The packet of a doorbell lies in the second tier: its leaf, and the address of the miss. -/
def packetMiss (r : Except Stop (List Byte)) : Option (Nat × Word) :=
  match r with
  | .error (.tierMiss leaf va) => some (leaf, va)
  | _ => none

/-- A doorbell waits: the partition's replay ring is full (R445, R447), or a line of the packet is waited for (R384).
(DESIGN CHOICE, log 29.) -/
def State.doorbellWaits (s : State) (p : Nat) (va : Word) : Bool :=
  (s.replayOn p && s.replayFull p) || s.engineAwaits p va 16

/-- What an application core launches is told by no context: the record's name is one from `n` on (R359). -/
def State.fromOutside (n : Nat) (r : Word × State) : Word × State :=
  let old := fun (k : Knower) => match k with
    | .task id => decide (n ≤ id)
    | _ => false
  (r.1, r.2.unlearn old)

/-- A doorbell at a queue engine (R208): the packet read, accepted or not, and STATUS written where that is possible, with a
replay record of that write (R445). A packet in the second tier is held until its page-in has ended, as an inbound request is
(R255), and a packet whose QUEUE belongs to another engine of the partition is accepted. (DESIGN CHOICE, log 16.)
(DESIGN CHOICE, log 29.) -/
def State.doorbell (s : State) (engine : Nat) (va : Word) : State :=
  match s.engineOwner engine with
  | none => s
  | some p =>
    let again : Cmd := { unit := engine, value := va }
    if s.doorbellWaits p va then s.requeue .launchdoor again
    else
      let x := s.engineRead p va 16
      match packetMiss x with
      | some (leaf, at') => (s.askPageIn p leaf at').requeue .launchdoor again
      | none =>
        let r := match x with
          | .ok bs => State.fromOutside s.names (s.launchPacket p va (BitVec.ofNat 1024 (natOfBytes bs)))
          | .error e => (failWord 9, s.noteFault p e)
        match r.2.engineWrite p (va + 120) r.1 with
        | .ok s1 => if s.replayOn p then s1.replay p 3 0 noIdent 0 va r.1 else s1
        | .error e => r.2.noteFault p e

/-! The end of a task. -/

/-- The engines of the core in focus have nothing left to do (R235). -/
def State.drained (s : State) : Bool :=
  (s.ctx.slot == 15 && s.k.peers.isEmpty) && s.k.mvuq.isEmpty && s.k.unreleased.isEmpty &&
  s.k.chans.toList.all (fun c => c.queue.isEmpty) &&
  s.k.tierins.isEmpty && (Tbl.getD s.ix (s.coreNo / 16) []).all (fun r => r.core != s.coreNo)

/-- The end of an open exchange window (R401). -/
def Window.ending (w : Window) : Nat := w.t0 + w.lead + w.nslot * w.slen

/-- TDONE may retire its task: drained, and not before the end of an open window (R410). (DESIGN CHOICE, log 17.) -/
def State.canRetire (s : State) : Bool :=
  s.ctx.slot == 15 && s.ctx.hold == some .done && s.drained && !s.ntBlocked &&
  (match s.k.window with | some w => !w.opened || decide (w.ending ≤ s.cycle.toNat) | none => true)

/-- The task of the core in focus retires (R22, R235). -/
def State.retireTask (s : State) : State :=
  if s.canRetire then (s.trace 7 s.ctx.pc s.k.engseq).finishTask true none else s

/-- TASK_RETIRE at a core. -/
def execTaskRetire (s : State) : Host.Outcome State Fault Refusal := .next (s.atCore s.cmd.core State.retireTask)
/-- LAUNCHDOOR written: engine `unit`, packet address `value`. -/
def execLaunchdoor (s : State) : Host.Outcome State Fault Refusal :=
  .next (if s.cmd.unit < 8 then s.doorbell s.cmd.unit s.cmd.value else s)
/-- DISPATCH at a core. -/
def execDispatch (s : State) : Host.Outcome State Fault Refusal := .next (s.dispatchAt s.cmd.core)
/-- PHASED_DISPATCH of a partition. -/
def execPhasedDispatch (s : State) : Host.Outcome State Fault Refusal := .next (s.phasedAt s.cmd.part)
/-- ARRIVAL sent by a task of partition `part`: another partition's record takes none (R235). -/
def execArrival (s : State) : Host.Outcome State Fault Refusal :=
  .next (if s.queueForeign s.cmd.part (tagQueue s.cmd.tag) ∨ 16 ≤ s.cmd.unit then s
    else s.arrive s.cmd.tag s.cmd.unit s.cmd.flag)
/-- WITHDRAWAL at a producer named by PROD in `value`, from the consumer whose dependence entry is `unit`. -/
def execWithdrawal (s : State) : Host.Outcome State Fault Refusal := .next (s.withdraw s.cmd.value.toNat s.cmd.unit)
/-- MEMBER_LEAVE of scope `unit` of partition `part`, with a fault record if `flag` is set (R28, R435); with 1 in `value`, a look
again at a scope whose map was away. -/
def execMemberLeave (s : State) : Host.Outcome State Fault Refusal :=
  let c := s.cmd
  let fr := if c.flag then some (BitVec.ofNat 512 (natOfBytes c.bytes)) else none
  .next (if (s.scope c.part c.unit).state = .free then s
    else if c.value = 1 then s.settleScope c.part c.unit
    else s.leaveScope c.part 5 c.unit fr c.flag true c.flag.toNat)

end Sys2Proof.Machine
end

