-- ==== Sys2Proof/Machine/Place.lean ====
section
/-! DEFINITION. Placement: page moves (R252 to R254), page-ins and page-outs (R255 to R257), the answers to page requests
(R250), shoot-downs (R246, R82), and PFH, PLACE and TIERQ (R259 to R262). -/

namespace Sys2Proof.Machine

/-- STNT bytes of a kind, of every context, performed (R135). -/
def State.drainEverywhere (s : State) (hit : HeldByte → Bool) : State :=
  s.coreList.foldl (fun (acc : State) c => acc.atCore c (fun x => x.drainCore hit)) (s.drainLate hit)

/-- Some of them cannot be performed yet: requests wait for their lines (R384). -/
def State.ntWaits (s : State) (hit : HeldByte → Bool) : Bool :=
  s.late.any (fun h => hit h && s.byteWaits h) || s.coreList.any (fun c => ((s.coreAt c).ctx :: (s.coreAt c).k.peers).any (fun x => x.nt.any (fun h => hit h && s.byteWaits h)))

/-- A byte of global memory at an address of a kind. -/
def HeldByte.lies (at' : Nat → Bool) (h : HeldByte) : Bool := h.space == .globalMem && at' h.addr

/-- A byte that a page table has translated at a virtual address of a range. -/
def HeldByte.paged (lo n : Nat) (h : HeldByte) : Bool := h.va.any (fun a => decide (lo ≤ a) && decide (a < lo + n))

/-- Held stores of a core's loop (R278). -/
def Loop.heldStores (l : Loop) : List HeldByte :=
  (match l.outer with | some v => v.held | none => []) ++ (match l.inner with | some v => v.held | none => [])

/-- The loops of the cores, and those of saved tasks, each with its partition. -/
def State.loops (s : State) : List (Nat × Loop) :=
  s.coreList.map (fun c => ((s.kernOf c).task.elim 0 (fun t => t.part), (s.kernOf c).loop)) ++
  s.lockets.map (fun (e : Nat × Saved) => (e.2.part, e.2.k.loop))

/-- Some held store of a loop that goes to global memory lies at an address of a kind (R253). -/
def State.storesHeld (s : State) (at' : Nat → Bool) : Bool :=
  s.loops.any (fun l => l.2.heldStores.any (HeldByte.lies at'))

/-- Some held store of a partition's task has been translated by a page table, at a virtual address in a range (R246). -/
def State.pagedHeld (s : State) (p lo n : Nat) : Bool :=
  s.loops.any (fun l => l.1 == p && l.2.heldStores.any (HeldByte.paged lo n))

/-! Shoot-downs. -/

/-- Translations of a range dropped from a core of the partition, and cached lines of the range or of the given frames.
(DESIGN CHOICE, log 7.) -/
def CoreHw.shoot (h : CoreHw) (p lo n : Nat) (frames : List (Nat × Nat)) : CoreHw :=
  let hit := fun (base size : Nat) => decide (base < lo + n) && decide (lo < base + size)
  let old := frames ++ ((h.tlb.filter (fun t => t.part == p && hit t.base t.size)).map (fun t => (leafFrame t.leaf, t.size)))
  { h with
    tlb := h.tlb.filter (fun t => !(t.part == p && hit t.base t.size))
    icache := h.icache.filter (fun l => !(hit l.va 64) && !(old.any (fun f => decide (f.1 ≤ l.pa) && decide (l.pa < f.1 + f.2)))) }

/-- Cores of a partition's clusters. -/
def State.ownsCore (s : State) (p c : Nat) : Bool := s.ownsCluster p (c / 16)

/-- The frames that the entries of a range had, as the TLBs and instruction caches know them. -/
def State.oldFrames (s : State) (p lo n : Nat) : List (Nat × Nat) :=
  let hit := fun (base size : Nat) => decide (base < lo + n) && decide (lo < base + size)
  s.coreList.flatMap (fun c =>
    let h := s.hwOf c
    if s.ownsCore p c then
      (h.tlb.filter (fun t => t.part == p && hit t.base t.size)).map (fun t => (leafFrame t.leaf, t.size)) ++
      (h.icache.filter (fun l => hit l.va 64)).map (fun l => (l.pa / 65536 * 65536, 65536))
    else [])

/-- Translations of a range that the partition has cached since its last shoot-down. -/
def Mapping.hits (p lo n : Nat) (x : Mapping) : Bool :=
  x.part == p && decide (x.base < lo + n) && decide (lo < x.base + x.size)

/-- A completed shoot-down of `n` bytes from `lo`: every line of a frame that an entry of the range is known to have named goes,
a locked one too (R246, R82, R408). (DESIGN CHOICE, log 7.) -/
def State.shoot (s : State) (p lo n : Nat) (frames : List (Nat × Nat)) : State :=
  let known := (s.translated.filter (Mapping.hits p lo n)).map (fun x => (x.frame, x.size))
  let all := frames ++ known ++ s.oldFrames p lo n
  let change := fun (c : Nat) (h : CoreHw) => if s.ownsCore p c then h.shoot p lo n all else h
  { s with
    hw := change s.coreNo s.hw
    others := s.others.map (fun (e : Nat × CoreState) => (e.1, { e.2 with hw := change e.1 e.2.hw }))
    translated := s.translated.filter (fun x => !(x.hits p lo n))
    walks := [] }

/-- SHOOTDOWN written, for the range from SDVA as it stands (R450): ignored while BUSY. -/
def State.startShootdown (s : State) (p : Nat) (v : Word) : State :=
  if (s.part p).shootdown.getLsbD 63 then s
  else s.onPart p (fun q => { q with shootdown := BitVec.ofNat 64 (2 ^ 63 + bits v 0 32), sdStart := q.sdva })

/-- First address of the shoot-down in progress, in its canonical form (R450), and its length. -/
def Part.shootAddress (pt : Part) : Nat := (wordOf (signExt pt.sdStart.toNat 57)).toNat
def Part.shootLength (pt : Part) : Nat := bits pt.shootdown 0 32 * 65536

/-- The frame of every page of a range is known, from what the partition's translations have used. -/
def State.knowsRange (s : State) (p lo n : Nat) : Bool :=
  let tlb := s.coreList.flatMap (fun c => if s.ownsCore p c then (s.hwOf c).tlb.filter (fun t => t.part == p) else [])
  let known := (s.translated.filter (fun x => x.part == p)).map (fun x => (x.base, x.size)) ++ tlb.map (fun t => (t.base, t.size))
  decide (n ≤ 4096 * 65536) &&
    (upFrom 0 (n / 65536)).all (fun i => known.any (fun x => decide (x.1 ≤ lo + i * 65536) && decide (lo + i * 65536 < x.1 + x.2)))

/-- A partition's cores lose every cached line, but those that are locked only if `all` says so. The frames that the entries named
before system software changed them need not be known any more, so a line of any of them goes. (DESIGN CHOICE, log 7.) -/
def State.dropLines (s : State) (p : Nat) (all : Bool) : State :=
  let change := fun (c : Nat) (h : CoreHw) =>
    if s.ownsCore p c then { h with icache := h.icache.filter (fun l => l.locked && !all) } else h
  { s with
    hw := change s.coreNo s.hw
    others := s.others.map (fun (e : Nat × CoreState) => (e.1, { e.2 with hw := change e.1 e.2.hw })) }

/-- A partition's shoot-down may complete: no store held in a loop can have been translated by an old entry, and no STNT of the range
has to wait (R246, R384). -/
def State.canShoot (s : State) (p : Nat) : Bool :=
  let pt := s.part p
  pt.shootdown.getLsbD 63 && !(s.pagedHeld p pt.shootAddress pt.shootLength) &&
    !(s.ntWaits (HeldByte.paged pt.shootAddress pt.shootLength))

/-- A shoot-down completes (R246); locked lines of a range whose frames are not all known go too (R82). -/
def State.endShootdown (s : State) (p : Nat) : State :=
  let pt := s.part p
  let lo := pt.shootAddress
  let n := pt.shootLength
  if ¬ s.canShoot p then s
  else
    (((s.drainEverywhere (HeldByte.paged lo n)).shoot p lo n []).dropLines p (!(s.knowsRange p lo n))).onPart p
      (fun q => { q with shootdown := BitVec.ofNat 64 (bits pt.shootdown 0 32) })

/-! Frames, records and waiters. -/

/-- What is known of a page's granules and bytes follows the page (R361). -/
def State.moveKnown (s : State) (old new : Nat) : State :=
  if s.before.isEmpty then s
  else
    let byte := fun (k : Knower) => match k with
      | .byte .globalMem a core scope => .byte .globalMem (if inFrame old a then a - old + new else a) core scope
      | k => k
    let granule := fun (g : Nat) => if inFrame old (g * 64) then g - old / 64 + new / 64 else g
    { s with before := s.before.map (fun x => { x with by' := byte x.by', granule := granule x.granule }) }

/-- A page's access records follow it into a new frame, if that frame's region has its block (R243). -/
def State.moveRecords (s0 : State) (p old new : Nat) (leaf : Word) : State :=
  let s := s0.moveKnown old new
  let mine := s.records.filter (fun (r : Nat × Word) => inFrame old (r.1 * 64))
  let rest := s.records.filter (fun (r : Nat × Word) => !(inFrame old (r.1 * 64)) && !(inFrame new (r.1 * 64)))
  if leafChk leaf then
    let r := { s with records := rest }.needBlock (some p) (new / 2 ^ 21)
    if r.1 then
      mine.foldl (fun (acc : State) (x : Nat × Word) =>
        { acc with records := Tbl.put acc.records (x.1 - old / 64 + new / 64) x.2 }) r.2
    else r.2
  else { s with records := rest }

/-- The content of a frame copied to another. -/
def State.copyFrame (s : State) (old new : Nat) : State := { s with mem := Mem.copyFrom s.mem new s.mem old 65536 }

/-- A parked task returns to the head of its queue (R22, R250). -/
def State.unpark (s : State) (q slot : Nat) (r : Rec) : State :=
  let (rank, s1) := s.fresh
  s1.putRec q slot ({ r with state := .ready, readyAt := s.cycle.toNat, headRank := rank, onLeaf := none }.setField 242 1 1)

/-- Every task that waits for the page of a leaf goes on (R255, R256). -/
def State.releaseWaiters (s : State) (leaf : Nat) : State :=
  let all := s.queues.flatMap (fun (e : Nat × Queue) => e.2.slots.map (fun (x : Nat × Rec) => (e.1, x.1, x.2)))
  (all.filter (fun x => x.2.2.onLeaf == some leaf)).foldl (fun (acc : State) x =>
    if x.2.2.state = .parked then acc.unpark x.1 x.2.1 x.2.2
    else acc.putRec x.1 x.2.1 { x.2.2 with onLeaf := none }) s

/-- A request for frames of a die's pool is outstanding (R256). (DEDUCED, log 25.) -/
def State.poolAsked (s : State) (p die : Nat) : Bool := (s.part p).requests.any (fun r => r.pool == some die)

/-- A frame of HBM on a die of a module for a page, from its partition's pool. While the pool has none the page waits for the
answer to one request for frames of the die, written unless one is out already (R253, R256). (DEDUCED, log 25.) -/
def State.takeHbm (s : State) (at' toMod die : Nat) : Option Nat × State :=
  let pg := s.page at'
  let p := pg.part
  if pg.starved.any (s.poolAsked p) then (none, s)
  else
    match s.takeFrame p (fun f => s.hbmOwned p f && modOf f == toMod && dieOf f == die) with
    | some (f, s1) => (some f, s1.onPage at' (fun q => { q with starved := none }))
    | none =>
      let s1 := s.onPage at' (fun q => { q with starved := some die })
      let va := BitVec.ofNat 64 (pg.va.toNat / 65536 * 65536)
      (none, if s.poolAsked p die then s1 else (s1.pageRequest p 0 8 die false va (some die) none).2)

/-! Page-ins and page-outs. -/

/-- The port of a second-tier slice (R450). -/
def portOf (slice : Nat) : Nat := slice / 12

/-- The port behind which the source of a page-in lies. -/
def State.portOfLeaf (s : State) (leaf : Nat) : Nat := portOf (sliceOf (leafFrame (s.page leaf).oldLeaf))

/-- A page-in whose source lies behind a failed port (R462). -/
def State.isStranded (s : State) (leaf : Nat) : Bool :=
  (s.page leaf).stage == .pageIn && leafTier (s.page leaf).oldLeaf == 1 && s.mod.portsDown.contains (s.portOfLeaf leaf)

/-- A page-in is over: what waits for the page goes on, through the entry as it then stands (R256). -/
def State.endPageIn (s : State) (at' : Nat) : State :=
  (s.onPage at' (fun q => { q with stage := .none, starved := none })).releaseWaiters at'

/-- The entry of a page that a page-in has brought into a frame (R256). -/
def inLeaf (e : Word) (f : Nat) : Word := setBits (setBits e 59 2 0) 16 36 (f / 65536)

/-- A page-in ends (R256): without a frame it waits; where the entry has been changed since the start, the new frame returns to
the pool. -/
def State.finishPageIn (s : State) (at' : Nat) : State :=
  let pg := s.page at'
  let e := pg.oldLeaf
  let old := leafFrame e
  if pg.stage ≠ .pageIn ∨ s.isStranded at' then s
  else if bits e 0 2 ≠ 2 ∨ leafTier e ≠ 1 then s.endPageIn at'
  else
    match s.takeHbm at' s.modNo (leafHome e / 24) with
    | (none, s1) => s1
    | (some f, s1) =>
      if s1.leafAt at' = e then
        let s2 := ((s1.copyFrame old f).moveRecords pg.part old f e).putMem at' 8 (inLeaf e f).toNat
        (s2.returnFrame pg.part old).endPageIn at'
      else ((s1.copyFrame old f).returnFrame pg.part f).endPageIn at'

/-- Tile versions that live tasks bind in a page: graph, handle, number (R226). -/
def State.boundIn (s : State) (p : Nat) (lo : Nat) : List (Nat × Nat × Nat) :=
  let pairs := (s.deps.filter (fun d => d.live && !d.swap && d.graph / 256 == p)).flatMap
    (fun d => (d.reads ++ d.writes).map (fun x => (d.graph, x)))
  let inside := fun (g : Nat) (x : Nat × Nat) =>
    match (s.scope p (g % 256)).desc with
    | none => false
    | some d => match s.boundAddress p g d x with
      | .ok (.ok a) => decide (lo < a.toNat + descTile d) && decide (a.toNat < lo + 65536)
      | _ => false
  ((pairs.filter (fun x => inside x.1 x.2)).map (fun x => (x.1, x.2.1, x.2.2))).eraseDups

/-- A page-out enters the dependence table as a reader of every bound version in its frame (R226). -/
def State.enterSwap (s : State) (p at' lo : Nat) : State :=
  (s.boundIn p lo).foldl (fun (acc : State) x =>
    let (id, s1) := acc.fresh
    let d : Dep :=
      { id := id, engine := 8, graph := x.1, ranges := 0, launch := false, place := id, reads := [(x.2.1, x.2.2)], swap := true }
    { s1 with deps := s1.deps ++ [d] }.onPage at' (fun q => { q with readers := id :: q.readers })) s

/-- The readers of a page-out leave the dependence table. -/
def State.leaveSwap (s : State) (at' : Nat) : State :=
  let ids := (s.page at').readers
  (ids.foldl (fun (acc : State) id => acc.finishDep (some id) true) s).onPage at' (fun q => { q with readers := [] })

/-- What is left of an abandoned page-out: its readers, and what waits for its end (R226, R257). -/
def State.clearUndone (s : State) (at' : Nat) : State :=
  if (s.page at').undone then
    ((s.leaveSwap at').onPage at' (fun q => { q with undone := false })).releaseWaiters at'
  else s

/-- A page-out starts (R257): a second-tier frame, TIER 2, the shoot-down; none without a frame. -/
def State.startPageOut (s0 : State) (p at' : Nat) (va e : Word) : Option State :=
  let s := s0.clearUndone at'
  match s.takeFrame p (fun f => s.tierOwned p f) with
  | none => none
  | some (f, s1) =>
    let lo := va.toNat / 65536 * 65536
    let s2 := s1.putMem at' 8 (setBits e 59 2 2).toNat
    let s3 := s2.onPage at' (fun q =>
      { q with va := va, part := p, stage := .pageOut, newFrame := f, oldLeaf := e, wanted := false, readers := [] })
    some ((s3.shoot p lo 65536 [(leafFrame e, 65536)]).enterSwap p at' lo)

/-- Requests and accesses wait for lines of a frame, or STNTs to it wait for others: accesses in progress (R253, R384).
(DEDUCED, log 25.) -/
def State.linesWait (s : State) (frame : Nat) : Bool :=
  !(s.waitersOf (lineKeyIn frame)).isEmpty || s.hot.any (fun (e : Nat × List HotLine) => e.2.any (fun l => !l.waiting.isEmpty && inFrame frame (l.addr * 64))) ||
  s.ntWaits (HeldByte.lies (inFrame frame))

/-- The lines of a frame written back: its content goes to another frame (R383). -/
def State.evictFrame (s : State) (frame : Nat) : State :=
  s.writeBack (fun _ l => inFrame frame (l.addr * 64))

/-- The entry of a page that a page-out has taken out (R257). -/
def Page.goneLeaf (pg : Page) : Word := setBits (setBits pg.oldLeaf 59 2 1) 16 36 (pg.newFrame / 65536)

/-- The copy of a page-out ends (R257); it waits for stores to the frame that a loop still holds, and for requests that wait for
its lines. A page-in that has been asked for starts at once. -/
def State.finishPageOut (s0 : State) (at' : Nat) : State :=
  let s := s0.clearUndone at'
  let pg := s.page at'
  let old := leafFrame pg.oldLeaf
  if pg.stage ≠ .pageOut ∨ s.storesHeld (inFrame old) ∨ s.linesWait old then s
  else
    let s1 := (s.drainEverywhere (HeldByte.lies (inFrame old))).evictFrame old
    let next : MoveStage := if pg.wanted then .pageIn else .none
    let s2 :=
      if s1.leafAt at' = pg.outLeaf then
        let m := (s1.copyFrame old pg.newFrame).moveRecords pg.part old pg.newFrame pg.oldLeaf
        (m.putMem at' 8 pg.goneLeaf.toNat).returnFrame pg.part old
      else s1.returnFrame pg.part pg.newFrame
    (s2.onPage at' (fun q => { q with stage := next, wanted := false, oldLeaf := s2.leafAt at' })).leaveSwap at'

/-! Moves. -/

/-- A settle is in force (R254). -/
def State.settled (s : State) (pg : Page) : Bool := pg.settle.any (fun e => decide (s.cycle.toNat < e))

/-- The start times that count: none once a settle has ended (R254). -/
def State.startTimes (s : State) (pg : Page) : List Nat := if pg.settle.isSome && !(s.settled pg) then [] else pg.history

/-- The ping-pong bound refuses a move at the present cycle (R254). -/
def State.pingPong (s : State) (pg : Page) : Bool :=
  match s.startTimes pg with
  | _ :: older :: _ => decide (s.cycle.toNat < older + 850000)
  | _ => false

/-- Whether a stage is one of a move (R253). -/
def MoveStage.isMove : MoveStage → Bool
  | .waiting | .holding | .streaming | .switching | .forwarding => true
  | _ => false

/-- Moves in progress on a die, by the home they leave (R253). -/
def State.movesOn (s : State) (toMod die : Nat) : Nat :=
  (s.pages.filter (fun (e : Nat × Page) => e.2.stage.isMove && modOf (leafFrame e.2.oldLeaf) == toMod &&
    leafHome e.2.oldLeaf / 24 == die)).length

/-- An accepted move takes its frame, and the page begins to hold new requests; while the pool has none, the move waits for one
(R253, R256). -/
def State.frameMove (s : State) (at' : Nat) : State :=
  let pg := s.page at'
  match s.takeHbm at' pg.targetMod (pg.target / 24) with
  | (none, s1) => s1
  | (some f, s1) => s1.onPage at' (fun q => { q with stage := .holding, newFrame := f })

/-- A move to a cluster of a module is judged, and begins if it is accepted: its result code (R254, R258, R261).
(DESIGN CHOICE, log 12.) (DEDUCED, log 25.) -/
def State.requestMove (s : State) (p at' : Nat) (va e : Word) (toMod target : Nat) : Nat × State :=
  let pg := s.page at'
  if pg.stage ≠ .none then (7, s)
  else if leafHome e = target ∧ modOf (leafFrame e) = toMod ∧ leafTier e = 0 then (1, s)
  else if s.settled pg then (2, s)
  else if s.pingPong pg then (2, s.onPage at' (fun q => { q with settle := some (s.cycle.toNat + 13600000) }))
  else
    let s1 := { s with free := s.free + 1 }
    if leafTier e ≠ 0 ∨ ¬ Config.policy s.free ∨ 64 ≤ s.movesOn (modOf (leafFrame e)) (leafHome e / 24) then (3, s1)
    else
      (0, ((s1.clearUndone at').onPage at' (fun q =>
        { q with
          va := va
          part := p
          stage := .waiting
          target := target
          targetMod := toMod
          oldLeaf := e
          settle := none
          history := (s.cycle.toNat :: s.startTimes pg).take 2 })).frameMove at')

/-- A held store goes where its page goes (R252, R278). -/
def HeldByte.follow (old new : Nat) (h : HeldByte) : HeldByte :=
  if h.space == .globalMem && inFrame old h.addr then { h with addr := h.addr - old + new } else h

/-- The held stores of a loop follow their page. -/
def Loop.follow (l : Loop) (old new : Nat) : Loop :=
  let level := fun (v : LoopLevel) => { v with held := v.held.map (HeldByte.follow old new) }
  { l with outer := l.outer.map level, inner := l.inner.map level }

/-- The held stores of every loop, of a saved one too, follow their page from one frame to another (R252, R278). -/
def State.followStores (s : State) (old new : Nat) : State :=
  let change := fun (k : Kern) => { k with loop := k.loop.follow old new }
  { s with
    k := change s.k
    others := s.others.map (fun (e : Nat × CoreState) => (e.1, { e.2 with k := change e.2.k }))
    lockets := s.lockets.map (fun (e : Nat × Saved) => (e.1, { e.2 with k := change e.2.k })) }

/-- A waiting move looks for its frame again; once accesses in progress have been performed the page streams (R253). A store that a
loop holds has not been performed, and is no access in progress. -/
def State.drainMove (s : State) (at' : Nat) : State :=
  let pg := s.page at'
  if pg.stage = .waiting then s.frameMove at'
  else if pg.stage ≠ .holding ∨ s.linesWait (leafFrame pg.oldLeaf) then s
  else (s.drainEverywhere (HeldByte.lies (inFrame (leafFrame pg.oldLeaf)))).onPage at' (fun q => { q with stage := .streaming })

/-- The last byte is written and the leaf swapped, unless it was changed; held stores to the page go to its new frame from then on
(R253, R278). (DEDUCED, log 25.) -/
def State.switchMove (s0 : State) (at' : Nat) : State :=
  let pg := s0.page at'
  let old := leafFrame pg.oldLeaf
  let s := (s0.drainEverywhere (HeldByte.lies (inFrame old))).evictFrame old
  if pg.stage ≠ .streaming ∨ s0.linesWait old then s0
  else if s.leafAt at' = pg.oldLeaf then
    let s1 := (s.copyFrame old pg.newFrame).moveRecords pg.part old pg.newFrame pg.oldLeaf
    let s2 := s1.putMem at' 8 pg.movedLeaf.toNat
    (s2.followStores old pg.newFrame).onPage at' (fun q => { q with stage := .forwarding })
  else (s.returnFrame pg.part pg.newFrame).onPage at' (fun q => { q with stage := .none })

/-- The shoot-down of a move completes once no loop holds a store that a page table has translated there, and the old frame
returns to the pool (R246, R253, R278). -/
def State.endMove (s : State) (at' : Nat) : State :=
  let pg := s.page at'
  let old := leafFrame pg.oldLeaf
  if pg.stage ≠ .forwarding ∨ s.pagedHeld pg.part (pg.va.toNat / 65536 * 65536) 65536 then s
  else
    let s1 := s.shoot pg.part (pg.va.toNat / 65536 * 65536) 65536 [(old, 65536)]
    (s1.returnFrame pg.part old).onPage at' (fun q => { q with stage := .none })

/-- A redirect notice replaces the TLB entries of a moved page on the core in focus (R252): granules are checked in the new
frame if its region has its block (R243). -/
def State.redirect (s : State) (p at' : Nat) (old new : Word) : State :=
  let checked := leafChk new && s.hasBlock (leafFrame new)
  let change := fun (t : TlbEntry) =>
    if t.leafAt = at' ∧ t.part = p ∧ t.leaf = old then { t with leaf := new, checked := checked, refused := [] } else t
  let noted := (s.hw.tlb.filter (fun t => t.leafAt = at' ∧ t.part = p ∧ t.leaf = old)).foldl
    (fun (acc : State) t => acc.noteTranslation p t.base t.size new) s
  { noted with hw := { s.hw with tlb := s.hw.tlb.map change } }

/-! Answers to page requests. -/

/-- PAGEDONE (R250): the request is answered, and the task parked on it returns to the head of its queue. A request for
frames lets the waiting page-ins and moves scan again (R256). -/
def State.pageDone (s : State) (p : Nat) (seq : BitVec 32) : State :=
  match (s.part p).requests.find? (fun r => r.seq == seq) with
  | none => s
  | some r =>
    let again := fun (q : Page) => if q.part = p ∧ r.pool.isSome ∧ q.starved = r.pool then { q with starved := none } else q
    let s0 := { s with pages := s.pages.map (fun (e : Nat × Page) => (e.1, again e.2)) }
    let s1 := (s0.onPart p (fun q => { q with requests := q.requests.filter (fun x => x.seq != seq) })).flushRequests p
    match r.parked with
    | none => s1
    | some tag => match s1.byTag tag with
      | some x => if x.state = .parked ∧ x.onLeaf = none then s1.unpark (tagQueue tag) (tagSlot tag) x else s1
      | none => s1

/-! PFH, PLACE, TIERQ. -/

/-- What PFH does with the page of one address, and the address of the next page (R260). -/
def State.prefetchPage (s : State) (opt : BitVec 3) (a : Nat) : Nat × State :=
  let va := BitVec.ofNat 64 a
  let skip := (a / 65536 + 1) * 65536
  if ¬ canonical va ∨ inWindow s.agent va then (skip, s)
  else
    match s.walk s.myPart (s.coreNo / 384) va with
    | (.leaf e at' level, s1) =>
      let next := (a / levelSize level + 1) * levelSize level
      let s2 := if opt.getLsbD 0 && movable e level then s1.countNear at' else s1
      let busy := match (s2.page at').stage with | .holding | .streaming | .switching => true | _ => false
      if leafTier e = 1 then (next, s2.askPageIn s.myPart at' va)
      else if leafTier e == 0 && !busy && (s2.tlbFind s.myPart va).isNone then (next, (s2.cacheLeaf s.myPart va e at' level).2)
      else (next, s2)
    | _ => (skip, s)

/-- PFH's pages in ascending order (R260). -/
def State.prefetch (s : State) (opt : BitVec 3) (last : Nat) : Nat → Nat → State
  | 0, _ => s
  | n + 1, a =>
    if last ≤ a ∨ 2 ^ 64 ≤ a then s
    else
      let r := s.prefetchPage opt a
      r.2.prefetch opt last n r.1

/-- PFH (R260). -/
def execPfh (f : G64) (s : State) : Host.Outcome State Fault Refusal :=
  .next (s.issue (metaM (formG f) false) (fun t =>
    let a := (t.readOp f.a f.da).toNat
    .ok (t.prefetch f.opt (a + prefetchLength (t.readOp f.b f.db)) 16385 a)))

/-- PLACE's page-out and page-in (R261): the result code. (DESIGN CHOICE, log 12.) -/
def State.requestTier (s : State) (at' : Nat) (va e : Word) (out : Bool) : Nat × State :=
  let s1 := { s with free := s.free + 1 }
  if (s.page at').stage ≠ .none then (7, s)
  else if (leafTier e = 0) ≠ out then (1, s)
  else if ¬ Config.policy s.free then (3, s1)
  else if out then
    match s1.startPageOut s.myPart at' va e with
    | some s2 => (0, s2)
    | none => (8, s1)
  else (0, s1.askPageIn s.myPart at' va)

/-- PLACE (R261): the result code; which goes first where several apply is the model's choice. (DESIGN CHOICE, log 12; DEDUCED,
log 25.) -/
def State.placePage (s : State) (va : Word) (mode target : Nat) : Nat × State :=
  if (apertureOf va).isSome ∨ inWindow s.agent va then (4, s)
  else if ¬ canonical va then (5, s)
  else
    match s.walk s.myPart (s.coreNo / 384) va with
    | (.leaf e at' level, s1) =>
      if ¬ movable e level then (4, s1)
      else if mode = 2 then s1.requestTier at' va e true
      else if mode = 3 then s1.requestTier at' va e false
      else
        let goal := if mode = 0 then target else s.coreNo / 16
        if 48 ≤ goal ∨ ¬ s1.ownsCluster s.myPart goal then (6, s1) else s1.requestMove s.myPart at' va e s.modNo goal
    | (_, s1) => (5, s1)

/-- PLACE (R261). -/
def execPlace (f : G64) (s : State) : Host.Outcome State Fault Refusal :=
  .next (s.issue (metaC (formG f) true) (fun t =>
    let r := t.placePage (t.readOp f.a f.da) f.c.toNat (bits (t.readOp f.b f.db) 0 6)
    .ok (r.2.writeOp f.d (BitVec.ofNat 64 r.1))))

/-- TIERQ's word (R262). -/
def State.residency (s : State) (va : Word) : Word :=
  if (apertureOf va).isSome ∨ ¬ canonical va then 3
  else if inWindow s.agent va then
    match s.windowTarget s.agent va 1 with
    | .ok (t, _) => BitVec.ofNat 64 (modOf t.addr * 2 ^ 13 + t.home * 2 ^ 7 + 2 ^ 4)
    | .error _ => 3
  else
    match (s.walk s.myPart (s.coreNo / 384) va).1 with
    | .leaf e at' level =>
      let pg := s.page at'
      BitVec.ofNat 64 (modOf (leafFrame e) * 2 ^ 13 + leafHome e * 2 ^ 7 + (s.settled pg).toNat * 2 ^ 6
        + (pg.stage != .none).toNat * 2 ^ 5 + level * 4 + leafTier e)
    | _ => 3

/-- TIERQ (R262). -/
def execTierq (f : G64) (s : State) : Host.Outcome State Fault Refusal :=
  .next (s.issue (metaM (formG f) true) (fun t => .ok (t.writeOp f.d (t.residency (t.readOp f.a f.da)))))

/-! Events. The leaf stands in `addr`, its partition in `part`, a virtual address in `value`. -/

/-- PAGEDONE written with SEQ in `value`. -/
def execPagedone (s : State) : Host.Outcome State Fault Refusal := .next (s.pageDone s.cmd.part (BitVec.ofNat 32 s.cmd.value.toNat))
/-- PAGE_IN_COMPLETE. -/
def execPageInComplete (s : State) : Host.Outcome State Fault Refusal := .next (s.finishPageIn s.cmd.addr).settleAll
/-- PAGE_OUT_START by firmware policy: of a movable, resident page alone. -/
def execPageOutStart (s : State) : Host.Outcome State Fault Refusal :=
  let p := s.cmd.part
  match s.walk p 0 s.cmd.value with
  | (.leaf e at' level, s1) =>
    if canonical s.cmd.value ∧ movable e level ∧ leafTier e = 0 ∧ (s1.page at').stage = .none then
      .next ((s1.startPageOut p at' s.cmd.value e).getD s1)
    else .next s1
  | (_, s1) => .next s1
/-- PAGE_OUT_COPY_DONE. -/
def execPageOutCopyDone (s : State) : Host.Outcome State Fault Refusal := .next (s.finishPageOut s.cmd.addr).settleAll
/-- MIGRATION_REQUEST by firmware policy, to cluster `unit` of this module, or if `flag` says so of module `tag`. -/
def execMigrationRequest (s : State) : Host.Outcome State Fault Refusal :=
  let p := s.cmd.part
  let toMod := if s.cmd.flag then s.cmd.tag.toNat % 64 else s.modNo
  match s.walk p 0 s.cmd.value with
  | (.leaf e at' level, s1) =>
    if canonical s.cmd.value ∧ movable e level ∧ s.cmd.unit < 48 ∧ (toMod ≠ s.modNo ∨ s1.ownsCluster p s.cmd.unit) then
      .next (s1.requestMove p at' s.cmd.value e toMod s.cmd.unit).2
    else .next s1
  | (_, s1) => .next s1
/-- MIGRATION_DRAINED. -/
def execMigrationDrained (s : State) : Host.Outcome State Fault Refusal := .next (s.drainMove s.cmd.addr)
/-- MIGRATION_STREAM_DONE. -/
def execMigrationStreamDone (s : State) : Host.Outcome State Fault Refusal := .next (s.switchMove s.cmd.addr)
/-- MIGRATION_SHOOTDOWN_DONE. -/
def execMigrationShootdownDone (s : State) : Host.Outcome State Fault Refusal := .next (s.endMove s.cmd.addr)
/-- SETTLE_END (R254). -/
def execSettleEnd (s : State) : Host.Outcome State Fault Refusal :=
  let pg := s.page s.cmd.addr
  .next (if pg.settle.isSome ∧ ¬ s.settled pg then s.onPage s.cmd.addr (fun q => { q with settle := none, history := [] }) else s)
/-- FORWARDED_REQUEST of core `core`: a redirect notice goes to the requester (R252). -/
def execForwardedRequest (s : State) : Host.Outcome State Fault Refusal :=
  let pg := s.page s.cmd.addr
  let note : Cmd := { core := s.cmd.core, part := pg.part, addr := s.cmd.addr, value := pg.movedLeaf, tag := pg.oldLeaf }
  .next (if pg.stage = .forwarding then { s with inflight := s.inflight ++ [(.redirectNotice, note)] } else s)
/-- REDIRECT_NOTICE at a core (R252). -/
def execRedirectNotice (s : State) : Host.Outcome State Fault Refusal :=
  .next (s.atCore s.cmd.core (fun x => x.redirect s.cmd.part s.cmd.addr s.cmd.tag s.cmd.value))
/-- EPOCH_END: at the end of an epoch the counts of .near accesses restart (R258). -/
def execEpochEnd (s : State) : Host.Outcome State Fault Refusal := .next s.turnEpoch
/-- SHOOTDOWN written with COUNT in `value`. -/
def execShootdown (s : State) : Host.Outcome State Fault Refusal := .next (s.startShootdown s.cmd.part s.cmd.value)
/-- SHOOTDOWN_COMPLETE of a partition. -/
def execShootdownComplete (s : State) : Host.Outcome State Fault Refusal := .next (s.endShootdown s.cmd.part)

end Sys2Proof.Machine
end

