-- ==== Sys2Proof/Machine/Engine.lean ====
section
/-! DEFINITION. Accesses of the copy channels and the indirect engine (R367, R371), their faults (R345, R356), with EVWAIT (R352) and
TIERIN (R353). -/

namespace Sys2Proof.Machine

/-- Some bytes of an element: where they lie by the element's address, how many, and whether they are in the buffer. -/
structure Piece where
  at' : Int
  n : Nat
  inside : Bool
  deriving DecidableEq, Repr

/-- The agent of an engine's access with the tag of the region in which its instruction issued, while that region lasts
(R371). (DEDUCED, log 22.) -/
def State.tagFor (s : State) (ag : Agent) : Agent × State :=
  let here := s.ctx.slot
  let t := s.focusSlot (ag.ident % 16)
  if t.agent.ident = ag.ident ∧ t.ctx.regionAt = ag.regionAt then
    let u := t.takeTag
    ({ ag with tag := u.ctx.tag }, u.focusSlot here)
  else (ag, s)

/-- Where an engine's access of `n` bytes in space `sp` goes, with every check of it; a tier miss of it never parks the task
(R255). (DEDUCED, log 34.) -/
def State.engineTarget (s : State) (ag : Agent) (path : Path) (sp : Nat) (near write : Bool) (a : Word) (n : Nat) :
    Except Stop (Target × Agent × State) :=
  match sp with
  | 0 => .ok ({ space := .localMem, addr := a.toNat }, ag, s)
  | 1 =>
    let t : Target := { space := .clusterMem, addr := s.clusterBase + a.toNat }
    let line := clusterLine t.addr
    if s.lineBusy path (s.coreNo / 16) line then .error (s.lineTurn line path)
    else .ok (t, ag, if write then s.soil (line * 64) else s.touchLine line)
  | _ => do
    let (t, s1) ← s.translate ag path false write a n
    let (ag1, s2) := if t.checked then s1.tagFor ag else (ag, s1)
    let s3 ← conflictStop a (s2.checkAccess ag1 t n write write false)
    .ok (t, ag1, if near then s3.noteNear 1 t else s3)

/-- Bytes of a space as they stand in memory. -/
def State.rawAt (s : State) (t : Target) (n : Nat) : Nat :=
  match t.space with
  | .localMem => Mem.readLE s.k.localMem t.addr n
  | .clusterMem => Mem.readLE s.clusterMem t.addr n
  | .globalMem => Mem.readLE s.mem t.addr n

/-- Bytes of a space written. -/
def State.putRaw (s0 : State) (t : Target) (n v : Nat) : State :=
  let s := s0.overwrite t.space t.addr n
  match t.space with
  | .localMem => { s with k := { s.k with localMem := Mem.writeLE s.k.localMem t.addr n v } }
  | .clusterMem => { s with clusterMem := Mem.writeLE s.clusterMem t.addr n v }
  | .globalMem => { s with mem := Mem.writeLE s.mem t.addr n v }

/-- A piece of an element read: zero outside the buffer (R122). -/
def State.getPiece (s : State) (ag : Agent) (path : Path) (sp : Nat) (near : Bool) (p : Piece) :
    Except Stop (Nat × Agent × State) :=
  if p.inside then do
    let (t, ag1, s1) ← s.engineTarget ag path sp near false (wordOf p.at') p.n
    .ok (s1.rawAt t p.n, ag1, s1)
  else .ok (0, ag, s)

/-- The pieces of an element translated and checked for a write: those in the buffer, where they go, with their values. -/
def State.aimPieces (s : State) (ag : Agent) (path : Path) (sp : Nat) (near : Bool) :
    List (Piece × Nat) → Except Stop (List (Target × Nat × Nat) × Agent × State)
  | [] => .ok ([], ag, s)
  | (p, v) :: ps =>
    if p.inside then do
      let (t, ag1, s1) ← s.engineTarget ag path sp near true (wordOf p.at') p.n
      let (ts, ag2, s2) ← s1.aimPieces ag1 path sp near ps
      .ok ((t, p.n, v) :: ts, ag2, s2)
    else s.aimPieces ag path sp near ps

/-- Writes that have been checked are performed. -/
def State.putAll (s : State) (ts : List (Target × Nat × Nat)) : State :=
  ts.foldl (fun (acc : State) x => acc.putRaw x.1 x.2.1 x.2.2) s

/-- The address that names a byte of a space in a fault record (R128, R421). -/
def spaceAddress (sp : Nat) (a : Int) : Word :=
  match sp with
  | 0 => localAddress a
  | 1 => BitVec.ofNat 64 (0x81 * 2 ^ 56 + wrap a 56)
  | _ => wordOf a

/-- The task of the core in focus ends by a machine check that its engine has met (R455). -/
def State.engineCheck (s : State) (cause : Nat) (addr detail pc : Word) (seq : BitVec 32) : State :=
  let c := s.focusSlot 15
  c.endFaulted (c.faultRecord cause 0 true addr detail pc seq 15)

/-! EVWAIT and TIERIN. -/

/-- EVWAIT (R352). -/
def execEvwait (f : G64) (s : State) : Host.Outcome State Fault Refusal :=
  .next (s.issue (metaM (formG f) true) (fun t =>
    let line := f.a.toNat
    if f.md = 0 ∧ t.ctx.hold = some .signalled then .ok (t.writeOp f.d 1)
    else if t.k.events.getLsbD line then
      .ok ({ t with k := { t.k with events := setBits t.k.events line 1 0 } }.writeOp f.d 1)
    else if f.md = 1 then .ok (t.writeOp f.d 0)
    else .error (.hold .condition)))

/-- TIERIN: the page-ins asked for, D, and the line, at once if there are none (R353). In a body it is released in its order, and
its bead is then complete (R341). -/
def execTierin (f : G64) (s : State) : Host.Outcome State Fault Refusal :=
  .next (s.issue (metaE (formG f) true true) (fun t =>
    let a := t.readOp f.a f.da
    let len := prefetchLength (t.readOp f.b f.db)
    let near := f.opt.getLsbD 0
    if t.inBody ∧ ¬ t.k.unreleased.isEmpty then
      .ok (t.dropSeq.sendOrHold (.tierin t.agent t.ctx.pc near f.c.toNat f.d a (BitVec.ofNat 64 len)))
    else
      let r := t.tierIn t.agent t.ctx.pc near f.c.toNat a.toNat len
      .ok (r.2.writeOp f.d (BitVec.ofNat 64 r.1))))

end Sys2Proof.Machine
end

