-- ==== Sys2Proof/Machine/Copy.lean ====
section
/-! DEFINITION. Copy channels (R340 to R350): CPY, WPWAIT and WPRD, the start of a copy and the delivery of its elements. -/

namespace Sys2Proof.Machine

/-! Elements. -/

/-- Sizes and byte strides of the dimensions that a link record adds (R343). -/
def linkDims (l : Word512) : List (Nat × Int) :=
  [(tSize l 0, signExt (tBase l) 64), (tSize l 1, tStride1 l), (tSize l 2, tStride2 l),
   (tSize l 3, tStride2 l * tSize l 2)]

/-- Offset of a linear index over added dimensions, the first the fastest (R343). -/
def linkOffset : List (Nat × Int) → Nat → Int
  | [], _ => 0
  | (n, st) :: ds, m => (m % n : Nat) * st + linkOffset ds (m / n)

/-- Elements of the source over all its dimensions (R342). -/
def sourceCount (src : Word512) (links : List Word512) : Nat := links.foldl (fun n l => n * tCount l) (tCount src)

/-- The address of a source element by its linear index (R343). -/
def Copy.srcAddr (x : Copy) (m : Nat) : Int :=
  elemAddr x.src (tupleOf x.src (m % tCount x.src)) + linkOffset (x.links.flatMap linkDims) (m / tCount x.src)

/-- A source element is in its buffer (R122, R343). -/
def Copy.srcIn (x : Copy) (m : Nat) : Bool :=
  if x.links = [] then elemIn x.src (tupleOf x.src m) else inBuf x.src (x.srcAddr m) (tWidth x.src)

/-- The pieces of one 136-byte segment of a .bz8 tensor: 128 elements and their eight delta bytes (R92, R344). -/
def segmentPieces (e : Word512) (m : Nat) : List Piece :=
  let first := elemAddr e (tupleOf e m)
  (upFrom 0 128).map (fun (i : Nat) =>
    ({ at' := first + i, n := 1, inside := elemIn e (tupleOf e (m + i)) } : Piece)) ++
  (upFrom 0 8).map (fun (j : Nat) =>
    ({ at' := first + 128 + j, n := 1, inside := inBuf e (first + 128 + j) 1 } : Piece))

/-- The pieces that the delivery of element `m` reads, and those it writes. -/
def Copy.srcPieces (x : Copy) (m : Nat) : List Piece :=
  if tFmt x.src = 13 then segmentPieces x.src m
  else [{ at' := x.srcAddr m, n := tWidth x.src, inside := x.srcIn m }]
def Copy.dstPieces (x : Copy) (m : Nat) : List Piece :=
  if tFmt x.dst = 13 then segmentPieces x.dst m
  else
    let t := tupleOf x.dst m
    [{ at' := elemAddr x.dst t, n := tWidth x.dst, inside := elemIn x.dst t }]

/-- Elements that one delivery moves, and stream bytes that it counts (R344). -/
def Copy.stride (x : Copy) : Nat := if tFmt x.dst = 13 then 128 else 1
def Copy.bytes (x : Copy) : Nat := if tFmt x.dst = 13 then 136 else tWidth x.dst

/-- The first element outside its buffer where that is a fault: the address of the source's or of the destination's (R345).
Every element is checked before the first write. -/
def Copy.boundsFault (x : Copy) : Option Word :=
  let badSrc := fun (m : Nat) => tMode x.src != 1 && !(x.srcIn m)
  let badDst := fun (m : Nat) => tMode x.dst != 1 && !(elemIn x.dst (tupleOf x.dst m))
  match (upFrom 0 (tCount x.dst)).find? (fun m => badSrc m || badDst m) with
  | none => none
  | some m =>
    some (if badSrc m then spaceAddress (tSpace x.src) (x.srcAddr m)
      else spaceAddress (tSpace x.dst) (elemAddr x.dst (tupleOf x.dst m)))

/-! Issue. -/

/-- The checks of CPY in their order (R342): the captured entries, the destination with its displacement. -/
def copyChecks (dst src : Word512) (links : List Word512) : Except Stop Unit := do
  let anySpace := fun (_ : Nat) => true
  need (usable dst anySpace && usable src anySpace && links.all (fun l => usable l anySpace)) causeRecord
  need (tFmt dst == tFmt src) causeFormat
  let n := sourceCount src links
  need (n == tCount dst && decide (n ≤ 2 ^ 32)) causeShape
  need (tFmt dst != 13 || (links.isEmpty && tSize dst 0 == tSize src 0 && tSize dst 0 % 128 == 0)) causeShape

/-- CPY (R340 to R344): it takes a place in its channel's queue; on a full one it waits, and in a loop body it is held until it can
be released (R279). -/
def execCpy (f : G64) (s : State) : Host.Outcome State Fault Refusal :=
  .next (s.issue (metaE (formG f) true false) (fun t =>
    let n := (t.readOp f.b f.db).toNat % 8
    let displaced := f.md.getLsbD 2
    let disp : Word := if displaced then t.readOp f.c f.dc else 0
    let d := t.tensor f.d.toNat
    let dst := setBits d 0 64 (tBase d + disp.toNat)
    let src := t.tensor f.a.toNat
    let links := (upFrom (f.a.toNat + 1) (f.md.toNat % 4)).map t.tensor
    if 4 ≤ (t.chan n).queue.length ∧ ¬ t.inBody then .error (.hold .room)
    else do
      copyChecks dst src links
      let (name, t1) := t.fresh
      let x : Copy :=
        { pc := t.ctx.pc, seq := t.k.engseq, dstId := f.d.toNat, dst := dst, src := src, links := links,
          displaced := displaced, near := f.opt.getLsbD 0, agent := t.agent, order := name,
          fromLoop := t.inBody }
      .ok (if t.inBody then t1.dropSeq.sendOrHold (.copy n x)
        else t1.onChan n (fun c => { c with queue := c.queue ++ [x] }))))

/-- WPWAIT (R346, R349). -/
def execWpwait (f : G64) (s : State) : Host.Outcome State Fault Refusal :=
  .next (s.issue (metaM (formG f) false) (fun t =>
    let n := (t.readOp f.a f.da).toNat % 8
    let c := t.chan n
    if (t.readOp f.b f.db).toNat ≤ c.wp.toNat then .ok t
    else if c.stopped then .error (.trap 15 (BitVec.ofNat 64 n) 0)
    else .error (.hold .condition)))

/-- The status word (R350). -/
def Chan.status (c : Chan) : Word :=
  BitVec.ofNat 64 ((c.queue.length - 1) * 32 + (!c.queue.isEmpty).toNat * 16 + c.stopped.toNat * 8 + c.pfhold.toNat * 4
    + c.held.toNat * 2 + c.tmiss.toNat)

/-- WPRD (R350). -/
def execWprd (f : G64) (s : State) : Host.Outcome State Fault Refusal :=
  .next (s.issue (metaM (formG f) true) (fun t =>
    let c := t.chan ((t.readOp f.a f.da).toNat % 8)
    .ok (t.writeOp f.d (if f.md = 1 then c.status else c.wp))))

/-! Delivery. The channel is one of the core in focus. -/

/-- The channel's oldest CPY retires or is discarded, and a CPY that waits for room may be released (R279). -/
def State.dropCopy (s : State) (n : Nat) : State :=
  (s.onChan n (fun c => { c with queue := c.queue.drop 1, held := false, pfhold := false, waiting := none })).release

/-- A fault of the oldest CPY: the channel stops, and the fault is pending (R345, R346). It has written only some elements
(R123). -/
def State.stopChan (s : State) (n : Nat) (x : Copy) (cause : Nat) (addr detail : Word) : State :=
  let s0 := if x.displaced then s else s.updateZs (x.dstId, false, x.allZero)
  ((s0.dropCopy n).onChan n (fun c => { c with stopped := true })).pendFault (1 + n) cause addr detail x.pc x.seq false

/-- A channel's oldest CPY may start: local accesses of one released from a loop body come after stores that the loop still
holds before it (R280). -/
def State.canStart (s : State) (x : Copy) : Bool :=
  !(x.fromLoop && s.k.storesBefore x.order && (tSpace x.dst == 0 || tSpace x.src == 0))

/-- The channel starts its next CPY (R344): on a stopped channel it is discarded (R346). (DEDUCED, log 22.) An entry with a SIZE
of 0 below its RANK is usable by the words of R121, and a copy of no element leaves ZS as it was. (DESIGN CHOICE, log 22.) -/
def State.startCopy (s : State) (n : Nat) : State :=
  let c := s.chan n
  match c.queue with
  | [] => s
  | x :: rest =>
    if c.stopped then s.dropCopy n
    else if x.started || !(s.canStart x) then s
    else
      let s1 := s.onChan n (fun q => { q with tmiss := false, queue := { x with started := true } :: rest })
      match x.boundsFault with
      | some a => s1.stopChan n x 14 a 0
      | none => if tCount x.dst = 0 then s1.dropCopy n else s1

/-- One piece carried from source to destination (R344): its value, the agent, and the state with it written. -/
def State.movePiece (s : State) (x : Copy) (p q : Piece) : Except Stop (Nat × Agent × State) := do
  let (v, ag1, s1) ← s.getPiece x.agent .cp (tSpace x.src) x.near p
  let (ts, ag2, s2) ← s1.aimPieces ag1 .cp (tSpace x.dst) x.near [(q, v)]
  .ok (v, ag2, s2.putAll ts)

/-- The copy with one piece more delivered: the elements of a segment come first, and their values count for ZS (R123). -/
def Copy.count (x : Copy) (q : Piece) (v : Nat) (ag : Agent) : Copy :=
  let elem := decide (x.part < x.stride)
  { x with
    part := x.part + 1
    agent := ag
    allZero := x.allZero && (!elem || !q.inside || zeroBits (tFmt x.dst) v)
    dropped := x.dropped || (elem && !q.inside) }

/-- Pieces carried until one cannot be: the copy and the state as they then stand, and why (R345). -/
def State.movePieces : List (Piece × Piece) → State → Copy → Copy × State × Option Stop
  | [], s, x => (x, s, none)
  | (p, q) :: rest, s, x =>
    match s.movePiece x p q with
    | .error r => (x, s, some r)
    | .ok (v, ag, s1) => State.movePieces rest s1 (x.count q v ag)

/-- The next element carried, from the first piece that is not yet delivered; of a .bz8 copy a segment, elements before deltas
(R344). (DEDUCED, log 22.) -/
def State.moveElement (s : State) (x : Copy) : Copy × State × Option Stop :=
  State.movePieces (((x.srcPieces x.next).zip (x.dstPieces x.next)).drop x.part) s x

/-- The channel's oldest CPY as it now stands, and what the channel waits for; it holds on that alone (R350). -/
def State.holdCopy (s : State) (n : Nat) (x : Copy) (w : Option Wait) : State :=
  let paged := match w with | some (.page _ _) => true | _ => false
  let tiered := match w with | some (.tier _) => true | _ => false
  s.onChan n (fun c => { c with
    queue := x :: c.queue.drop 1, waiting := w, pfhold := paged, held := tiered, tmiss := c.tmiss || tiered })

/-- The copy after a delivery: the pointer counts it, and the last one retires the CPY with its update of ZS (R344), a
helper's too. (DEDUCED, log 22.) -/
def State.countElement (s : State) (n : Nat) (x0 : Copy) : State :=
  let x : Copy := { x0 with next := x0.next + x0.stride, part := 0 }
  let s1 := (s.holdCopy n x none).onChan n (fun c => { c with wp := c.wp + BitVec.ofNat 64 x.bytes })
  if x.next < tCount x.dst then s1
  else
    let s2 := s1.dropCopy n
    if x.displaced then s2 else s2.updateZs (x.dstId, !x.dropped, x.allZero)

/-- Number that names the task of the core in focus in a page request (R250): its tag, or the core without one. -/
def State.askTag (s : State) : Nat := match s.task.tag with | some t => t.toNat | none => s.coreNo

/-- A started copy delivers its next element, or meets a fault, a missing page or a page of the second tier (R345).
(DEDUCED, log 22.) -/
def State.deliver (s : State) (n : Nat) : State :=
  match (s.chan n).queue with
  | [] => s
  | x :: _ =>
    if !x.started then s
    else
      match s.moveElement x with
      | (x1, s1, none) => s1.countElement n x1
      | (x1, s1, some r) =>
        match r with
        | .trap cause addr detail => (s1.holdCopy n x1 none).stopChan n x1 cause addr detail
        | .pageFault va level write _ =>
          let r := s1.pageRequest s1.myPart s1.askTag 1 level write va none none
          r.2.holdCopy n x1 (some (.page s1.myPart r.1))
        | .tierMiss leaf va => ((s1.askPageIn s1.myPart leaf va).holdCopy n x1 (some (.tier leaf))).signal (8 + n)
        | .ends cause detail addr => s1.engineCheck cause addr detail x.pc x.seq
        | .hold w => s1.holdCopy n x1 (some w)
        | .parity _ | .abandon _ => s1

/-- What a unit waits for is not over: a page request, or a page-in (R345, R356). -/
def State.stillWaits (s : State) (w : Option Wait) : Bool :=
  match w with
  | some (.page p seq) => (s.part p).requests.any (fun r => r.seq == seq)
  | some (.tier leaf) => (s.page leaf).stage != .none
  | _ => false

/-- The unit's attempt would change nothing: it waits for its turn already. -/
def stillHolds (r : Option Stop) (w : Option Wait) : Bool :=
  match r with
  | some (.hold h) => some h == w
  | _ => false

/-- What channel `n` does next, if it can do anything. -/
def State.nextOfChan (s : State) (n : Nat) : Option (Instr × Cmd) :=
  let c := s.chan n
  let go : Cmd := { core := s.coreNo, unit := n }
  match c.queue with
  | [] => none
  | x :: _ =>
    if c.stopped then some (.copyStart, go)
    else if !x.started then (if s.canStart x then some (.copyStart, go) else none)
    else
      let r := s.moveElement x
      if s.stillWaits c.waiting || (stillHolds r.2.2 c.waiting && r.1.part == x.part) then none
      else some (.copyElementDelivered, go)

/-- What the copy channels of the core in focus do next. -/
def State.nextCopy (s : State) : Option (Instr × Cmd) := (upFrom 0 8).findSome? s.nextOfChan

/-- COPY_START at a core and channel. -/
def execCopyStart (s : State) : Host.Outcome State Fault Refusal := .next (s.atCore s.cmd.core (fun x => x.startCopy s.cmd.unit))
/-- COPY_ELEMENT_DELIVERED at a core and channel: not while the channel holds. -/
def execCopyElementDelivered (s : State) : Host.Outcome State Fault Refusal :=
  .next (s.atCore s.cmd.core (fun x =>
    if x.stillWaits (x.chan s.cmd.unit).waiting then x else x.deliver s.cmd.unit))

end Sys2Proof.Machine
end

