-- ==== Sys2Proof/Machine/Indirect.lean ====
section
/-! DEFINITION. The indirect engine of a cluster (R354 to R358): GATHER, SCATTER, and the chunks of a request. -/

namespace Sys2Proof.Machine

/-- Requests of a cluster's engine, oldest first. -/
def State.ixQueue (s : State) (cluster : Nat) : List IxReq := Tbl.getD s.ix cluster []

/-- A cluster's requests replaced. -/
def State.setIx (s : State) (cluster : Nat) (q : List IxReq) : State := { s with ix := Tbl.put s.ix cluster q }

/-! Issue. -/

/-- The checks of GATHER and SCATTER in the order of R342 (R355): destination, list and source. -/
def indirectChecks (scatter : Bool) (d a b : Word512) : Except Stop Unit := do
  let table := fun (sp : Nat) => sp == 1 || sp == 2
  let packed := fun (sp : Nat) => sp == 1
  need (usable d (if scatter then table else packed) && usable a (fun sp => sp == 0 || sp == 1) &&
    usable b (if scatter then packed else table)) causeRecord
  need ((tFmt a == 2 || tFmt a == 3) && tFmt b == tFmt d && tFmt d != 13) causeFormat
  let n := tSize a 0
  let rows := if scatter then b else d
  need (tRank a == 1 && decide (1 ≤ n) && decide (n ≤ 2 ^ 20) && tRank b == 2 && tRank d == 2 && tSize rows 1 == n &&
    tSize b 0 == tSize d 0 && decide (tSize d 0 * tWidth d ≤ 1024)) causeShape

/-- GATHER and SCATTER post a request; on a full queue they wait (R354). -/
def State.post (s : State) (f : G64) (scatter : Bool) : State :=
  s.issue (metaE (formG f) true false) (fun t =>
    let cl := t.coreNo / 16
    let d := t.tensor f.d.toNat
    let a := t.tensor f.a.toNat
    let b := t.tensor f.b.toNat
    if Config.indirectEntries ≤ (t.ixQueue cl).length then .error (.hold .room)
    else do
      indirectChecks scatter d a b
      let r : IxReq :=
        { core := t.coreNo, slot := t.ctx.slot, scatter := scatter, mode := f.md, sat := f.sat, line := f.c.toNat,
          pc := t.ctx.pc, seq := t.k.engseq, dstId := f.d.toNat, list := a, src := b, dst := d, agent := t.agent,
          taskId := t.task.id, near := f.opt.getLsbD 0 }
      .ok (t.setIx cl (t.ixQueue cl ++ [r])))

/-- GATHER (R355). -/
def execGather (f : G64) (s : State) : Host.Outcome State Fault Refusal := .next (s.post f false)
/-- SCATTER (R355). -/
def execScatter (f : G64) (s : State) : Host.Outcome State Fault Refusal := .next (s.post f true)

/-! A chunk. -/

/-- A row of a rank-2 tensor as pieces, element by element. -/
def rowPieces (e : Word512) (r : Nat) : List Piece :=
  (upFrom 0 (tSize e 0)).map (fun i =>
    ({ at' := elemAddr e { i0 := i, i1 := r }, n := tWidth e, inside := elemIn e { i0 := i, i1 := r } } : Piece))

/-- A piece outside its buffer is a fault unless its tensor's mode is ZERO (R122). -/
def inBounds (e : Word512) (ps : List Piece) : Except Stop Unit :=
  match ps.find? (fun p => !p.inside && tMode e != 1) with
  | some p => .error (.trap 14 (spaceAddress (tSpace e) p.at') 0)
  | none => .ok ()

/-- The reads of a chunk in progress: the values that its earlier reads returned and are still to be taken again, all values so
far, the last first, and why a read could not be made; after that none is made (R356). -/
structure Reader where
  s : State
  ag : Agent
  tape : List Nat
  got : List Nat := []
  stop : Option Stop := none

/-- The reads end. -/
def Reader.fail (x : Reader) (r : Stop) : Reader := { x with stop := x.stop.or (some r) }

/-- A piece read in its turn: one outside its buffer is a fault, or zero under the mode ZERO (R122). -/
def Reader.piece (x : Reader) (e : Word512) (near : Bool) (p : Piece) : Nat × Reader :=
  if x.stop.isSome then (0, x)
  else if !p.inside then (0, if tMode e = 1 then x else x.fail (.trap 14 (spaceAddress (tSpace e) p.at') 0))
  else
    match x.tape with
    | v :: rest => (v, { x with tape := rest, got := v :: x.got })
    | [] => match x.s.getPiece x.ag .ix (tSpace e) near p with
      | .ok (v, ag, s1) => (v, { x with s := s1, ag := ag, got := v :: x.got })
      | .error r => (0, x.fail r)

/-- Pieces read in order. -/
def Reader.pieces (e : Word512) (near : Bool) : List Piece → Reader → List Nat × Reader
  | [], x => ([], x)
  | p :: ps, x =>
    let v := x.piece e near p
    let rest := Reader.pieces e near ps v.2
    (v.1 :: rest.1, rest.2)

/-- A row read, its bounds first. -/
def Reader.row (x : Reader) (e : Word512) (near : Bool) (r : Nat) : List Nat × Reader :=
  match inBounds e (rowPieces e r) with
  | .ok () => Reader.pieces e near (rowPieces e r) x
  | .error stop => ([], x.fail stop)

/-- The row that an index names, under the table's mode (R355): none is a row that reads as zero or is dropped. -/
def tableRow (table : Word512) (idx : Int) : Except Stop (Option Nat) :=
  if 0 ≤ idx ∧ idx < tSize table 1 then .ok (some idx.toNat)
  else
    match tMode table with
    | 1 => .ok none
    | 2 => .ok (some (if idx < 0 then 0 else tSize table 1 - 1))
    | _ => .error (.trap 14 (spaceAddress (tSpace table) (tBase table + idx * tStride1 table)) 0)

/-- What the read phase of a chunk has gathered: for each index in list order its own position, the table row, a key of the row
that an index out of shape names, and the source row. -/
structure ChunkItem where
  m : Nat
  row : Option Nat
  key : Nat
  vals : List Nat
  deriving DecidableEq, Repr

/-- The read phase for `n` indices from position `m` on: list elements, rows, source rows (R355). -/
def IxReq.readItems (r : IxReq) : Nat → Nat → Reader → List ChunkItem × Reader
  | 0, _, x => ([], x)
  | n + 1, m, x =>
    let t : Tuple := { i0 := m }
    let p : Piece := { at' := elemAddr r.list t, n := tWidth r.list, inside := elemIn r.list t }
    let v := x.piece r.list r.near p
    let idx := signExt v.1 (8 * tWidth r.list)
    match tableRow (if r.scatter then r.dst else r.src) idx with
    | .error stop => ([], v.2.fail stop)
    | .ok row =>
      let src := match r.scatter, row with
        | true, _ => v.2.row r.src r.near m
        | false, some k => v.2.row r.src r.near k
        | false, none => (List.replicate (tSize r.src 0) 0, v.2)
      let rest := r.readItems n (m + 1) src.2
      ({ m := m, row := row, key := row.getD (2 ^ 64 + wrap idx 64), vals := src.1 } :: rest.1, rest.2)

/-- Rows of the table that a combining scatter reads, each once (R355). -/
def IxReq.readOld (r : IxReq) : List Nat → Reader → Tbl (List Nat) × Reader
  | [], x => ([], x)
  | k :: ks, x =>
    let v := x.row r.dst r.near k
    let rest := r.readOld ks v.2
    (Tbl.put rest.1 k v.1, rest.2)

/-- Comb of one element (R355). -/
def combine (r : IxReq) (e : Fpu) (old new : Nat) : Nat × Fpu :=
  let fmt := tFmt r.dst
  let a := numOf fmt 0 true old
  let b := numOf fmt 0 true new
  match r.mode.toNat with
  | 1 => let x := numAdd 0 a b; (Out.num x.1).encode fmt 0 r.sat (e.raise x.2)
  | 2 => (Out.num (numMin a b)).encode fmt 0 r.sat e
  | _ => (Out.num (numMax a b)).encode fmt 0 r.sat e

/-- Comb of a row. -/
def combineRow (r : IxReq) : Fpu → List Nat → List Nat → List Nat × Fpu
  | e, old :: olds, new :: news =>
    let x := combine r e old new
    let rest := combineRow r x.2 olds news
    (x.1 :: rest.1, rest.2)
  | e, _, _ => ([], e)

/-- The rows that a scatter's chunk leaves, folded in list order, with the last position of each (R355). A row out of shape is
formed from zeros, like one that is written, and dropped (R122). -/
def foldRows (r : IxReq) (old : Tbl (List Nat)) (acc : Tbl (Nat × List Nat) × Fpu) (x : ChunkItem) :
    Tbl (Nat × List Nat) × Fpu :=
  if r.mode = 0 then (Tbl.put acc.1 x.key (x.m, x.vals), acc.2)
  else
    let before := match Tbl.find acc.1 x.key with
      | some p => p.2
      | none => Tbl.getD old x.key (List.replicate (tSize r.dst 0) 0)
    let c := combineRow r acc.2 before x.vals
    (Tbl.put acc.1 x.key (x.m, c.1), c.2)

/-- The rows of a chunk in the order in which they are written: row of the destination, values. -/
def chunkRows (r : IxReq) (items : List ChunkItem) (old : Tbl (List Nat)) : List (Nat × List Nat) × Fpu :=
  if r.scatter then
    let f := items.foldl (foldRows r old) ([], {})
    ((items.filterMap (fun x =>
      match x.row with
      | some k => (Tbl.find f.1 k).bind (fun p => if p.1 = x.m then some (k, p.2) else none)
      | none => none)), f.2)
  else (items.map (fun x => (x.m, x.vals)), {})

/-- The destinations of a chunk's writes, translated and checked before the first of them (R356). -/
def State.aimRows (s : State) (r : IxReq) (ag : Agent) :
    List (Nat × List Nat) → Except Stop (List (Target × Nat × Nat) × Agent × State)
  | [] => .ok ([], ag, s)
  | (k, vals) :: rows => do
    inBounds r.dst (rowPieces r.dst k)
    let (ts, ag1, s1) ← s.aimPieces ag .ix (tSpace r.dst) r.near ((rowPieces r.dst k).zip vals)
    let (rest, ag2, s2) ← s1.aimRows r ag1 rows
    .ok (ts ++ rest, ag2, s2)

/-- Indices of a chunk, and its first. -/
def IxReq.first (r : IxReq) : Nat := 256 * r.chunk
def IxReq.count (r : IxReq) : Nat := min 256 (tSize r.list 0 - r.first)

/-- The read phase of the request's next chunk, taken up where it stopped (R355, R356). -/
def State.readChunk (s : State) (r : IxReq) : List ChunkItem × Tbl (List Nat) × Reader :=
  let a := r.readItems r.count r.first { s := s, ag := r.agent, tape := r.got }
  let named := if r.scatter && r.mode != 0 then (a.1.filterMap (fun x => x.row)).eraseDups else []
  let b := r.readOld named a.2
  (a.1, b.1, b.2)

/-- The write phase: destinations are translated and checked, then the rows are written (R355, R356). -/
def State.writeChunk (s : State) (r : IxReq) (rows : List (Nat × List Nat) × Fpu) : Except Stop (IxReq × State) := do
  let (ts, ag, s1) ← s.aimRows r r.agent rows.1
  let written := rows.1.flatMap (fun (x : Nat × List Nat) => (rowPieces r.dst x.1).zip x.2)
  let zero := written.all (fun (p : Piece × Nat) => !p.1.inside || zeroBits (tFmt r.dst) p.2)
  let r1 : IxReq :=
    { r with
      chunk := r.chunk + 1
      got := []
      agent := ag
      flags := r.flags ||| rows.2.flags
      allZero := r.allZero && zero
      dropped := r.dropped || written.any (fun (p : Piece × Nat) => !p.1.inside)
      waiting := none }
  .ok (r1, s1.putAll ts)

/-- The request's next chunk: every read, then every write (R354, R355): the request and the state as they then stand, and why
the chunk could not go on. (DEDUCED, log 22.) -/
def State.doChunk (s : State) (r : IxReq) : IxReq × State × Option Stop :=
  let c := s.readChunk r
  let r0 : IxReq := { r with got := c.2.2.got.reverse, agent := c.2.2.ag }
  match c.2.2.stop with
  | some e => (r0, c.2.2.s, some e)
  | none => match c.2.2.s.writeChunk r0 (chunkRows r c.1 c.2.1) with
    | .error e => (r0, c.2.2.s, some e)
    | .ok (r1, s1) => (r1, s1, none)

/-! The engine. The core of the oldest request is in focus. -/

/-- Sticky flags of a context of the core, if it is live (R56, R107). -/
def State.flagSlot (s : State) (slot : Nat) (f : Word) : State :=
  let t := s.focusSlot slot
  if t.ctx.slot = slot then (t.setFlags f).focusSlot s.ctx.slot else s

/-- The oldest request ends: its line is signalled (R351). -/
def State.endRequest (s : State) (cluster : Nat) (line : Nat) : State :=
  (s.setIx cluster ((s.ixQueue cluster).drop 1)).signal line

/-- The oldest request replaced. -/
def State.setRequest (s : State) (cluster : Nat) (r : IxReq) : State :=
  s.setIx cluster (r :: (s.ixQueue cluster).drop 1)

/-- A request that has run ends: flags and the zero summary of its destination, a helper's request too (R123, R355). (DEDUCED,
log 22.) -/
def State.finishRequest (s : State) (cluster : Nat) (r : IxReq) : State :=
  let s1 := (s.flagSlot r.slot r.flags).updateZs (r.dstId, !r.scatter && !r.dropped, r.allZero)
  s1.endRequest cluster r.line

/-- The oldest request goes on by one chunk; of a core with an unreported fault it is discarded (R356, R419). -/
def State.serveRequest (s : State) (cluster : Nat) (r : IxReq) : State :=
  if s.k.ixStopped then s.endRequest cluster r.line
  else
    match s.doChunk r with
    | (r1, s1, none) =>
      if 256 * r1.chunk < tSize r.list 0 then s1.setRequest cluster r1
      else s1.finishRequest cluster r1
    | (r1, s1, some e) =>
      match e with
      | .trap cause addr detail =>
        let s2 := (s1.updateZs (r.dstId, false, r.allZero)).endRequest cluster r.line
        ({ s2 with k := { s2.k with ixStopped := true } }).pendFault 9 cause addr detail r.pc r.seq false
      | .pageFault va level write _ =>
        let q := s1.pageRequest s1.myPart s1.askTag 3 level write va none none
        q.2.setRequest cluster { r1 with waiting := some (.page s1.myPart q.1) }
      | .tierMiss leaf va =>
        (s1.askPageIn s1.myPart leaf va).setRequest cluster { r1 with waiting := some (.tier leaf) }
      | .ends cause detail addr => s1.engineCheck cause addr detail r.pc r.seq
      | .hold w => s1.setRequest cluster { r1 with waiting := some w }
      | .parity _ | .abandon _ => s1

/-- The oldest request of a cluster's engine can go on. -/
def State.canServe (s : State) (cluster : Nat) : Bool :=
  match s.ixQueue cluster with
  | [] => false
  | r :: _ =>
    let t := s.focusCore r.core
    let c := t.doChunk r
    t.k.ixStopped || !(t.stillWaits r.waiting || (stillHolds c.2.2 r.waiting && c.1.got.length == r.got.length))

/-- What the engine of the cluster in focus does next. -/
def State.nextIndirect (s : State) : Option (Instr × Cmd) :=
  let cl := s.coreNo / 16
  if s.canServe cl then some (.indirectChunk, { unit := cl }) else none

/-- INDIRECT_CHUNK of a cluster. -/
def execIndirectChunk (s : State) : Host.Outcome State Fault Refusal :=
  let cl := s.cmd.unit
  match s.ixQueue cl with
  | [] => .next s
  | r :: _ => .next (if s.canServe cl then s.atCore r.core (fun t => t.serveRequest cl r) else s)

end Sys2Proof.Machine
end

