-- ==== Sys2Proof/Machine/Atomic.lean ====
section
/-! DEFINITION. Fences (R378 to R381), and atomics with the atomic engine's hot-line store (R382 to R388). -/

namespace Sys2Proof.Machine

/-! Fences. -/

/-- Illegal in a loop body (R266). -/
def State.outsideLoop (s : State) : Except Stop Unit :=
  if s.ctx.slot = 15 ∧ s.k.loop.running then .error Stop.illegal else .ok ()

/-- FENCE (R379): its context's LS and AT accesses have been performed when they have issued; it ends the region, except at
.ctx. (DESIGN CHOICE, log 5.) -/
def execFence (f : G64) (s : State) : Host.Outcome State Fault Refusal :=
  .next (s.issue (metaM (formG f) false) (fun t => do
    t.outsideLoop
    t.releaseReady f.md
    .ok (if f.md = 0 then t else t.endRegion)))

/-- Every access of a path that the context has issued is performed (R380). (DESIGN CHOICE, log 5.) -/
def State.pathDone (s : State) (path : Nat) (scope : BitVec 3) : Bool :=
  match path with
  | 1 => s.ownCopies.isEmpty
  | 2 => s.ctx.slot != 15 || s.k.posted.isEmpty
  | 3 => s.ownRequests.isEmpty
  | 5 => scope != 5 ||
    (s.ownCopies.all (fun x => tSpace x.src != 2 && tSpace x.dst != 2) &&
      s.ownRequests.all (fun r => tSpace r.src != 2 && tSpace r.dst != 2))
  | _ => true

/-- XFENCE (R380). Path FB takes in the context's STNT to other modules. -/
def execXfence (f : G64) (s : State) : Host.Outcome State Fault Refusal :=
  .next (s.issue (metaM (formG f) false) (fun t => do
    t.outsideLoop
    if ¬ t.pathDone f.a.toNat f.md ∨ (f.a = 5 ∧ f.md = 5 ∧ t.ntBlocked) then .error (.hold .condition)
    else .ok (if f.a = 5 ∧ f.md = 5 then t.drainNt else t)))

/-- NTDRAIN (R381). -/
def execNtdrain (f : G64) (s : State) : Host.Outcome State Fault Refusal :=
  .next (s.issue (metaM (formG f) false) (fun t => do
    t.outsideLoop
    if t.ntBlocked then .error (.hold .condition) else .ok t.drainNt))

/-! The value that an atomic writes. -/

/-- The new value, if the row writes, and the flags it sets (R387): `old`, `b` and the expected value `e` are patterns of the
type's width. -/
def atomicNew (fn : Nat) (ty : BitVec 4) (sat : Bool) (old b e : Nat) : Option Nat × Word :=
  let n := tyBits ty
  let x := intSrc (tySigned ty) (BitVec.ofNat 64 old) n
  let y := intSrc (tySigned ty) (BitVec.ofNat 64 b) n
  match fn with
  | 0 => let r := overflowRule ty sat (x + y); (some r.1, if r.2 then flagSATF else 0)
  | 1 =>
    let f := fmtOf ty
    let v := Val.add 0 (f.flush (f.decode old)) (f.flush (f.decode b))
    let r := f.roundWord 0 sat 0 v.1
    (some r.1, v.2 ||| r.2)
  | 2 => (some (if y < x then b else old), 0)
  | 3 => (some (if x < y then b else old), 0)
  | 4 => (some (old &&& b), 0)
  | 5 => (some (old ||| b), 0)
  | 6 => (some (old ^^^ b), 0)
  | 7 => (some b, 0)
  | _ => (if old = e then some b else none, 0)

/-! The hot-line store. -/

/-- A line brought in, or used again, by an atomic; beyond 64 the least recently used one that has no request waiting leaves
(R383). (DEDUCED, log 34.) -/
def State.useLine (s0 : State) (home line : Nat) (via : Option Nat) : State :=
  let s := s0.claimLine home line
  let held := s.lines home
  let mine : HotLine := (held.find? (fun l => l.addr == line)).getD { addr := line, via := via }
  let rest := held.filter (fun l => l.addr != line)
  let kept :=
    if rest.length < 64 then rest
    else
      let r := rest.reverse
      let busy := r.takeWhile s.lineWaits
      (busy ++ r.drop (busy.length + 1)).reverse
  { s with hot := Tbl.put s.hot home (mine :: kept) }

/-- An atomic brings in the line of its target (R383): of this module's global memory at the page's home, of cluster memory at
the core's own cluster. Local memory has no such line. (DEDUCED, log 34.) -/
def State.useTarget (s : State) (t : Target) : State :=
  match t.space with
  | .localMem => s
  | .clusterMem => s.useLine (s.coreNo / 16) (clusterLine t.addr) none
  | .globalMem => if modOf t.addr = s.modNo then s.useLine t.home (t.addr / 64) t.leafAt else s

/-- The write of an atomic: a chain of read-modify-writes carries on what a release has written, and one of a release's class is a
release itself (R361, R388). -/
def State.putAtomic (s : State) (f : G64) (g : Target) (va : Word) (n v : Nat) : State :=
  let s1 := { s.putStore g va n v false with before := s.before }
  if 2 ≤ f.c.toNat then s1.tell (s1.releaseBytes g.space g.addr n f.md) else s1

/-- An acquire of the location, by an atomic of an acquire's class (R388). -/
def State.acquireAtomic (s : State) (f : G64) (g : Target) (n : Nat) : State :=
  if f.c.toNat % 2 = 1 then s.teach (fun x => x.by'.readBy g.space g.addr n s.coreNo f.md) [s.me] else s

/-! The instructions. -/

/-- An atomic (R387, R388): its checks, one read and one write at the home, its old value, and the end of the region by its
class. An ACAS that fails is recorded as a read. Whether it reads a byte from outside is judged by the record as it stood before
(R445). (DEDUCED, log 34.) -/
def State.atomic (s : State) (f : G64) (fn : Nat) : State :=
  s.issue (metaM (formG f) true) (fun t =>
    let n := tyBytes f.ty
    let ea := t.readOp f.a f.da
    let b := (t.readOp f.b f.db).toNat % 2 ^ (8 * n)
    let e := (t.readOp f.d 0).toNat % 2 ^ (8 * n)
    do
      t.outsideLoop
      if ea.toNat % n ≠ 0 then .error (.trap 4 ea 0)
      else do
        if 2 ≤ f.c.toNat then t.releaseReady f.md
        let (g, _) ← t.lsTarget .at ea n true true true
        let old := t.seen g.space g.addr n
        let r := atomicNew fn f.ty f.sat old b e
        let (_, t1) ← t.lsTarget .at ea n true r.1.isSome true
        let t2 ← t1.logReadFrom (t.outside g) g ea
        let t3 := (t2.settleNt g.space g.addr n).useTarget g
        let t4 := (match r.1 with
          | some v => t3.putAtomic f g ea n v
          | none => t3).noteNear f.opt g
        let t5 := (t4.setFlags r.2).writeOp f.d (extend (tySigned f.ty) old (8 * n))
        .ok (if f.c = 0 then t5 else (t5.acquireAtomic f g n).endRegion))

/-- AADD. -/
def execAadd (f : G64) (s : State) : Host.Outcome State Fault Refusal := .next (s.atomic f 0)
/-- AFADD. -/
def execAfadd (f : G64) (s : State) : Host.Outcome State Fault Refusal := .next (s.atomic f 1)
/-- AMIN. -/
def execAmin (f : G64) (s : State) : Host.Outcome State Fault Refusal := .next (s.atomic f 2)
/-- AMAX. -/
def execAmax (f : G64) (s : State) : Host.Outcome State Fault Refusal := .next (s.atomic f 3)
/-- AAND. -/
def execAand (f : G64) (s : State) : Host.Outcome State Fault Refusal := .next (s.atomic f 4)
/-- AOR. -/
def execAor (f : G64) (s : State) : Host.Outcome State Fault Refusal := .next (s.atomic f 5)
/-- AXOR. -/
def execAxor (f : G64) (s : State) : Host.Outcome State Fault Refusal := .next (s.atomic f 6)
/-- AXCHG. -/
def execAxchg (f : G64) (s : State) : Host.Outcome State Fault Refusal := .next (s.atomic f 7)
/-- ACAS. -/
def execAcas (f : G64) (s : State) : Host.Outcome State Fault Refusal := .next (s.atomic f 8)

/-! Requests from elsewhere. -/

/-- A request of a context of another module performed at its home (R251, R373, R387): one that reports a conflict is not
performed. What its region happens after cannot be known here, so it counts as begun last (R376). (DEDUCED, log 34.) -/
def State.performRequest (s : State) (r : LineReq) : State :=
  let old := Mem.readLE s.mem r.addr r.size
  let new :=
    match r.op with
    | 0 => none
    | 1 => some r.value.toNat
    | fn + 2 => (atomicNew fn r.ty r.sat old (r.value.toNat % 2 ^ (8 * r.size)) (r.expect.toNat % 2 ^ (8 * r.size))).1
  let ag : Agent := { ident := r.ident, tag := r.tag, regionAt := s.names }
  let s1 := match r.tag with
    | some t => { s with homeTags := Tbl.put s.homeTags r.ident t }
    | none => s
  let t : Target := { space := .globalMem, addr := r.addr, checked := r.checked && s.hasBlock r.addr }
  match s1.checkAccess ag t r.size (r.op != 0) new.isSome (decide (2 ≤ r.op)) with
  | .error _ => s1
  | .ok s2 => match new with
    | some v => ((if r.op = 1 then s2.overwrite .globalMem r.addr r.size else s2).soil r.addr).putMem r.addr r.size v
    | none => s2

/-- The oldest request that waits for a held line is before every access that waits for it (R384). -/
def State.isDue (s : State) (home : Nat) (l : HotLine) : Bool :=
  match l.waiting with
  | [] => false
  | r :: _ =>
    let me : Waiter := { core := 0, lane := 18, age := r.age }
    (s.waiters (2 * l.addr)).all (fun w => decide (me.rank Config.clusters < w.rank home))

/-- The oldest waiting request of some held line of a home is served (R384). -/
def State.serveLine (s : State) (home : Nat) : State :=
  match (s.lines home).find? (s.isDue home) with
  | some l =>
    match l.waiting with
    | r :: rest =>
      let ls := (s.lines home).map (fun x => if x.addr = l.addr then { x with waiting := rest } else x)
      (({ s with hot := Tbl.put s.hot home ls }.claimLine home l.addr).performRequest r).touchLine l.addr
    | [] => s
  | none => s

/-- What the atomic engines do next. -/
def State.nextLine (s : State) : Option (Instr × Cmd) :=
  (s.hot.find? (fun (e : Nat × List HotLine) => e.2.any (s.isDue e.1))).map
    (fun (e : Nat × List HotLine) => (Instr.atomicEngineRequest, ({ unit := e.1 } : Cmd)))

/-- A home has room for a request: at most 64 wait for a line, an atomic needs a line of the store, and no access waits to bring its
line in (R383, R384). -/
def State.hasRoom (s : State) (home : Nat) (r : LineReq) : Bool :=
  !((s.lines home).any (fun l => l.addr == r.addr / 64 && decide (64 ≤ s.waitCount l.addr))) &&
  !(decide (2 ≤ r.op) && s.lineFull home (r.addr / 64)) &&
  ((s.lines home).any (fun l => l.addr == r.addr / 64) || (s.waiters (2 * (r.addr / 64))).isEmpty)

/-- A request from another module arrives at a home that has room for it (R384, R460): it waits its turn at a held line, and
otherwise is performed at once. -/
def State.takeRequest (s : State) (home : Nat) (r : LineReq) (via : Option Nat) : State :=
  let ls := s.lines home
  if ls.any (fun l => l.addr == r.addr / 64) then
    { s with hot := Tbl.put s.hot home (ls.map (fun l =>
        if l.addr = r.addr / 64 then { l with waiting := l.waiting ++ [{ r with age := s.cycle.toNat }] } else l)) }
  else
    (if 2 ≤ r.op then s.useLine home (r.addr / 64) via else s.claimLine home (r.addr / 64)).performRequest r

/-- ATOMIC_ENGINE_REQUEST of a home cluster. -/
def execAtomicEngineRequest (s : State) : Host.Outcome State Fault Refusal := .next (s.serveLine s.cmd.unit)

end Sys2Proof.Machine
end

