-- ==== Sys2Proof/Machine/Barriers.lean ====
section
/-! DEFINITION. Clasp barriers and barrier domains: BARM, BWAIT, BSIG, BQRY (R389 to R396), the release of a phase, and the
writes of a domain's VALID (R390). -/

namespace Sys2Proof.Machine

/-- The barrier fault (R392). -/
def barrierFault (f : G64) : Stop := .trap 16 (BitVec.ofNat 64 f.a.toNat) 0

/-- A domain that the context may name: valid, and of its partition (R392). -/
def State.domainOk (s : State) (n : Nat) : Bool :=
  (s.domain n).isValid && decide ((s.domain n).part.getD 0 0 = BitVec.ofNat 4 s.myPart)

/-- The instruction names a numbered barrier or a domain it may name. -/
def State.barrierOk (s : State) (f : G64) : Except Stop Unit :=
  if f.md ≠ 4 ∨ s.domainOk f.a.toNat then .ok () else .error (barrierFault f)

/-- The issuing task is a member. -/
def State.mustBeMember (s : State) (f : G64) : Except Stop Unit :=
  if (s.barrier (s.barrierId f)).hasMember s.task.id then .ok () else .error (barrierFault f)

/-- BARM `join` (R392, R393). -/
def execBarmJoin (f : G64) (s : State) : Host.Outcome State Fault Refusal :=
  .next (s.issue (metaC (formG f) false) (fun t => do
    t.outsideLoop
    t.barrierOk f
    let id := t.barrierId f
    let b := t.barrier id
    if b.hasMember t.task.id || (f.md == 4 && !((t.domain f.a.toNat).admits t.coreNo)) then .error (barrierFault f)
    else .ok (t.setBarrier id { b with members := b.members ++ [(t.task.id, t.coreNo)] })))

/-- BARM `leave`: a release (R393, R395). -/
def execBarmLeave (f : G64) (s : State) : Host.Outcome State Fault Refusal :=
  .next (s.issue (metaC (formG f) false) (fun t => do
    t.outsideLoop
    t.barrierOk f
    t.mustBeMember f
    let id := t.barrierId f
    .ok (t.putBarrier id ((t.barrier id).leave t.task.id t.coreNo)).endRegion))

/-- BSIG: an arrival (R393, R395). -/
def execBsig (f : G64) (s : State) : Host.Outcome State Fault Refusal :=
  .next (s.issue (metaC (formG f) false) (fun t => do
    t.outsideLoop
    t.barrierOk f
    t.mustBeMember f
    let id := t.barrierId f
    let b := t.barrier id
    if b.hasArrived t.task.id then .error (barrierFault f)
    else .ok (t.putBarrier id (b.arrive t.task.id t.coreNo)).endRegion))

/-- BWAIT's first part: an arrival, if none was made, and the wait (R393). -/
def State.enterBarrier (s : State) (f : G64) : Except Stop State := do
  s.outsideLoop
  s.barrierOk f
  s.mustBeMember f
  let id := s.barrierId f
  let b := s.barrier id
  let s1 := if b.hasArrived s.task.id then s else (s.putBarrier id (b.arrive s.task.id s.coreNo)).endRegion
  .ok (s1.wait (.barrier id b.phase))

/-- BWAIT: it arrives and leaves the ready set; when the phase has changed and its members are released, it returns as an
acquire with the new phase (R393, R395). A task restored meanwhile completes in the same way (R396). (DEDUCED, log 28.) -/
def execBwait (f : G64) (s : State) : Host.Outcome State Fault Refusal :=
  .next (s.issueRaw (metaC (formG f) true) (fun t =>
    match t.ctx.hold with
    | some (.barrier id ph) =>
      let b := t.barrier id
      if b.phase = ph ∨ b.releasing.contains ph then .error (.hold (.barrier id ph))
      else .ok ((t.writeOp f.d ((ph + 1).setWidth 64)).endRegion.retire 2)
    | some (.released ph) => .ok ((t.writeOp f.d ((ph + 1).setWidth 64)).endRegion.retire 2)
    | some .domainLost => .error (barrierFault f)
    | _ => t.enterBarrier f))

/-- BQRY's word (R393). -/
def Barrier.word (b : Barrier) (task : Nat) : Word :=
  BitVec.ofNat 64 (b.phase.toNat * 2 ^ 32 + b.members.length * 2 ^ 22 + b.arrived.length * 2 ^ 12
    + (b.hasArrived task).toNat * 2 + (b.hasMember task).toNat)

/-- BQRY (R393). -/
def execBqry (f : G64) (s : State) : Host.Outcome State Fault Refusal :=
  .next (s.issue (metaC (formG f) true) (fun t => do
    t.outsideLoop
    t.barrierOk f
    .ok (t.writeOp f.d ((t.barrier (t.barrierId f)).word t.task.id))))

/-! Release, and the domain entries. -/

/-- A window of a domain whose members of the phase `ph` are released now opens, if its XOPEN arrived in that phase, and its
timeline starts (R401, R406). -/
def Window.release (w : Window) (domain : Nat) (ph : BitVec 16) (now : Nat) : Window :=
  if w.domain = domain ∧ w.phase = ph + 1 ∧ ¬ w.opened then { w with opened := true, t0 := now } else w

/-- The release of a barrier's waiting members of one phase on one cycle (R36, R393): a domain's windows open, in saved tasks too.
(DEDUCED, log 23.) (DEDUCED, log 28.) -/
def State.releaseBarrier (s : State) (id : Nat) (ph : BitVec 16) : State :=
  let b := s.barrier id
  let s1 := s.setBarrier id { b with releasing := b.releasing.erase ph }
  if id < 2048 then s1
  else
    let open' := fun (k : Kern) => { k with window := k.window.map (fun w => w.release (id - 2048) ph s.cycle.toNat) }
    { s1 with
      k := open' s1.k
      others := s1.others.map (fun (e : Nat × CoreState) => (e.1, { e.2 with k := open' e.2.k }))
      lockets := s1.lockets.map (fun (e : Nat × Saved) => (e.1, { e.2 with k := open' e.2.k })) }

/-- BARRIER_RELEASE of barrier `unit` for the phase `value`, once that has ended. -/
def execBarrierRelease (s : State) : Host.Outcome State Fault Refusal :=
  let ph := s.cmd.value.setWidth 16
  .next (if (s.barrier s.cmd.unit).releasing.contains ph then s.releaseBarrier s.cmd.unit ph else s)

/-- A context that waits at a domain with the barrier `b`: in BWAIT, its phase not ended or not released, or in XOPEN with a window
not yet open. -/
def waitsAt (n : Nat) (b : Barrier) (c : Ctx) (k : Kern) : Bool :=
  match c.hold with
  | some (.barrier id ph) => id == domainId n && (b.phase == ph || b.releasing.contains ph)
  | some (.exchange _) => k.window.any (fun w => w.domain == n && !w.opened)
  | _ => false

/-- What the context's wait becomes when its domain is gone: a BWAIT or XOPEN that waits ends with the barrier fault (R390); a
BWAIT whose phase has ended, of a task that is saved, or has yet to return, still returns, whatever becomes of the domain (R396).
(DEDUCED, log 28.) -/
def loseDomain (n : Nat) (b : Barrier) (c : Ctx) (k : Kern) : Ctx :=
  if waitsAt n b c k then { c with hold := some .domainLost }
  else match c.hold with
    | some (.barrier id ph) => if id = domainId n then { c with hold := some (.released ph) } else c
    | _ => c

/-- VALID of a domain's entry on a die cleared: waiters fault, every membership is cleared, no one is released (R390).
(DEDUCED, log 28.) -/
def State.clearDomain (s : State) (n die : Nat) : State :=
  let d := s.domain n
  if !(d.valid.getD die false) then s
  else
    let s1 := s.onDomain n (fun x => { x with valid := x.valid.setIfInBounds die false, bar := { phase := x.bar.phase } })
    { s1 with
      ctx := loseDomain n d.bar s1.ctx s1.k
      k := { s1.k with peers := s1.k.peers.map (fun c => loseDomain n d.bar c s1.k) }
      others := s1.others.map (fun (e : Nat × CoreState) =>
        (e.1, { e.2 with
          ctx := loseDomain n d.bar e.2.ctx e.2.k
          k := { e.2.k with peers := e.2.k.peers.map (fun c => loseDomain n d.bar c e.2.k) } }))
      lockets := s1.lockets.map (fun (e : Nat × Saved) => (e.1, { e.2 with ctx := loseDomain n d.bar e.2.ctx e.2.k })) }

/-- VALID of a domain's entry on a die set: phase, arrivals and members are zero (R390). -/
def State.makeDomain (s : State) (n die : Nat) : State :=
  if (s.domain n).valid.getD die true then s
  else s.onDomain n (fun x => { x with valid := x.valid.setIfInBounds die true, bar := {} })

/-- DOMAIN_VALID_SET of domain `unit` on the die `part`. -/
def execDomainValidSet (s : State) : Host.Outcome State Fault Refusal := .next (s.makeDomain s.cmd.unit s.cmd.part)
/-- DOMAIN_VALID_CLEAR of domain `unit` on the die `part`. -/
def execDomainValidClear (s : State) : Host.Outcome State Fault Refusal := .next (s.clearDomain s.cmd.unit s.cmd.part)

end Sys2Proof.Machine
end

