-- ==== Sys2Proof/Machine/Control.lean ====
section
/-! DEFINITION. Control transfers (R155 to R158). -/

namespace Sys2Proof.Machine

/-- LR: s31 in a control context, s15 in a helper (R156). -/
def State.linkReg (s : State) : Nat := if s.ctx.slot = 15 then 31 else 15

/-- What a transfer needs to issue; BR, BRC, CALL and RET may stand in an exchange window (R408). -/
def metaJ (f : Form) (window helper : Bool) : Meta := { len := f.len, p := f.p, n := f.n, window := window, helper := helper }

/-- A transfer to a target, after every check of it (R158); a call writes LR with the parcel after itself (R157). -/
def State.transfer (s : State) (m : Meta) (link : Bool) (target : State → Word) : State :=
  s.issueRaw m (fun t => do
    let dst := target t
    let t1 ← t.checkTarget dst
    let t2 := if link then t1.setReg t.linkReg (parcelsAfter t.ctx.pc m.len) else t1
    .ok (t2.goto dst))

/-- A direct transfer by a signed parcel offset (R155). -/
def State.branch (s : State) (f : Form) (link : Bool) : State :=
  s.transfer (metaJ f true true) link (fun t => parcelsAfter t.ctx.pc f.imm.toInt)

/-- BRC: the condition stands in D, its negation in OPT bit 0 (R156, R157). -/
def State.branchIf (s : State) (f : Form) : State :=
  s.issueRaw (metaJ f true true) (fun t =>
    if t.pred f.d.toNat != f.opt.getLsbD 0 then do
      let dst := parcelsAfter t.ctx.pc f.imm.toInt
      let t1 ← t.checkTarget dst
      .ok (t1.goto dst)
    else .ok (t.retire f.len))

/-- BR, 32-bit form. -/
def execBrJ32 (f : J32) (s : State) : Host.Outcome State Fault Refusal := .next (s.branch (formJ f) false)
/-- BR, 64-bit form. -/
def execBrI64 (f : I64) (s : State) : Host.Outcome State Fault Refusal := .next (s.branch (formI f) false)
/-- BR with LIT32. -/
def execBrW96 (f : W96) (s : State) : Host.Outcome State Fault Refusal := .next (s.branch (formW f) false)
/-- BRC, 32-bit form: P and N are the condition. -/
def execBrcJ32 (f : J32) (s : State) : Host.Outcome State Fault Refusal := .next (s.branchIf (formJ f))
/-- BRC, 64-bit form. -/
def execBrcI64 (f : I64) (s : State) : Host.Outcome State Fault Refusal := .next (s.branchIf (formI f))
/-- BRC with LIT32. -/
def execBrcW96 (f : W96) (s : State) : Host.Outcome State Fault Refusal := .next (s.branchIf (formW f))
/-- CALL, 32-bit form. -/
def execCallJ32 (f : J32) (s : State) : Host.Outcome State Fault Refusal := .next (s.branch (formJ f) true)
/-- CALL, 64-bit form. -/
def execCallI64 (f : I64) (s : State) : Host.Outcome State Fault Refusal := .next (s.branch (formI f) true)
/-- CALL with LIT32. -/
def execCallW96 (f : W96) (s : State) : Host.Outcome State Fault Refusal := .next (s.branch (formW f) true)
/-- BRI (R156). -/
def execBri (f : G64) (s : State) : Host.Outcome State Fault Refusal :=
  .next (s.transfer (metaJ (formG f) false true) false (fun t => t.readOp f.a f.da))
/-- CALLI: A is read before LR is written; illegal in a helper (R157, R158). -/
def execCalli (f : G64) (s : State) : Host.Outcome State Fault Refusal :=
  .next (s.transfer (metaJ (formG f) false false) true (fun t => t.readOp f.a f.da))
/-- RET, 64-bit form. -/
def execRetG64 (f : G64) (s : State) : Host.Outcome State Fault Refusal :=
  .next (s.transfer (metaJ (formG f) true true) false (fun t => t.reg t.linkReg))
/-- RET, 32-bit form. -/
def execRetA32 (s : State) : Host.Outcome State Fault Refusal :=
  .next (s.transfer { len := 1, window := true } false (fun t => t.reg t.linkReg))

end Sys2Proof.Machine
end

