-- ==== Sys2Proof/Machine/Exchange.lean ====
section
/-! DEFINITION. Timed exchange (R401 to R412): XOPEN, XSEND, XRECV, XCLOSE, arrivals, and the end of a window. -/

namespace Sys2Proof.Machine

/-! A window. -/

/-- A schedule entry (R403). -/
def Window.entry (w : Window) (slot : Nat) : BitVec 32 := w.sched.getD slot 0
def entryRv (e : BitVec 32) : Bool := e.getLsbD 26
def entrySv (e : BitVec 32) : Bool := e.getLsbD 10
def entryRsrc (e : BitVec 32) : Nat := bits e 16 10
def entrySdst (e : BitVec 32) : Nat := bits e 0 10

/-- First cycle of a slot, and the first cycle after it (R401). -/
def Window.slotStart (w : Window) (slot : Nat) : Nat := w.t0 + w.lead + slot * w.slen
def Window.slotEnd (w : Window) (slot : Nat) : Nat := w.t0 + w.lead + (slot + 1) * w.slen

/-- The open window of the core in focus. -/
def State.openWindow (s : State) : Option Window := s.k.window.filter (fun w => w.opened)

/-- The exchange-state fault (R405). -/
def exchangeFault (reason : Nat) : Stop := .trap 18 (BitVec.ofNat 64 reason) 0

/-- The slot fault (R405). -/
def slotFault (slot : Word) : Stop := .trap 17 slot 0

/-- What an exchange instruction needs: it stands in a window (R408), and in no helper (R404). -/
def metaX62 (f : Form) (dest : Bool) : Meta := { metaC f dest with window := true }

/-! XOPEN. -/

/-- A core number of a schedule entry: another core of the module that MASK admits (R403). -/
def State.goodPeer (s : State) (n peer : Nat) : Bool :=
  decide (peer < Config.cores) && (s.domain n).admits peer && peer != s.coreNo

/-- A schedule entry that R403 allows. -/
def State.goodEntry (s : State) (n : Nat) (e : BitVec 32) : Bool :=
  bits e 27 5 == 0 && bits e 11 5 == 0 && (if entryRv e then s.goodPeer n (entryRsrc e) else entryRsrc e == 0) &&
  (if entrySv e then s.goodPeer n (entrySdst e) else entrySdst e == 0)

/-- The least SLEN of a domain (R402). -/
def State.leastSlen (s : State) (n : Nat) : Nat :=
  let d := s.domain n
  if d.mask.getD 0 0 ≠ 0 ∧ d.mask.getD 1 0 ≠ 0 then 48 else 16

/-- The engines of the core have nothing to do (R406). -/
def State.quiet (s : State) : Bool :=
  s.k.mvuq.isEmpty && s.k.unreleased.isEmpty && s.k.chans.toList.all (fun c => c.queue.isEmpty) &&
  (s.ixQueue (s.coreNo / 16)).all (fun r => r.core != s.coreNo)

/-- The own fetch line and the next three, in the instruction cache and locked (R406). A line whose fetch would trap is not
there to lock. (DEDUCED, log 23.) -/
def State.lockLines (s : State) : Nat → Word → Except Stop State
  | 0, _ => .ok s
  | n + 1, pc =>
    match s.cachedLine true pc with
    | .ok (_, s1) =>
      let lock := fun (l : Line) => if l.va = (lineOf pc).toNat then { l with locked := true } else l
      State.lockLines { s1 with hw := { s1.hw with icache := s1.hw.icache.map lock } } n (lineOf pc + 64)
    | .error (.trap ..) => s.lockLines n (lineOf pc + 64)
    | .error r => .error r

/-- Parameters of an XOPEN: LEAD, SLEN, NSLOT (R404). -/
def paramsBad (par tab : Word) : Bool :=
  let nslot := bits par 0 13
  bits par 48 16 != 0 || bits par 24 8 != 0 || bits par 13 3 != 0 || nslot == 0 || decide (4096 < nslot) ||
  decide (bits par 16 8 < 16) || decide (bits par 32 16 < 16) || tab.toNat % 4 != 0 ||
  decide (Config.localBytes < tab.toNat + 4 * nslot)

/-- XOPEN's first part: its checks, the drain, the schedule, and the arrival (R405, R406). (DEDUCED, log 23.) -/
def State.enterExchange (s : State) (f : G64) : Except Stop State := do
  s.outsideLoop
  let n := f.a.toNat
  let tab := s.readOp f.b f.db
  let par := s.readOp f.c f.dc
  let b := s.barrier (domainId n)
  if s.openWindow.isSome then .error (exchangeFault 4)
  else do
    s.barrierOk f
    s.mustBeMember f
    if b.hasArrived s.task.id then .error (barrierFault f)
    else if paramsBad par tab then .error (exchangeFault 1)
    else if ¬ s.quiet then .error (.hold .condition)
    else
      let sched := (upFrom 0 (bits par 0 13)).map (fun i => BitVec.ofNat 32 (Mem.readLE s.k.localMem (tab.toNat + 4 * i) 4))
      if sched.any (fun e => !(s.goodEntry n e)) then .error (exchangeFault 2)
      else if bits par 16 8 < s.leastSlen n then .error (exchangeFault 3)
      else do
        let s1 ← s.lockLines 4 s.ctx.pc
        let w : Window :=
          { domain := n, phase := b.phase + 1, lead := bits par 32 16, slen := bits par 16 8, nslot := bits par 0 13,
            sched := sched }
        let s2 := { s1 with k := { s1.k with window := some w } }
        let s3 := (s2.putBarrier (domainId n) (b.arrive s2.task.id s2.coreNo)).endRegion
        .ok (s3.wait (.exchange b.phase))

/-- Lines locked for a window are free again (R410). -/
def State.unlockLines (s : State) : State :=
  { s with hw := { s.hw with icache := s.hw.icache.map (fun l => { l with locked := false }) } }

/-- The window is gone. (DEDUCED, log 23.) -/
def State.dropWindow (s : State) : State := { s.unlockLines with k := { s.k with window := none } }

/-- XOPEN (R406): it returns once the release has opened its window. -/
def State.xopen (s : State) (f : G64) : State :=
  s.issueRaw (metaX62 (formG f) true) (fun t =>
    match t.ctx.hold, t.k.window with
    | some (.exchange ph), some w =>
      if w.opened then .ok ((t.writeOp f.d (BitVec.ofNat 64 (w.t0 + w.lead))).endRegion.retire 2)
      else .error (.hold (.exchange ph))
    | some .domainLost, _ => .ok (t.dropWindow.stopped (barrierFault f))
    | _, _ => t.enterExchange f)

/-- XOPEN. -/
def execXopen (f : G64) (s : State) : Host.Outcome State Fault Refusal := .next (s.xopen f)

/-! XSEND. -/

/-- The checks of XSEND in their order (R407). -/
def State.sendChecks (s : State) (slot dest : Word) : Except Stop Window :=
  match s.openWindow with
  | none => .error (exchangeFault 5)
  | some w =>
    let e := w.entry slot.toNat
    if w.nslot ≤ slot.toNat ∨ ¬ entrySv e ∨ entrySdst e ≠ dest.toNat ∨ w.sent.contains slot.toNat ∨
      w.slotEnd slot.toNat ≤ s.cycle.toNat then .error (slotFault slot)
    else .ok w

/-- The value leaves for its receiver, and XSEND retires (R407, R409). -/
def State.transmit (s : State) (w : Window) (slot dest : Nat) (v : Word) : State :=
  let note : Cmd := { core := dest, part := w.domain, unit := slot, addr := s.coreNo, value := v, tag := w.phase.setWidth 64 }
  { s with
    k := { s.k with window := some { w with sent := slot :: w.sent } }
    inflight := s.inflight ++ [(Instr.exchangeArrival, note)] }.retire 2

/-- XSEND of a value read at issue: it waits for its slot's first cycle (R407). -/
def State.xsend (s : State) (f : G64) : State :=
  s.issueRaw (metaX62 (formG f) false) (fun t => do
    t.outsideLoop
    match t.ctx.hold, t.openWindow with
    | some (.send slot dest v), some w =>
      if t.cycle.toNat < w.slotStart slot then .error (.hold (.send slot dest v)) else .ok (t.transmit w slot dest v)
    | _, _ => do
      let slot := t.readOp f.a f.da
      let dest := t.readOp f.b f.db
      let v := t.readOp f.c f.dc
      let w ← t.sendChecks slot dest
      if t.cycle.toNat < w.slotStart slot.toNat then .error (.hold (.send slot.toNat dest.toNat v))
      else .ok (t.transmit w slot.toNat dest.toNat v))

/-- XSEND. -/
def execXsend (f : G64) (s : State) : Host.Outcome State Fault Refusal := .next (s.xsend f)

/-! XRECV. -/

/-- A send of a slot to this core is due or on its way: it arrives before the slot ends (R402). -/
def State.arrivalDue (s : State) (slot : Nat) : Bool :=
  s.inflight.any (fun e => (match e.1 with | .exchangeArrival => true | _ => false) && e.2.core == s.coreNo && e.2.unit == slot) ||
  s.others.any (fun (e : Nat × CoreState) =>
    match (s.ctxOf e.1).hold, e.2.k.window with
    | some (.send sl dest _), some w => sl == slot && dest == s.coreNo && decide (w.slotStart sl ≤ s.cycle.toNat)
    | _, _ => false)

/-- XRECV (R407): it waits for the end of its slot, and for what was sent in it. -/
def State.xrecv (s : State) (f : G64) : State :=
  s.issueRaw (metaX62 (formG f) true) (fun t => do
    t.outsideLoop
    let slot := t.readOp f.a f.da
    match t.openWindow with
    | none => .error (exchangeFault 5)
    | some w =>
      if w.nslot ≤ slot.toNat ∨ ¬ entryRv (w.entry slot.toNat) then .error (slotFault slot)
      else if t.cycle.toNat < w.slotEnd slot.toNat ∨ t.arrivalDue slot.toNat then .error (.hold (.recv slot.toNat))
      else .ok ((t.writeOp f.d (Tbl.getD w.store slot.toNat 0)).retire 2))

/-- XRECV. -/
def execXrecv (f : G64) (s : State) : Host.Outcome State Fault Refusal := .next (s.xrecv f)

/-! XCLOSE. -/

/-- Slots of a window for which a test holds. -/
def Window.count (w : Window) (test : Nat → Bool) : Nat := ((upFrom 0 w.nslot).filter test).length

/-- The status word (R410). -/
def Window.status (w : Window) : Word :=
  let missing := w.count (fun i => entryRv (w.entry i) && (Tbl.find w.store i).isNone)
  let unsent := w.count (fun i => entrySv (w.entry i) && !(w.sent.contains i))
  BitVec.ofNat 64 (missing * 2 ^ 26 + w.unexp * 2 ^ 13 + unsent)

/-- A value for this core is on its way. -/
def State.anyArrivalDue (s : State) (w : Window) : Bool := (upFrom 0 w.nslot).any s.arrivalDue

/-- XCLOSE (R410). -/
def State.xclose (s : State) (f : G64) : State :=
  s.issueRaw (metaX62 (formG f) true) (fun t => do
    t.outsideLoop
    match t.openWindow with
    | none => .error (exchangeFault 5)
    | some w =>
      if t.cycle.toNat < w.ending ∨ t.anyArrivalDue w then .error (.hold .condition)
      else .ok ((t.dropWindow.writeOp f.d w.status).retire 2))

/-- XCLOSE. -/
def execXclose (f : G64) (s : State) : Host.Outcome State Fault Refusal := .next (s.xclose f)

/-! Events. -/

/-- An arrival at the core in focus (R409): sender, domain, phase, slot, value. -/
def State.storeArrival (s : State) (sender domain slot : Nat) (phase v : Word) : State :=
  match s.openWindow with
  | none => s
  | some w =>
    let e := w.entry slot
    let fits := w.domain == domain && w.phase.setWidth 64 == phase && decide (slot < w.nslot) && entryRv e &&
      entryRsrc e == sender && (Tbl.find w.store slot).isNone
    let w1 := if fits then { w with store := Tbl.put w.store slot v } else { w with unexp := min 8191 (w.unexp + 1) }
    { s with k := { s.k with window := some w1 } }

/-- The instruction at which the control context of the core in focus waits. -/
def State.waitingAt (s : State) : Option Instr :=
  if s.ctx.slot = 15 ∧ s.ctx.live ∧ s.ctx.hold.isSome then
    (match decode s.ctx.ir.toList with
      | .ok i => some i
      | .error _ => none)
  else none

/-- The exchange instruction that waits on the core in focus issues again, if it is of the kind that `go` knows. -/
def State.goOn (s : State) (core : Nat) (go : Instr → State → State) : State :=
  s.atCore core (fun x =>
    let y := x.focusSlot 15
    match y.waitingAt with
    | some i => (go i y).focusSlot x.ctx.slot
    | none => x)

/-- XOPEN_ARRIVE at a core whose XOPEN waits. -/
def execXopenArrive (s : State) : Host.Outcome State Fault Refusal :=
  .next (s.goOn s.cmd.core (fun i y => match i with | .xopen f => y.xopen f | _ => y))
/-- XSEND_TRANSMIT at a core whose XSEND waits. -/
def execXsendTransmit (s : State) : Host.Outcome State Fault Refusal :=
  .next (s.goOn s.cmd.core (fun i y => match i with | .xsend f => y.xsend f | _ => y))
/-- EXCHANGE_ARRIVAL at core `core`, from core `addr`, in slot `unit` of a window of domain `part`, its phase in `tag`. -/
def execExchangeArrival (s : State) : Host.Outcome State Fault Refusal :=
  let c := s.cmd
  .next (s.atCore c.core (fun x => x.storeArrival c.addr c.part c.unit c.tag c.value))
/-- XRECV_DELIVER at a core whose XRECV waits. -/
def execXrecvDeliver (s : State) : Host.Outcome State Fault Refusal :=
  .next (s.goOn s.cmd.core (fun i y => match i with | .xrecv f => y.xrecv f | _ => y))
/-- XCLOSE_COMPLETE at a core whose XCLOSE waits. -/
def execXcloseComplete (s : State) : Host.Outcome State Fault Refusal :=
  .next (s.goOn s.cmd.core (fun i y => match i with | .xclose f => y.xclose f | _ => y))

/-- A page request or a page-in that a context waits for is not over (R250, R255). -/
def State.pageOwed (s : State) (w : Wait) : Bool :=
  match w with
  | .page p seq => (s.part p).requests.any (fun r => r.seq == seq)
  | .tier leaf =>
    let pg := s.page leaf
    pg.stage == .pageIn || pg.stage == .pageOut || pg.undone
  | _ => false

/-- The fetch that a window has held in its core parks its task once the window is gone, if its page is still missing (R411). -/
def State.parkFetch (s : State) : State :=
  match s.ctx.hold.filter s.pageOwed with
  | some (.page p seq) =>
    match s.save 2 .parked false none with
    | some (tag, s1) => s1.onPart p (fun q => { q with requests := q.requests.map (fun r =>
        if r.seq = seq then { r with parked := some tag } else r) })
    | none => s
  | some (.tier leaf) =>
    match s.save 3 .parked false (some leaf) with
    | some (_, s1) => s1
    | none => s
  | _ => s

/-- The control context is in an exchange instruction that has issued: an XCLOSE, or one whose cycle lies before E.
(DEDUCED, log 23.) -/
def State.inExchange (s : State) : Bool :=
  match (s.focusSlot 15).waitingAt, s.control.hold with
  | some (.xclose _), _ => true
  | _, some (.exchange _) | _, some (.send ..) | _, some (.recv _) => true
  | _, _ => false

/-- A window that a deferred pre-emption or a missing fetch ends at cycle E (R411): an XCLOSE that has issued completes, and so does
another exchange instruction, which was due before E. -/
def State.mustDiscard (s : State) : Bool :=
  match s.openWindow with
  | some w =>
    decide (w.ending ≤ s.cycle.toNat) &&
    ((s.hw.preempting.isSome && !s.inExchange) || s.control.hold.any s.pageOwed)
  | none => false

/-- WINDOW_END_DISCARD at a core. -/
def execWindowEndDiscard (s : State) : Host.Outcome State Fault Refusal :=
  .next (s.atCore s.cmd.core (fun x => if x.mustDiscard then (x.focusSlot 15).dropWindow.parkFetch else x))

end Sys2Proof.Machine
end

