-- ==== Sys2Proof/Machine/System.lean ====
section
/-! DEFINITION. The system instructions (R434): TRAP, BKPT, ERET, HALT, SYSRD and SYSWR with the system registers (R54 to
R56), the reserved-opcode trap (R72), and the taking of an asynchronous fault (R420). -/

namespace Sys2Proof.Machine

/-! System registers. -/

/-- CTXID of the context in focus (R55). -/
def State.ctxId (s : State) : Word := BitVec.ofNat 64 (s.myPart * 2 ^ 32 + s.ctx.slot * 2 ^ 28 + s.coreNo)

/-- Bits of TRAPCAUSE that hold fields (R415). -/
def trapCauseMask : Word := 0x800000000003FFFF

/-- A system register by its number: a helper reads its own CTXID and RETIRED and its parent's other registers (R54). -/
def State.sysReg (s : State) (n : Nat) : Word :=
  match n with
  | 0x000 => s.ctxId
  | 0x001 => s.cycle
  | 0x002 => s.ctx.retired
  | 0x003 => s.control.region
  | 0x004 => s.k.engseq.setWidth 64
  | 0x008 => s.k.heapbase
  | 0x009 => s.k.heaplim
  | 0x00A => s.k.heapoff
  | 0x010 => s.k.trapcause
  | 0x011 => s.k.trapaddr
  | 0x012 => s.k.trapseq
  | 0x013 => s.k.trappc
  | 0x014 => s.k.trapvec
  | 0x018 => s.control.fpflags
  | 0x019 => s.control.srseed
  | 0x030 => s.k.loop.stat
  | n => if 0x020 ≤ n ∧ n ≤ 0x027 then (s.chan (n - 0x020)).wp else 0

/-- A system register written; HEAP registers refuse a value with low bits (R54). -/
def State.setSysReg (s : State) (n : Nat) (v : Word) : Except Stop State :=
  let heap := fun (k : Kern) => if v.toNat % 65536 = 0 then Except.ok { s with k := k } else Except.error Stop.illegal
  match n with
  | 0x008 => heap { s.k with heapbase := v }
  | 0x009 => heap { s.k with heaplim := v }
  | 0x00A => heap { s.k with heapoff := v }
  | 0x010 => .ok { s with k := { s.k with trapcause := v &&& trapCauseMask } }
  | 0x011 => .ok { s with k := { s.k with trapaddr := v } }
  | 0x012 => .ok { s with k := { s.k with trapseq := v } }
  | 0x013 => .ok { s with k := { s.k with trappc := v } }
  | 0x014 => .ok { s with k := { s.k with trapvec := v } }
  | 0x018 => .ok { s with ctx := { s.ctx with fpflags := v &&& 0x7F } }
  | 0x019 => .ok { s with ctx := { s.ctx with srseed := v } }
  | _ => .error Stop.illegal

/-- SYSRD. -/
def execSysrd (f : SysForm) (s : State) : Host.Outcome State Fault Refusal :=
  .next (s.issue (metaM (formS f) true) (fun t =>
    if SysReg.listed f.imm then .ok (t.writeOp f.d (t.sysReg (f.imm.toNat % 4096))) else .error Stop.illegal))

/-- SYSWR. -/
def execSyswr (f : SysForm) (s : State) : Host.Outcome State Fault Refusal :=
  .next (s.issue (metaC (formS f) false) (fun t =>
    if SysReg.writable f.imm then t.setSysReg (f.imm.toNat % 4096) (t.readOp f.a f.da) else .error Stop.illegal))

/-! Traps by instruction. -/

/-- The instruction counts as retired before its trap is taken (R54). (DEDUCED, log 15.) -/
def State.countRetired (s : State) : State := { s with ctx := { s.ctx with retired := s.ctx.retired + 1 } }

/-- TRAP (R434): TRAPPC names the parcel after it. -/
def State.trapInstr (s : State) (f : Form) : State :=
  s.issueRaw (metaM f false) (fun t => .ok (t.countRetired.trapAt 20 f.imm 0 (parcelsAfter t.ctx.pc f.len)))

/-- TRAP with a 24-bit immediate. -/
def execTrapI64 (f : I64) (s : State) : Host.Outcome State Fault Refusal := .next (s.trapInstr (formI f))
/-- TRAP with LIT32. -/
def execTrapW96 (f : W96) (s : State) : Host.Outcome State Fault Refusal := .next (s.trapInstr (formW f))

/-- BKPT (R434). -/
def execBkpt (f : G64) (s : State) : Host.Outcome State Fault Refusal :=
  .next (s.issueRaw (metaM (formG f) false) (fun t =>
    .ok (t.countRetired.trapAt 21 (f.a.setWidth 64) 0 (parcelsAfter t.ctx.pc 2))))

/-- ERET (R434, R286). -/
def execEret (f : G64) (s : State) : Host.Outcome State Fault Refusal :=
  .next (s.issueRaw (metaC (formG f) false) (fun t =>
    if ¬ t.k.trapcause.getLsbD 63 then .error Stop.illegal
    else if badPc t.k.trappc then .error (.trap 3 t.k.trappc 0)
    else .ok (t.eretTo t.k.trappc)))

/-- HALT (R424, R434). -/
def execHalt (f : G64) (s : State) : Host.Outcome State Fault Refusal :=
  .next (s.issueRaw (metaC (formG f) false) (fun t => .ok (t.countRetired.endWith 25 0 (t.readOp f.a f.da))))

/-- The reserved-opcode trap (R72): TRAPADDR names the parcel after the instruction, whose length its first parcel gives.
(DESIGN CHOICE, log 13.) -/
def execReservedOpcodeTrap (s : State) : Host.Outcome State Fault Refusal :=
  .next (s.trapHere 2 (parcelsAfter s.ctx.pc (parcelCount (s.ctx.ir.getD 0 0))) 0)

/-! Asynchronous faults. -/

/-- What stands queued on the unit that reported a fault is discarded, and the unit goes on, when its fault is taken (R346,
R419): channels by source 1 to 8, which may then take what a loop still holds for them (R279), the indirect engine by source 9. (DEDUCED, log 22.) -/
def State.restartUnit (s : State) (source : Nat) : State :=
  if 1 ≤ source ∧ source ≤ 8 then
    (s.onChan (source - 1) (fun c =>
      { c with queue := [], stopped := false, held := false, pfhold := false, waiting := none })).release
  else if source = 9 then
    let cl := s.coreNo / 16
    let mine := (s.ixQueue cl).filter (fun r => r.core == s.coreNo)
    let s1 := { s.setIx cl ((s.ixQueue cl).filter (fun r => r.core != s.coreNo)) with k := { s.k with ixStopped := false } }
    mine.foldl (fun (acc : State) r => acc.signal r.line) s1
  else s

/-- The instruction at the PC has not issued: it waits for nothing, or for what comes before its issue. (DEDUCED, log 27.) -/
def Ctx.unissued (c : Ctx) : Bool :=
  match c.hold with
  | none | some .operand | some .dispatchFull => true
  | _ => false

/-- The control context in focus is at a boundary where a pending fault may be taken: inside an overlapped loop at one in a
body, not between two iterations (R285, R420). (DEDUCED, log 27.) -/
def State.takesFault (s : State) : Bool :=
  s.ctx.slot == 15 && s.ctx.live && s.ctx.unissued && !(s.k.trapcause.getLsbD 63) && !(s.loopAt .starting) &&
    !(s.loopAt .complete)

/-- Taken before the next instruction issues, the fault of a VRED4 leaves the context at its PC again, not counted: it
restarts after ERET (R77). Left pending while HACT is 1 and taken later, at another PC, it restarts nothing, since the context
has gone on (R420). (DEDUCED, log 21.) -/
def State.rewind (s : State) (p : Pending) : State :=
  if p.restart ∧ s.ctx.pc = parcelsAfter p.addr 2 then
    { s with ctx := { s.ctx with pc := p.addr, retired := s.ctx.retired - 1 } }
  else s

/-- ASYNC_FAULT_TAKEN by the control context in focus: the oldest pending fault (R420). -/
def execAsyncFaultTaken (s : State) : Host.Outcome State Fault Refusal :=
  match s.k.pending with
  | [] => .next s
  | p :: rest =>
    if s.takesFault then
      let s1 := ({ s with k := { s.k with pending := rest } }.restartUnit p.source).rewind p
      .next (s1.takeTrap { cause := p.cause, sub := p.sub, addr := p.addr, pc := s1.ctx.pc, seq := p.seq, async := true,
                           record := s1.currentRecord p.record })
    else .next s

end Sys2Proof.Machine
end

