-- ==== Sys2Proof/Machine/Registers.lean ====
section
/-! DEFINITION. The control space (R448 to R452, R465): every register of it as system software writes and reads it. -/

namespace Sys2Proof.Machine

/-- A word with only the bits of a mask. -/
def masked (v : Word) (mask : Nat) : Word := v &&& BitVec.ofNat 64 mask

/-- Bits `lo` to `hi` of a mask. -/
def maskBits (lo hi : Nat) : Nat := 2 ^ (hi + 1) - 2 ^ lo

/-- An index register counts modulo 2 to the 32 (R437). -/
def index32 (v : Word) : Word := BitVec.ofNat 64 (v.toNat % 2 ^ 32)

/-! The module block. -/

/-- Every counter of the sample unit cleared (R438). -/
def State.clearCounts (s : State) : State :=
  { s with
    hw := { s.hw with counts := {} }
    others := s.others.map (fun (e : Nat × CoreState) => (e.1, { e.2 with hw := { e.2.hw with counts := {} } }))
    mod := { s.mod with sampTime := 0, engineCounts := [], quadCounts := [] } }

/-- SAMPCTL written (R437): with EN set only EN is taken; values out of range leave their field; EN needs a ring (R465). EN set
clears every counter, and the first tick is the next one (R438). (DEDUCED, log 31.) -/
def State.writeSampctl (s : State) (v : Word) : State :=
  let cur := s.mod.sampctl
  if cur.getLsbD 0 then { s with mod := { s.mod with sampctl := setBits cur 0 1 v.toNat } }
  else
    let c1 := setBits cur 15 37 (bits v 15 37)
    let c2 := if bits v 10 5 ≤ 16 then setBits c1 10 5 (bits v 10 5) else c1
    let c3 := if 8 ≤ bits v 5 5 ∧ bits v 5 5 ≤ 24 then setBits c2 5 5 (bits v 5 5) else c2
    if v.getLsbD 0 && bits c3 15 37 != 0 then
      let length := 2 ^ bits c3 5 5
      { s with mod := { s.mod with
          sampctl := setBits c3 0 1 1
          samptail := 0
          samphead := 0
          sampSeq := 0
          sampDropped := 0
          sampFirst := true
          sampNext := (s.cycle.toNat / length + 1) * length } }.clearCounts
    else { s with mod := { s.mod with sampctl := c3 } }

/-- POWERCAP written: a cap of 1000 to 2400 W (R463). -/
def State.writePowercap (s : State) (v : Word) : State :=
  let w := bits v 0 16
  if 1000 ≤ w ∧ w ≤ 2400 then { s with mod := { s.mod with powercap := BitVec.ofNat 64 w } } else s

/-- Cycles of a millisecond at a clock step: of 850, 765, 680 or 595 MHz (R463). -/
def msCycles (step : Nat) : Nat := [850000, 765000, 680000].getD step 595000

/-- Whole milliseconds since the last change of the clock step. -/
def State.sinceClock (s : State) : Nat := (s.cycle.toNat - s.mod.clockAt) / msCycles s.mod.clock

/-- The mean power of the millisecond that began `n` milliseconds after the last change of the clock step: a free value.
(DESIGN CHOICE, log 9.) -/
def State.meanAt (s : State) (n : Nat) : BitVec 32 := Config.meanPower (s.mod.clockAt + n * msCycles s.mod.clock)

/-- POWERCAP as it reads (R463): the cap, the clock step, and the mean power of the last millisecond. -/
def State.powerWord (s : State) : Word :=
  setBits (setBits s.mod.powercap 16 8 s.mod.clock) 32 32 (s.meanAt (s.sinceClock - 1)).toNat

/-- MODID written (R460): ignored once a link has been enabled. -/
def State.writeModid (s : State) (v : Word) : State :=
  if s.mod.linkEnabled then s else { s with mod := { s.mod with modid := masked v 63 } }

/-- Waiting error records are written while there is room (R456). -/
def State.flushErrors (s : State) : Nat → State
  | 0 => s
  | n + 1 =>
    match s.mod.errWait with
    | [] => s
    | r :: rest =>
      match s.putErrorRecord r with
      | some s1 => State.flushErrors { s1 with mod := { s1.mod with errWait := rest } } n
      | none => s

/-- Every waiting error record that has room is written (R456). -/
def State.flushAll (s : State) : State := s.flushErrors s.mod.errWait.length

/-- ERRHEAD written (R456). -/
def State.writeErrhead (s : State) (v : Word) : State := { s with mod := { s.mod with errhead := index32 v } }.flushAll

/-- HOMEMAP written: the bits 7 of the map that it names ask for their blocks (R243). (DEDUCED, log 24.) -/
def State.writeHomemap (s : State) (v : Word) : State :=
  let s1 := { s with mod := { s.mod with homemap := masked v (maskBits 12 51) } }
  s1.askBlocks s1.mem

/-- ATTEST written (R459): ignored while BUSY. -/
def State.writeAttest (s : State) (v : Word) : State :=
  if s.mod.attest.getLsbD 63 then s
  else { s with mod := { s.mod with attest := masked v (maskBits 9 51) ||| BitVec.ofNat 64 (2 ^ 63) } }

/-- RECFREE written (R243, R448): the record block of a 2 MiB region is released; its records read as no access. -/
def State.freeRecords (s : State) (v : Word) : State :=
  let region := bits v 21 31
  if s.recBlocks.contains region then
    { s with
      recBlocks := s.recBlocks.filter (fun r => r != region)
      records := s.records.filter (fun (r : Nat × Word) => r.1 * 64 / 2 ^ 21 != region) }
  else s

/-- A register of the module block written. -/
def State.writeModuleReg (s : State) (off : Nat) (v : Word) : State :=
  match off with
  | 0x00 => s.writeModid v
  | 0x08 => s.writeSampctl v
  | 0x18 => { s with mod := { s.mod with samphead := index32 v } }
  | 0x20 => s.writeHomemap v
  | 0x28 => s.writePowercap v
  | 0x38 => { s with mod := { s.mod with errring := masked v (maskBits 12 51 + 15) } }.flushAll
  | 0x48 => s.writeErrhead v
  | 0x50 => s.writeAttest v
  | 0x58 => s.freeRecords v
  | _ => s

/-! Partitions. -/

/-- Another partition owns one of the units of a mask. -/
def State.taken (s : State) (p : Nat) (mine : Part → Word) (v : Word) : Bool :=
  (upFrom 0 16).any (fun q => q != p && mine (s.part q) &&& v != 0)

/-- QENG of a PARTCTL value. -/
def qengOf (v : Word) : Word := BitVec.ofNat 64 (bits v 8 8)

/-- The partition starts (R451): an empty scope table with the root job open. -/
def Part.start (q : Part) : Part :=
  { q with
    ctl := setBits (setBits q.ctl 0 1 1) 1 1 0
    draining := false
    scopes := [(0, { state := .opened, kind := 4 })] }

/-- PARTCTL written (R450 to R452). -/
def State.writePartctl (s : State) (p : Nat) (v : Word) : State :=
  let cur := s.part p
  if cur.ctl.getLsbD 0 then
    if v.getLsbD 0 || cur.draining then s
    else (s.onPart p (fun q => { q with draining := true })).cancelScope p 0
  else if s.taken p (fun q => qengOf q.ctl) (qengOf v) then s
  else
    let s1 := s.onPart p (fun q => { q with ctl := setBits q.ctl 8 8 (bits v 8 8) })
    if v.getLsbD 0 && bits v 8 8 != 0 && cur.clusters != 0 then s1.onPart p Part.start else s1

/-- A control register of rings, as TRACECTL and REPLAYCTL are laid out: EN needs a ring (R442, R445, R465). -/
def ringCtl (v : Word) (kinds : Nat) : Word :=
  let w := masked v (maskBits 8 51 + kinds + 1)
  if bits w 12 40 = 0 then setBits w 0 1 0 else w

/-- EN goes from 0 to 1. -/
def rises (old new : Word) : Bool := new.getLsbD 0 && !old.getLsbD 0

/-- REPLAYCTL written (R445). (DESIGN CHOICE, log 29.) -/
def Part.writeReplay (q : Part) (v : Word) : Part :=
  let w := ringCtl v 0
  if rises q.replayctl w then { q with replayctl := w, rptail := 0, rphead := 0 } else { q with replayctl := w }

/-- PREEMPT written (R425, R450): ignored while BUSY and for a core of another partition; an idle core's request completes
at once with code 1. -/
def State.writePreempt (s : State) (p : Nat) (v : Word) : State :=
  let core := bits v 0 10
  if (s.part p).preempt.getLsbD 63 ∨ Config.cores ≤ core ∨ ¬ s.ownsCore p core then s
  else
    let busy := s.onPart p (fun q => { q with preempt := BitVec.ofNat 64 (2 ^ 63 + core) })
    busy.atCore core (fun x =>
      let y := { x with hw := { x.hw with preempting := some { part := p } } }
      if y.k.task.isNone then y.finishPreempt 1 else y)

/-- A register of a partition that is written only while EN is 0 (R451). -/
def State.whileOff (s : State) (p : Nat) (f : Part → Part) : State :=
  if (s.part p).ctl.getLsbD 0 then s else s.onPart p f

/-- A register that gives units to a partition: no unit goes to a second one (R451). -/
def State.giveUnits (s : State) (p : Nat) (mine : Part → Word) (v : Word) (f : Part → Part) : State :=
  if s.taken p mine v then s else s.whileOff p f

/-- A register of a partition's block written. -/
def State.writePartReg (s : State) (p off : Nat) (v : Word) : State :=
  let c := masked v (maskBits 0 47)
  let lo := masked v (maskBits 0 31)
  match off with
  | 0x00 => s.writePartctl p v
  | 0x08 => s.giveUnits p (fun q => q.clusters) c (fun q => { q with clusters := c })
  | 0x10 => s.giveUnits p (fun q => q.sets0) v (fun q => { q with sets0 := v })
  | 0x18 => s.giveUnits p (fun q => q.sets1) lo (fun q => { q with sets1 := lo })
  | 0x20 => s.giveUnits p (fun q => q.tierSets0) v (fun q => { q with tierSets0 := v })
  | 0x28 => s.giveUnits p (fun q => q.tierSets1) lo (fun q => { q with tierSets1 := lo })
  | 0x30 => s.whileOff p (fun q => { q with ptroot := masked v (maskBits 12 51) })
  | 0x38 => s.onPart p (fun q => { q with sdva := masked v (maskBits 16 56) })
  | 0x40 => s.startShootdown p v
  | 0x48 => s.pageDone p (BitVec.ofNat 32 v.toNat)
  | 0x50 => s.writePreempt p v
  | 0x58 => (s.onPart p (fun q => { q with prring := masked v (maskBits 12 51 + 15) })).flushRequests p
  | 0x60 => s.whileOff p (fun q => { q with frtbase := masked v (maskBits 14 51) })
  | 0x68 => s.whileOff p (fun q => { q with locketpool := masked v (maskBits 22 51 + 1023) })
  | 0x70 => s.whileOff p (fun q => { q with freepool := masked v (maskBits 12 51 + 15) })
  | 0x78 => s.onPart p (fun q => q.writeReplay v)
  | 0x88 => s.onPart p (fun q => { q with rphead := index32 v })
  | _ => s

/-- Every core of a partition is idle and every Running and Parked task of it has ended (R452). -/
def State.isDrained (s : State) (p : Nat) : Bool :=
  s.coreList.all (fun c => !(s.ownsCore p c) || (s.kernOf c).task.isNone) &&
  (s.recordsOf p).all (fun x => x.2.2.state != .running && x.2.2.state != .parked)

/-- A disabled partition that has drained (R452). -/
def State.endDrain (s : State) (p : Nat) : State :=
  if (s.part p).draining && s.isDrained p then
    s.onPart p (fun q => { q with ctl := setBits q.ctl 0 1 0, draining := false })
  else s

/-! Queue engines. -/

/-- A queue's control word written: with EN set, only EN is taken (R213); a write whose PART is not the engine's owner is
ignored (R451). (DESIGN CHOICE, log 29.) -/
def State.writeQctl (s : State) (q : Nat) (v : Word) : State :=
  if 512 ≤ q ∨ s.engineOwner (q / 64) ≠ some (bits v 52 4) then s
  else s.onQueue q (fun x =>
    let c0 := x.ctl
    let c1 :=
      if x.enabled then c0
      else
        let a := setBits c0 6 39 (bits v 6 39)
        let b := if 6 ≤ bits v 47 5 ∧ bits v 47 5 ≤ 20 then setBits a 47 5 (bits v 47 5) else a
        setBits b 52 4 (bits v 52 4)
    { x with ctl := setBits c1 0 1 v.toNat })

/-- SCOPEFREE written to an engine (R448). -/
def State.writeScopefree (s : State) (engine : Nat) (v : Word) : State :=
  let i := bits v 0 8
  let p := bits v 8 4
  if s.scopeEngine p = some engine ∧ (s.scope p i).isReleasable i then s.onScope p i (fun _ => {}) else s

/-- A register of a queue engine's block written. -/
def State.writeEngineReg (s : State) (engine off : Nat) (v : Word) : State :=
  if off = 0x00 then s.doorbell engine v
  else if off = 0x08 then s.writeScopefree engine v
  else if 0x100 ≤ off ∧ off < 0x300 ∧ off % 8 = 0 then s.writeQctl (64 * engine + (off - 0x100) / 8) v
  else s

/-! Domain entries and the core debug block. -/

/-- A dword of a domain entry written: MASK and PART stand still while VALID is 1 (R390). -/
def State.writeDomain (s : State) (die n dword : Nat) (v : Word) : State :=
  let d := s.domain n
  let valid := d.valid.getD die false
  if dword = 0 then
    let s1 := if valid then s else
      s.onDomain n (fun x => { x with part := x.part.setIfInBounds die (BitVec.ofNat 4 (bits v 24 4)) })
    if v.getLsbD 0 then s1.makeDomain n die else s1.clearDomain n die
  else if valid ∨ 7 ≤ dword then s
  else s.onDomain n (fun x =>
    { x with mask := x.mask.setIfInBounds die (setBits (x.mask.getD die 0) (64 * (dword - 1)) 64 v.toNat) })

/-- TRACECTL written (R442). (DESIGN CHOICE, log 29.) -/
def CoreHw.writeTrace (h : CoreHw) (v : Word) : CoreHw :=
  let w := ringCtl v 0xFE
  if rises h.tracectl w then { h with tracectl := w, trtail := 0, trhead := 0, traceDropped := false } else { h with tracectl := w }

/-- A register of a core's debug block written (R442, R444, R449). -/
def CoreHw.writeReg (h : CoreHw) (off : Nat) (v : Word) : CoreHw :=
  if off = 0x00 then { h with serveq := masked v (maskBits 0 39) }
  else if off = 0x08 then h.writeTrace v
  else if off = 0x18 then { h with trhead := index32 v }
  else if 0x20 ≤ off ∧ off < 0x40 ∧ off % 8 = 0 then { h with bppc := h.bppc.setIfInBounds ((off - 0x20) / 8) v }
  else if 0x40 ≤ off ∧ off < 0x60 ∧ off % 8 = 0 then
    { h with bpctl := h.bpctl.setIfInBounds ((off - 0x40) / 8) (masked v (maskBits 32 63 + 3)) }
  else h

/-- A register of the control space written, at an offset from its start (R448). -/
def State.writeReg (s : State) (off : Nat) (v : Word) : State :=
  if off < 0x10000 then s.writeModuleReg off v
  else if off < 0x20000 then s.writePartReg ((off - 0x10000) / 0x1000) (off % 0x1000) v
  else if off < 0x28000 then s.writeEngineReg ((off - 0x20000) / 0x1000) (off % 0x1000) v
  else if 0x30000 ≤ off ∧ off < 0x32000 ∧ off % 8 = 0 then
    s.writeDomain ((off - 0x30000) / 0x1000) (off % 0x1000 / 0x40) (off % 0x40 / 8) v
  else if 0x40000 ≤ off ∧ off < 0x40000 + 0x100 * Config.cores then
    s.atCore ((off - 0x40000) / 0x100) (fun x => { x with hw := x.hw.writeReg (off % 0x100) v })
  else s

/-! Reads of the control space. Every register is read whole; one that is only written, and an offset that is not listed, read
as zero (R448). -/

/-- A register of the module block. -/
def State.readModuleReg (s : State) (off : Nat) : Word :=
  match off with
  | 0x00 => s.mod.modid
  | 0x08 => s.mod.sampctl
  | 0x10 => s.mod.samptail
  | 0x18 => s.mod.samphead
  | 0x20 => s.mod.homemap
  | 0x28 => s.powerWord
  | 0x30 => s.mod.health
  | 0x38 => s.mod.errring
  | 0x40 => s.mod.errtail
  | 0x48 => s.mod.errhead
  | 0x50 => s.mod.attest
  | _ => 0

/-- A register of a partition's block. -/
def Part.readReg (q : Part) (off : Nat) : Word :=
  match off with
  | 0x00 => q.ctl
  | 0x08 => q.clusters
  | 0x10 => q.sets0
  | 0x18 => q.sets1
  | 0x20 => q.tierSets0
  | 0x28 => q.tierSets1
  | 0x30 => q.ptroot
  | 0x38 => q.sdva
  | 0x40 => q.shootdown
  | 0x50 => q.preempt
  | 0x58 => q.prring
  | 0x60 => q.frtbase
  | 0x68 => q.locketpool
  | 0x70 => q.freepool
  | 0x78 => q.replayctl
  | 0x80 => q.rptail
  | 0x88 => q.rphead
  | _ => 0

/-- A register of a queue engine's block: the queues' control words. -/
def State.readEngineReg (s : State) (engine off : Nat) : Word :=
  if 0x100 ≤ off ∧ off < 0x300 ∧ off % 8 = 0 then (s.queue (64 * engine + (off - 0x100) / 8)).ctl else 0

/-- A domain's entry on a die (R390): ARRIVED counts the die's own cores. -/
def Domain.image (d : Domain) (die : Nat) : BitVec 512 :=
  let arrived := (d.bar.arrived.filter (fun m => m.2 / 384 == die)).length
  BitVec.ofNat 512 ((d.valid.getD die false).toNat + (d.part.getD die 0).toNat * 2 ^ 24 + d.bar.members.length * 2 ^ 28 +
    arrived * 2 ^ 38 + d.bar.phase.toNat * 2 ^ 48 + (d.mask.getD die 0).toNat * 2 ^ 64)

/-- A register of a core's debug block. -/
def CoreHw.readReg (h : CoreHw) (off : Nat) : Word :=
  if off = 0x00 then h.serveq
  else if off = 0x08 then h.tracectl
  else if off = 0x10 then h.trtail
  else if off = 0x18 then h.trhead
  else if 0x20 ≤ off ∧ off < 0x40 ∧ off % 8 = 0 then h.bppc.getD ((off - 0x20) / 8) 0
  else if 0x40 ≤ off ∧ off < 0x60 ∧ off % 8 = 0 then h.bpctl.getD ((off - 0x40) / 8) 0
  else 0

/-- The register of the control space at an offset from its start, as the application cores read it (R448). A read changes
nothing, and so is no act of the agenda. (DESIGN CHOICE, log 33.) -/
def State.readReg (s : State) (off : Nat) : Word :=
  if off < 0x10000 then s.readModuleReg off
  else if off < 0x20000 then (s.part ((off - 0x10000) / 0x1000)).readReg (off % 0x1000)
  else if off < 0x28000 then s.readEngineReg ((off - 0x20000) / 0x1000) (off % 0x1000)
  else if 0x30000 ≤ off ∧ off < 0x32000 ∧ off % 8 = 0 then
    BitVec.ofNat 64 (bits ((s.domain (off % 0x1000 / 0x40)).image ((off - 0x30000) / 0x1000)) (64 * (off % 0x40 / 8)) 64)
  else if 0x40000 ≤ off ∧ off < 0x40000 + 0x100 * Config.cores then
    (s.coreAt ((off - 0x40000) / 0x100)).hw.readReg (off % 0x100)
  else 0

/-! Events. The partition, the queue engine or the queue stands in `part` and `unit`, the value in `value`. -/

/-- REGISTER_WRITE at offset `addr`. (DESIGN CHOICE, log 33.) -/
def execRegisterWrite (s : State) : Host.Outcome State Fault Refusal := .next (s.writeReg s.cmd.addr s.cmd.value)
/-- SCOPEFREE at engine `unit`. -/
def execScopefree (s : State) : Host.Outcome State Fault Refusal := .next (s.writeScopefree s.cmd.unit s.cmd.value)
/-- RECFREE. -/
def execRecfree (s : State) : Host.Outcome State Fault Refusal := .next (s.freeRecords s.cmd.value)
/-- QUEUE_ENABLE: the control word of queue `unit` written with EN 1. -/
def execQueueEnable (s : State) : Host.Outcome State Fault Refusal := .next (s.writeQctl s.cmd.unit (setBits s.cmd.value 0 1 1))
/-- QUEUE_DISABLE: the control word of queue `unit` written with EN 0. -/
def execQueueDisable (s : State) : Host.Outcome State Fault Refusal := .next (s.writeQctl s.cmd.unit (setBits s.cmd.value 0 1 0))
/-- PARTITION_ENABLE: PARTCTL written with EN 1. -/
def execPartitionEnable (s : State) : Host.Outcome State Fault Refusal :=
  .next (s.writePartctl s.cmd.part (setBits s.cmd.value 0 1 1))
/-- PARTITION_DISABLE: PARTCTL written with EN 0. -/
def execPartitionDisable (s : State) : Host.Outcome State Fault Refusal :=
  .next (s.writePartctl s.cmd.part (setBits s.cmd.value 0 1 0))
/-- PARTITION_DRAINED. -/
def execPartitionDrained (s : State) : Host.Outcome State Fault Refusal := .next (s.endDrain s.cmd.part)
/-- SAMPLE_ENABLE: SAMPCTL written with EN 1. -/
def execSampleEnable (s : State) : Host.Outcome State Fault Refusal := .next (s.writeSampctl (setBits s.cmd.value 0 1 1))
/-- RPHEAD written. -/
def execRpheadWrite (s : State) : Host.Outcome State Fault Refusal := .next (s.writePartReg s.cmd.part 0x88 s.cmd.value)
/-- ERRHEAD written. -/
def execErrheadWrite (s : State) : Host.Outcome State Fault Refusal := .next (s.writeErrhead s.cmd.value)
/-- MODID written. -/
def execModidWrite (s : State) : Host.Outcome State Fault Refusal := .next (s.writeModid s.cmd.value)
/-- PREEMPT written. -/
def execPreempt (s : State) : Host.Outcome State Fault Refusal := .next (s.writePreempt s.cmd.part s.cmd.value)
/-- ATTEST written with the buffer's address in `value`; `bytes` is the nonce that the buffer holds (R459). -/
def execAttest (s : State) : Host.Outcome State Fault Refusal :=
  let at' := bits s.cmd.value 9 43 * 512
  .next ({ s with appMem := Mem.putBytes s.appMem at' (s.cmd.bytes.take 64) }.writeAttest s.cmd.value)

end Sys2Proof.Machine
end

