-- ==== Sys2Proof/Machine/Health.lean ====
section
/-! DEFINITION. Errors and fencing (R454 to R456), ageing (R457), boot and attestation (R458, R459), links and ports (R460 to
R462), power and the test access port (R463, R464). -/

namespace Sys2Proof.Machine

/-! Error records of a kind that the manual does not number. -/

/-- An error record of the shared unit `n` whose KIND no rule states: one of 1 to 6, free (R456). (DESIGN CHOICE, log 29.) -/
def State.plainError (s : State) (n : Nat) (part : Option Nat) (addr : Nat) : State :=
  let r := s.freeValue
  r.2.errorRecord (r.1.toNat % 6 + 1) .shared n part addr

/-! Ends by a machine check. -/

/-- The task on a core ends by a machine check (R424, R455). -/
def State.checkCore (s : State) (core addr : Nat) : State :=
  s.atCore core (fun x => if x.k.task.isSome then (x.focusSlot 15).endWith 24 (BitVec.ofNat 64 addr) 0 else x)

/-- The fault record of a task that no core runs (R421): what its Locket keeps, if it has one. -/
def State.offRecord (s : State) (q slot : Nat) (r : Rec) (addr : Nat) : Word512 :=
  let saved := r.locket.bind (Tbl.find s.lockets)
  let pc := match saved with | some v => v.ctx.pc.toNat | none => bits r.img 0 64
  let seq := match saved with | some v => v.k.engseq.toNat | none => 0
  let retired := match saved with | some v => v.ctx.retired.toNat | none => 0
  let tag := (tagOf q slot (s.genOf q slot)).toNat
  let low := 24 + 2 ^ 19 + 15 * 2 ^ 28 + (r.core.getD 0) * 2 ^ 32 + s.modNo * 2 ^ 42 + pc * 2 ^ 64 + seq * 2 ^ 128
  BitVec.ofNat 512 (low + addr * 2 ^ 192 + retired * 2 ^ 256 + s.cycle.toNat * 2 ^ 320 + tag * 2 ^ 448)

/-- A task that no core runs ends Faulted with cause 24. -/
def State.checkRec (s : State) (addr : Nat) (x : Nat × Nat × Rec) : State :=
  (s.removeWith x.1 x.2.1 x.2.2 (some (s.offRecord x.1 x.2.1 x.2.2 addr))).dropReservation x.1 x.2.1

/-- Records of every queue, with queue and slot. -/
def State.allRecords (s : State) : List (Nat × Nat × Rec) :=
  s.queues.flatMap (fun (e : Nat × Queue) => e.2.slots.map (fun (x : Nat × Rec) => (e.1, x.1, x.2)))

/-- Tasks that end on one cycle end in ascending order of their cores, running ones by `here` and those that no core runs after
them, each with its address; then those that no core has run (R394). (DEDUCED, log 28.) -/
def State.endInOrder (s : State) (here : State → Nat → State) (off : List (Nat × Nat × Rec)) (addr : Rec → Nat) : State :=
  let ends := fun (t : State) (xs : List (Nat × Nat × Rec)) => xs.foldl (fun (acc : State) x => acc.checkRec (addr x.2.2) x) t
  let one := fun (t : State) (c : Nat) =>
    ends (if s.coreList.contains c then here t c else t) (off.filter (fun x => x.2.2.core == some c))
  ends ((upFrom 0 Config.cores).foldl one s) (off.filter (fun x => x.2.2.core.isNone))

/-! Fences (R455). -/

/-- A unit is out of service, its partition's FAULTED is set, and an error record is written; once only. -/
def State.fence (s : State) (c : UnitClass) (n addr : Nat) : State :=
  if s.isFenced c n then s
  else
    let s1 := { s with fenced := (c, n) :: s.fenced }
    let owner := s.unitOwner c n
    let s2 := match owner with
      | some p => s1.onPart p (fun q => { q with ctl := setBits q.ctl 1 1 1 })
      | none => s1
    s2.errorRecord 2 c n owner addr

/-- A core is out of service: its task ends, and so does every saved task that only it may resume. -/
def State.dropCore (s : State) (addr core : Nat) : State :=
  let s1 := s.checkCore core addr
  let bound := s1.allRecords.filter (fun x => x.2.2.locket.isSome && x.2.2.coreBound && x.2.2.core == some core)
  bound.foldl (fun (acc : State) x => acc.checkRec addr x) s1

/-- A quad fenced. -/
def State.fenceQuad (s : State) (quad addr : Nat) : State :=
  (upFrom (4 * quad) 4).foldl (fun (acc : State) c => acc.dropCore addr c) (s.fence .quad quad addr)

/-- A cluster fenced, with its quads; dirty lines of its hot-line store are lost, so memory holds what it held before they were
written, and their granules are poisoned for as long as this cluster is their home. -/
def State.fenceCluster (s : State) (cluster addr : Nat) : State :=
  let s1 := s.fence .cluster cluster addr
  let dirty := (Tbl.getD s1.hot cluster []).filter (fun l => l.dirty && s.stillHome cluster l)
  let s2 := { s1 with
    mem := (dirty.filter (fun l => decide (l.addr < 2 ^ 46))).foldl (fun m l => Mem.putBytes m (l.addr * 64) l.clean) s1.mem
    poisoned := dirty.map (fun l => (l.addr * 64, 64, cluster)) ++ s1.poisoned
    hot := Tbl.del s1.hot cluster }
  (upFrom (4 * cluster) 4).foldl (fun (acc : State) q => acc.fenceQuad q addr) s2

/-- A queue engine fenced: its Waiting and Ready records end, and every task of a partition whose finish-scope table it holds, all
in the order of their cores (R394, R455). -/
def State.fenceEngine (s : State) (engine addr : Nat) : State :=
  let table := (upFrom 0 16).filter (fun p => s.scopeEngine p == some engine)
  let held := fun (q : Nat) => table.any (fun p => s.ownsEngine p (q / 64))
  let s1 := s.fence .queueEngine engine addr
  let s2 := (upFrom (64 * engine) 64).foldl (fun (acc : State) q =>
    acc.onQueue q (fun x => { x with ctl := setBits x.ctl 1 1 1 })) s1
  let off := s2.allRecords.filter (fun x => (x.1 / 64 == engine && (x.2.2.state == .waiting || x.2.2.state == .ready)) ||
    (held x.1 && x.2.2.state != .running))
  let here := fun (t : State) (c : Nat) => if table.any (fun p => s.ownsCore p c) then t.checkCore c addr else t
  table.foldl (fun (acc : State) p => acc.onPart p (fun q => { q with ctl := setBits q.ctl 0 1 0, draining := false }))
    (s2.endInOrder here off (fun _ => addr))

/-- A unit with an uncorrectable error is fenced. (DEDUCED, log 31.) -/
def State.fenceUnit (s : State) (c : UnitClass) (n addr : Nat) : State :=
  match c with
  | .core => s.fenceQuad (n / 4) addr
  | .quad => s.fenceQuad n addr
  | .cluster => s.fenceCluster n addr
  | .queueEngine => s.fenceEngine n addr
  | .pseudoChannel => s.fence .pseudoChannel n addr
  | .shared => s.plainError n none addr

/-- The unit class by its number (R456). -/
def classOf (n : Nat) : UnitClass :=
  match n with
  | 1 => .core
  | 2 => .quad
  | 3 => .cluster
  | 4 => .queueEngine
  | 5 => .pseudoChannel
  | _ => .shared

/-- A unit of a class exists (R2); the numbers of shared units are in four ranges, one for each kind (`SharedKind`). -/
def unitExists (c : UnitClass) (n : Nat) : Bool :=
  match c with
  | .core => decide (n < Config.cores)
  | .quad => decide (n < 192)
  | .cluster => decide (n < Config.clusters)
  | .queueEngine => decide (n < 8)
  | .pseudoChannel => decide (n < 1536)
  | .shared => decide (n < 16384)

/-- A corrected error (R454, R456). -/
def State.correct (s : State) (c : UnitClass) (n addr : Nat) : State :=
  (s.countError c n).errorRecord 1 c n (s.unitOwner c n) addr

/-- An uncorrectable error in an entry that a core has cached: the entry is discarded, and read again when it is next used (R454): of
the TLB the one that translates the virtual address `va`, and of the instruction cache the line of `va`, a locked one too.
(DEDUCED, log 31.) -/
def State.discardCached (s : State) (core : Nat) (tlb : Bool) (va addr : Nat) : State :=
  let drop := fun (h : CoreHw) =>
    if tlb then { h with tlb := h.tlb.filter (fun t => !(decide (t.base ≤ va) && decide (va < t.base + t.size))) }
    else { h with icache := h.icache.filter (fun l => l.va != va / 64 * 64) }
  (s.atCore core (fun x => { x with hw := drop x.hw })).errorRecord 3 .core core (s.unitOwner .core core) addr

/-- The same of a walk cache's entry, which holds the dword at `addr`; walkers are shared units of their die (R245, R454). -/
def State.discardWalk (s : State) (die addr : Nat) : State :=
  { s with walks := s.walks.filter (fun (e : Nat × Word) => e.1 != addr) }.errorRecord 3 .shared die none addr

/-- An uncorrectable error in a line of a hot-line store: a clean one is discarded, and read again for the requests that wait;
a dirty one fences the cluster (R454). -/
def State.discardLine (s : State) (cluster addr : Nat) : State :=
  let mine := fun (l : HotLine) => l.addr == addr / 64
  if (s.lines cluster).any (fun l => mine l && l.dirty) then s.fenceCluster cluster addr
  else
    let kept := (s.lines cluster).filter (fun l => !(mine l) || !l.waiting.isEmpty)
    { s with hot := Tbl.put s.hot cluster kept }.errorRecord 3 .cluster cluster (s.unitOwner .cluster cluster) addr

/-- ECC_ERROR: the class of the unit in `part`, its number in `unit`, the address in `addr`; `flag` says that it cannot be
corrected, a nonzero `value` that it lies in an entry of a cache: of a core's TLB (1) or instruction cache (2) that of the virtual
address `tag`, of a walk cache, with the die as the number of a shared unit, or in a line of a hot-line store. -/
def execEccError (s : State) : Host.Outcome State Fault Refusal :=
  let k := s.cmd
  let c := classOf k.part
  .next (if !unitExists c k.unit then s
    else if !k.flag then s.correct c k.unit k.addr
    else if k.value ≠ 0 ∧ c = .core then s.discardCached k.unit (k.value == 1) k.tag.toNat k.addr
    else if k.value ≠ 0 ∧ c = .shared then s.discardWalk k.unit k.addr
    else if k.value ≠ 0 ∧ c = .cluster then s.discardLine k.unit k.addr
    else s.fenceUnit c k.unit k.addr)

/-- SCRUB: a word of a unit is read; with `flag`, a bit of it is corrected (R454). -/
def execScrub (s : State) : Host.Outcome State Fault Refusal :=
  let k := s.cmd
  .next (if k.flag && unitExists (classOf k.part) k.unit then s.correct (classOf k.part) k.unit k.addr else s)

/-- HEALTH as it is read anew: wear and life are free values; fences are counted (R457). (DESIGN CHOICE, log 9.) -/
def State.updateHealth (s : State) : State :=
  let w := fun (i : Nat) => (Config.wear (s.free + i)).toNat
  let v := w 0 * 2 ^ 48 + w 1 * 2 ^ 32 + w 2 * 2 ^ 16 + min 255 s.fenced.length
  { s with free := s.free + 3, mod := { s.mod with health := BitVec.ofNat 64 v, healthTurns := s.cycle.toNat / 2 ^ 30 } }

/-- An update of HEALTH is due: another 2^30 cycles have passed (R457). -/
def State.healthDue (s : State) : Bool := decide (s.mod.healthTurns < s.cycle.toNat / 2 ^ 30)

/-- HEALTH_UPDATE, when one is due. -/
def execHealthUpdate (s : State) : Host.Outcome State Fault Refusal := .next (if s.healthDue then s.updateHealth else s)

/-! Power (R463). -/

/-- Both dies take a clock step. -/
def State.setClock (s : State) (step : Nat) : State :=
  { s with mod := { s.mod with clock := step, clockAt := s.cycle.toNat } }

/-- A step down is due: there is a lower step, a millisecond has passed at this one, and the mean power of the last exceeds the
cap. -/
def State.stepDownDue (s : State) : Bool :=
  decide (s.mod.clock < 3) && decide (1 ≤ s.sinceClock) &&
    decide (s.mod.powercap.toNat < (s.meanAt (s.sinceClock - 1)).toNat)

/-- A step up is due: there is a higher step, and the mean power has stayed below the cap for 10 ms at this one. -/
def State.stepUpDue (s : State) : Bool :=
  decide (0 < s.mod.clock) && decide (10 ≤ s.sinceClock) &&
    (upFrom (s.sinceClock - 10) 10).all (fun n => decide ((s.meanAt n).toNat < s.mod.powercap.toNat))

/-- POWER_STEP_DOWN: the next lower of the four steps, when it is due. (DESIGN CHOICE, log 9.) -/
def execPowerStepDown (s : State) : Host.Outcome State Fault Refusal :=
  .next (if s.stepDownDue then s.setClock (s.mod.clock + 1) else s)
/-- POWER_STEP_UP: back up by one step, when it is due. (DESIGN CHOICE, log 9.) -/
def execPowerStepUp (s : State) : Host.Outcome State Fault Refusal :=
  .next (if s.stepUpDue then s.setClock (s.mod.clock - 1) else s)

/-! Boot (R458). -/

/-- POWER_GOOD. -/
def execPowerGood (s : State) : Host.Outcome State Fault Refusal :=
  .next (if s.mod.boot = .reset then { s with mod := { s.mod with boot := .rom } } else s)

/-- The two checks of an image (R458). (DESIGN CHOICE, log 10.) -/
def Module.accepts (m : Module) (image : List Byte) (version : Word) : Bool :=
  Config.signatureOk image && decide (m.rollback.toNat ≤ version.toNat)

/-- The one try of the image at LBA 0 of namespace 1 on root port 0 (R458): one that passes the checks is written as the module's
image. (DESIGN CHOICE, log 10.) -/
def Module.tryImage (m : Module) (image : List Byte) (version : Word) : Module :=
  if !image.isEmpty && m.accepts image version then { m with image := image, imageVersion := version, imageCut := false } else m

/-- ROM_IMAGE_CHECK: signature and version of the module's image; one whose update was cut off is none. `bytes`, with the version
`value`, is what root port 0 gives for the one try. (DESIGN CHOICE, log 10.) -/
def execRomImageCheck (s : State) : Host.Outcome State Fault Refusal :=
  let m := s.mod
  .next (if m.boot ≠ .rom then s
    else if !m.imageCut && m.accepts m.image m.imageVersion then
      { s with mod := { m with boot := .firmware, measurement := Config.sha512 m.image } }
    else { s with mod := { m.tryImage s.cmd.bytes s.cmd.value with boot := .recovery } }.plainError 0 none 0)

/-- Bytes that lie below a bound, as a table by their places, laid over another. -/
def tableOf (bound : Nat) (bs : List Byte) (t : Tbl Nat) : Tbl Nat :=
  ((bs.zip (upFrom 0 bs.length)).filter (fun (e : Byte × Nat) => decide (e.1.toNat < bound))).foldl
    (fun (acc : Tbl Nat) (e : Byte × Nat) => Tbl.put acc e.2 e.1.toNat) t

/-- FIRMWARE_BRING_UP: byte `i` of `bytes` is the module that link `i` serves, 255 for a link left down (R460); byte 18 + `i` is the
partition to which root port `i / 4` is assigned, whole with part 0 or as its part `i % 4` (R461). -/
def execFirmwareBringUp (s : State) : Host.Outcome State Fault Refusal :=
  let served := s.cmd.bytes.take 18
  .next (if s.mod.boot = .firmware then
      { s with mod := { s.mod with
        boot := .running
        links := tableOf 64 served s.mod.links
        linkEnabled := s.mod.linkEnabled || served.any (fun b => decide (b.toNat < 64))
        rootPorts := tableOf 16 ((s.cmd.bytes.drop 18).take 16) s.mod.rootPorts } }
    else s)

/-- What outlives a reset: the firmware image with its version and whether an update of it was cut off, the rollback counter, and
the model's own fields. (DEDUCED, log 31.) -/
def State.restart (s : State) (mem : Mem) (image : List Byte) (version : Word) (cut : Bool) : State :=
  { State.reset with
    mem := mem
    mod := { State.reset.mod with image := image, imageVersion := version, imageCut := cut, rollback := s.mod.rollback }
    cmd := s.cmd
    agenda := s.agenda
    free := s.free
    names := s.names }

/-- MODULE_RESET: with `flag`, an update has written the image `bytes` of version `value` before it. HBM keeps its content.
(DEDUCED, log 31.) -/
def execModuleReset (s : State) : Host.Outcome State Fault Refusal :=
  .next (if s.cmd.flag then s.restart s.mem s.cmd.bytes s.cmd.value false
    else s.restart s.mem s.mod.image s.mod.imageVersion s.mod.imageCut)

/-- POWER_OFF: with `flag`, it cuts off an update, which has left the image `bytes`. Memory is as at first power-on.
(DEDUCED, log 31.) -/
def execPowerOff (s : State) : Host.Outcome State Fault Refusal :=
  .next (if s.cmd.flag then s.restart [] s.cmd.bytes s.cmd.value true
    else s.restart [] s.mod.image s.mod.imageVersion s.mod.imageCut)

/-! Attestation (R459). -/

/-- Bytes of a dword, least significant first. -/
def dwordBytes (v : Word) : List Byte := bytesOfNat 8 v.toNat

/-- The ownership registers of every partition, in the order of the report. -/
def State.ownership (s : State) : List Byte :=
  (upFrom 0 16).flatMap (fun p =>
    [0x00, 0x08, 0x10, 0x18, 0x20, 0x28].flatMap (fun off => dwordBytes ((s.part p).readReg off)))

/-- ATTEST_COMPLETE: the report is written and BUSY clears. (DESIGN CHOICE, log 10.) -/
def execAttestComplete (s : State) : Host.Outcome State Fault Refusal :=
  let at' := bits s.mod.attest 9 43 * 512
  let nonce := Mem.bytes s.appMem at' 64
  let body := nonce ++ bytesOfNat 64 s.mod.measurement.toNat ++ bytesOfNat 64 (Config.sha512 s.ownership).toNat ++
    dwordBytes s.mod.rollback ++ dwordBytes s.mod.health
  let signature := (bytesOfNat 132 (Config.sign (Config.sha512 body)).toNat).reverse
  let report := body ++ signature ++ List.replicate 172 0
  .next (if s.mod.attest.getLsbD 63 then
      { s with
        appMem := Mem.putBytes s.appMem at' report
        mod := { s.mod with attest := setBits s.mod.attest 63 1 0 } }
    else s)

/-! Links and ports. -/

/-- The page that a request of another module reaches: the one whose leaf it names, or one in motion that holds its address
(R252). -/
def State.remoteLeaf (s : State) (k : Cmd) : Option Nat :=
  let moving := fun (e : Nat × Page) => (match e.2.stage with
    | .holding | .streaming | .switching | .forwarding | .pageOut => inFrame (leafFrame e.2.oldLeaf) k.addr
    | _ => false)
  k.leaf.or ((s.pages.find? moving).map (fun (e : Nat × Page) => e.1))

/-- Where such a request goes: to the page as its leaf now stands, held while the page holds requests or is away; window memory
has the home that the home map gives, and is refused while that is not set (R251 to R253, R255, R465). (DEDUCED, log 24.) -/
def State.remoteTarget (s : State) (k : Cmd) : Except Stop Target :=
  match s.remoteLeaf k with
  | none => if s.mapBase = 0 then .error (.trap 7 0 0)
    else .ok { space := .globalMem, addr := k.addr, home := bits (s.mapByte k.addr) 0 6 }
  | some at' =>
    let e := s.leafAt at'
    if bits e 0 2 ≠ 2 then .error (.trap 7 0 0)
    else if leafTier e ≠ 0 then .error (.tierMiss at' (if k.leaf.isSome then k.va else (s.page at').va))
    else
      match (s.page at').stage with
      | .holding | .streaming | .switching => .error (.hold .condition)
      | _ =>
        .ok { space := .globalMem, addr := leafFrame e + (if k.leaf.isSome then k.addr else k.addr % 65536),
              home := leafHome e, leafAt := some at', leaf := e }

/-- The request that a message of another module carries, at an address: `core` is the context's identity, `value` the operand;
the operation stands in bits 3 to 0 of `unit`, the type in bits 7 to 4, SAT in bit 8, the bytes in bits 15 to 12, the region's tag,
which it has if `flag` says so, in bits 26 to 16, and in bit 27 whether the page is checked; `tag` is the expected value.
(DESIGN CHOICE, log 33.) -/
def Cmd.request (k : Cmd) (addr : Nat) : LineReq :=
  { ident := k.core % 2 ^ 20, tag := if k.flag then some (k.unit / 65536 % 2048) else none, addr := addr,
    size := k.unit / 4096 % 16, ty := BitVec.ofNat 4 (k.unit / 16), sat := k.unit / 256 % 2 == 1, op := k.unit % 16,
    value := k.value, expect := k.tag, checked := k.unit / 2 ^ 27 % 2 == 1 }

/-- A request of another module may be performed here: at HBM of this module that its partition owns here (R460), in service. -/
def State.remoteFits (s : State) (k : Cmd) (t : Target) : Bool :=
  k.core / 2 ^ 14 != s.modNo && modOf t.addr == s.modNo && s.hbmOwned k.part t.addr && s.unitAlive t &&
    decide (1 ≤ k.unit / 4096 % 16) && decide (k.unit / 4096 % 16 ≤ 8)

/-- The first request through a translation that a walker of another module has just cached, which bit 28 of `unit` says, asks for
the record block of its region, if the page is checked (R5, R243). -/
def State.askRemote (s : State) (k : Cmd) (t : Target) : State :=
  if k.unit / 2 ^ 27 % 4 = 3 then (s.needBlock (some k.part) (t.addr / 2 ^ 21)).2 else s

/-- REMOTE_REQUEST from another module (R460), of a context of its partition `part`: at the physical address `addr`, or with
`leaf` at that offset of the page. A home that holds it leaves it on its way, and a page that is away is asked for (R255).
(DESIGN CHOICE, log 33.) -/
def execRemoteRequest (s : State) : Host.Outcome State Fault Refusal :=
  let k := s.cmd
  .next (match s.remoteTarget k with
    | .error (.tierMiss at' va) => (s.askPageIn k.part at' va).requeue .remoteRequest k
    | .error (.hold _) => s.requeue .remoteRequest k
    | .error _ => s
    | .ok t =>
      let r := k.request t.addr
      if !(s.remoteFits k t) then s
      else if s.hasRoom t.home r then (s.askRemote k t).takeRequest t.home r t.leafAt
      else s.requeue .remoteRequest k)

/-- FLIT_RESEND changes timing only (R460). -/
def execFlitResend (s : State) : Host.Outcome State Fault Refusal := .next s

/-- A byte of a store to a module. -/
def HeldByte.goesTo (m : Nat) (b : HeldByte) : Bool := b.space == .globalMem && modOf b.addr == m

/-- A byte of a store to a module that a context of the core in focus has issued and that is not performed: an STNT (R135), or a store
that the loop holds (R278). -/
def State.outstandingTo (s : State) (m : Nat) : Option HeldByte :=
  ((s.ctx :: s.k.peers).flatMap (fun c => c.nt) ++ s.k.loop.heldStores).find? (HeldByte.goesTo m)

/-- STNT bytes to a module are gone, unperformed. -/
def Ctx.forgetNt (m : Nat) (c : Ctx) : Ctx := { c with nt := c.nt.filter (fun b => !(b.goesTo m)) }

/-- Every task with a request outstanding to a module ends with cause 24 (R460), in the order of cores; nothing of what it has
issued to that module is performed. (DEDUCED, log 31.) -/
def State.endRequests (s : State) (m : Nat) : State :=
  let ended := fun (b : HeldByte) (x : State) =>
    let y := { x with ctx := x.ctx.forgetNt m, k := { x.k with peers := x.k.peers.map (Ctx.forgetNt m) } }
    (y.focusSlot 15).endWith 24 (BitVec.ofNat 64 (b.va.getD b.addr)) 0
  let here := fun (t : State) (c : Nat) =>
    match (t.focusCore c).outstandingTo m with
    | some b => t.atCore c (ended b)
    | none => t
  ({ s with late := s.late.filter (fun b => !(b.goesTo m)) }).endInOrder here [] (fun _ => 0)

/-- LINK_FAIL of link `unit`: the last one to a module ends the tasks whose requests to it are outstanding, and later requests
to it have cause 24 (R460). (DEDUCED, log 31.) -/
def execLinkFail (s : State) : Host.Outcome State Fault Refusal :=
  match Tbl.find s.mod.links s.cmd.unit with
  | none => .next s
  | some m =>
    let left := Tbl.del s.mod.links s.cmd.unit
    if left.any (fun (l : Nat × Nat) => l.2 == m) then .next { s with mod := { s.mod with links := left } }
    else .next ({ s with mod := { s.mod with links := left, lost := m :: s.mod.lost } }.endRequests m)

/-- A DMA's page fault is one of path FB (R250, R461). -/
def asFabric : Stop → Stop
  | .pageFault va level write _ => .pageFault va level write .fb
  | r => r

/-- Where `n` bytes of a DMA go, each translated by the partition's page tables (R461). -/
def State.dmaTargets (s : State) (p : Nat) (va : Word) (write : Bool) : Nat → Except Stop (List Target)
  | 0 => .ok []
  | n + 1 => do
    let t ← s.engineXlate p va write
    let rest ← s.dmaTargets p (va + 1) write n
    .ok (t :: rest)

/-- Where a DMA of a partition goes, as its message says it. -/
def State.dmaPlan (s : State) (p : Nat) (k : Cmd) : Except Stop (List Target) :=
  s.dmaTargets p k.value (!k.bytes.isEmpty) (if k.bytes.isEmpty then k.addr else k.bytes.length)

/-- A byte written at its home: the line of a hot-line store that holds it is dirty (R383). -/
def State.dmaByte (s : State) (e : Target × Byte) : State :=
  let t := (s.overwrite .globalMem e.1.addr 1).soil e.1.addr
  { t with mem := Mem.set t.mem e.1.addr e.2 }

/-- A DMA that meets a fault, a tier miss or a refused translation: it completes as Unsupported Request, with an error record of its
root port (R461). A tier miss starts the page-in (R255), and a page fault writes its page request (R250). ADDR of the record is the
address of a refused page-table entry (R12, R242), or 0. (DEDUCED, log 31.) -/
def State.refuseDma (s : State) (port p : Nat) (r : Stop) : State :=
  let note := fun (t : State) (addr : Nat) => t.plainError (SharedKind.rootPort.unit port) (some p) addr
  match r with
  | .tierMiss leaf va => note (s.askPageIn p leaf va) 0
  | .trap 19 entry _ => note s entry.toNat
  | r => note (s.noteFault p (asFabric r)) 0

/-- DMA_REQUEST through root port `unit`, of the partition to which it is assigned, at `value`: it writes `bytes`, or reads `addr`
bytes (R461); it waits for requests that wait for a line of it (R384). Of a port that is assigned to none it is refused.
(DESIGN CHOICE, log 33.) -/
def execDmaRequest (s : State) : Host.Outcome State Fault Refusal :=
  let k := s.cmd
  .next (match Tbl.find s.mod.rootPorts k.unit with
    | none => s.plainError (SharedKind.rootPort.unit k.unit) none 0
    | some p =>
      match s.dmaPlan p k with
      | .error r => s.refuseDma k.unit p r
      | .ok ts =>
        if ts.any (fun t => s.awaited t.addr) then s.requeue .dmaRequest k
        else (ts.zip k.bytes).foldl State.dmaByte s)

/-- A wait for a page-in of a leaf. -/
def waitsFor (leaf : Nat) (w : Option Wait) : Bool := w == some (.tier leaf)

/-- PC and number of the engine work of the core in focus that waits for a page-in of a leaf: of a channel, an indirect request, a
TIERIN. -/
def State.engineAwaiting (s : State) (leaf : Nat) : Option (Word × BitVec 32) :=
  let chans := (s.k.chans.toList.filter (fun c => waitsFor leaf c.waiting)).filterMap (fun c => c.queue.head?)
  let ix := (s.ixQueue (s.coreNo / 16)).filter (fun r => r.core == s.coreNo && waitsFor leaf r.waiting)
  let tiers := s.k.tierins.filter (fun w => w.leaves.contains leaf)
  (chans.map (fun x => (x.pc, x.seq)) ++ ix.map (fun r => (r.pc, r.seq)) ++ tiers.map (fun w => (w.pc, w.seq))).head?

/-- A stranded page-in of the page at `va` ends the task of the core in focus, if it waits for it: at its control context's point
where a context waits, and by a report of the engine that waits (R462). -/
def State.strandCore (s : State) (leaf : Nat) (va : Word) : State :=
  if (s.ctx :: s.k.peers).any (fun c => waitsFor leaf c.hold) then (s.focusSlot 15).endWith 24 va 0
  else match s.engineAwaiting leaf with
    | some (pc, seq) => s.engineCheck 24 va 0 pc seq
    | none => s

/-- Every stranded page-in ends, and with cause 24 its waiting tasks, all in the order of their cores (R394, R462). -/
def State.strandAll (s : State) : State :=
  let leaves := (s.pages.map (fun (e : Nat × Page) => e.1)).filter s.isStranded
  if leaves.isEmpty then s else
  let va := fun (leaf : Nat) => (s.page leaf).va
  let s1 := leaves.foldl (fun (acc : State) leaf => acc.onPage leaf (fun q => { q with stage := .none, starved := none })) s
  let parked := s1.allRecords.filter (fun x => x.2.2.state == .parked && x.2.2.onLeaf.any leaves.contains)
  let here := fun (t : State) (c : Nat) =>
    t.atCore c (fun x => leaves.foldl (fun (acc : State) leaf => acc.strandCore leaf (va leaf)) x)
  leaves.foldl State.releaseWaiters (s1.endInOrder here parked (fun r => (r.onLeaf.elim 0 va).toNat))

/-- CXL_PORT_FAIL of port `unit`; a page-in that begins behind a failed port ends in the same way. -/
def execCxlPortFail (s : State) : Host.Outcome State Fault Refusal :=
  let m := { s.mod with portsDown := s.cmd.unit :: s.mod.portsDown.filter (fun p => p != s.cmd.unit) }
  .next (if s.cmd.unit < 8 then { s with mod := m }.strandAll else s)

/-- DYNAMIC_CAPACITY of slice `unit`, accepted whole (R462). -/
def execDynamicCapacity (s : State) : Host.Outcome State Fault Refusal :=
  .next (if s.cmd.unit < 96 ∧ ¬ s.mod.slices.contains s.cmd.unit then
      { s with mod := { s.mod with slices := s.cmd.unit :: s.mod.slices } }
    else s)

/-! The test access port (R464). -/

/-- The number of a boot state. -/
def Boot.number : Boot → Nat
  | .reset => 0 | .rom => 1 | .recovery => 2 | .firmware => 3 | .running => 4

/-- An instruction of the port, with the data register it selects. -/
def State.tapTo (s : State) (i : TapInstr) (d : BitVec 32) : State := { s with mod := { s.mod with tap := i, tapData := d } }

/-- BYPASS. -/
def execBypass (s : State) : Host.Outcome State Fault Refusal := .next (s.tapTo .bypass 0)
/-- IDCODE. -/
def execIdcode (s : State) : Host.Outcome State Fault Refusal := .next (s.tapTo .idcode 0x0D960A2B)
/-- SAMPLE/PRELOAD: the boundary cells take the value of the pins, or of the scan, in `value`. -/
def execSamplePreload (s : State) : Host.Outcome State Fault Refusal :=
  let t := s.tapTo .samplePreload (s.cmd.value.setWidth 32)
  .next { t with mod := { t.mod with cells := s.cmd.value } }
/-- EXTEST: the pins are driven from the boundary cells. -/
def execExtest (s : State) : Host.Outcome State Fault Refusal := .next (s.tapTo .extest (s.mod.cells.setWidth 32))
/-- BOOTSTAT: the boot state. (DESIGN CHOICE, log 10.) -/
def execBootstat (s : State) : Host.Outcome State Fault Refusal :=
  .next (s.tapTo .bootstat (Config.bootCode s.mod.boot.number))

end Sys2Proof.Machine
end

