-- ==== Sys2Proof/Machine/Homes.lean ====
section
/-! DEFINITION. What homes do beside the accesses of this module's contexts (R373 to R375), the end of a pre-emption (R426),
and the sample unit (R437 to R440). -/

namespace Sys2Proof.Machine

/-! Homes. -/

/-- The identity that a write of an application core leaves in a record (R445). -/
def State.appIdent (s : State) (core : Nat) : Nat := identOf s.modNo (core % 16) 14

/-- Granules from an address on, for `n` bytes. -/
def granulesOf (at' n : Nat) : List Nat := if n = 0 then [] else upFrom (at' / 64) ((at' + n - 1) / 64 + 1 - at' / 64)

/-- A home's record of a granule that an application core has written, if the granule is checked (R445). -/
def State.markOutside (ident : Nat) (s : State) (g : Nat) : State :=
  if s.recBlocks.contains (g * 64 / 2 ^ 21) then
    { s with records := Tbl.put s.records g (setBits (s.record g) 32 32 (ident * 2 ^ 12)) }
  else s

/-- A write by an application core (R373, R445). A byte of the home map that it sets bit 7 of asks for its region's record block
(R243). -/
def State.outsideWrite (s : State) (core at' : Nat) (bs : List Byte) : State :=
  let lines := granulesOf at' bs.length
  let s0 := lines.foldl (fun (acc : State) g => acc.soil (g * 64)) (s.overwrite .globalMem at' bs.length)
  let s1 := { s0 with mem := Mem.putBytes s0.mem at' bs }.askBlocks ((upFrom at' bs.length).zip bs)
  lines.foldl (State.markOutside (s.appIdent core)) s1

/-- The oldest STNT of the context in focus performed, whole, unless requests wait for its line (R132, R363, R381, R384). -/
def State.performNt (s : State) : State :=
  match s.ctx.nt with
  | [] => s
  | h :: _ =>
    let mine := s.ctx.nt.filter (fun b => b.order == h.order)
    if mine.any s.byteWaits then s
    else
    let s1 := mine.foldl State.putByte s
    { s1 with ctx := { s1.ctx with nt := s.ctx.nt.filter (fun b => b.order != h.order) } }

/-- HOME_ACCESS: with `bytes`, a write of application core `unit` at the physical address `addr`, in memory of this module;
without, the oldest STNT of core `core` is performed. A write waits for requests that wait for its lines (R384).
(DESIGN CHOICE, log 33.) -/
def execHomeAccess (s : State) : Host.Outcome State Fault Refusal :=
  let k := s.cmd
  let here := decide (k.addr + k.bytes.length ≤ 2 ^ 52) && modOf k.addr == s.modNo &&
    ((inHbm k.addr && s.inView (k.addr + k.bytes.length - 1)) || inTier k.addr)
  .next (if k.bytes.isEmpty then s.atCore k.core State.performNt
    else if !here then s
    else if (granulesOf k.addr k.bytes.length).any (fun g => s.awaited (g * 64)) then s.requeue .homeAccess k
    else s.outsideWrite k.unit k.addr k.bytes)

/-- REGION_NOTICE: the context `core` of another module, if `flag` says so, has ended its region. A home of its own module
asks the context itself (R374). -/
def execRegionNotice (s : State) : Host.Outcome State Fault Refusal :=
  .next (if s.cmd.flag then { s with homeTags := Tbl.del s.homeTags s.cmd.core } else s)

/-- A field of a record that names an ended region names no context; an application core has no region (R375, R445).
(DEDUCED, log 30.) -/
def State.clearRecord (s : State) (r : Word) : Word :=
  let keep := fun (ident tag : Nat) => ident % 16 == 14 || s.regionOpen ident tag
  let w := if keep (recWCtx r) (recWTag r) then r else setBits r 32 32 (noIdent * 2 ^ 12)
  if keep (recRCtx r) (recRTag r) then w else setBits w 0 32 (noIdent * 2 ^ 12)

/-- RECORD_CLEAR: every home clears the fields of ended regions, and the next clearing is due 2 to the 25 cycles on (R375). -/
def execRecordClear (s : State) : Host.Outcome State Fault Refusal :=
  let cleared := s.records.map (fun (e : Nat × Word) => (e.1, s.clearRecord e.2))
  .next { s with
    records := cleared.filter (fun (e : Nat × Word) => e.2 != noRecord)
    mod := { s.mod with cleared := s.cycle.toNat } }

/-! Pre-emption. -/

/-- The context has sent a request and waits for its reply, or its task ends: this is no boundary (R426, R430). -/
def Ctx.midInstr (c : Ctx) : Bool :=
  match c.hold with
  | some .done | some .drain | some (.turn ..) => true
  | _ => false

/-- An asynchronous fault is to be taken at the boundary where the control context stands: it comes before the save (R430). -/
def State.faultDue (s : State) : Bool := !s.k.pending.isEmpty && (s.focusSlot 15).takesFault

/-- A pre-emption of the core in focus may end: its window is shut, its contexts stand at boundaries, its engines have reached
their stopping points, and no trap comes first (R411, R426, R430). -/
def State.canEndPreempt (s : State) : Bool :=
  s.hw.preempting.isSome && s.openWindow.isNone && !((s.ctx :: s.k.peers).any Ctx.midInstr) && s.atStop && !s.faultDue

/-- A pre-emption ends with its result (R425, R426): the task is Ready at the head of its queue, or the request is refused. -/
def State.endPreempt (s : State) : State :=
  if s.canEndPreempt then
    match s.k.task with
    | none => s.finishPreempt 1
    | some t =>
      match s.save 1 .ready (s.control.hold.any Wait.holding) none with
      | some (_, s1) => s1.finishPreempt 0
      | none => s.finishPreempt (if t.tag.isNone && (s.freeSlotOf t.queue).isNone then 2 else 3)
  else s

/-- PREEMPT_SAVE_COMPLETE at a core. -/
def execPreemptSaveComplete (s : State) : Host.Outcome State Fault Refusal := .next (s.atCore s.cmd.core State.endPreempt)

/-! Samples. -/

/-- Every counter of a sample record: its offset, its unit, and its place among the unit's counters. Stacks and links are of no
class that a fence names (R439, R455). -/
def sampleCounters : List (Nat × Option (UnitClass × Nat) × Nat) :=
  (upFrom 0 768).map (fun i => (0x40 + 4 * i, some (UnitClass.quad, i / 4), i % 4)) ++
  (upFrom 0 6144).map (fun i => (0x1000 + 4 * i, some (UnitClass.core, i / 8), i % 8)) ++
  (upFrom 0 32).map (fun i => (0x7000 + 4 * i, some (UnitClass.queueEngine, i / 4), i % 4)) ++
  (upFrom 0 32).map (fun i => (0x7080 + 4 * i, none, 8)) ++
  (upFrom 0 36).map (fun i => (0x7100 + 4 * i, none, 8))

/-- A counter's unit is out of service, or stands in one that is. -/
def State.sampleFenced (s : State) (u : Option (UnitClass × Nat)) : Bool :=
  match u with
  | some (.core, n) => s.isFenced .core n || s.isFenced .quad (n / 4) || s.isFenced .cluster (n / 16)
  | some (.quad, n) => s.isFenced .quad n || s.isFenced .cluster (n / 4)
  | some (c, n) => s.isFenced c n
  | none => false

/-- A count of cycles that no state of the model decides, in an interval of so many (R438). (DESIGN CHOICE, log 6.) -/
def State.freeCount (s : State) (i most : Nat) : Nat := (Config.counterValue (s.free + i)).toNat % (most + 1)

/-- A counter of a core (R439): ISSUE, IDLE, OPSTALL, DEPTH, HOLD, DQFULL, HELPER, SAVE. A depth stall is a matter of timing, and
there is one only in a loop. (DESIGN CHOICE, log 6.) -/
def State.coreCounter (s : State) (c : CoreCounts) (i place : Nat) : Nat :=
  match place with
  | 0 => c.issue
  | 1 => s.mod.sampTime - c.busy
  | 2 => c.operand
  | 3 => s.freeCount i c.loop
  | 4 => c.hold
  | 5 => c.dqfull
  | 6 => c.helper
  | _ => c.save

/-- A counter of a quad (R439): ARRAY, VECTOR and XFER busy, and ARBWAIT. -/
def State.quadCounter (s : State) (quad place : Nat) : Nat :=
  let c := Tbl.getD s.mod.quadCounts quad (0, 0, 0, 0)
  match place with
  | 0 => c.1
  | 1 => c.2.1
  | 2 => c.2.2.1
  | _ => c.2.2.2

/-- A counter of a queue engine (R439): BUSY, QFULL, DTFULL, LOCKOUT. (DESIGN CHOICE, log 6.) -/
def State.engineCounter (s : State) (engine i place : Nat) : Nat :=
  let c := Tbl.getD s.mod.engineCounts engine (0, 0, 0)
  match place with
  | 0 => s.freeCount i s.mod.sampTime
  | 1 => c.1
  | 2 => c.2.1
  | _ => c.2.2

/-- A counter as it latches: at most the cycles of the interval (R438). (DESIGN CHOICE, log 6.) -/
def State.counter (s : State) (i : Nat) (e : Nat × Option (UnitClass × Nat) × Nat) : Nat :=
  if s.sampleFenced e.2.1 then 0xFFFFFFFF
  else
    match e.2.1 with
    | some (.quad, n) => s.quadCounter n e.2.2
    | some (.core, n) => s.coreCounter (s.hwOf n).counts i e.2.2
    | some (.queueEngine, n) => s.engineCounter n i e.2.2
    | _ => s.freeCount i s.mod.sampTime

/-- The header of a sample record, with the CYCLE of the tick (R439). -/
def State.sampleHeader (s : State) : Nat :=
  let m := s.mod
  m.sampNext % 2 ^ 64 + m.sampSeq.toNat * 2 ^ 64 + m.sampDropped.toNat * 2 ^ 128 + bits m.sampctl 5 5 * 2 ^ 160 +
    m.sampFirst.toNat * 2 ^ 168

/-- A sample record written at an address: header, counters, and zero everywhere else (R439). -/
def State.writeSample (s : State) (at' : Nat) : State :=
  let m0 := Mem.writeLE (Mem.zero s.mem at' 0x8000) at' 64 s.sampleHeader
  let put := fun (m : Mem) (e : (Nat × Option (UnitClass × Nat) × Nat) × Nat) => Mem.writeLE m (at' + e.1.1) 4 (s.counter e.2 e.1)
  { s with mem := (sampleCounters.zip (upFrom 0 7012)).foldl put m0, free := s.free + 7012 }

/-- The record of a tick, dropped and counted if the ring is full (R440). (DEDUCED, log 31.) -/
def State.sampleRecord (s : State) : State :=
  let c := s.mod.sampctl
  let log := bits c 10 5
  if ringFull s.mod.samptail s.mod.samphead log then
    { s with mod := { s.mod with sampSeq := s.mod.sampSeq + 1, sampDropped := s.mod.sampDropped + 1 } }
  else
    let tail := s.mod.samptail.toNat
    let s1 := s.writeSample (bits c 15 37 * 2 ^ 15 + tail % 2 ^ log * 0x8000)
    { s1 with mod := { s1.mod with
        sampSeq := s1.mod.sampSeq + 1
        sampDropped := 0
        samptail := BitVec.ofNat 64 ((tail + 1) % 2 ^ 32)
        sampFirst := false } }

/-- A tick is due: EN is set, and the multiple of the interval has come (R438). -/
def State.tickDue (s : State) : Bool := s.mod.sampctl.getLsbD 0 && decide (s.mod.sampNext ≤ s.cycle.toNat)

/-- A tick of the sample unit: every counter latches and restarts from zero (R438, R440). -/
def State.sample (s : State) : State :=
  let s1 := s.sampleRecord.clearCounts
  { s1 with mod := { s1.mod with sampNext := s1.mod.sampNext + 2 ^ bits s1.mod.sampctl 5 5 } }

/-- SAMPLE_TICK, when one is due: it is traced by the cores that trace it (R442, kind 6). -/
def execSampleTick (s : State) : Host.Outcome State Fault Refusal :=
  .next (if s.tickDue then
      s.sample.coreList.foldl (fun (acc : State) c => acc.atCore c (fun x => x.trace 6 x.control.pc x.pointSeq)) s.sample
    else s)

/-! Counting. What the counters count of the cycles that pass between two steps (R439). -/

/-- The context holds its core in a wait of the table of R29: of one of its instructions, or for a page without parking. -/
def Ctx.holdsCore (c : Ctx) : Bool :=
  match c.hold with
  | some (.barrier ..) | some (.released _) | some (.page ..) | some (.tier _) => true
  | some .condition => (match decode c.ir.toList with
    | .ok (.fswait _) | .ok (.wpwait _) | .ok (.evwait _) | .ok (.hwait _) | .ok (.mwait _) | .ok (.hstart _) => true
    | _ => false)
  | _ => false

/-- A core's counts after `d` cycles in which nothing but an issue changes: an issue takes one of them. SAVE counts from the
request of a pre-emption, outside a window, or from the start of a park. (DESIGN CHOICE, log 6.) -/
def CoreHw.count (h : CoreHw) (d : Nat) (c : Ctx) (k : Kern) : CoreHw :=
  let n := h.counts
  let when' := fun (b : Bool) (m : Nat) => if b then m else 0
  let saving := (h.preempting.isSome && !(k.window.any (fun w => w.opened))) || c.hold == some .drain
  { h with
    issued := false
    helped := false
    counts :=
      { issue := n.issue + when' h.issued (min 1 d)
        busy := n.busy + when' k.task.isSome d
        operand := n.operand + when' (c.hold == some .operand) d
        loop := n.loop + when' k.loop.running d
        hold := n.hold + when' c.holdsCore d
        dqfull := n.dqfull + when' (c.hold == some .dispatchFull) d
        helper := n.helper + when' h.helped (min 1 d)
        save := n.save + when' saving d } }

/-- The control context of a core's state. -/
def CoreState.control (x : CoreState) : Ctx :=
  if x.ctx.slot = 15 then x.ctx else (x.k.peers.find? (fun c => c.slot == 15)).getD {}

/-- What a queue engine's counters count in `d` cycles: some queue full, the dependence table full, cores reserved for a phased
record. -/
def State.countEngineBusy (s : State) (d engine : Nat) : Nat × Nat × Nat :=
  let c := Tbl.getD s.mod.engineCounts engine (0, 0, 0)
  let full := s.queues.any (fun (e : Nat × Queue) => e.1 / 64 == engine && e.2.enabled && decide (e.2.depth ≤ e.2.slots.length))
  let locked := s.coreList.any (fun n => (s.hwOf n).reservation.any (fun r => r.1 / 64 == engine))
  (c.1 + (if full then d else 0), c.2.1 + (if s.depRoom engine { r0 := 1 } then 0 else d), c.2.2 + (if locked then d else 0))

/-- What a quad's counters count in `d` cycles: a resource granted, and a head entry that waits for a grant (R296). -/
def State.countQuad (s : State) (d quad : Nat) : Nat × Nat × Nat × Nat :=
  let c := Tbl.getD s.mod.quadCounts quad (0, 0, 0, 0)
  let grant := fun (res : Nat) => (s.arbiter (4 * quad + res)).grant
  let busy := fun (res : Nat) => if (grant res).isSome then d else 0
  let waits := (upFrom 0 4).any (fun p => (upFrom 0 3).any (fun res => s.wants (4 * quad + p) res && grant res != some p))
  (c.1 + busy 0, c.2.1 + busy 1, c.2.2.1 + busy 2, c.2.2.2 + (if waits then d else 0))

/-- Quads with a core that holds state of its own. -/
def State.quadList (s : State) : List Nat := (s.coreList.map (fun c => c / 4)).eraseDups

/-- Cycles pass, and the counters of both dies count them (R438, R439). -/
def State.elapse (s : State) (d : Nat) : State :=
  if s.mod.sampctl.getLsbD 0 then
    { s with
      cycle := s.cycle + BitVec.ofNat 64 d
      hw := s.hw.count d s.control s.k
      others := s.others.map (fun (e : Nat × CoreState) => (e.1, { e.2 with hw := e.2.hw.count d e.2.control e.2.k }))
      mod := { s.mod with
        sampTime := s.mod.sampTime + d
        engineCounts := (upFrom 0 8).map (fun e => (e, s.countEngineBusy d e))
        quadCounts := s.quadList.foldl (fun t q => Tbl.put t q (s.countQuad d q)) s.mod.quadCounts } }
  else
    let quiet := fun (h : CoreHw) => { h with issued := false, helped := false }
    { s with
      cycle := s.cycle + BitVec.ofNat 64 d
      hw := quiet s.hw
      others := s.others.map (fun (e : Nat × CoreState) => (e.1, { e.2 with hw := quiet e.2.hw })) }

end Sys2Proof.Machine
end

