-- ==== Sys2Proof/Machine/Thaquet.lean ====
section
/-! DEFINITION. Thaquet translation of one function (R190 to R205): the words of a level, their checks, the allocation of
registers, the native instructions, and their packing in lines (R46, R52, R53, R60, R61). -/

namespace Sys2Proof.Machine

/-! Words. -/

/-- A word of a level body (R190). -/
structure TWord where
  imm : Int
  kind : Nat
  maj : Nat
  fn : Nat
  ty : Nat
  md : Nat
  sat : Bool
  opt : Nat
  p : Nat
  n : Bool
  reserved : Bool
  vc : Nat
  vb : Nat
  va : Nat
  vd : Nat
  deriving DecidableEq, Repr

/-- The fields of a word (R190). -/
def TWord.read (w : BitVec 128) : TWord :=
  { imm := signExt (bits w 64 64) 64
    kind := bits w 62 2
    maj := bits w 54 8
    fn := bits w 48 6
    ty := bits w 44 4
    md := bits w 41 3
    sat := w.getLsbD 40
    opt := bits w 37 3
    p := bits w 34 3
    n := w.getLsbD 33
    reserved := w.getLsbD 32
    vc := bits w 24 8
    vb := bits w 16 8
    va := bits w 8 8
    vd := bits w 0 8 }

/-- A word without a guard (R193). -/
def TWord.always (w : TWord) : Bool := w.p == 0 && !w.n

/-- What an operand field of a native word holds. -/
inductive Role where
  | zero | dst | src | both | pred | fixed
  deriving DecidableEq, Repr

/-- Roles of the fields D, A, B, C. -/
structure Roles where
  d : Role := .zero
  a : Role := .zero
  b : Role := .zero
  c : Role := .zero
  deriving DecidableEq, Repr

/-- Roles of the element-wise, matrix and Facet instructions (R69): tensors, masks and literals stand unchanged. -/
def engineRoles (maj fn : Nat) : Roles :=
  let f : Roles := { d := .fixed, a := .fixed, b := .fixed, c := .fixed }
  if maj = 0x70 then
    if fn = 28 ∨ fn = 29 then { f with a := .src } else if fn = 31 then { f with b := .src } else f
  else if maj = 0x90 then
    match fn with
    | 0 | 5 | 6 => { f with b := .src }
    | 1 | 2 => { f with a := .src, b := .src }
    | 3 => { f with c := .src }
    | 4 => { f with a := .src }
    | _ => f
  else
    match fn with
    | 0 => { f with c := .src }
    | 1 => { f with b := .src }
    | 5 => { f with d := .dst }
    | 6 => { f with d := .src }
    | _ => f

/-- Roles of the task and scope instructions (R69). -/
def taskRoles (fn md : Nat) : Roles :=
  match fn with
  | 0 => { d := .dst, a := .fixed }
  | 2 | 7 | 10 | 11 => { d := .dst, a := .src }
  | 3 => { d := .dst, a := .src, b := .src, c := if md = 1 then .src else .zero }
  | 4 => { d := .dst, a := .src, b := .src }
  | 5 => { a := .src, b := .fixed, c := .fixed }
  | 8 => { d := .dst }
  | 9 => { d := .dst, a := .src, b := if md = 1 then .src else .zero, c := .fixed }
  | _ => {}

/-- Roles of the fields of a native instruction, by major, function and MD (R69). Whether the encoding is assigned is the
decoder's question. CPY without a displacement ignores C, which stands unchanged (R341). -/
def rolesOf (maj fn md : Nat) : Roles :=
  let two : Roles := { d := .dst, a := .src }
  let three : Roles := { d := .dst, a := .src, b := .src }
  match maj with
  | 0x00 => if fn ≤ 20 then three else two
  | 0x01 => { d := if fn = 0 then .dst else .both, a := .src, b := .fixed, c := .fixed }
  | 0x02 | 0x06 => { d := .pred, a := .src, b := .src, c := .pred }
  | 0x03 => { three with c := .pred }
  | 0x04 => { d := .pred, a := .pred, b := .pred }
  | 0x05 => if fn = 2 then { three with c := .src } else if fn = 3 then { two with c := .fixed } else three
  | 0x07 => if fn = 2 then { d := .dst, a := .fixed, c := .fixed } else { d := .fixed, a := .src, c := .fixed }
  | 0x08 => two
  | 0x1D => { d := .dst }
  | 0x21 => { d := .pred }
  | 0x23 => if fn = 2 then {} else { a := .src }
  | 0x30 | 0x34 => two
  | 0x31 | 0x33 | 0x35 => { d := .src, a := .src }
  | 0x32 => if fn = 0 then three else { a := .src, b := .src, c := .src }
  | 0x40 => { d := .dst }
  | 0x41 => taskRoles fn md
  | 0x50 => if fn = 0 then { a := .src, b := .src } else if fn = 1 then { three with c := .fixed } else two
  | 0x51 =>
    match fn with
    | 0 => { d := .fixed, a := .fixed, b := .src, c := if 4 ≤ md then .src else .fixed }
    | 1 => { a := .src, b := .src }
    | 2 => two
    | 5 => { d := .dst, a := .fixed }
    | 6 => { three with c := .fixed }
    | _ => { d := .fixed, a := .fixed, b := .fixed, c := .fixed }
  | 0x52 => { a := .fixed, b := .fixed }
  | 0x60 => { d := if fn = 8 then .both else .dst, a := .src, b := .src, c := .fixed }
  | 0x61 => { d := if fn = 1 ∨ fn = 3 then .dst else .zero, a := .fixed, c := .fixed }
  | 0x62 =>
    match fn with
    | 0 => { d := .dst, a := .fixed, b := .src, c := .src }
    | 1 => { a := .src, b := .src, c := .src }
    | 2 => two
    | _ => { d := .dst }
  | 0x70 | 0x90 | 0xA0 => engineRoles maj fn
  | 0xB0 => if fn = 1 then { a := .fixed } else if fn = 2 then { a := .src } else {}
  | 0xB1 => { d := .dst }
  | 0xB2 => { a := .src }
  | m => if 0x10 ≤ m ∧ m ≤ 0x1E then two else {}

/-- Majors of the immediate format (R69). -/
def isImm (maj : Nat) : Bool :=
  (decide (0x10 ≤ maj) && decide (maj ≤ 0x1E)) ||
  [0x20, 0x21, 0x22, 0x30, 0x31, 0x33, 0x34, 0x35, 0x40, 0xB1, 0xB2, 0xB3].contains maj

/-- Branches whose immediate is a label number (R190). -/
def namesLabel (maj : Nat) : Bool := maj == 0x20 || maj == 0x21

/-- Native majors that a level may hold, version 1 (R192): 0 tile, 1 loop, 2 scalar. -/
def levelHolds (level maj fn : Nat) : Bool :=
  let loop := decide (maj ≤ 0x06) || (decide (0x10 ≤ maj) && decide (maj ≤ 0x1E)) || maj == 0x20 || maj == 0x21 ||
    (maj == 0x23 && fn == 2) || (decide (0x30 ≤ maj) && decide (maj ≤ 0x35))
  match level with
  | 0 => loop || [0x51, 0x52, 0x70, 0x90, 0xA0].contains maj
  | 1 => loop
  | _ => decide (maj < 0xC0) && !(decide (0x24 ≤ maj) && decide (maj ≤ 0x26))

/-! Native instructions. -/

/-- A native instruction with registers in place, the label it branches to, and the word it comes from. -/
structure Native where
  maj : Nat
  fn : Nat := 0
  ty : Nat := 0
  md : Nat := 0
  sat : Bool := false
  opt : Nat := 0
  p : Nat := 0
  n : Bool := false
  d : Nat := 0
  a : Nat := 0
  b : Nat := 0
  c : Nat := 0
  imm : Int := 0
  target : Option Nat := none
  word : Nat := 0xFFFF
  deriving DecidableEq, Repr

/-- A number fits a signed field. -/
def fitsIn (v : Int) (n : Nat) : Bool := decide (-(2 ^ (n - 1) : Int) ≤ v) && decide (v < (2 ^ (n - 1) : Int))

/-- The 32-bit parcel of a form: major, D, A, and the low twelve bits. -/
def shortParcel (maj d a low : Nat) : Parcel := BitVec.ofNat 32 (maj * 2 ^ 24 + d * 2 ^ 18 + a * 2 ^ 12 + low)

/-- Every field but the operands has the value that a 32-bit form stands for (R68). -/
def Native.isPlain (x : Native) (ty : Nat) : Bool :=
  x.p == 0 && !x.n && x.md == 0 && !x.sat && x.opt == 0 && x.ty == ty && x.c == 0

/-- The 32-bit major of an immediate major (R67). -/
def shortImm (maj : Nat) : Option Nat :=
  match maj with
  | 0x10 => some 0x04
  | 0x11 => some 0x05
  | 0x14 => some 0x06
  | 0x15 => some 0x07
  | 0x16 => some 0x08
  | 0x1D => some 0x09
  | 0x30 => some 0x0A
  | 0x31 => some 0x0B
  | _ => none

/-- The 32-bit form of an instruction with an immediate or offset, if it has one (R68). -/
def Native.short (x : Native) (imm : Int) : Option Parcel :=
  let low := wrap imm 12
  let off := wrap imm 20
  match x.maj with
  | 0x00 => if x.isPlain 3 ∧ x.fn ≤ 25 then some (shortParcel 0x01 x.d x.a (x.b * 64 + x.fn)) else none
  | 0x02 => if x.isPlain 3 then some (shortParcel 0x03 x.d x.a (x.b * 64 + x.fn)) else none
  | 0x04 => if x.isPlain 0 then some (shortParcel 0x02 x.d x.a (x.b * 64 + x.fn)) else none
  | 0x20 => if x.isPlain 0 ∧ fitsIn imm 20 then some (BitVec.ofNat 32 (0x10 * 2 ^ 24 + off)) else none
  | 0x22 => if x.isPlain 0 ∧ fitsIn imm 20 then some (BitVec.ofNat 32 (0x12 * 2 ^ 24 + off)) else none
  | 0x21 =>
    if { x with opt := 0 }.isPlain 0 ∧ fitsIn imm 20 then
      some (BitVec.ofNat 32 (0x11 * 2 ^ 24 + x.d * 2 ^ 21 + x.opt % 2 * 2 ^ 20 + off))
    else none
  | 0x23 => if x.isPlain 0 ∧ x.fn = 2 then some 0x13000000 else none
  | 0x41 =>
    if x.isPlain 0 ∧ x.fn = 6 then some 0x13000002 else if x.isPlain 0 ∧ x.fn = 1 then some 0x13000003 else none
  | m => match shortImm m with
    | some k => if x.isPlain 3 ∧ fitsIn imm 12 then some (shortParcel k x.d x.a low) else none
    | none => none

/-- Parcels of the shortest form that holds an immediate or offset (R46). -/
def Native.least (x : Native) (imm : Int) : Nat :=
  if (x.short imm).isSome then 1 else if isImm x.maj && !(fitsIn imm 24) then 3 else 2

/-- The parcels of an instruction in a form of the given length. -/
def Native.parcels (x : Native) (len : Nat) (imm : Int) : List Parcel :=
  let maj := BitVec.ofNat 8 x.maj
  let p := BitVec.ofNat 3 x.p
  let d := BitVec.ofNat 6 x.d
  let a := BitVec.ofNat 6 x.a
  let opt := BitVec.ofNat 3 x.opt
  let ty := BitVec.ofNat 4 x.ty
  let md := BitVec.ofNat 3 x.md
  if len = 1 then [(x.short imm).getD 0]
  else if len = 3 then
    W96.words maj { p := p, n := x.n, d := d, a := a, opt := opt, ty := ty, md := md, sat := x.sat, lit := BitVec.ofNat 32 (wrap imm 32) }
  else if isImm x.maj then
    I64.words maj { p := p, n := x.n, d := d, a := a, opt := opt, ty := ty, md := md, sat := x.sat, imm := BitVec.ofNat 24 (wrap imm 24) }
  else
    G64.words maj (BitVec.ofNat 6 x.fn)
      { p := p, n := x.n, d := d, a := a, b := BitVec.ofNat 6 x.b, c := BitVec.ofNat 6 x.c, opt := opt, ty := ty, md := md,
        sat := x.sat }

/-- Issue classes (R57). -/
inductive IssueClass where
  | scalar | branch | memory | mvu
  deriving DecidableEq, Repr

/-- The class of an instruction (R57). -/
def classIn (maj fn : Nat) : IssueClass :=
  if (decide (0x20 ≤ maj) && decide (maj ≤ 0x26)) || [0x40, 0x41, 0x61, 0xB0, 0xB3].contains maj then .branch
  else if maj = 0x62 then (if fn = 1 ∨ fn = 2 then .memory else .branch)
  else if maj = 0x07 then (if fn = 2 then .scalar else .memory)
  else if (decide (0x30 ≤ maj) && decide (maj ≤ 0x35)) || [0x50, 0x51, 0x52, 0x60, 0xB1, 0xB2, 0xC0].contains maj then .memory
  else if 0xD0 ≤ maj then .scalar
  else if 0x70 ≤ maj then .mvu
  else .scalar

/-! The checks of a level. -/

/-- Operand fields with their roles, in the order D, A, B, C. -/
def TWord.fields (w : TWord) : List (Role × Nat) :=
  let r := rolesOf w.maj w.fn w.md
  [(r.d, w.vd), (r.a, w.va), (r.b, w.vb), (r.c, w.vc)]

/-- A field that names a register. -/
def Role.isReg (r : Role) : Bool := r == .dst || r == .src || r == .both

/-- Registers that a word names in its operand fields, with their roles (R200). -/
def TWord.named (w : TWord) : List (Role × Nat) :=
  match w.kind, w.maj with
  | 0, _ => w.fields.filter (fun (x : Role × Nat) => x.1.isReg)
  | 1, 0 => [(.both, w.vd), (.src, w.va), (.src, w.vb)]
  | 1, 1 => [(.dst, w.vd)]
  | 1, _ => [(.dst, w.vd), (.src, w.va), (.src, w.vb)]
  | _, _ => []

/-- The native instruction of a word with register fields given. -/
def TWord.native (w : TWord) (word d a b c : Nat) : Native :=
  { maj := w.maj, fn := w.fn, ty := w.ty, md := w.md, sat := w.sat, opt := w.opt, p := w.p, n := w.n, d := d, a := a, b := b,
    c := c, imm := if namesLabel w.maj then 0 else w.imm, target := if namesLabel w.maj then some w.imm.toNat else none,
    word := word }

/-- The native form accepts a word's fields: it decodes with a register of the same kind in each register field, and p0 for a
predicate out of range (R65). BEADQ alone tells a strand from a scalar (R291). B of PNOT is refused as a field that must be zero
(reason 17) up to 7, and above as a predicate number. (DESIGN CHOICE, log 32.) -/
def TWord.decodes (w : TWord) : Bool :=
  let put := fun (x : Role × Nat) =>
    if x.1.isReg then (if w.maj = 0x08 ∧ 32 ≤ x.2 then 32 else 0)
    else if x.1 == .pred && decide (8 ≤ x.2) then 0
    else x.2
  let x := match w.fields.map put with
    | [d, a, b, c] => w.native 0 d a b c
    | _ => w.native 0 0 0 0 0
  match decode (x.parcels (if isImm x.maj && !(fitsIn x.imm 24) then 3 else 2) x.imm) with
  | .ok _ => true
  | .error _ => false

/-- A native word's fields are legal, its registers and immediate apart (R190, R192). An immediate or an FN that the native form does
not take, a value beyond 6 bits in an ignored field, a tensor identifier beyond 63 and a negative label reject the level with
reason 17. (DESIGN CHOICE, log 32.) -/
def TWord.nativeOk (level : Nat) (w : TWord) : Bool :=
  levelHolds level w.maj w.fn &&
  (if isImm w.maj then w.fn == 0 && (!(namesLabel w.maj) || decide (0 ≤ w.imm)) else w.imm == 0) &&
  w.fields.all (fun (x : Role × Nat) => match x.1 with | .zero => x.2 == 0 | .fixed => decide (x.2 < 64) | _ => true)

/-- A virtual operation's fields are legal, its registers apart (R194). -/
def TWord.virtualOk (w : TWord) : Bool :=
  match w.maj with
  | 0 => w.fn == 0 && decide (9 ≤ w.ty) && decide (w.ty ≤ 12) && decide (w.md ≤ 4) && w.opt == 0 && w.vc == 0 && w.imm == 0
  | 1 => w.fn == 0 && w.ty == 0 && w.md == 0 && !w.sat && w.opt == 0 && w.va == 0 && w.vb == 0 && w.vc == 0
  | 2 => w.fn == 0 && w.ty == 0 && decide (w.md ≤ 4) && w.opt == 0 && w.vc == 0 && w.imm == 0
  | _ => false

/-- A label word is all zero but its number (R190). -/
def TWord.labelOk (w : TWord) : Bool :=
  decide (0 ≤ w.imm) && decide (w.imm < 65536) && decide ({ w with imm := 0 } = TWord.read (BitVec.ofNat 128 (2 ^ 63)))

/-- Register numbers of a level (R192). -/
def regLimit (level budget : Nat) : Nat := if level = 2 then budget else 255

/-- Register and predicate numbers within the level's range. -/
def TWord.inRange (level budget : Nat) (w : TWord) : Bool :=
  w.named.all (fun (x : Role × Nat) => decide (x.2 < regLimit level budget)) &&
  (w.kind != 0 || w.fields.all (fun (x : Role × Nat) => x.1 != .pred || decide (x.2 < 8)))

/-- Why a word rejects its level: the reason of R198. Of several, 17 comes first, then 18, then 22. (DESIGN CHOICE, log 32.) -/
def TWord.refused (level budget : Nat) (w : TWord) : Option Nat :=
  let wide := isImm w.maj && !(namesLabel w.maj) && !(fitsIn w.imm 32)
  if w.reserved ∨ w.kind = 3 then some 17
  else if w.kind = 2 then (if w.labelOk then none else some 17)
  else if w.kind = 1 then
    if level = 2 ∨ ¬ w.virtualOk then some 17 else if w.inRange level budget then none else some 18
  else if ¬ w.nativeOk level ∨ ¬ w.decodes then some 17
  else if ¬ w.inRange level budget then some 18
  else if wide then some 22
  else none

/-- Words with their indices. -/
def indexed (ws : List TWord) : List (TWord × Nat) := ws.zip (upFrom 0 ws.length)

/-- Labels and the words at which they stand. -/
def labelsOf (ws : List TWord) : List (Nat × Nat) :=
  ((indexed ws).filter (fun (x : TWord × Nat) => x.1.kind == 2)).map (fun (x : TWord × Nat) => (x.1.imm.toNat, x.2))

/-- Branches: word index and label. -/
def branchesOf (ws : List TWord) : List (Nat × Nat) :=
  ((indexed ws).filter (fun (x : TWord × Nat) => x.1.kind == 0 && namesLabel x.1.maj)).map
    (fun (x : TWord × Nat) => (x.2, x.1.imm.toNat))

/-- Every label is defined once, and every branch names one that an instruction follows (R198 reason 19). -/
def labelsOk (ws : List TWord) : Bool :=
  let ls := labelsOf ws
  let last := ((indexed ws).filter (fun (x : TWord × Nat) => x.1.kind != 2)).foldl (fun (m : Nat) x => max m (x.2 + 1)) 0
  decide ((ls.map (fun (x : Nat × Nat) => x.1)).Nodup) &&
  (branchesOf ws).all (fun (b : Nat × Nat) => ls.any (fun (l : Nat × Nat) => l.1 == b.2 && decide (l.2 < last)))

/-! Written before read (R193). -/

/-- Words that may follow word `i`: of a BRC both, whatever predicate it names. (DESIGN CHOICE, log 32.) -/
def TWord.follows (ls : List (Nat × Nat)) (w : TWord) (i : Nat) : List Nat :=
  let dst := ((ls.find? (fun (l : Nat × Nat) => l.1 == w.imm.toNat)).map (fun (l : Nat × Nat) => l.2)).toList
  if w.kind ≠ 0 then [i + 1]
  else if w.maj = 0x20 then (if w.always then dst else dst ++ [i + 1])
  else if w.maj = 0x21 then dst ++ [i + 1]
  else if w.maj = 0x23 ∧ w.always then []
  else [i + 1]

/-- Virtual registers as a set. -/
def regSet (l : List Nat) : BitVec 256 := l.foldl (fun (m : BitVec 256) v => m ||| (1 <<< v)) 0

/-- Registers that a word reads, and those that it writes for certain. -/
def TWord.uses (w : TWord) : BitVec 256 :=
  regSet ((w.named.filter (fun (x : Role × Nat) => x.1 != .dst)).map (fun (x : Role × Nat) => x.2))
def TWord.defs (w : TWord) : BitVec 256 :=
  if w.always then regSet ((w.named.filter (fun (x : Role × Nat) => x.1 != .src)).map (fun (x : Role × Nat) => x.2)) else 0

/-- One pass over the words: what is written on every path to each word. -/
def flowPass (ws : List TWord) (ins : List (BitVec 256)) : List (BitVec 256) :=
  let ls := labelsOf ws
  (indexed ws).foldl (fun (acc : List (BitVec 256)) x =>
    let out := acc.getD x.2 0 ||| x.1.defs
    (x.1.follows ls x.2).foldl (fun (m : List (BitVec 256)) j => m.set j (m.getD j 0 &&& out)) acc) ins

/-- Passes until nothing changes. -/
def flowFix (ws : List TWord) : Nat → List (BitVec 256) → List (BitVec 256)
  | 0, ins => ins
  | n + 1, ins =>
    let next := flowPass ws ins
    if next = ins then ins else flowFix ws n next

/-- No register is read on a path before it is written; inputs hold their values at the entry. -/
def writtenFirst (ws : List TWord) (nin : Nat) : Bool :=
  let start := regSet (upFrom 0 nin) :: List.replicate ws.length (BitVec.allOnes 256)
  let ins := flowFix ws (256 * ws.length + 1) start
  (indexed ws).all (fun (x : TWord × Nat) => x.1.uses &&& ~~~(ins.getD x.2 0) == 0)

/-! Registers (R199 to R201). -/

/-- A word between a label and a later branch to it (R200). -/
def insideLoop (ws : List TWord) (i : Nat) : Bool :=
  (branchesOf ws).any (fun (b : Nat × Nat) => decide (i ≤ b.1) &&
    (labelsOf ws).any (fun (l : Nat × Nat) => l.1 == b.2 && decide (l.2 ≤ i)))

/-- The weight of a virtual register (R200). -/
def weightOf (ws : List TWord) (v : Nat) : Nat :=
  (indexed ws).foldl (fun (m : Nat) (x : TWord × Nat) =>
    let count := (x.1.named.filter (fun (r : Role × Nat) => r.2 == v)).length
    m + count * (if count != 0 && insideLoop ws x.2 then 16 else 1)) 0

/-- The virtual registers that a level uses, rising. -/
def usedRegs (ws : List TWord) : List Nat :=
  (upFrom 0 255).filter (fun v => ws.any (fun w => w.named.any (fun (r : Role × Nat) => r.2 == v)))

/-- The operands of virtual operations, which are never spilled (R200). -/
def keptRegs (ws : List TWord) : List Nat :=
  (ws.filter (fun w => w.kind == 1)).flatMap (fun w => w.named.map (fun (r : Role × Nat) => r.2))

/-- The register to spill: of lowest weight, then of highest number. -/
def spillNext (weights : List (Nat × Nat)) : Option Nat :=
  (weights.foldl (fun (best : Option (Nat × Nat)) x =>
    match best with
    | none => some x
    | some b => if x.2 ≤ b.2 then some x else some b) none).map (fun (x : Nat × Nat) => x.1)

/-- Registers spilled until the rest fit; none when only operands of virtual operations are left (R200). -/
def spillMore (kept : List Nat) : Nat → List (Nat × Nat) → List Nat → Option (List Nat)
  | 0, _, gone => some gone
  | n + 1, weights, gone =>
    match spillNext (weights.filter (fun (x : Nat × Nat) => !(kept.contains x.1))) with
    | none => none
    | some v => spillMore kept n (weights.filter (fun (x : Nat × Nat) => x.1 != v)) (v :: gone)

/-- Where a virtual register lives: a scalar register, or a slot of the frame. -/
inductive Home where
  | reg (n : Nat)
  | slot (n : Nat)
  deriving DecidableEq, Repr

/-- The homes of a level's registers (R200): none if they cannot be allocated. (DEDUCED, log 32.) -/
def allocate (ws : List TWord) (budget : Nat) : Option (List (Nat × Home)) :=
  let used := usedRegs ws
  let weights := used.map (fun v => (v, weightOf ws v))
  (spillMore (keptRegs ws) (used.length - (budget - 5)) weights []).map (fun gone =>
    let kept := used.filter (fun v => !(gone.contains v))
    let out := used.filter (fun v => gone.contains v)
    (kept.zip (upFrom 3 kept.length)).map (fun (x : Nat × Nat) => (x.1, Home.reg x.2)) ++
    (out.zip (upFrom 0 out.length)).map (fun (x : Nat × Nat) => (x.1, Home.slot x.2)))

/-- Home of a register. -/
def homeOf (hs : List (Nat × Home)) (v : Nat) : Home :=
  ((hs.find? (fun (x : Nat × Home) => x.1 == v)).map (fun (x : Nat × Home) => x.2)).getD (.reg 0)

/-! Emission. -/

/-- A slot's load into a register, and the store of a register to it (R202). -/
def slotLoad (word k r : Nat) : Native := { maj := 0x30, ty := 3, d := r, a := 2, imm := 8 * k, word := word }
def slotStore (word k r p : Nat) (n : Bool) : Native :=
  { maj := 0x31, ty := 3, d := 2, a := r, p := p, n := n, imm := 8 * k, word := word }

/-- The prologue (R201): spilled inputs to their slots, then the others to their homes. -/
def prologue (hs : List (Nat × Home)) (nin : Nat) : List Native :=
  let used := (upFrom 0 nin).filter (fun v => hs.any (fun (x : Nat × Home) => x.1 == v))
  used.filterMap (fun v => match homeOf hs v with
    | .slot k => some (slotStore 0xFFFF k (3 + v) 0 false)
    | .reg _ => none) ++
  used.filterMap (fun v => match homeOf hs v with
    | .reg r => if r = 3 + v then none else some { maj := 0x00, fn := 25, ty := 3, d := r, a := 3 + v }
    | .slot _ => none)

/-- The instruction that a RET becomes where it ends the function's own work (R204). -/
def endOf (helper : Bool) (w : TWord) (word : Nat) : Native :=
  { maj := 0x41, fn := if helper then 1 else 6, p := w.p, n := w.n, word := word }

/-- Reload registers of the spilled registers that a word reads, in the order of their first fields D, A, B, C. A destination
that only another field reads takes the place of that field, and is not loaded first
(R202). (DESIGN CHOICE, log 32.) -/
def reloads (hs : List (Nat × Home)) (budget : Nat) (w : TWord) : List (Nat × Nat × Nat) :=
  let read := ((w.named.filter (fun (x : Role × Nat) => x.1 != .dst)).map (fun (x : Role × Nat) => x.2)).eraseDups
  let spilled := read.filterMap (fun v => match homeOf hs v with | .slot k => some (v, k) | .reg _ => none)
  (spilled.zip [0, budget - 1, budget - 2]).map (fun (x : (Nat × Nat) × Nat) => (x.1.1, x.1.2, x.2))

/-- A native word of the loop or tile level in homes, with its reloads and its spill store (R202, R203). -/
def emitNative (hs : List (Nat × Home)) (budget : Nat) (w : TWord) (word : Nat) : List Native :=
  let rl := reloads hs budget w
  let place := fun (x : Role × Nat) =>
    if ¬ x.1.isReg then x.2
    else match homeOf hs x.2 with
      | .reg r => r
      | .slot _ =>
        if x.1 = .dst then 0
        else ((rl.find? (fun (e : Nat × Nat × Nat) => e.1 == x.2)).map (fun (e : Nat × Nat × Nat) => e.2.2)).getD 0
  let main := match w.fields.map place with
    | [d, a, b, c] => w.native word d a b c
    | _ => w.native word 0 0 0 0
  let spill := (w.named.filter (fun (x : Role × Nat) => x.1 != .src)).filterMap (fun (x : Role × Nat) =>
    match homeOf hs x.2 with
    | .slot k => some (slotStore word k 0 w.p w.n)
    | .reg _ => none)
  rl.map (fun (e : Nat × Nat × Nat) => slotLoad word e.2.1 e.2.2) ++ [main] ++ spill

/-- The expansion of a virtual operation (R194): the words of MOVQ stand as their 32 bits, not sign-extended. -/
def emitVirtual (hs : List (Nat × Home)) (budget : Nat) (w : TWord) (word : Nat) : List Native :=
  let reg := fun (v : Nat) => match homeOf hs v with | .reg r => r | .slot _ => 0
  let d := reg w.vd
  let t0 := budget - 2
  let t1 := budget - 1
  let x : Native := { maj := 0, p := w.p, n := w.n, word := word }
  let low : Int := wrap w.imm 32
  let high : Int := wrap w.imm 64 / 2 ^ 32
  match w.maj with
  | 0 =>
    [{ x with maj := 0x05, fn := 3, ty := 8, d := t0, a := reg w.va, c := w.ty },
     { x with maj := 0x05, fn := 3, ty := 8, d := t1, a := reg w.vb, c := w.ty },
     { x with maj := 0x05, fn := 2, ty := 8, md := w.md, sat := w.sat, d := d, a := t0, b := t1, c := d }]
  | 1 =>
    if fitsIn w.imm 32 then [{ x with maj := 0x1D, ty := 3, d := d, imm := w.imm }]
    else
      [{ x with maj := 0x1D, ty := 3, d := d, imm := high },
       { x with maj := 0x14, ty := 3, d := d, a := d, imm := 32 },
       { x with maj := 0x1D, ty := 6, d := t0, imm := low },
       { x with maj := 0x00, fn := 10, ty := 3, d := d, a := d, b := t0 }]
  | _ =>
    [{ x with maj := 0x13, ty := 3, d := t0, a := reg w.vb, imm := -0x80000000 },
     { x with maj := 0x05, fn := 0, ty := 8, md := w.md, sat := w.sat, d := d, a := reg w.va, b := t0 }]

/-- The native instructions of one word (R203, R204). -/
def emitWord (level : Nat) (helper : Bool) (budget count : Nat) (hs : List (Nat × Home)) (x : TWord × Nat) : List Native :=
  let w := x.1
  let isRet := w.kind == 0 && w.maj == 0x23 && w.fn == 2
  if w.kind = 2 then []
  else if isRet && (level != 2 || x.2 + 1 == count) then [endOf helper w x.2]
  else if level = 2 then [w.native x.2 w.vd w.va w.vb w.vc]
  else if w.kind = 1 then emitVirtual hs budget w x.2
  else emitNative hs budget w x.2

/-- Code in order, with the instruction that each label marks. -/
structure Code where
  body : List Native := []
  labels : List (Nat × Nat) := []
  slots : Nat := 0
  deriving DecidableEq, Repr

/-- The code of a level (R203). -/
def emitLevel (level : Nat) (helper : Bool) (budget nin : Nat) (hs : List (Nat × Home)) (ws : List TWord) : Code :=
  let start : Code :=
    { body := if level = 2 then [] else prologue hs nin
      slots := (hs.filter (fun (x : Nat × Home) => match x.2 with | .slot _ => true | .reg _ => false)).length }
  (indexed ws).foldl (fun (acc : Code) x =>
    if x.1.kind = 2 then { acc with labels := acc.labels ++ [(x.1.imm.toNat, acc.body.length)] }
    else { acc with body := acc.body ++ emitWord level helper budget ws.length hs x }) start

/-- One level translated, or the reason of R198 for which it is rejected. (DEDUCED, log 32.) -/
def translateLevel (level : Nat) (helper : Bool) (budget nin : Nat) (ws : List TWord) : Except Nat Code :=
  match (if level = 0 ∧ helper then some 17 else ws.findSome? (TWord.refused level budget)) with
  | some r => .error r
  | none =>
    if ¬ labelsOk ws then .error 19
    else if level = 2 then .ok (emitLevel 2 helper budget nin [] ws)
    else if ¬ writtenFirst ws nin then .error 20
    else
      match allocate ws budget with
      | none => .error 21
      | some hs => .ok (emitLevel level helper budget nin hs ws)

/-! Packing. -/

/-- First parcels of instructions of the given lengths, none crossing a slot (R52). -/
def positions : Nat → List Nat → List Nat
  | _, [] => []
  | pos, n :: rest =>
    let at' := if pos % 3 + n ≤ 3 then pos else (pos / 3 + 1) * 3
    at' :: positions (at' + n) rest

/-- The offset or immediate of an instruction at a position. -/
def Native.immAt (x : Native) (labels : List (Nat × Nat)) (pos : List Nat) (at' : Nat) : Int :=
  match x.target with
  | none => x.imm
  | some l =>
    match labels.find? (fun (e : Nat × Nat) => e.1 == l) with
    | some e => (pos.getD e.2 0 : Int) - at'
    | none => 0

/-- Lengths that hold every offset of the present layout, none shorter than before (R46). -/
def lengthen (c : Code) (lens : List Nat) : List Nat :=
  let pos := positions 0 lens
  ((c.body.zip lens).zip pos).map (fun (x : (Native × Nat) × Nat) => max x.1.2 (x.1.1.least (x.1.1.immAt c.labels pos x.2)))

/-- Passes until no instruction needs lengthening (R46). -/
def settleLengths (c : Code) : Nat → List Nat → List Nat
  | 0, lens => lens
  | n + 1, lens =>
    let next := lengthen c lens
    if next = lens then lens else settleLengths c n next

/-- Lengths of the instructions of some code. -/
def Code.lengths (c : Code) : List Nat :=
  settleLengths c (2 * c.body.length + 1) (c.body.map (fun x => x.least (if x.target.isSome then 0 else x.imm)))

/-- One instruction placed: its first parcel, its parcels, its class, whether a label stands on it, and its word. -/
structure Placed where
  at' : Nat
  text : List Parcel
  cls : IssueClass
  labelled : Bool
  calls : Bool
  word : Nat
  deriving DecidableEq, Repr

/-- The instructions of some code, placed. -/
def Code.placed (c : Code) : List Placed :=
  let lens := c.lengths
  let pos := positions 0 lens
  (((c.body.zip lens).zip pos).zip (upFrom 0 lens.length)).map (fun (x : ((Native × Nat) × Nat) × Nat) =>
    let i := x.1.1.1
    { at' := x.1.2
      text := i.parcels x.1.1.2 (i.immAt c.labels pos x.1.2)
      cls := classIn i.maj i.fn
      labelled := c.labels.any (fun (l : Nat × Nat) => l.2 == x.2)
      calls := i.maj == 0x22 || (i.maj == 0x23 && i.fn == 1)
      word := i.word })

/-- Instructions that begin in slot `j`. -/
def inSlot (ps : List Placed) (j : Nat) : List Placed := ps.filter (fun x => x.at' / 3 == j)

/-- Classes that a slot issues: its fill is of class S (R60). -/
def slotClasses (ps : List Placed) (j : Nat) : List IssueClass :=
  let here := inSlot ps j
  let used := (here.map (fun x => x.text.length)).foldl (· + ·) 0
  here.map (fun x => x.cls) ++ List.replicate (3 - used) .scalar

/-- GRP of slot `j`, with the classes of the group so far (R60): an empty slot is padding. A group that repeats a class of itself
ends there, whatever the next slot adds. (DESIGN CHOICE, log 32.) -/
def groupEnds (ps : List Placed) (j : Nat) (group : List IssueClass) : Bool :=
  let here := inSlot ps j
  j % 5 == 4 || here.isEmpty || (here.getLast?).any (fun x => x.cls == .branch) ||
  (inSlot ps (j + 1)).any (fun x => x.labelled) || !(decide ((group ++ slotClasses ps (j + 1)).Nodup))

/-- GRP of `n` slots from slot `j` on. -/
def groupBits (ps : List Placed) : Nat → Nat → List IssueClass → List Bool
  | 0, _, _ => []
  | n + 1, j, before =>
    let group := before ++ slotClasses ps j
    let ends := groupEnds ps j group
    ends :: groupBits ps n (j + 1) (if ends then [] else group)

/-- The text of code as parcels, filled to whole lines. -/
def codeText (ps : List Placed) : List Parcel :=
  let filled := ps.foldl (fun (acc : List Parcel) x => acc ++ List.replicate (x.at' - acc.length) 0 ++ x.text) []
  filled ++ List.replicate ((filled.length + 14) / 15 * 15 - filled.length) 0

/-- A legal target: the entry, a labelled parcel, the parcel after a call (R61). -/
def isTarget (ps : List Placed) (i : Nat) : Bool :=
  i == 0 || ps.any (fun x => (x.labelled && x.at' == i) || (x.calls && x.at' + x.text.length == i))

/-- Whether a word has an odd count of ones. -/
def oddCount (l : List Bool) : Bool := l.foldl (fun (m : Bool) b => m != b) false

/-- PAR of a line's text (R53). -/
def lineParity (text : List Parcel) : Nat :=
  let bit := fun (b : Nat) => (text.getD (b / 32) 0).getLsbD (b % 32)
  (upFrom 0 8).foldl (fun (m : Nat) i => m + (if oddCount ((upFrom (60 * i) 60).map bit) then 2 ^ i else 0)) 0

/-- The line word of line `n` (R53). -/
def lineWordOf (ps : List Placed) (groups : List Bool) (text : List Parcel) (n : Nat) : Parcel :=
  let grp := (upFrom 0 5).foldl (fun (m : Nat) j => m + (if groups.getD (5 * n + j) true then 2 ^ j else 0)) 0
  let tgt := (upFrom 0 15).foldl (fun (m : Nat) i => m + (if isTarget ps (15 * n + i) then 2 ^ i else 0)) 0
  BitVec.ofNat 32 (lineParity text * 2 ^ 24 + grp * 2 ^ 15 + tgt)

/-- Whole lines of code as parcels, sixteen to a line (R50). (DEDUCED, log 32.) -/
def Code.lines (c : Code) : List Parcel :=
  let ps := c.placed
  let text := codeText ps
  let n := text.length / 15
  let groups := groupBits ps (5 * n) 0 []
  (upFrom 0 n).flatMap (fun i =>
    let line := (text.drop (15 * i)).take 15
    line ++ [lineWordOf ps groups line i])

/-- The map entries of code at a level (R205): a word index has sixteen bits. (DEDUCED, log 32.) -/
def Code.map (c : Code) (level : Nat) : List Word :=
  c.placed.map (fun x => BitVec.ofNat 64 (x.at' * 2 ^ 32 + level * 2 ^ 30 + x.word % 65536))

end Sys2Proof.Machine
end

