-- ==== Sys2Proof/Machine/Loader.lean ====
section
/-! DEFINITION. Loading of a Thaquet container (R188, R189, R195 to R198, R205): its header and function table, the choice of
levels, and what the runtime writes. -/

namespace Sys2Proof.Machine

/-- A number of `n` bytes at an offset of a container. -/
def field (img : List Byte) (off n : Nat) : Nat := natOfBytes ((img.drop off).take n)

/-! The header. -/

/-- Fields of the header (R188). -/
structure ContainerHead where
  nfunc : Nat
  ftab : Nat
  size : Nat
  xref : Nat
  xrefn : Nat
  reserved : Bool
  magic : Nat
  format : Nat
  deriving DecidableEq, Repr

/-- The header of a container. -/
def ContainerHead.read (img : List Byte) : ContainerHead :=
  { magic := field img 0 4, format := field img 4 2, nfunc := field img 6 2, ftab := field img 8 8, size := field img 16 8,
    xref := field img 24 8, xrefn := field img 32 4, reserved := ((img.drop 36).take 28).any (fun b => b != 0) }

/-- Fields of a function's entry (R189), the level fields in the order tile, loop, scalar. -/
structure Func where
  index : Nat
  nameOff : Nat
  offs : List Nat
  lens : List Nat
  versions : List Nat
  kind : Nat
  budget : Nat
  nin : Nat
  reserved : Bool
  deriving DecidableEq, Repr

/-- The entry of function `f`. -/
def Func.read (img : List Byte) (h : ContainerHead) (f : Nat) : Func :=
  let at' := h.ftab + 64 * f
  { index := f
    nameOff := field img at' 8
    offs := [field img (at' + 8) 8, field img (at' + 16) 8, field img (at' + 24) 8]
    lens := [field img (at' + 32) 4, field img (at' + 36) 4, field img (at' + 40) 4]
    kind := field img (at' + 47) 1
    budget := field img (at' + 48) 1
    nin := field img (at' + 49) 1
    versions := [field img (at' + 50) 1, field img (at' + 51) 1, field img (at' + 52) 1]
    reserved := field img (at' + 44) 3 != 0 || field img (at' + 53) 11 != 0 }

/-- Every function of a container. -/
def funcsOf (img : List Byte) (h : ContainerHead) : List Func := (upFrom 0 h.nfunc).map (Func.read img h)

/-- The bytes of a function's name, without the zero byte that ends it; none if none ends it within the container. -/
def Func.name (img : List Byte) (h : ContainerHead) (f : Func) : Option (List Byte) :=
  let bs := ((img.take h.size).drop f.nameOff).take 64
  if bs.any (fun b => b == 0) then some (bs.takeWhile (fun b => b != 0)) else none

/-- A structure of a function lies within the container's size (R188): a level body of any length but 0, of an absent level too.
(DESIGN CHOICE, log 32.) -/
def Func.inside (img : List Byte) (h : ContainerHead) (f : Func) : Bool :=
  (f.offs.zip f.lens).all (fun (x : Nat × Nat) => x.2 == 0 || decide (x.1 + 16 * x.2 ≤ h.size)) &&
  (decide (f.nameOff + 64 ≤ h.size) || (f.name img h).isSome)

/-- The container is refused with status 1 (R188). Values that the header's table does not allow count with those it names.
(DEDUCED, log 32.) -/
def containerBad (img : List Byte) : Bool :=
  let h := ContainerHead.read img
  h.magic != 0x51414854 || h.format != 1 || h.reserved || h.nfunc == 0 || decide (4096 < h.nfunc) ||
  h.ftab % 64 != 0 || h.xref % 8 != 0 || (h.xrefn == 0 && h.xref != 0) ||
  decide (h.size < 64) || decide (img.length < h.size) || decide (h.size < h.ftab + 64 * h.nfunc) ||
  decide (h.size < h.xref + 8 * h.xrefn) || (funcsOf img h).any (fun f => !(f.inside img h))

/-- A letter, an underscore, or with `first` false a digit (R62). -/
def nameChar (first : Bool) (b : Byte) : Bool :=
  let c := b.toNat
  (decide (65 ≤ c) && decide (c ≤ 90)) || (decide (97 ≤ c) && decide (c ≤ 122)) || c == 95 ||
  (!first && decide (48 ≤ c) && decide (c ≤ 57))

/-- The operands of R40 that a name must not spell (R62): their letters, and how many there are of each. The registers are
those that a specifier of R41 selects. (DEDUCED, log 32.) -/
def operandKinds : List (List Byte × Nat) :=
  [([115], 32), ([103], 32), ([107], 16), ([116], 64), ([101], 16), ([99, 104], 8), ([104], 10), ([98], 32),
    ([98, 100], 64)]

/-- The decimal digits of a number below 100. -/
def digitsOf (n : Nat) : List Byte :=
  if n < 10 then [BitVec.ofNat 8 (48 + n)] else [BitVec.ofNat 8 (48 + n / 10), BitVec.ofNat 8 (48 + n % 10)]

/-- A name spells an operand. -/
def spellsOperand (bs : List Byte) : Bool :=
  operandKinds.any (fun (k : List Byte × Nat) => (upFrom 0 k.2).any (fun n => k.1 ++ digitsOf n == bs))

/-- A name of 1 to 63 letters, digits or underscores that no digit begins and that spells no operand (R62, R189). -/
def nameOk (bs : List Byte) : Bool :=
  decide (bs.length ≤ 63) && !(spellsOperand bs) &&
  (match bs with
    | [] => false
    | b :: rest => nameChar true b && rest.all (nameChar false))

/-- An absent level has no offset and no length; a present one is aligned (R189). -/
def levelEntryOk (off len version : Nat) : Bool := if version = 0 then off == 0 && len == 0 else off % 16 == 0

/-- A function is refused with status 2 (R189). -/
def Func.isBad (img : List Byte) (h : ContainerHead) (all : List Func) (f : Func) : Bool :=
  let top := if f.kind = 1 then 16 else 32
  let name := f.name img h
  f.reserved || decide (1 < f.kind) || decide (f.budget < 8) || decide (top < f.budget) || decide (f.budget < f.nin + 5) ||
  f.versions.all (fun v => v == 0) || !(name.any nameOk) ||
  !(((f.offs.zip f.lens).zip f.versions).all (fun (x : (Nat × Nat) × Nat) => levelEntryOk x.1.1 x.1.2 x.2)) ||
  all.any (fun g => g.index != f.index && g.name img h == name)

/-! Levels. -/

/-- The words of a level body (R190). -/
def wordsAt (img : List Byte) (off n : Nat) : List TWord :=
  (upFrom 0 n).map (fun i => TWord.read (BitVec.ofNat 128 (field img (off + 16 * i) 16)))

/-- The outcome for one function: its status, the level used, the reasons, and its code. -/
structure Translation where
  helper : Bool := false
  status : Nat := 0
  level : Nat := 255
  reasons : List Nat := [0, 0, 0]
  code : Code := {}
  deriving DecidableEq, Repr

/-- The levels tried in the order tile, loop, scalar; the first that is not rejected is used (R195). A level of another version
than 1 is rejected for that first, so that a helper's tile level has reason 17 (R192) only at version 1, and 16 else.
(DEDUCED, log 32.) -/
def tryLevels (img : List Byte) (f : Func) : List Nat → Translation → Translation
  | [], o => { o with status := 3 }
  | l :: rest, o =>
    let version := f.versions.getD l 0
    let reject := fun (r : Nat) => tryLevels img f rest { o with reasons := o.reasons.set l r }
    if version = 0 then tryLevels img f rest o
    else if version ≠ 1 then reject 16
    else
      match translateLevel l (f.kind == 1) f.budget f.nin (wordsAt img (f.offs.getD l 0) (f.lens.getD l 0)) with
      | .ok c => { o with level := l, code := c }
      | .error r => reject r

/-- One function translated. -/
def translateFunc (img : List Byte) (h : ContainerHead) (all : List Func) (f : Func) : Translation :=
  if f.isBad img h all then { status := 2 } else tryLevels img f [0, 1, 2] { helper := f.kind == 1 }

/-! Records. -/

/-- The translation record (R205), with its map entries, then the cross-references of the container as they stand (R191). -/
def Translation.record (o : Translation) (entry : Nat) (xrefs : List Byte) : List Byte :=
  let map := o.code.map o.level
  let head := entry % 2 ^ 40 + 8 * o.code.slots * 2 ^ 40 + o.level * 2 ^ 56 + o.status * 2 ^ 64 + o.reasons.getD 0 0 * 2 ^ 72 +
    o.reasons.getD 1 0 * 2 ^ 80 + o.reasons.getD 2 0 * 2 ^ 88 + map.length * 2 ^ 96
  bytesOfNat 32 head ++ map.flatMap (fun w => bytesOfNat 8 w.toNat) ++ xrefs

/-- Bytes of code. -/
def Code.bytes (c : Code) : List Byte := c.lines.flatMap (fun p => bytesOfNat 4 p.toNat)

/-- What a load has written so far: code for code pages, code for the helper image, records. -/
structure Loaded where
  kernels : List Byte := []
  helpers : List Byte := []
  records : List Byte := []
  deriving DecidableEq, Repr

/-- One function's outcome added; a kernel's code stands at the virtual address `base` of the code pages, a helper's at an
offset of its image (R197). -/
def Loaded.add (base : Word) (xrefs : List Byte) (l : Loaded) (o : Translation) : Loaded :=
  let code := o.code.bytes
  if o.level = 255 then { l with records := l.records ++ o.record 0 xrefs }
  else if o.helper then
    { l with helpers := l.helpers ++ code, records := l.records ++ o.record l.helpers.length xrefs }
  else
    { l with kernels := l.kernels ++ code, records := l.records ++ o.record (base.toNat + l.kernels.length) xrefs }

/-- A whole container translated for code pages at a virtual address; a refused container has one record.
(DEDUCED, log 32.) -/
def loadContainer (img : List Byte) (base : Word) : Loaded :=
  let h := ContainerHead.read img
  if containerBad img then { records := ({ status := 1 } : Translation).record 0 [] }
  else
    let fs := funcsOf img h
    let xrefs := (img.drop h.xref).take (8 * h.xrefn)
    (fs.map (translateFunc img h fs)).foldl (Loaded.add base xrefs) {}

/-- THAQUET_TRANSLATION of the container `bytes` by application core `core` (R195 to R197): the code pages lie at the physical
address `addr`, virtual address `value`; the helper image at the physical address `tag`; the records at `unit`. -/
def execThaquetTranslation (s : State) : Host.Outcome State Fault Refusal :=
  let k := s.cmd
  let l := loadContainer k.bytes k.value
  let put := fun (t : State) (at' : Nat) (bs : List Byte) => if bs.isEmpty then t else t.outsideWrite k.core at' bs
  .next (put (put (put s k.addr l.kernels) k.tag.toNat l.helpers) k.unit l.records)

end Sys2Proof.Machine
end

