-- ==== Sys2Proof/Machine/Loops.lean ====
section
/-! DEFINITION. Overlapped loops: capture (R264 to R270), iterations one at a time in the order of R277, their start and
retirement (R271 to R273), early exit (R282), IRET (R290) and BEADQ (R291). -/

namespace Sys2Proof.Machine

/-- An instruction of a body under capture: its parcel index, its length, and what it decodes to. -/
structure BodyInstr where
  idx : Nat
  len : Nat
  parcels : List Parcel
  instr : Option Instr
  deriving DecidableEq, Repr

/-- The instruction at a parcel index, read for capture (R264). An instruction of a line whose reserved bits are set, or one
that does not decode, is none (R53, R65). -/
def State.bodyAt (s : State) (idx : Nat) : Except Stop (BodyInstr × State) := do
  let pc := parcelAddr idx
  let (text, s1) ← s.lineAt pc
  let ps := slotParcels text (slotOf pc)
  let len := min (parcelCount (ps.getD 0 0)) ps.length
  let i := if lineReserved text then none else (match decode ps with | .ok i => some i | .error _ => none)
  .ok ({ idx := idx, len := len, parcels := ps.take len, instr := i }, s1)

/-- The body from an index up to the closing IRET at `last`, at most `fuel` instructions, and whether that is all of it. -/
def State.captureFrom (s : State) (last : Nat) : Nat → Nat → Except Stop ((List BodyInstr × Bool) × State)
  | 0, _ => .ok (([], false), s)
  | fuel + 1, idx => do
    let (b, s1) ← s.bodyAt idx
    if last ≤ idx then .ok (([b], true), s1)
    else do
      let (rest, s2) ← s1.captureFrom last fuel (idx + b.len)
      .ok ((b :: rest.1, rest.2), s2)

/-- Strands that some instruction of a body writes (R269). -/
def strandSet (body : List BodyInstr) : BitVec 32 :=
  body.foldl (fun acc b =>
    match b.instr.bind Instr.dest with
    | some d => if 32 ≤ d.toNat then setBits acc (d.toNat - 32) 1 1 else acc
    | none => acc) 0

/-- Strand reads of a body instruction, with their distances. -/
def BodyInstr.strandReads (b : BodyInstr) : List (Nat × Nat) :=
  match b.instr with
  | some i => (i.reads.filter (fun r => decide (32 ≤ r.1.toNat))).map (fun r => (r.1.toNat - 32, r.2.toNat))
  | none => []

/-- The reach of a level: the greatest distance at which the body reads a strand of its set (R270). -/
def reachOf (set : BitVec 32) (body : List BodyInstr) : Nat :=
  ((body.flatMap BodyInstr.strandReads).filter (fun r => set.getLsbD r.1)).foldl (fun m r => max m r.2) 0

/-- Every read at distance 0 follows a write of its strand in the body, or in the part of the body before it (R265, check
6). -/
def readsAfterWrites (seen : BitVec 32) : List BodyInstr → Bool
  | [] => true
  | b :: bs => b.strandReads.all (fun r => r.2 != 0 || seen.getLsbD r.1) && readsAfterWrites (seen ||| strandSet [b]) bs

/-- The text of a captured body by parcel index. -/
def textOf (body : List BodyInstr) : Tbl Parcel :=
  body.flatMap (fun b => (upFrom 0 b.len).map (fun k => (b.idx + k, b.parcels.getD k 0)))

/-- The count operand: bits 23 to 0 (R264). -/
def loopCount (v : Word) : Nat := bits v 0 24

/-- The parts of a header that a level needs: its own index and length, the closing IRET's index, and the depth. -/
structure Header where
  idx : Nat
  len : Nat
  last : Nat
  depth : Nat
  count : BitVec 6 × BitVec 3
  deriving DecidableEq, Repr

/-- A LOOP header at an index of a body (R264). -/
def BodyInstr.header (b : BodyInstr) : Option Header :=
  let mk := fun (d : BitVec 6) (a : BitVec 6) (da : BitVec 3) (off : Int) =>
    if 0 < off then some { idx := b.idx, len := b.len, last := b.idx + off.toNat, depth := d.toNat, count := (a, da) } else none
  match b.instr with
  | some (.loopI64 f) => mk f.d f.a f.da f.imm.toInt
  | some (.loopW96 f) => mk f.d f.a f.da f.lit.toInt
  | _ => none

/-- A LOOP header of either length. -/
def isLoop : Option Instr → Bool
  | some (.loopI64 _) | some (.loopW96 _) => true
  | _ => false

/-- The parts of a two-level body: before the inner LOOP, its header, its body, and what follows (R283). -/
structure Split where
  before : List BodyInstr
  head : BodyInstr
  inner : Header
  body : List BodyInstr
  after : List BodyInstr
  deriving DecidableEq, Repr

/-- A LOOPO body cut at its inner LOOP; none if it has not exactly one, or its IRET does not come before the outer one. -/
def splitBody (body : List BodyInstr) : Option Split :=
  let before := body.takeWhile (fun b => !(isLoop b.instr))
  match body.drop before.length with
  | [] => none
  | h :: rest =>
    match h.header with
    | none => none
    | some hd =>
      let inside := rest.takeWhile (fun b => decide (b.idx < hd.last))
      match rest.drop inside.length with
      | [] => none
      | r :: after =>
        if r.idx = hd.last ∧ (r.instr.any Instr.isIret) ∧ after ≠ [] ∧ ¬ (rest.any (fun b => isLoop b.instr)) then
          some { before := before, head := h, inner := hd, body := inside ++ [r], after := after }
        else none

/-- Every instruction of one level's own part is allowed, and only its last is an IRET (R266). -/
def plainBody (body : List BodyInstr) : Bool :=
  body.all (fun b => b.instr.any Instr.bodyAllowed) && body.dropLast.all (fun b => !(b.instr.any Instr.isIret))

/-- The exit target of a body that ends with an IRET: the parcel after it. -/
def exitOf (body : List BodyInstr) : Nat :=
  match body.getLast? with
  | some b => b.idx + b.len
  | none => 0

/-- The level that a header opens over a body. -/
def levelOf (h : Header) (body : List BodyInstr) (set : BitVec 32) (reach count : Nat) (preds : BitVec 8) : LoopLevel :=
  { bodyPc := parcelAddr (h.idx + h.len : Nat), iretPc := parcelAddr (h.last : Nat), exitPc := parcelAddr (exitOf body : Nat),
    count := count, depth := h.depth, reach := reach, set := set, entryPreds := preds, lastPreds := preds }

/-- Checks 3 to 8 of R265 on a one-level body: its strand set and reach. (DEDUCED, log 18.) -/
def checkSingle (body : List BodyInstr) (depth : Nat) : Option (BitVec 32 × Nat) :=
  let set := strandSet body
  let reach := reachOf set body
  if plainBody body && readsAfterWrites 0 body && decide (reach < depth) then some (set, reach) else none

/-- Checks 3 to 8 of R265 on a two-level body: the outer strand set and reach. (DEDUCED, log 18.) -/
def checkDouble (body : List BodyInstr) (sp : Split) (depth : Nat) : Option (BitVec 32 × Nat) :=
  let outerPart := sp.before ++ sp.after
  let outerSet := strandSet outerPart
  let innerSet := strandSet sp.body
  let outerReach := reachOf outerSet body
  let innerReach := reachOf innerSet sp.body
  let seenBefore := strandSet sp.before
  let innerOk := readsAfterWrites (seenBefore &&& ~~~innerSet) sp.body
  let outerOk := readsAfterWrites 0 (sp.before ++ [sp.head]) && readsAfterWrites (seenBefore ||| innerSet) sp.after
  if plainBody sp.body && plainBody outerPart && innerOk && outerOk && outerSet &&& innerSet == 0 &&
      decide (outerReach < depth) && decide (innerReach < sp.inner.depth) then some (outerSet, outerReach) else none

/-- A parcel to which the loop goes back or out has its TGT bit set (R265 check 2). -/
def State.loopTarget (s : State) (idx : Nat) : Except Stop State := do
  let pc := parcelAddr idx
  let (text, s1) ← s.lineAt pc
  if targetOk text (slotOf pc) then .ok s1 else .error (.trap 3 pc 0)

/-- Checks 1 and 2 of a header (R265): its closing IRET, and the targets of its back edge and its exit. -/
def State.headerTargets (s : State) (h : Header) : Except Stop State := do
  let (r, s1) ← s.bodyAt h.last
  let lands := r.instr.any Instr.isIret &&
    (match s1.lineAt (parcelAddr (h.last : Nat)) with
      | .ok (text, _) => beginsInstr text (slotOf (parcelAddr (h.last : Nat)))
      | .error _ => false)
  if ¬ lands then .error Stop.illegal
  let s2 ← s1.loopTarget (h.idx + h.len)
  s2.loopTarget (h.last + r.len)

/-- The capture of a body by a header of ordinary fetch: checks 1 to 4 in order (R265). An inner LOOP is captured and checked
with the outer body (R264): its own checks 1 and 2 come before check 3. (DEDUCED, log 18.) -/
def State.capture (s : State) (h : Header) (off : Int) (two : Bool) : Except Stop (List BodyInstr × State) := do
  if ¬ (0 < off) then .error Stop.illegal
  let s1 ← s.headerTargets h
  let (body, s2) ← s1.captureFrom h.last 64 (h.idx + h.len)
  let s3 ← (match (if two then body.1.find? (fun b => isLoop b.instr) else none) with
    | none => .ok s2
    | some b => match b.header with
      | none => .error Stop.illegal
      | some hd => if hd.last < h.last then s2.headerTargets hd else .error Stop.illegal)
  if ¬ body.2 then .error Stop.illegal
  else if (body.1.filter (fun x => x.instr.any Instr.isStore)).length ≤ 16 then .ok (body.1, s3)
  else .error Stop.illegal

/-- The header retires and the first iteration is to start; a count of zero leaves at once (R264). -/
def State.enterLoop (s : State) (text : Tbl Parcel) (lv : LoopLevel) (outer : Bool) : State :=
  if lv.count = 0 then s.goto lv.exitPc
  else
    let l := s.k.loop
    let l1 : Loop := if outer then { l with text := text, outer := some lv } else { l with text := text, inner := some lv }
    let s1 := s.goto lv.bodyPc
    { s1 with k := { s1.k with loop := l1 } }

/-- The inner LOOP of a captured body starts an instance without fetching anything (R264, R283). -/
def State.enterInner (s : State) (h : Header) : State :=
  let at' := fun i => Tbl.find s.k.loop.text i
  let body := (upFrom (h.idx + h.len) (h.last - (h.idx + h.len) + 3)).filterMap (fun i =>
    match at' i with
    | some p =>
      let ps := p :: ((at' (i + 1)).toList ++ (at' (i + 2)).toList)
      some { idx := i, len := parcelCount p, parcels := ps.take (parcelCount p),
             instr := match decode (ps.take (parcelCount p)) with | .ok x => some x | .error _ => none : BodyInstr }
    | none => none)
  let firsts := body.foldl (fun (acc : List BodyInstr × Nat) b =>
    if b.idx = acc.2 ∧ b.idx ≤ h.last then (acc.1 ++ [b], b.idx + b.len) else acc) ([], h.idx + h.len)
  let inner := firsts.1
  let set := strandSet inner
  let lv := levelOf h inner set (reachOf set inner) (loopCount (s.readOp h.count.1 h.count.2)) s.ctx.preds
  s.enterLoop s.k.loop.text lv false

/-- LOOP (R264): from ordinary fetch it captures, from a captured two-level body it starts an inner instance. -/
def State.loopHeader (s : State) (f : Form) : State :=
  let h : Header :=
    { idx := parcelIndex s.ctx.pc, len := f.len, last := ((parcelIndex s.ctx.pc : Int) + f.imm.toInt).toNat,
      depth := f.d.toNat, count := (f.a, f.da) }
  s.issueRaw (metaC f false) (fun t =>
    if t.k.loop.running ∧ t.k.loop.inner.isNone then .ok (t.enterInner h)
    else do
      let (body, t1) ← t.capture h f.imm.toInt false
      match checkSingle body h.depth with
      | none => .error Stop.illegal
      | some (set, reach) =>
        if t1.k.loop.idle then
          .ok (t1.enterLoop (textOf body)
            (levelOf h body set reach (loopCount (t1.readOp f.a f.da)) t1.ctx.preds) false)
        else .error Stop.illegal)

/-- LOOPO (R264, R283). -/
def State.loopoHeader (s : State) (f : Form) : State :=
  let h : Header :=
    { idx := parcelIndex s.ctx.pc, len := f.len, last := ((parcelIndex s.ctx.pc : Int) + f.imm.toInt).toNat,
      depth := f.d.toNat, count := (f.a, f.da) }
  s.issueRaw (metaC f false) (fun t => do
    let (body, t1) ← t.capture h f.imm.toInt true
    match splitBody body with
    | none => .error Stop.illegal
    | some sp =>
      match checkDouble body sp h.depth with
      | none => .error Stop.illegal
      | some (set, reach) =>
        if t1.k.loop.idle then
          .ok (t1.enterLoop (textOf body)
            (levelOf h body set reach (loopCount (t1.readOp f.a f.da)) t1.ctx.preds) true)
        else .error Stop.illegal)

/-- A change of that level. -/
def Loop.onCurrent (l : Loop) (f : LoopLevel → LoopLevel) : Loop :=
  match l.inner with
  | some lv => { l with inner := some (f lv) }
  | none => { l with outer := l.outer.map f }

/-- A change of the level in progress. -/
def State.onLevel (s : State) (f : LoopLevel → LoopLevel) : State :=
  { s with k := { s.k with loop := s.k.loop.onCurrent f } }

/-- An iteration starts: its beads are not yet written, its predicates are those of the instance's start (R270, R273).
(DEDUCED, log 18.) -/
def State.startIteration (s : State) : State :=
  match s.k.loop.current with
  | none => s
  | some lv =>
    let s1 := (upFrom 0 32).foldl (fun acc g =>
      if lv.set.getLsbD g then acc.setStrand g { acc.strand g with cur := none } else acc) s
    let s2 := s1.onLevel (fun l => { l with phase := .running, begun := s.ctx.retired })
    { s2 with ctx := { s2.ctx with preds := lv.entryPreds, pc := lv.bodyPc } }

/-- What a held store waits for: an unfinished entry that precedes it in the order of R277 and touches its byte (R131), or
requests that wait for its line (R384). (DEDUCED, log 34.) -/
def State.storeBlocked (s : State) (h : HeldByte) : Bool :=
  (h.space == .localMem && s.k.posted.any (fun e => e.stage != .finished && decide (e.order < h.order) &&
    e.tens.any (fun t => localOverlap t.2 h.addr 1))) ||
  (!h.nt && s.byteWaits h)

/-- The held stores of an iteration committed in order, each whole, up to one that an earlier entry still blocks (R132, R278,
R280). -/
def State.commitHeld (s : State) : List HeldByte → List HeldByte × State
  | [] => ([], s)
  | h :: hs =>
    if (h :: hs).any (fun x => x.order == h.order && s.storeBlocked x) then (h :: hs, s)
    else if h.nt then State.commitHeld { s with ctx := { s.ctx with nt := s.ctx.nt ++ [h] } } hs
    else ((s.settleNt h.space h.addr 1).putByte h).commitHeld hs

/-- A KPOP, guarded off or not, or a TIERIN that is held still owes the bead of a strand (R269, R329, R334, R341). -/
def State.owesBead (s : State) (g : Nat) : Bool :=
  s.k.posted.any (fun e => match e.instr with | .kpop f => !e.squashed && f.d.toNat == 32 + g | _ => false) ||
  s.k.owedDests.any (fun d => d.toNat == 32 + g)

/-- A KPOP of an iteration still owes a bead of the level's set. -/
def State.beadOwed (s : State) (lv : LoopLevel) : Bool := (upFrom 0 32).any (fun g => lv.set.getLsbD g && s.owesBead g)

/-- The beads of an iteration that retires join the history; a strand not written takes the value at distance 1 (R271,
R282). -/
def State.pushBeads (s : State) (lv : LoopLevel) : State :=
  (upFrom 0 32).foldl (fun acc g =>
    if lv.set.getLsbD g then
      let st := acc.strand g
      acc.setStrand g (st.push { value := match st.cur with | some v => v | none => (st.hist.getD 0 {}).value })
    else acc) s

/-- A level ends: its strands are cut, its predicates stand, and execution goes on at its exit target (R272, R273). -/
def State.endLevel (s : State) (lv : LoopLevel) : State :=
  let s1 := s.endStrands lv
  let l := s1.k.loop
  let l1 : Loop := match l.inner with
    | some _ => { l with inner := none, text := if l.outer.isNone then [] else l.text }
    | none => { l with outer := none, text := [] }
  let leave := fun (e : Entry) => if l1.inner.isNone && l1.outer.isNone then { e with fromLoop := false } else e
  { s1 with
    ctx := { s1.ctx with pc := lv.exitPc, preds := lv.preds }
    k := { s1.k with loop := l1, mvuq := s1.k.mvuq.map leave } }

/-- Held stores of the outer iteration to bytes that an inner iteration has committed: they are older, and the sequential
order of R277 leaves nothing of them. -/
def State.dropOlder (s : State) (done : List HeldByte) : State :=
  let kept := fun (h : HeldByte) => !(done.any (fun d => d.space == h.space && d.addr == h.addr))
  { s with k := { s.k with loop := { s.k.loop with
      outer := s.k.loop.outer.map (fun o => { o with held := o.held.filter kept }) } } }

/-- What a retired iteration of an inner level has issued stays counted when the outer iteration is squashed (R277, R287). -/
def State.countInner (s : State) (lv : LoopLevel) : State :=
  if s.k.loop.inner.isNone then s
  else { s with k := { s.k with loop := { s.k.loop with
      outer := s.k.loop.outer.map (fun o => { o with begun := o.begun + (s.ctx.retired - lv.begun) }) } } }

/-- A level that ends is the last of its loop. -/
def Loop.isLast (l : Loop) : Bool := l.inner.isNone || l.outer.isNone

/-- The oldest iteration retires (R271): its stores commit, its beads join the history, and the next iteration starts or the
level ends. It waits while a store or a bead of it has to, and a loop does not end before all its engine-bound instructions have
been released (R279). (DEDUCED, log 18.) -/
def State.retireIteration (s : State) : State :=
  match s.k.loop.current with
  | none => s
  | some lv =>
    let r := s.commitHeld lv.held
    let s0 := if s.k.loop.inner.isSome then r.2.dropOlder (lv.held.take (lv.held.length - r.1.length)) else r.2
    let s1 := s0.onLevel (fun l => { l with held := r.1 })
    if r.1 ≠ [] ∨ s1.beadOwed lv then s1
    else
      let lv1 : LoopLevel := { lv with held := [], retiredAny := true, lastPreds := s1.ctx.preds, iter := lv.iter + 1 }
      let ends := lv.broke || decide (lv.count ≤ lv1.iter)
      let s2 := ((s1.pushBeads lv).markRetired).countInner lv
      if ends ∧ s1.k.loop.isLast ∧ s1.k.unreleased ≠ [] then s1
      else if ends then s2.endLevel lv1
      else s2.onLevel (fun _ => { lv1 with phase := .starting })

/-- IRET: the iteration is complete; from ordinary fetch it is illegal (R290). -/
def State.iret (s : State) (len : Nat) : State :=
  s.issueRaw { len := len, helper := false } (fun t =>
    if t.k.loop.running then .ok ((t.retire len).onLevel (fun l => { l with phase := .complete }))
    else .error Stop.illegal)

/-- BREAKC (R282): the iteration is complete and is the level's last. -/
def State.breakc (s : State) (f : Form) : State :=
  s.issueRaw (metaC f false) (fun t =>
    if ¬ t.k.loop.running then .error Stop.illegal
    else if t.pred f.d.toNat != f.opt.getLsbD 0 then
      .ok ((t.retire f.len).onLevel (fun l => { l with phase := .complete, broke := true }))
    else .ok (t.retire f.len))

/-- The word BEADQ reports (R291): the iteration that the read names in bits 63 to 32, its state in bits 1 and 0.
(DEDUCED, log 18.) -/
def State.beadWord (s : State) (g d : Nat) : Word :=
  let st := s.frozen g
  match s.k.loop.owner g with
  | some lv =>
    let k := (lv.iter : Int) - d
    let state :=
      if 0 ≤ k then (if d = 0 ∧ (st.cur.isNone ∨ s.owesBead g) then 1 else 0)
      else if (s.bead g d).cleared then 3 else 2
    BitVec.ofNat 64 (wrap k 32 * 2 ^ 32 + state)
  | none =>
    BitVec.ofNat 64 (wrap (-((d : Int) + 1)) 32 * 2 ^ 32 + (if (st.hist.getD d {}).cleared then 3 else 2))

/-- LOOP with a 24-bit offset (R264). -/
def execLoopI64 (f : I64) (s : State) : Host.Outcome State Fault Refusal := .next (s.loopHeader (formI f))
/-- LOOP with LIT32 (R264). -/
def execLoopW96 (f : W96) (s : State) : Host.Outcome State Fault Refusal := .next (s.loopHeader (formW f))
/-- LOOPO with a 24-bit offset (R264). -/
def execLoopoI64 (f : I64) (s : State) : Host.Outcome State Fault Refusal := .next (s.loopoHeader (formI f))
/-- LOOPO with LIT32 (R264). -/
def execLoopoW96 (f : W96) (s : State) : Host.Outcome State Fault Refusal := .next (s.loopoHeader (formW f))
/-- IRET, 32-bit form (R290). -/
def execIretA32 (s : State) : Host.Outcome State Fault Refusal := .next (s.iret 1)
/-- IRET, 64-bit form (R290). -/
def execIretG64 (s : State) : Host.Outcome State Fault Refusal := .next (s.iret 2)
/-- BREAKC (R282). -/
def execBreakc (f : G64) (s : State) : Host.Outcome State Fault Refusal := .next (s.breakc (formG f))

/-- BEADQ (R291). -/
def execBeadq (f : G64) (s : State) : Host.Outcome State Fault Refusal :=
  .next (s.issue (metaS (formG f) true) (fun t => .ok (t.writeOp f.d (t.beadWord (f.a.toNat - 32) f.da.toNat))))

/-- An iteration's start, where the level in progress of the control context in focus waits for one (R270, R273). -/
def execIterationStart (s : State) : Host.Outcome State Fault Refusal :=
  .next (if s.loopAt .starting then s.startIteration else s)

/-- An iteration's retirement, where the iteration of the control context in focus is complete (R271). -/
def execIterationRetire (s : State) : Host.Outcome State Fault Refusal :=
  .next (if s.loopAt .complete then s.retireIteration else s)

end Sys2Proof.Machine
end

