-- ==== Sys2Proof/Machine/Scalar.lean ====
section
/-! DEFINITION. Scalar integer instructions: arithmetic, shifts, counts, bit fields, addresses, compares, predicate logic and
select (R140 to R150), and NOP and HINT (R73, R74, R160). -/

namespace Sys2Proof.Machine

/-- A source read by TY (R140). -/
def srcTy (ty : BitVec 4) (v : Word) : Int := intSrc (tySigned ty) v (tyBits ty)
/-- The n-bit pattern of a source. -/
def srcPat (ty : BitVec 4) (v : Word) : Nat := v.toNat % 2 ^ tyBits ty
/-- A source read as signed, or as unsigned, at the type's width. -/
def srcS (ty : BitVec 4) (v : Word) : Int := intSrc true v (tyBits ty)
def srcZ (ty : BitVec 4) (v : Word) : Int := intSrc false v (tyBits ty)

/-- Exact results of R141. -/
def opAdd (ty : BitVec 4) (a b : Word) : Int := srcTy ty a + srcTy ty b
def opSub (ty : BitVec 4) (a b : Word) : Int := srcTy ty a - srcTy ty b
def opMul (ty : BitVec 4) (a b : Word) : Int := srcTy ty a * srcTy ty b
def opMulh (ty : BitVec 4) (a b : Word) : Int := srcS ty a * srcS ty b / (2 ^ tyBits ty : Nat)
def opMulhz (ty : BitVec 4) (a b : Word) : Int := srcZ ty a * srcZ ty b / (2 ^ tyBits ty : Nat)
/-- Quotients and remainders, with the fixed results for a zero divisor (R143). -/
def opDiv (ty : BitVec 4) (a b : Word) : Int := if srcS ty b = 0 then -1 else Int.tdiv (srcS ty a) (srcS ty b)
def opDivz (ty : BitVec 4) (a b : Word) : Int :=
  if srcZ ty b = 0 then (2 ^ tyBits ty : Nat) - 1 else Int.tdiv (srcZ ty a) (srcZ ty b)
def opRem (ty : BitVec 4) (a b : Word) : Int := if srcS ty b = 0 then srcS ty a else Int.tmod (srcS ty a) (srcS ty b)
def opRemz (ty : BitVec 4) (a b : Word) : Int := if srcZ ty b = 0 then srcZ ty a else Int.tmod (srcZ ty a) (srcZ ty b)
/-- Bitwise operations on the n-bit patterns (R141). -/
def opAnd (ty : BitVec 4) (a b : Word) : Int := (srcPat ty (a &&& b) : Int)
def opOr (ty : BitVec 4) (a b : Word) : Int := (srcPat ty (a ||| b) : Int)
def opXor (ty : BitVec 4) (a b : Word) : Int := (srcPat ty (a ^^^ b) : Int)
def opAndn (ty : BitVec 4) (a b : Word) : Int := (srcPat ty (a &&& ~~~b) : Int)
/-- The shift amount, from all 64 bits; an amount of 64 or more acts as 64 at every width (R144). -/
def shiftAmount (b : Word) : Nat := min b.toNat 64
def opShl (ty : BitVec 4) (a b : Word) : Int := srcTy ty a * (2 ^ shiftAmount b : Nat)
def opShr (ty : BitVec 4) (a b : Word) : Int := srcZ ty a / (2 ^ shiftAmount b : Nat)
def opSra (ty : BitVec 4) (a b : Word) : Int := srcS ty a / (2 ^ shiftAmount b : Nat)
def opRol (ty : BitVec 4) (a b : Word) : Int :=
  let n := tyBits ty
  let k := b.toNat % n
  ((srcPat ty a * 2 ^ k + srcPat ty a / 2 ^ (n - k) : Nat) : Int)
def opMin (ty : BitVec 4) (a b : Word) : Int := min (srcS ty a) (srcS ty b)
def opMax (ty : BitVec 4) (a b : Word) : Int := max (srcS ty a) (srcS ty b)
def opMinz (ty : BitVec 4) (a b : Word) : Int := min (srcZ ty a) (srcZ ty b)
def opMaxz (ty : BitVec 4) (a b : Word) : Int := max (srcZ ty a) (srcZ ty b)
/-- Zeros above the highest one of the low `n` bits (R145). -/
def clzOf (v : Nat) : Nat → Nat
  | 0 => 0
  | n + 1 => if v / 2 ^ n % 2 = 1 then 0 else 1 + clzOf v n
/-- Zeros below the lowest one of `n` bits. -/
def ctzOf (v : Nat) : Nat → Nat
  | 0 => 0
  | n + 1 => if v % 2 = 1 then 0 else 1 + ctzOf (v / 2) n
/-- Ones among `n` bits. -/
def onesOf (v : Nat) : Nat → Nat
  | 0 => 0
  | n + 1 => v % 2 + onesOf (v / 2) n
def opClz (ty : BitVec 4) (a _ : Word) : Int := (clzOf (srcPat ty a) (tyBits ty) : Int)
def opCtz (ty : BitVec 4) (a _ : Word) : Int := (ctzOf (srcPat ty a) (tyBits ty) : Int)
def opPopc (ty : BitVec 4) (a _ : Word) : Int := (onesOf (srcPat ty a) (tyBits ty) : Int)
def opAbs (ty : BitVec 4) (a _ : Word) : Int := (srcTy ty a).natAbs
def opMov (ty : BitVec 4) (a _ : Word) : Int := srcTy ty a
def opMovl (ty : BitVec 4) (_ b : Word) : Int := srcTy ty b

/-- Steps 2 to 4 of R140: the exact result, the overflow rule, the extension, the write. -/
def State.alu (s : State) (f : Form) (op : BitVec 4 → Word → Word → Int) (a b : Word) : State :=
  let r := intResult f.ty f.sat (op f.ty a b)
  let s1 := s.writeOp f.d r.1
  if r.2 then s1.setFlags flagSATF else s1

/-- A scalar integer instruction over two operands (R140). -/
def State.aluReg (s : State) (f : Form) (op : BitVec 4 → Word → Word → Int) : State :=
  s.issue (metaS f true) (fun t => .ok (t.alu f op (t.readOp f.a f.da) (t.readOp f.b f.db)))

/-- A scalar integer instruction over one operand. -/
def State.aluOne (s : State) (f : Form) (op : BitVec 4 → Word → Word → Int) : State :=
  s.issue (metaS f true) (fun t => .ok (t.alu f op (t.readOp f.a f.da) 0))

/-- A scalar integer instruction with an immediate in B's place (R142). -/
def State.aluImm (s : State) (f : Form) (op : BitVec 4 → Word → Word → Int) : State :=
  s.issue (metaS f true) (fun t => .ok (t.alu f op (t.readOp f.a f.da) f.imm))

/-- A write of a value computed from the operands. -/
def State.opWrite (s : State) (f : Form) (v : State → Word) : State :=
  s.issue (metaS f true) (fun t => .ok (t.writeOp f.d (v t)))

/-- SEL reads both operands and passes the chosen one through R140 (R150). -/
def State.select (s : State) (f : Form) : State :=
  s.issue (metaS f true) (fun t =>
    let a := t.readOp f.a f.da
    let b := t.readOp f.b f.db
    .ok (t.alu f opMov (if t.pred f.c.toNat then a else b) 0))

/-- A write of a predicate; guarded off, nothing is written (R42). -/
def State.opPred (s : State) (f : Form) (v : State → Bool) : State :=
  s.issue (metaS f false) (fun t => .ok (t.setPred f.d.toNat (v t)))

/-- LEA (R147). -/
def State.lea (s : State) (f : Form) : State :=
  s.opWrite f (fun t => t.readOp f.a f.da + f.imm * BitVec.ofNat 64 (tyBytes f.ty))

/-- A bit field extracted and extended (R146). -/
def bfxOf (ty : BitVec 4) (v : Word) (pos len : Nat) : Word :=
  let x := bits v pos len
  if ty = 3 then wordOf (signExt x len) else BitVec.ofNat 64 x

/-- The conditions of CMP (R148). -/
def cmpHolds (cond : Nat) (ty : BitVec 4) (a b : Word) : Bool :=
  match cond with
  | 0 => srcPat ty a == srcPat ty b
  | 1 => srcPat ty a != srcPat ty b
  | 2 => decide (srcS ty a < srcS ty b)
  | 3 => decide (srcS ty a ≤ srcS ty b)
  | 4 => decide (srcS ty b < srcS ty a)
  | 5 => decide (srcS ty b ≤ srcS ty a)
  | 6 => decide (srcZ ty a < srcZ ty b)
  | 7 => decide (srcZ ty a ≤ srcZ ty b)
  | 8 => decide (srcZ ty b < srcZ ty a)
  | 9 => decide (srcZ ty b ≤ srcZ ty a)
  | 10 => srcPat ty (a &&& b) != 0
  | _ => srcPat ty (a &&& b) == 0

/-- CMP (R148): the condition ANDed with pC. -/
def State.cmp (s : State) (f : Form) (cond : BitVec 6) : State :=
  s.opPred f (fun t => cmpHolds cond.toNat f.ty (t.readOp f.a f.da) (t.readOp f.b f.db) && t.pred f.c.toNat)

/-- Predicate logic (R149). -/
def State.predOp (s : State) (f : Form) (op : Bool → Bool → Bool) : State :=
  s.opPred f (fun t => op (t.pred f.a.toNat) (t.pred f.b.toNat))

/-- A hint: it writes nothing and counts as retired (R73). Hint 0 brings a line of the instruction stream into the
instruction cache, if it can be fetched, and nothing else of what its fetch does stays (R74). The fields it reads stand in the
instruction register. (DEDUCED, log 25.) -/
def State.hint (s : State) (number : Nat) (off : Int) (len : Nat) : State :=
  let s1 :=
    if number = 0 ∧ s.ctx.slot = 15 then
      match s.cachedLine false (parcelsAfter s.ctx.pc off) with
      | .ok r => { s with hw := { s.hw with icache := r.2.hw.icache } }
      | .error _ => s
    else s
  s1.retire len

/-- A parcel of the instruction last fetched. -/
def State.irParcel (s : State) (i : Nat) : Parcel := s.ctx.ir.getD i 0

/-- The hint's number: its major less 0xD0 (R73). -/
def State.hintNumber (s : State) : Nat := bits (s.irParcel 0) 22 8 - 0xD0

/-- ADD, A32 form (R141). -/
def execAddA32 (f : A32) (s : State) : Host.Outcome State Fault Refusal :=
  .next (s.aluReg (formA 3 f) opAdd)

/-- ADD, I32 form (R141, R142). -/
def execAddI32 (f : I32) (s : State) : Host.Outcome State Fault Refusal :=
  .next (s.aluImm (formI32 3 f) opAdd)

/-- ADD, G64 form (R141). -/
def execAddG64 (f : G64) (s : State) : Host.Outcome State Fault Refusal :=
  .next (s.aluReg (formG f) opAdd)

/-- ADD, I64 form (R141, R142). -/
def execAddI64 (f : I64) (s : State) : Host.Outcome State Fault Refusal :=
  .next (s.aluImm (formI f) opAdd)

/-- ADD, W96 form (R141, R142). -/
def execAddW96 (f : W96) (s : State) : Host.Outcome State Fault Refusal :=
  .next (s.aluImm (formW f) opAdd)

/-- SUB, A32 form (R141). -/
def execSubA32 (f : A32) (s : State) : Host.Outcome State Fault Refusal :=
  .next (s.aluReg (formA 3 f) opSub)

/-- SUB, G64 form (R141). -/
def execSubG64 (f : G64) (s : State) : Host.Outcome State Fault Refusal :=
  .next (s.aluReg (formG f) opSub)

/-- MUL, A32 form (R141). -/
def execMulA32 (f : A32) (s : State) : Host.Outcome State Fault Refusal :=
  .next (s.aluReg (formA 3 f) opMul)

/-- MUL, G64 form (R141). -/
def execMulG64 (f : G64) (s : State) : Host.Outcome State Fault Refusal :=
  .next (s.aluReg (formG f) opMul)

/-- MUL, I64 form (R141, R142). -/
def execMulI64 (f : I64) (s : State) : Host.Outcome State Fault Refusal :=
  .next (s.aluImm (formI f) opMul)

/-- MUL, W96 form (R141, R142). -/
def execMulW96 (f : W96) (s : State) : Host.Outcome State Fault Refusal :=
  .next (s.aluImm (formW f) opMul)

/-- MULH, A32 form (R141). -/
def execMulhA32 (f : A32) (s : State) : Host.Outcome State Fault Refusal :=
  .next (s.aluReg (formA 3 f) opMulh)

/-- MULH, G64 form (R141). -/
def execMulhG64 (f : G64) (s : State) : Host.Outcome State Fault Refusal :=
  .next (s.aluReg (formG f) opMulh)

/-- MULHZ, A32 form (R141). -/
def execMulhzA32 (f : A32) (s : State) : Host.Outcome State Fault Refusal :=
  .next (s.aluReg (formA 3 f) opMulhz)

/-- MULHZ, G64 form (R141). -/
def execMulhzG64 (f : G64) (s : State) : Host.Outcome State Fault Refusal :=
  .next (s.aluReg (formG f) opMulhz)

/-- DIV, A32 form (R143). -/
def execDivA32 (f : A32) (s : State) : Host.Outcome State Fault Refusal :=
  .next (s.aluReg (formA 3 f) opDiv)

/-- DIV, G64 form (R143). -/
def execDivG64 (f : G64) (s : State) : Host.Outcome State Fault Refusal :=
  .next (s.aluReg (formG f) opDiv)

/-- DIVZ, A32 form (R143). -/
def execDivzA32 (f : A32) (s : State) : Host.Outcome State Fault Refusal :=
  .next (s.aluReg (formA 3 f) opDivz)

/-- DIVZ, G64 form (R143). -/
def execDivzG64 (f : G64) (s : State) : Host.Outcome State Fault Refusal :=
  .next (s.aluReg (formG f) opDivz)

/-- REM, A32 form (R143). -/
def execRemA32 (f : A32) (s : State) : Host.Outcome State Fault Refusal :=
  .next (s.aluReg (formA 3 f) opRem)

/-- REM, G64 form (R143). -/
def execRemG64 (f : G64) (s : State) : Host.Outcome State Fault Refusal :=
  .next (s.aluReg (formG f) opRem)

/-- REMZ, A32 form (R143). -/
def execRemzA32 (f : A32) (s : State) : Host.Outcome State Fault Refusal :=
  .next (s.aluReg (formA 3 f) opRemz)

/-- REMZ, G64 form (R143). -/
def execRemzG64 (f : G64) (s : State) : Host.Outcome State Fault Refusal :=
  .next (s.aluReg (formG f) opRemz)

/-- AND, A32 form (R141). -/
def execAndA32 (f : A32) (s : State) : Host.Outcome State Fault Refusal :=
  .next (s.aluReg (formA 3 f) opAnd)

/-- AND, I32 form (R141, R142). -/
def execAndI32 (f : I32) (s : State) : Host.Outcome State Fault Refusal :=
  .next (s.aluImm (formI32 3 f) opAnd)

/-- AND, G64 form (R141). -/
def execAndG64 (f : G64) (s : State) : Host.Outcome State Fault Refusal :=
  .next (s.aluReg (formG f) opAnd)

/-- AND, I64 form (R141, R142). -/
def execAndI64 (f : I64) (s : State) : Host.Outcome State Fault Refusal :=
  .next (s.aluImm (formI f) opAnd)

/-- AND, W96 form (R141, R142). -/
def execAndW96 (f : W96) (s : State) : Host.Outcome State Fault Refusal :=
  .next (s.aluImm (formW f) opAnd)

/-- OR, A32 form (R141). -/
def execOrA32 (f : A32) (s : State) : Host.Outcome State Fault Refusal :=
  .next (s.aluReg (formA 3 f) opOr)

/-- OR, G64 form (R141). -/
def execOrG64 (f : G64) (s : State) : Host.Outcome State Fault Refusal :=
  .next (s.aluReg (formG f) opOr)

/-- OR, I64 form (R141, R142). -/
def execOrI64 (f : I64) (s : State) : Host.Outcome State Fault Refusal :=
  .next (s.aluImm (formI f) opOr)

/-- OR, W96 form (R141, R142). -/
def execOrW96 (f : W96) (s : State) : Host.Outcome State Fault Refusal :=
  .next (s.aluImm (formW f) opOr)

/-- XOR, A32 form (R141). -/
def execXorA32 (f : A32) (s : State) : Host.Outcome State Fault Refusal :=
  .next (s.aluReg (formA 3 f) opXor)

/-- XOR, G64 form (R141). -/
def execXorG64 (f : G64) (s : State) : Host.Outcome State Fault Refusal :=
  .next (s.aluReg (formG f) opXor)

/-- XOR, I64 form (R141, R142). -/
def execXorI64 (f : I64) (s : State) : Host.Outcome State Fault Refusal :=
  .next (s.aluImm (formI f) opXor)

/-- XOR, W96 form (R141, R142). -/
def execXorW96 (f : W96) (s : State) : Host.Outcome State Fault Refusal :=
  .next (s.aluImm (formW f) opXor)

/-- ANDN, A32 form (R141). -/
def execAndnA32 (f : A32) (s : State) : Host.Outcome State Fault Refusal :=
  .next (s.aluReg (formA 3 f) opAndn)

/-- ANDN, G64 form (R141). -/
def execAndnG64 (f : G64) (s : State) : Host.Outcome State Fault Refusal :=
  .next (s.aluReg (formG f) opAndn)

/-- SHL, A32 form (R144). -/
def execShlA32 (f : A32) (s : State) : Host.Outcome State Fault Refusal :=
  .next (s.aluReg (formA 3 f) opShl)

/-- SHL, I32 form (R144, R142). -/
def execShlI32 (f : I32) (s : State) : Host.Outcome State Fault Refusal :=
  .next (s.aluImm (formI32 3 f) opShl)

/-- SHL, G64 form (R144). -/
def execShlG64 (f : G64) (s : State) : Host.Outcome State Fault Refusal :=
  .next (s.aluReg (formG f) opShl)

/-- SHL, I64 form (R144, R142). -/
def execShlI64 (f : I64) (s : State) : Host.Outcome State Fault Refusal :=
  .next (s.aluImm (formI f) opShl)

/-- SHL, W96 form (R144, R142). -/
def execShlW96 (f : W96) (s : State) : Host.Outcome State Fault Refusal :=
  .next (s.aluImm (formW f) opShl)

/-- SHR, A32 form (R144). -/
def execShrA32 (f : A32) (s : State) : Host.Outcome State Fault Refusal :=
  .next (s.aluReg (formA 3 f) opShr)

/-- SHR, I32 form (R144, R142). -/
def execShrI32 (f : I32) (s : State) : Host.Outcome State Fault Refusal :=
  .next (s.aluImm (formI32 3 f) opShr)

/-- SHR, G64 form (R144). -/
def execShrG64 (f : G64) (s : State) : Host.Outcome State Fault Refusal :=
  .next (s.aluReg (formG f) opShr)

/-- SHR, I64 form (R144, R142). -/
def execShrI64 (f : I64) (s : State) : Host.Outcome State Fault Refusal :=
  .next (s.aluImm (formI f) opShr)

/-- SHR, W96 form (R144, R142). -/
def execShrW96 (f : W96) (s : State) : Host.Outcome State Fault Refusal :=
  .next (s.aluImm (formW f) opShr)

/-- SRA, A32 form (R144). -/
def execSraA32 (f : A32) (s : State) : Host.Outcome State Fault Refusal :=
  .next (s.aluReg (formA 3 f) opSra)

/-- SRA, I32 form (R144, R142). -/
def execSraI32 (f : I32) (s : State) : Host.Outcome State Fault Refusal :=
  .next (s.aluImm (formI32 3 f) opSra)

/-- SRA, G64 form (R144). -/
def execSraG64 (f : G64) (s : State) : Host.Outcome State Fault Refusal :=
  .next (s.aluReg (formG f) opSra)

/-- SRA, I64 form (R144, R142). -/
def execSraI64 (f : I64) (s : State) : Host.Outcome State Fault Refusal :=
  .next (s.aluImm (formI f) opSra)

/-- SRA, W96 form (R144, R142). -/
def execSraW96 (f : W96) (s : State) : Host.Outcome State Fault Refusal :=
  .next (s.aluImm (formW f) opSra)

/-- ROL, A32 form (R144). -/
def execRolA32 (f : A32) (s : State) : Host.Outcome State Fault Refusal :=
  .next (s.aluReg (formA 3 f) opRol)

/-- ROL, G64 form (R144). -/
def execRolG64 (f : G64) (s : State) : Host.Outcome State Fault Refusal :=
  .next (s.aluReg (formG f) opRol)

/-- ROL, I64 form (R144, R142). -/
def execRolI64 (f : I64) (s : State) : Host.Outcome State Fault Refusal :=
  .next (s.aluImm (formI f) opRol)

/-- ROL, W96 form (R144, R142). -/
def execRolW96 (f : W96) (s : State) : Host.Outcome State Fault Refusal :=
  .next (s.aluImm (formW f) opRol)

/-- MIN, A32 form (R141). -/
def execMinA32 (f : A32) (s : State) : Host.Outcome State Fault Refusal :=
  .next (s.aluReg (formA 3 f) opMin)

/-- MIN, G64 form (R141). -/
def execMinG64 (f : G64) (s : State) : Host.Outcome State Fault Refusal :=
  .next (s.aluReg (formG f) opMin)

/-- MIN, I64 form (R141, R142). -/
def execMinI64 (f : I64) (s : State) : Host.Outcome State Fault Refusal :=
  .next (s.aluImm (formI f) opMin)

/-- MIN, W96 form (R141, R142). -/
def execMinW96 (f : W96) (s : State) : Host.Outcome State Fault Refusal :=
  .next (s.aluImm (formW f) opMin)

/-- MAX, A32 form (R141). -/
def execMaxA32 (f : A32) (s : State) : Host.Outcome State Fault Refusal :=
  .next (s.aluReg (formA 3 f) opMax)

/-- MAX, G64 form (R141). -/
def execMaxG64 (f : G64) (s : State) : Host.Outcome State Fault Refusal :=
  .next (s.aluReg (formG f) opMax)

/-- MAX, I64 form (R141, R142). -/
def execMaxI64 (f : I64) (s : State) : Host.Outcome State Fault Refusal :=
  .next (s.aluImm (formI f) opMax)

/-- MAX, W96 form (R141, R142). -/
def execMaxW96 (f : W96) (s : State) : Host.Outcome State Fault Refusal :=
  .next (s.aluImm (formW f) opMax)

/-- MINZ, A32 form (R141). -/
def execMinzA32 (f : A32) (s : State) : Host.Outcome State Fault Refusal :=
  .next (s.aluReg (formA 3 f) opMinz)

/-- MINZ, G64 form (R141). -/
def execMinzG64 (f : G64) (s : State) : Host.Outcome State Fault Refusal :=
  .next (s.aluReg (formG f) opMinz)

/-- MINZ, I64 form (R141, R142). -/
def execMinzI64 (f : I64) (s : State) : Host.Outcome State Fault Refusal :=
  .next (s.aluImm (formI f) opMinz)

/-- MINZ, W96 form (R141, R142). -/
def execMinzW96 (f : W96) (s : State) : Host.Outcome State Fault Refusal :=
  .next (s.aluImm (formW f) opMinz)

/-- MAXZ, A32 form (R141). -/
def execMaxzA32 (f : A32) (s : State) : Host.Outcome State Fault Refusal :=
  .next (s.aluReg (formA 3 f) opMaxz)

/-- MAXZ, G64 form (R141). -/
def execMaxzG64 (f : G64) (s : State) : Host.Outcome State Fault Refusal :=
  .next (s.aluReg (formG f) opMaxz)

/-- MAXZ, I64 form (R141, R142). -/
def execMaxzI64 (f : I64) (s : State) : Host.Outcome State Fault Refusal :=
  .next (s.aluImm (formI f) opMaxz)

/-- MAXZ, W96 form (R141, R142). -/
def execMaxzW96 (f : W96) (s : State) : Host.Outcome State Fault Refusal :=
  .next (s.aluImm (formW f) opMaxz)

/-- CLZ, A32 form (R145). -/
def execClzA32 (f : A32) (s : State) : Host.Outcome State Fault Refusal :=
  .next (s.aluOne (formA 3 f) opClz)

/-- CLZ, G64 form (R145). -/
def execClzG64 (f : G64) (s : State) : Host.Outcome State Fault Refusal :=
  .next (s.aluOne (formG f) opClz)

/-- CTZ, A32 form (R145). -/
def execCtzA32 (f : A32) (s : State) : Host.Outcome State Fault Refusal :=
  .next (s.aluOne (formA 3 f) opCtz)

/-- CTZ, G64 form (R145). -/
def execCtzG64 (f : G64) (s : State) : Host.Outcome State Fault Refusal :=
  .next (s.aluOne (formG f) opCtz)

/-- POPC, A32 form (R145). -/
def execPopcA32 (f : A32) (s : State) : Host.Outcome State Fault Refusal :=
  .next (s.aluOne (formA 3 f) opPopc)

/-- POPC, G64 form (R145). -/
def execPopcG64 (f : G64) (s : State) : Host.Outcome State Fault Refusal :=
  .next (s.aluOne (formG f) opPopc)

/-- ABS, A32 form (R141). -/
def execAbsA32 (f : A32) (s : State) : Host.Outcome State Fault Refusal :=
  .next (s.aluOne (formA 3 f) opAbs)

/-- ABS, G64 form (R141). -/
def execAbsG64 (f : G64) (s : State) : Host.Outcome State Fault Refusal :=
  .next (s.aluOne (formG f) opAbs)

/-- MOV, A32 form (R141). -/
def execMovA32 (f : A32) (s : State) : Host.Outcome State Fault Refusal :=
  .next (s.aluOne (formA 3 f) opMov)

/-- MOV, G64 form (R141). -/
def execMovG64 (f : G64) (s : State) : Host.Outcome State Fault Refusal :=
  .next (s.aluOne (formG f) opMov)

/-- SEXT: TY gives the width only (R145). -/
def execSext (f : G64) (s : State) : Host.Outcome State Fault Refusal :=
  .next (s.opWrite (formG f) (fun t => extend true (t.readOp f.a f.da).toNat (tyBits f.ty)))

/-- ZEXT: TY gives the width only (R145). -/
def execZext (f : G64) (s : State) : Host.Outcome State Fault Refusal :=
  .next (s.opWrite (formG f) (fun t => extend false (t.readOp f.a f.da).toNat (tyBits f.ty)))

/-- MOVL, I32 form (R141, R142). -/
def execMovlI32 (f : I32) (s : State) : Host.Outcome State Fault Refusal :=
  .next (s.aluImm (formI32 3 f) opMovl)

/-- MOVL, I64 form (R141, R142). -/
def execMovlI64 (f : I64) (s : State) : Host.Outcome State Fault Refusal :=
  .next (s.aluImm (formI f) opMovl)

/-- MOVL, W96 form (R141, R142). -/
def execMovlW96 (f : W96) (s : State) : Host.Outcome State Fault Refusal :=
  .next (s.aluImm (formW f) opMovl)

/-- LEA, I64 form (R147). -/
def execLeaI64 (f : I64) (s : State) : Host.Outcome State Fault Refusal :=
  .next (s.lea (formI f))

/-- LEA, W96 form (R147). -/
def execLeaW96 (f : W96) (s : State) : Host.Outcome State Fault Refusal :=
  .next (s.lea (formW f))

/-- BFX (R146). -/
def execBfx (f : G64) (s : State) : Host.Outcome State Fault Refusal :=
  .next (s.opWrite (formG f) (fun t => bfxOf f.ty (t.readOp f.a f.da) f.b.toNat (f.c.toNat + 1)))

/-- BFI (R146). -/
def execBfi (f : G64) (s : State) : Host.Outcome State Fault Refusal :=
  .next (s.opWrite (formG f) (fun t => setBits (t.readOp f.d 0) f.b.toNat (f.c.toNat + 1) (t.readOp f.a f.da).toNat))

/-- CMP, A32 form (R148). -/
def execCmpA32 (cond : BitVec 6) (f : A32) (s : State) : Host.Outcome State Fault Refusal :=
  .next (s.cmp (formA 3 f) cond)

/-- CMP, G64 form (R148). -/
def execCmpG64 (cond : BitVec 6) (f : G64) (s : State) : Host.Outcome State Fault Refusal :=
  .next (s.cmp (formG f) cond)

/-- SEL: both operands are read by TY (R150). -/
def execSel (f : G64) (s : State) : Host.Outcome State Fault Refusal :=
  .next (s.select (formG f))

/-- PAND, A32 form (R149). -/
def execPandA32 (f : A32) (s : State) : Host.Outcome State Fault Refusal :=
  .next (s.predOp (formA 3 f) Bool.and)

/-- PAND, G64 form (R149). -/
def execPandG64 (f : G64) (s : State) : Host.Outcome State Fault Refusal :=
  .next (s.predOp (formG f) Bool.and)

/-- POR, A32 form (R149). -/
def execPorA32 (f : A32) (s : State) : Host.Outcome State Fault Refusal :=
  .next (s.predOp (formA 3 f) Bool.or)

/-- POR, G64 form (R149). -/
def execPorG64 (f : G64) (s : State) : Host.Outcome State Fault Refusal :=
  .next (s.predOp (formG f) Bool.or)

/-- PXOR, A32 form (R149). -/
def execPxorA32 (f : A32) (s : State) : Host.Outcome State Fault Refusal :=
  .next (s.predOp (formA 3 f) Bool.xor)

/-- PXOR, G64 form (R149). -/
def execPxorG64 (f : G64) (s : State) : Host.Outcome State Fault Refusal :=
  .next (s.predOp (formG f) Bool.xor)

/-- PNOT, A32 form (R149). -/
def execPnotA32 (f : A32) (s : State) : Host.Outcome State Fault Refusal :=
  .next (s.predOp (formA 3 f) (fun a _ => !a))

/-- PNOT, G64 form (R149). -/
def execPnotG64 (f : G64) (s : State) : Host.Outcome State Fault Refusal :=
  .next (s.predOp (formG f) (fun a _ => !a))

/-- NOP (R160). -/
def execNop (s : State) : Host.Outcome State Fault Refusal := .next (s.retire 1)

/-- A 64-bit hint (R73, R74). (DESIGN CHOICE, log 13.) -/
def execHint64 (s : State) : Host.Outcome State Fault Refusal := .next (s.hint s.hintNumber (signExt (bits (s.irParcel 1) 8 24) 24) 2)

/-- A 96-bit hint (R73, R74). -/
def execHint96 (s : State) : Host.Outcome State Fault Refusal := .next (s.hint s.hintNumber (signExt (s.irParcel 2).toNat 32) 3)

end Sys2Proof.Machine
end

