-- ==== Sys2Proof/Machine/Dispatch.lean ====
section
/-! DEFINITION. The meaning of every instruction and event: one arm each. -/

namespace Sys2Proof.Machine

def exec (i : Instr) (s : State) : Host.Outcome State Fault Refusal :=
  match i with
  | .addA32 f => Sys2Proof.Machine.execAddA32 f s
  | .addI32 f => Sys2Proof.Machine.execAddI32 f s
  | .addG64 f => Sys2Proof.Machine.execAddG64 f s
  | .addI64 f => Sys2Proof.Machine.execAddI64 f s
  | .addW96 f => Sys2Proof.Machine.execAddW96 f s
  | .subA32 f => Sys2Proof.Machine.execSubA32 f s
  | .subG64 f => Sys2Proof.Machine.execSubG64 f s
  | .mulA32 f => Sys2Proof.Machine.execMulA32 f s
  | .mulG64 f => Sys2Proof.Machine.execMulG64 f s
  | .mulI64 f => Sys2Proof.Machine.execMulI64 f s
  | .mulW96 f => Sys2Proof.Machine.execMulW96 f s
  | .mulhA32 f => Sys2Proof.Machine.execMulhA32 f s
  | .mulhG64 f => Sys2Proof.Machine.execMulhG64 f s
  | .mulhzA32 f => Sys2Proof.Machine.execMulhzA32 f s
  | .mulhzG64 f => Sys2Proof.Machine.execMulhzG64 f s
  | .divA32 f => Sys2Proof.Machine.execDivA32 f s
  | .divG64 f => Sys2Proof.Machine.execDivG64 f s
  | .divzA32 f => Sys2Proof.Machine.execDivzA32 f s
  | .divzG64 f => Sys2Proof.Machine.execDivzG64 f s
  | .remA32 f => Sys2Proof.Machine.execRemA32 f s
  | .remG64 f => Sys2Proof.Machine.execRemG64 f s
  | .remzA32 f => Sys2Proof.Machine.execRemzA32 f s
  | .remzG64 f => Sys2Proof.Machine.execRemzG64 f s
  | .andA32 f => Sys2Proof.Machine.execAndA32 f s
  | .andI32 f => Sys2Proof.Machine.execAndI32 f s
  | .andG64 f => Sys2Proof.Machine.execAndG64 f s
  | .andI64 f => Sys2Proof.Machine.execAndI64 f s
  | .andW96 f => Sys2Proof.Machine.execAndW96 f s
  | .orA32 f => Sys2Proof.Machine.execOrA32 f s
  | .orG64 f => Sys2Proof.Machine.execOrG64 f s
  | .orI64 f => Sys2Proof.Machine.execOrI64 f s
  | .orW96 f => Sys2Proof.Machine.execOrW96 f s
  | .xorA32 f => Sys2Proof.Machine.execXorA32 f s
  | .xorG64 f => Sys2Proof.Machine.execXorG64 f s
  | .xorI64 f => Sys2Proof.Machine.execXorI64 f s
  | .xorW96 f => Sys2Proof.Machine.execXorW96 f s
  | .andnA32 f => Sys2Proof.Machine.execAndnA32 f s
  | .andnG64 f => Sys2Proof.Machine.execAndnG64 f s
  | .shlA32 f => Sys2Proof.Machine.execShlA32 f s
  | .shlI32 f => Sys2Proof.Machine.execShlI32 f s
  | .shlG64 f => Sys2Proof.Machine.execShlG64 f s
  | .shlI64 f => Sys2Proof.Machine.execShlI64 f s
  | .shlW96 f => Sys2Proof.Machine.execShlW96 f s
  | .shrA32 f => Sys2Proof.Machine.execShrA32 f s
  | .shrI32 f => Sys2Proof.Machine.execShrI32 f s
  | .shrG64 f => Sys2Proof.Machine.execShrG64 f s
  | .shrI64 f => Sys2Proof.Machine.execShrI64 f s
  | .shrW96 f => Sys2Proof.Machine.execShrW96 f s
  | .sraA32 f => Sys2Proof.Machine.execSraA32 f s
  | .sraI32 f => Sys2Proof.Machine.execSraI32 f s
  | .sraG64 f => Sys2Proof.Machine.execSraG64 f s
  | .sraI64 f => Sys2Proof.Machine.execSraI64 f s
  | .sraW96 f => Sys2Proof.Machine.execSraW96 f s
  | .rolA32 f => Sys2Proof.Machine.execRolA32 f s
  | .rolG64 f => Sys2Proof.Machine.execRolG64 f s
  | .rolI64 f => Sys2Proof.Machine.execRolI64 f s
  | .rolW96 f => Sys2Proof.Machine.execRolW96 f s
  | .minA32 f => Sys2Proof.Machine.execMinA32 f s
  | .minG64 f => Sys2Proof.Machine.execMinG64 f s
  | .minI64 f => Sys2Proof.Machine.execMinI64 f s
  | .minW96 f => Sys2Proof.Machine.execMinW96 f s
  | .maxA32 f => Sys2Proof.Machine.execMaxA32 f s
  | .maxG64 f => Sys2Proof.Machine.execMaxG64 f s
  | .maxI64 f => Sys2Proof.Machine.execMaxI64 f s
  | .maxW96 f => Sys2Proof.Machine.execMaxW96 f s
  | .minzA32 f => Sys2Proof.Machine.execMinzA32 f s
  | .minzG64 f => Sys2Proof.Machine.execMinzG64 f s
  | .minzI64 f => Sys2Proof.Machine.execMinzI64 f s
  | .minzW96 f => Sys2Proof.Machine.execMinzW96 f s
  | .maxzA32 f => Sys2Proof.Machine.execMaxzA32 f s
  | .maxzG64 f => Sys2Proof.Machine.execMaxzG64 f s
  | .maxzI64 f => Sys2Proof.Machine.execMaxzI64 f s
  | .maxzW96 f => Sys2Proof.Machine.execMaxzW96 f s
  | .clzA32 f => Sys2Proof.Machine.execClzA32 f s
  | .clzG64 f => Sys2Proof.Machine.execClzG64 f s
  | .ctzA32 f => Sys2Proof.Machine.execCtzA32 f s
  | .ctzG64 f => Sys2Proof.Machine.execCtzG64 f s
  | .popcA32 f => Sys2Proof.Machine.execPopcA32 f s
  | .popcG64 f => Sys2Proof.Machine.execPopcG64 f s
  | .absA32 f => Sys2Proof.Machine.execAbsA32 f s
  | .absG64 f => Sys2Proof.Machine.execAbsG64 f s
  | .movA32 f => Sys2Proof.Machine.execMovA32 f s
  | .movG64 f => Sys2Proof.Machine.execMovG64 f s
  | .sext f => Sys2Proof.Machine.execSext f s
  | .zext f => Sys2Proof.Machine.execZext f s
  | .movlI32 f => Sys2Proof.Machine.execMovlI32 f s
  | .movlI64 f => Sys2Proof.Machine.execMovlI64 f s
  | .movlW96 f => Sys2Proof.Machine.execMovlW96 f s
  | .leaI64 f => Sys2Proof.Machine.execLeaI64 f s
  | .leaW96 f => Sys2Proof.Machine.execLeaW96 f s
  | .bfx f => Sys2Proof.Machine.execBfx f s
  | .bfi f => Sys2Proof.Machine.execBfi f s
  | .cmpA32 cond f => Sys2Proof.Machine.execCmpA32 cond f s
  | .cmpG64 cond f => Sys2Proof.Machine.execCmpG64 cond f s
  | .sel f => Sys2Proof.Machine.execSel f s
  | .pandA32 f => Sys2Proof.Machine.execPandA32 f s
  | .pandG64 f => Sys2Proof.Machine.execPandG64 f s
  | .porA32 f => Sys2Proof.Machine.execPorA32 f s
  | .porG64 f => Sys2Proof.Machine.execPorG64 f s
  | .pxorA32 f => Sys2Proof.Machine.execPxorA32 f s
  | .pxorG64 f => Sys2Proof.Machine.execPxorG64 f s
  | .pnotA32 f => Sys2Proof.Machine.execPnotA32 f s
  | .pnotG64 f => Sys2Proof.Machine.execPnotG64 f s
  | .sfadd f => Sys2Proof.Machine.execSfadd f s
  | .sfmul f => Sys2Proof.Machine.execSfmul f s
  | .sfma f => Sys2Proof.Machine.execSfma f s
  | .sfcmp cond f => Sys2Proof.Machine.execSfcmp cond f s
  | .sfcvt f => Sys2Proof.Machine.execSfcvt f s
  | .tdef f => Sys2Proof.Machine.execTdef f s
  | .tset f => Sys2Proof.Machine.execTset f s
  | .tget f => Sys2Proof.Machine.execTget f s
  | .beadq f => Sys2Proof.Machine.execBeadq f s
  | .brJ32 f => Sys2Proof.Machine.execBrJ32 f s
  | .brI64 f => Sys2Proof.Machine.execBrI64 f s
  | .brW96 f => Sys2Proof.Machine.execBrW96 f s
  | .brcJ32 f => Sys2Proof.Machine.execBrcJ32 f s
  | .brcI64 f => Sys2Proof.Machine.execBrcI64 f s
  | .brcW96 f => Sys2Proof.Machine.execBrcW96 f s
  | .callJ32 f => Sys2Proof.Machine.execCallJ32 f s
  | .callI64 f => Sys2Proof.Machine.execCallI64 f s
  | .callW96 f => Sys2Proof.Machine.execCallW96 f s
  | .bri f => Sys2Proof.Machine.execBri f s
  | .calli f => Sys2Proof.Machine.execCalli f s
  | .retG64 f => Sys2Proof.Machine.execRetG64 f s
  | .loopI64 f => Sys2Proof.Machine.execLoopI64 f s
  | .loopW96 f => Sys2Proof.Machine.execLoopW96 f s
  | .loopoI64 f => Sys2Proof.Machine.execLoopoI64 f s
  | .loopoW96 f => Sys2Proof.Machine.execLoopoW96 f s
  | .breakc f => Sys2Proof.Machine.execBreakc f s
  | .ldI32 f => Sys2Proof.Machine.execLdI32 f s
  | .ldI64 f => Sys2Proof.Machine.execLdI64 f s
  | .ldW96 f => Sys2Proof.Machine.execLdW96 f s
  | .stI32 f => Sys2Proof.Machine.execStI32 f s
  | .stI64 f => Sys2Proof.Machine.execStI64 f s
  | .stW96 f => Sys2Proof.Machine.execStW96 f s
  | .ldx f => Sys2Proof.Machine.execLdx f s
  | .stx f => Sys2Proof.Machine.execStx f s
  | .stntI64 f => Sys2Proof.Machine.execStntI64 f s
  | .stntW96 f => Sys2Proof.Machine.execStntW96 f s
  | .ldacqI64 f => Sys2Proof.Machine.execLdacqI64 f s
  | .ldacqW96 f => Sys2Proof.Machine.execLdacqW96 f s
  | .strelI64 f => Sys2Proof.Machine.execStrelI64 f s
  | .strelW96 f => Sys2Proof.Machine.execStrelW96 f s
  | .ldvI64 f => Sys2Proof.Machine.execLdvI64 f s
  | .ldvW96 f => Sys2Proof.Machine.execLdvW96 f s
  | .vred4 f => Sys2Proof.Machine.execVred4 f s
  | .hstart f => Sys2Proof.Machine.execHstart f s
  | .hwait f => Sys2Proof.Machine.execHwait f s
  | .launch f => Sys2Proof.Machine.execLaunch f s
  | .tspawn f => Sys2Proof.Machine.execTspawn f s
  | .tspawnw f => Sys2Proof.Machine.execTspawnw f s
  | .tjoin f => Sys2Proof.Machine.execTjoin f s
  | .tdoneG64 f => Sys2Proof.Machine.execTdoneG64 f s
  | .tcancelScope f => Sys2Proof.Machine.execTcancelScope f s
  | .tcancelTask f => Sys2Proof.Machine.execTcancelTask f s
  | .wdq f => Sys2Proof.Machine.execWdq f s
  | .fsopen f => Sys2Proof.Machine.execFsopen f s
  | .fsclose f => Sys2Proof.Machine.execFsclose f s
  | .fswait f => Sys2Proof.Machine.execFswait f s
  | .pfh f => Sys2Proof.Machine.execPfh f s
  | .place f => Sys2Proof.Machine.execPlace f s
  | .tierq f => Sys2Proof.Machine.execTierq f s
  | .cpy f => Sys2Proof.Machine.execCpy f s
  | .wpwait f => Sys2Proof.Machine.execWpwait f s
  | .wprd f => Sys2Proof.Machine.execWprd f s
  | .gather f => Sys2Proof.Machine.execGather f s
  | .scatter f => Sys2Proof.Machine.execScatter f s
  | .evwait f => Sys2Proof.Machine.execEvwait f s
  | .tierin f => Sys2Proof.Machine.execTierin f s
  | .fence f => Sys2Proof.Machine.execFence f s
  | .xfence f => Sys2Proof.Machine.execXfence f s
  | .ntdrain f => Sys2Proof.Machine.execNtdrain f s
  | .aadd f => Sys2Proof.Machine.execAadd f s
  | .afadd f => Sys2Proof.Machine.execAfadd f s
  | .amin f => Sys2Proof.Machine.execAmin f s
  | .amax f => Sys2Proof.Machine.execAmax f s
  | .aand f => Sys2Proof.Machine.execAand f s
  | .aor f => Sys2Proof.Machine.execAor f s
  | .axor f => Sys2Proof.Machine.execAxor f s
  | .axchg f => Sys2Proof.Machine.execAxchg f s
  | .acas f => Sys2Proof.Machine.execAcas f s
  | .barmJoin f => Sys2Proof.Machine.execBarmJoin f s
  | .barmLeave f => Sys2Proof.Machine.execBarmLeave f s
  | .bwait f => Sys2Proof.Machine.execBwait f s
  | .bsig f => Sys2Proof.Machine.execBsig f s
  | .bqry f => Sys2Proof.Machine.execBqry f s
  | .xopen f => Sys2Proof.Machine.execXopen f s
  | .xsend f => Sys2Proof.Machine.execXsend f s
  | .xrecv f => Sys2Proof.Machine.execXrecv f s
  | .xclose f => Sys2Proof.Machine.execXclose f s
  | .vadd f => Sys2Proof.Machine.execVadd f s
  | .vsub f => Sys2Proof.Machine.execVsub f s
  | .vmul f => Sys2Proof.Machine.execVmul f s
  | .vfma f => Sys2Proof.Machine.execVfma f s
  | .vmin f => Sys2Proof.Machine.execVmin f s
  | .vmax f => Sys2Proof.Machine.execVmax f s
  | .vabs f => Sys2Proof.Machine.execVabs f s
  | .vneg f => Sys2Proof.Machine.execVneg f s
  | .vcpy f => Sys2Proof.Machine.execVcpy f s
  | .vcvt f => Sys2Proof.Machine.execVcvt f s
  | .vsrnd f => Sys2Proof.Machine.execVsrnd f s
  | .vrcp f => Sys2Proof.Machine.execVrcp f s
  | .vrsq f => Sys2Proof.Machine.execVrsq f s
  | .vsqrt f => Sys2Proof.Machine.execVsqrt f s
  | .vexp2 f => Sys2Proof.Machine.execVexp2 f s
  | .vlog2 f => Sys2Proof.Machine.execVlog2 f s
  | .vpwl f => Sys2Proof.Machine.execVpwl f s
  | .vcmp f => Sys2Proof.Machine.execVcmp f s
  | .vsel f => Sys2Proof.Machine.execVsel f s
  | .vand f => Sys2Proof.Machine.execVand f s
  | .vor f => Sys2Proof.Machine.execVor f s
  | .vxor f => Sys2Proof.Machine.execVxor f s
  | .vshl f => Sys2Proof.Machine.execVshl f s
  | .vshr f => Sys2Proof.Machine.execVshr f s
  | .vclamp f => Sys2Proof.Machine.execVclamp f s
  | .vreds f => Sys2Proof.Machine.execVreds f s
  | .vredm f => Sys2Proof.Machine.execVredm f s
  | .vscan f => Sys2Proof.Machine.execVscan f s
  | .vbcast f => Sys2Proof.Machine.execVbcast f s
  | .viota f => Sys2Proof.Machine.execViota f s
  | .vdot f => Sys2Proof.Machine.execVdot f s
  | .vscale f => Sys2Proof.Machine.execVscale f s
  | .mfill f => Sys2Proof.Machine.execMfill f s
  | .mpat f => Sys2Proof.Machine.execMpat f s
  | .mzero f => Sys2Proof.Machine.execMzero f s
  | .mma f => Sys2Proof.Machine.execMma f s
  | .mdrain f => Sys2Proof.Machine.execMdrain f s
  | .mloadb f => Sys2Proof.Machine.execMloadb f s
  | .mscl f => Sys2Proof.Machine.execMscl f s
  | .mwait f => Sys2Proof.Machine.execMwait f s
  | .scout f => Sys2Proof.Machine.execScout f s
  | .ksel f => Sys2Proof.Machine.execKsel f s
  | .kand f => Sys2Proof.Machine.execKand f s
  | .kor f => Sys2Proof.Machine.execKor f s
  | .knot f => Sys2Proof.Machine.execKnot f s
  | .kpop f => Sys2Proof.Machine.execKpop f s
  | .mmak f => Sys2Proof.Machine.execMmak f s
  | .trapI64 f => Sys2Proof.Machine.execTrapI64 f s
  | .trapW96 f => Sys2Proof.Machine.execTrapW96 f s
  | .bkpt f => Sys2Proof.Machine.execBkpt f s
  | .eret f => Sys2Proof.Machine.execEret f s
  | .halt f => Sys2Proof.Machine.execHalt f s
  | .sysrd f => Sys2Proof.Machine.execSysrd f s
  | .syswr f => Sys2Proof.Machine.execSyswr f s
  | .nop => Sys2Proof.Machine.execNop s
  | .hint64 => Sys2Proof.Machine.execHint64 s
  | .hint96 => Sys2Proof.Machine.execHint96 s
  | .retA32 => Sys2Proof.Machine.execRetA32 s
  | .iretA32 => Sys2Proof.Machine.execIretA32 s
  | .iretG64 => Sys2Proof.Machine.execIretG64 s
  | .hexitA32 => Sys2Proof.Machine.execHexitA32 s
  | .hexitG64 => Sys2Proof.Machine.execHexitG64 s
  | .tdoneA32 => Sys2Proof.Machine.execTdoneA32 s
  | .reservedOpcodeTrap => Sys2Proof.Machine.execReservedOpcodeTrap s
  | .asyncFaultTaken => Sys2Proof.Machine.execAsyncFaultTaken s
  | .taskRetire => Sys2Proof.Machine.execTaskRetire s
  | .launchdoor => Sys2Proof.Machine.execLaunchdoor s
  | .dispatch => Sys2Proof.Machine.execDispatch s
  | .phasedDispatch => Sys2Proof.Machine.execPhasedDispatch s
  | .arrival => Sys2Proof.Machine.execArrival s
  | .withdrawal => Sys2Proof.Machine.execWithdrawal s
  | .memberLeave => Sys2Proof.Machine.execMemberLeave s
  | .pagedone => Sys2Proof.Machine.execPagedone s
  | .pageInComplete => Sys2Proof.Machine.execPageInComplete s
  | .pageOutStart => Sys2Proof.Machine.execPageOutStart s
  | .pageOutCopyDone => Sys2Proof.Machine.execPageOutCopyDone s
  | .migrationRequest => Sys2Proof.Machine.execMigrationRequest s
  | .migrationDrained => Sys2Proof.Machine.execMigrationDrained s
  | .migrationStreamDone => Sys2Proof.Machine.execMigrationStreamDone s
  | .migrationShootdownDone => Sys2Proof.Machine.execMigrationShootdownDone s
  | .settleEnd => Sys2Proof.Machine.execSettleEnd s
  | .forwardedRequest => Sys2Proof.Machine.execForwardedRequest s
  | .redirectNotice => Sys2Proof.Machine.execRedirectNotice s
  | .homeAccess => Sys2Proof.Machine.execHomeAccess s
  | .atomicEngineRequest => Sys2Proof.Machine.execAtomicEngineRequest s
  | .regionNotice => Sys2Proof.Machine.execRegionNotice s
  | .recordClear => Sys2Proof.Machine.execRecordClear s
  | .shootdown => Sys2Proof.Machine.execShootdown s
  | .shootdownComplete => Sys2Proof.Machine.execShootdownComplete s
  | .preempt => Sys2Proof.Machine.execPreempt s
  | .preemptSaveComplete => Sys2Proof.Machine.execPreemptSaveComplete s
  | .mvuEntryStart => Sys2Proof.Machine.execMvuEntryStart s
  | .arbiterDecision => Sys2Proof.Machine.execArbiterDecision s
  | .mmaDecisionPoint => Sys2Proof.Machine.execMmaDecisionPoint s
  | .chunkPromotion => Sys2Proof.Machine.execChunkPromotion s
  | .mvuEntryRetire => Sys2Proof.Machine.execMvuEntryRetire s
  | .copyStart => Sys2Proof.Machine.execCopyStart s
  | .copyElementDelivered => Sys2Proof.Machine.execCopyElementDelivered s
  | .indirectChunk => Sys2Proof.Machine.execIndirectChunk s
  | .iterationStart => Sys2Proof.Machine.execIterationStart s
  | .iterationRetire => Sys2Proof.Machine.execIterationRetire s
  | .barrierRelease => Sys2Proof.Machine.execBarrierRelease s
  | .xopenArrive => Sys2Proof.Machine.execXopenArrive s
  | .xsendTransmit => Sys2Proof.Machine.execXsendTransmit s
  | .exchangeArrival => Sys2Proof.Machine.execExchangeArrival s
  | .xrecvDeliver => Sys2Proof.Machine.execXrecvDeliver s
  | .xcloseComplete => Sys2Proof.Machine.execXcloseComplete s
  | .windowEndDiscard => Sys2Proof.Machine.execWindowEndDiscard s
  | .sampleTick => Sys2Proof.Machine.execSampleTick s
  | .scrub => Sys2Proof.Machine.execScrub s
  | .eccError => Sys2Proof.Machine.execEccError s
  | .healthUpdate => Sys2Proof.Machine.execHealthUpdate s
  | .powerStepDown => Sys2Proof.Machine.execPowerStepDown s
  | .powerStepUp => Sys2Proof.Machine.execPowerStepUp s
  | .powerGood => Sys2Proof.Machine.execPowerGood s
  | .romImageCheck => Sys2Proof.Machine.execRomImageCheck s
  | .firmwareBringUp => Sys2Proof.Machine.execFirmwareBringUp s
  | .moduleReset => Sys2Proof.Machine.execModuleReset s
  | .attest => Sys2Proof.Machine.execAttest s
  | .attestComplete => Sys2Proof.Machine.execAttestComplete s
  | .scopefree => Sys2Proof.Machine.execScopefree s
  | .recfree => Sys2Proof.Machine.execRecfree s
  | .queueEnable => Sys2Proof.Machine.execQueueEnable s
  | .queueDisable => Sys2Proof.Machine.execQueueDisable s
  | .partitionEnable => Sys2Proof.Machine.execPartitionEnable s
  | .partitionDisable => Sys2Proof.Machine.execPartitionDisable s
  | .partitionDrained => Sys2Proof.Machine.execPartitionDrained s
  | .domainValidSet => Sys2Proof.Machine.execDomainValidSet s
  | .domainValidClear => Sys2Proof.Machine.execDomainValidClear s
  | .sampleEnable => Sys2Proof.Machine.execSampleEnable s
  | .rpheadWrite => Sys2Proof.Machine.execRpheadWrite s
  | .errheadWrite => Sys2Proof.Machine.execErrheadWrite s
  | .modidWrite => Sys2Proof.Machine.execModidWrite s
  | .registerWrite => Sys2Proof.Machine.execRegisterWrite s
  | .remoteRequest => Sys2Proof.Machine.execRemoteRequest s
  | .flitResend => Sys2Proof.Machine.execFlitResend s
  | .linkFail => Sys2Proof.Machine.execLinkFail s
  | .dmaRequest => Sys2Proof.Machine.execDmaRequest s
  | .cxlPortFail => Sys2Proof.Machine.execCxlPortFail s
  | .thaquetTranslation => Sys2Proof.Machine.execThaquetTranslation s
  | .bypass => Sys2Proof.Machine.execBypass s
  | .idcode => Sys2Proof.Machine.execIdcode s
  | .samplePreload => Sys2Proof.Machine.execSamplePreload s
  | .extest => Sys2Proof.Machine.execExtest s
  | .bootstat => Sys2Proof.Machine.execBootstat s
  | .powerOff => Sys2Proof.Machine.execPowerOff s
  | .dynamicCapacity => Sys2Proof.Machine.execDynamicCapacity s
  | .epochEnd => Sys2Proof.Machine.execEpochEnd s

end Sys2Proof.Machine
end

