-- ==== Sys2Proof/Machine/Units.lean ====
section
/-! DEFINITION. Which unit goes on next, when no act of the agenda says so, and which context comes into focus. -/

namespace Sys2Proof.Machine

/-- Registers that a transfer reads or writes without naming them: LR (R156, R157). -/
def implicitRegs : Instr → List (BitVec 6)
  | .retG64 _ | .retA32 | .callJ32 _ | .callI64 _ | .callW96 _ | .calli _ => [31]
  | _ => []

/-- An instruction that takes stochastic words, or reads or writes SRSEED (R54, R98). -/
def usesSeed : Instr → Bool
  | .sfadd f | .sfmul f | .sfma f | .sfcvt f => f.md == 4
  | .sysrd f | .syswr f => f.imm == 0x019
  | _ => false

/-- Instructions that read the scalars s0 to s15, or the strands, without naming them: HSTART copies the former, and LOOP and
LOOPO take the beads that stand at their entry (R17, R263). -/
def copiesRegs (i : Instr) (d : Nat) : Bool :=
  match i with
  | .hstart _ => decide (d < 16)
  | .loopI64 _ | .loopW96 _ | .loopoI64 _ | .loopoW96 _ => decide (32 ≤ d)
  | _ => false

/-- The strand is one of a suspended level: a handler's read of it never waits (R286). -/
def State.handlerReads (s : State) (d : Nat) : Bool :=
  decide (32 ≤ d) && s.k.loop.susp && (s.k.loop.owner (d - 32)).isSome

/-- An instruction reads or writes a scalar or a strand that an earlier one is still to write. -/
def State.meets (s : State) (i : Instr) (d : BitVec 6) : Bool :=
  (i.reads.any (fun r => r.1 == d) && !(s.handlerReads d.toNat)) || i.dest == some d || (implicitRegs i).contains d ||
    copiesRegs i d.toNat

/-- An instruction reads or writes the destination that an unfinished KPOP has reserved; guarded off, a KPOP owes a strand its
pass (R42, R334). -/
def State.meetsKpop (s : State) (i : Instr) (e : Entry) : Bool :=
  match e.instr with
  | .kpop f => (e.guard || decide (32 ≤ f.d.toNat)) && !e.squashed && s.meets i f.d
  | _ => false

/-- An entry of the core's queue is a VRED4 that has not retired: the control context issues nothing until it has (R77). -/
def expands (e : Entry) : Bool := e.guard && restarts e.instr

/-- What an instruction of the control context waits for before it issues: a destination that a KPOP or a TIERIN is still to write
(R334, R341), the generator, whose words earlier entries have first to reserve (R98), the end of a VRED4 (R77), or the release of
the work of an abandoned loop (R287). (DESIGN CHOICE, log 17.) -/
def State.awaitsMask (s : State) (i : Instr) : Bool :=
  s.ctx.slot == 15 && ((usesSeed i && s.seedOwed) || s.k.posted.any (fun e => expands e || s.meetsKpop i e) ||
    s.k.owedDests.any (s.meets i) || (s.k.loop.idle && !s.k.unreleased.isEmpty))

/-! What a unit has to do next. Nothing is offered that would leave the machine as it is. -/

/-- The first item of a list that may go, and the list without it. -/
def firstReady {α : Type} (ok : α → Bool) : List α → Option (α × List α)
  | [] => none
  | x :: rest =>
    if ok x then some (x, rest) else (firstReady ok rest).map (fun (r : α × List α) => (r.1, x :: r.2))

/-- A message on its way may arrive: a doorbell waits while the replay ring of its partition is full (R447), a request of another
module while its page holds it or its home has no room (R253, R255, R384), a DMA for a line that others wait for; and whatever
has met a page that is away, until its page-in has ended (R255). -/
def State.mayArrive (s : State) (e : Instr × Cmd) : Bool :=
  match e.1 with
  | .launchdoor => (s.engineOwner e.2.unit).all (fun p => !(s.doorbellWaits p e.2.value) &&
      (packetMiss (s.engineRead p e.2.value 16)).all (fun x => (s.page x.1).stage == .none))
  | .memberLeave => e.2.value != 1 || ((s.mapMiss e.2.part e.2.unit).all (fun x => (s.page x.1).stage == .none) &&
      !(s.mapAwaited e.2.part e.2.unit))
  | .homeAccess => !((granulesOf e.2.addr e.2.bytes.length).any (fun g => s.awaited (g * 64)))
  | .remoteRequest =>
    (match s.remoteTarget e.2 with
    | .ok t => !(s.remoteFits e.2 t) || s.hasRoom t.home (e.2.request t.addr)
    | .error (.hold _) => false
    | .error (.tierMiss at' _) => (s.page at').stage == .none
    | .error _ => true)
  | .dmaRequest => (Tbl.find s.mod.rootPorts e.2.unit).all (fun p =>
      match s.dmaPlan p e.2 with
      | .ok ts => !(ts.any (fun t => s.awaited t.addr))
      | .error _ => true)
  | _ => true

/-- What the move or the tier change of a page does next (R253, R256, R257). -/
def State.nextOfPage (s : State) (leaf : Nat) (pg : Page) : Option Instr :=
  match pg.stage with
  | .waiting => if pg.starved.any (s.poolAsked pg.part) then none else some .migrationDrained
  | .holding => if s.linesWait (leafFrame pg.oldLeaf) then none else some .migrationDrained
  | .streaming => if s.linesWait (leafFrame pg.oldLeaf) then none else some .migrationStreamDone
  | .forwarding => if s.pagedHeld pg.part (pg.va.toNat / 65536 * 65536) 65536 then none else some .migrationShootdownDone
  | .pageIn =>
    if s.isStranded leaf then some .cxlPortFail
    else if pg.starved.any (s.poolAsked pg.part) then none
    else some .pageInComplete
  | .pageOut =>
    let old := leafFrame pg.oldLeaf
    if s.storesHeld (inFrame old) || s.linesWait old then none else some .pageOutCopyDone
  | .none => if pg.undone then some .pageOutCopyDone else none
  | .switching => none

/-- What the pages in motion do next: of the first that can go on. -/
def State.nextPage (s : State) : Option (Instr × Cmd) :=
  s.pages.findSome? (fun (e : Nat × Page) =>
    (s.nextOfPage e.1 e.2).map (fun i => (i, ({ addr := e.1, unit := s.portOfLeaf e.1 } : Cmd))))

/-- A TIERIN of the core in focus is over, or one of its pages has to be asked for again (R353). -/
def State.nextTierin (s : State) : Option (Instr × Cmd) :=
  (s.k.tierins.find? (fun w => !(w.leaves.any s.isAway) || w.leaves.any (fun l => s.isAway l && (s.page l).stage == .none))).map
    (fun w => (Instr.pageInComplete, ({ addr := w.leaves.headD 0 } : Cmd)))

/-- A transmission of the core in focus is due (R407). -/
def State.sendDue (s : State) : Bool :=
  match s.control.hold, s.openWindow with
  | some (.send slot _ _), some w => decide (w.slotStart slot ≤ s.cycle.toNat)
  | _, _ => false

/-- What the core in focus has to do beside its instructions and engines: a transmission, the end of a pre-emption, of a task. -/
def State.nextOfCore (s : State) : Option (Instr × Cmd) :=
  let here : Cmd := { core := s.coreNo }
  if s.sendDue then some (.xsendTransmit, here)
  else if s.canEndPreempt then some (.preemptSaveComplete, here)
  else if s.canRetire then some (.taskRetire, here)
  else none

/-- A core whose window is over and is to be discarded, before anything else happens (R411). -/
def State.discardDue (s : State) : Option Nat := s.coreList.find? (fun c => (s.focusCore c).mustDiscard)

/-- A partition's phased record has its cores, and its tasks are free to go (R398). -/
def State.canPhase (s : State) (p : Nat) : Bool :=
  match s.phasedChoice p with
  | none => false
  | some (q, slot, r) =>
    let n := packetCount r.packet
    s.partRuns p && decide (n ≤ (s.reservedCores q slot).length) && !(s.headersWait p n r)

/-- What a partition has to do. -/
def State.nextOfParts (s : State) : Option (Instr × Cmd) :=
  let at' := fun (i : Instr) (ok : Nat → Bool) => ((upFrom 0 16).find? ok).map (fun p => (i, ({ part := p } : Cmd)))
  ((at' .shootdownComplete s.canShoot).or (at' .partitionDrained (fun p => (s.part p).draining && s.isDrained p))).or
    (at' .phasedDispatch s.canPhase)

/-- An idle core that finds a record to run, or to reserve itself for. -/
def State.nextDispatch (s : State) : Option (Instr × Cmd) :=
  let ready := fun (c : Nat) => match s.popOf c (s.hwOf c).serveq, s.corePart c with
    | some (.take _ _ r), some p => !(s.headerWaits p r)
    | some (.reserve ..), _ => true
    | _, _ => false
  (s.coreList.find? (fun c => s.isIdle c && !(s.isReserved c) && ready c)).map
    (fun c => (Instr.dispatch, ({ core := c } : Cmd)))

/-- What the passing of time asks for: the clearing of records (R375), and the end of an epoch in which a page was counted
(R258). -/
def State.nextTimed (s : State) : Option (Instr × Cmd) :=
  if s.mod.cleared + 2 ^ 25 ≤ s.cycle.toNat then some (.recordClear, {})
  else if s.pages.any (fun (e : Nat × Page) => !e.2.near.isEmpty) && decide (s.mod.epochs < s.epochsPast) then some (.epochEnd, {})
  else none

/-! What a unit makes: an event, and the state without the message that it is. Kinds of units look for something to do in turn, the
kind after the one that had the last turn first, so that each of them has its turn (R33). (DESIGN CHOICE, log 4.) -/

/-- What a kind of unit has to do. -/
abbrev UnitKind := State → Option (Instr × Cmd × State)

/-- An event of a unit that is no message. -/
def plainly (f : State → Option (Instr × Cmd)) : UnitKind := fun s => (f s).map (fun e => (e.1, e.2, s))

/-- The engines of a core. -/
def coreKinds : List UnitKind :=
  [plainly State.nextMvu, plainly State.nextCopy, plainly State.nextIndirect, plainly State.nextTierin, plainly State.nextOfCore]

/-- The units of the module. -/
def moduleKinds : List UnitKind :=
  [plainly State.nextTimed, plainly State.nextLine,
   fun s => (firstReady s.mayArrive s.inflight).map (fun r => (r.1.1, r.1.2, { s with inflight := r.2 })),
   plainly State.nextPage, plainly State.nextOfParts, plainly State.nextDispatch]

/-- The first kind from number `from'` on, in turn, that has something to do: its number, and what. -/
def State.firstKind (s : State) (kinds : List UnitKind) (from' : Nat) : Option (Nat × Instr × Cmd × State) :=
  let numbered := (upFrom 0 kinds.length).zip kinds
  (numbered.drop from' ++ numbered.take from').findSome? (fun k => (k.2 s).map (fun r => (k.1, r)))

/-- What an engine of the core in focus makes next. (DESIGN CHOICE, log 4.) -/
def State.engineProgress (s : State) : Option (Instr × Cmd × State) :=
  (s.firstKind coreKinds s.hw.engineTurn).map (fun r =>
    (r.2.1, r.2.2.1, { r.2.2.2 with hw := { r.2.2.2.hw with engineTurn := (r.1 + 1) % 5 } }))

/-- What a unit of the module makes next. (DESIGN CHOICE, log 4.) -/
def State.moduleProgress (s : State) : Option (Instr × Cmd × State) :=
  (s.firstKind moduleKinds s.kindTurn).map (fun r => (r.2.1, r.2.2.1, { r.2.2.2 with kindTurn := (r.1 + 1) % 6 }))

/-! Which context comes into focus (R16). In turn, on each core that runs a task: the control context, a helper of pipe 0, a
helper of pipe 1, an engine of the core, each for one step; then the next core. When every core has had its turn, a unit of the
module has one. (DESIGN CHOICE, log 17.) -/

/-- The helper whose turn it is on a pipe, after the one that had the last turn (R16). -/
def State.pipeNext (s : State) (last : Nat) : Option Nat :=
  ((upFrom 1 5).map (fun i => (last + 2 * i) % 10)).find? (fun slot => s.k.peers.any (fun c => c.slot == slot && c.live))

/-- A core runs a context. -/
def CoreState.runs (x : CoreState) : Bool := x.ctx.live || x.k.peers.any (fun c => c.live)

/-- The next core above this one, in turn, that runs a context. -/
def State.nextCore (s : State) : Option Nat :=
  let live := (s.others.filter (fun e => e.2.runs)).map (fun e => e.1)
  (live.find? (fun c => decide (s.coreNo < c))).or live.head?

/-- The next core's turn; after the last core's, a turn of the module's units. (DESIGN CHOICE, log 17.) -/
def State.rotate (s : State) : State :=
  match s.nextCore with
  | some n =>
    let last := decide (n ≤ s.coreNo)
    { (s.focusCore n).focusSlot 15 with unitTurn := last, moduleTurn := last }
  | none => { s.focusSlot 15 with unitTurn := true, moduleTurn := true }

/-- What the context waits for comes before the issue of its instruction, which is then fetched and issues afresh.
(DESIGN CHOICE, log 17.) -/
def Wait.beforeIssue : Wait → Bool
  | .page .. | .tier _ | .operand | .dispatchFull | .room | .drain | .turn .. => true
  | _ => false

/-- The helper that has had its turn is the last of its pipe. -/
def State.notePipe (s : State) : State :=
  if s.ctx.slot = 15 then s
  else if s.ctx.slot % 2 = 0 then { s with hw := { s.hw with pipe0 := s.ctx.slot } }
  else { s with hw := { s.hw with pipe1 := s.ctx.slot } }

/-- An instruction that waits before its issue has not issued (R439). -/
def State.noteIssue (s : State) : State :=
  if s.ctx.hold.any Wait.beforeIssue then { s with hw := { s.hw with issued := false, helped := false } } else s

/-- The turn passes from the context in focus: to the next of its core, or to the core's engines.
(DESIGN CHOICE, log 17.) -/
def State.passTurn (s0 : State) : State :=
  let s := s0.notePipe.noteIssue
  let next :=
    if s.ctx.slot = 15 then (s.pipeNext s.hw.pipe0).or (s.pipeNext s.hw.pipe1)
    else if s.ctx.slot % 2 = 0 then s.pipeNext s.hw.pipe1
    else none
  match next with
  | some n => s.focusSlot n
  | none => { s.focusSlot 15 with unitTurn := true, moduleTurn := false }

end Sys2Proof.Machine
end

