-- ==== Sys2Proof/Machine/Run.lean ====
section
/-! DEFINITION. What a step does around an instruction: acts of the agenda, sample ticks (R438), units and contexts in turn,
pre-emption (R426), asynchronous faults (R420), breakpoints (R444), loop phases (R270, R271), fetch and decoding (R65), and the
passing of cycles. -/

namespace Sys2Proof.Machine

/-- Of a number of cycles, those up to the next tick of the sample unit, the next update of HEALTH and the end of the millisecond
of the power monitor (R438, R457, R463): none passes before them. -/
def State.untilTick (s : State) (d : Nat) : Nat :=
  let d1 := min d ((s.mod.healthTurns + 1) * 2 ^ 30 - s.cycle.toNat)
  let d2 := min d1 (s.mod.clockAt + (s.sinceClock + 1) * msCycles s.mod.clock - s.cycle.toNat)
  if s.mod.sampctl.getLsbD 0 then min d2 (s.mod.sampNext - s.cycle.toNat) else d2

/-- The cycles that a step takes: one or more, but none where a tick is due (R438). (DESIGN CHOICE, log 6.) -/
def State.stepLength (s : State) : Nat := s.untilTick (Config.stepCycles s.free + 1)

/-- Cycles pass: no step's time is fixed (DESIGN CHOICE, log 6). -/
def State.pass (s : State) : State := { s.flushLate.elapse s.stepLength with free := s.free + 1 }

/-- The parcels of the instruction that issues stand in the instruction register. (DESIGN CHOICE, log 13.) -/
def State.latch (s : State) (ps : List Parcel) : State :=
  { s with ctx := { s.ctx with ir := #v[ps.getD 0 0, ps.getD 1 0, ps.getD 2 0] } }

/-- The context in focus issues, and the counters of its core may count it (R439). -/
def State.markIssue (s : State) : State :=
  if s.ctx.slot = 15 then { s with hw := { s.hw with issued := true } } else { s with hw := { s.hw with helped := true } }

/-- An event, and no instruction of a program. -/
def isEvent (i : Instr) : Bool := (encode i).isEmpty

/-- An event performed with its operands. (DESIGN CHOICE, log 13.) -/
def State.perform (s : State) (i : Instr) (c : Cmd) : Host.Outcome State Fault Refusal :=
  if isEvent i then exec i { s with cmd := c } else .next s

/-- The breakpoint that an instruction of the control context matches, with the number R441 gives it; none at the first
instruction behind an ERET (R444). (DEDUCED, log 27.) -/
def State.breakpoint (s : State) (engine : Bool) : Option Nat :=
  if s.ctx.slot ≠ 15 ∨ s.ctx.skipBp then none
  else
    let seq := if engine then s.k.engseq + 1 else s.k.engseq
    (upFrom 0 4).find? (fun n =>
      let c := s.hw.bpctl.getD n 0
      c.getLsbD 0 && s.hw.bppc.getD n 0 == s.ctx.pc && (!(c.getLsbD 1) || bits c 32 32 == seq.toNat))

/-- The instruction that issues, once fetched: breakpoints come first, then decoding and, in a helper, its legality (R65 step
8); what an earlier instruction is still to write or to take is waited for (R98, R334). -/
def State.issueParcels (s : State) (ps : List Parcel) : Host.Outcome State Fault Refusal :=
  let d := decode ps
  let engine := match d with | .ok i => i.engineBound | .error _ => false
  match s.breakpoint engine with
  | some n => .next (s.trapFrom engine 21 (BitVec.ofNat 64 (64 + n)) 0 s.ctx.pc)
  | none =>
    match d with
    | .error _ => .next (s.stopped Stop.illegal)
    | .ok i =>
      if s.ctx.slot ≠ 15 ∧ ¬ i.legal true then .next (s.stopped Stop.illegal)
      else if s.awaitsMask i then .next ((if usesSeed i then s.reserveWords else s).wait .operand)
      else exec i (s.markIssue.latch ps)

/-- The first instruction of a dispatched task is a transfer's target, and is checked as one (R61, R158). R61 names the
transferring instruction for the fault of an illegal target, and a dispatch has none: an ordinary precise trap is taken at the
target itself, with the code pointer in TRAPPC. (DESIGN CHOICE, log 27.) -/
def State.checkFirst (s : State) : Except Stop State :=
  if s.ctx.entry then (s.checkTarget s.ctx.pc).map (fun t => { t with ctx := { t.ctx with entry := false } }) else .ok s

/-- The instruction at the PC of the context in focus. -/
def State.issueNext (s : State) : Host.Outcome State Fault Refusal :=
  match s.checkFirst with
  | .error r => .next (s.stopped r)
  | .ok s0 =>
    match s0.fetch with
    | .error r => .next (s0.stopped r)
    | .ok (ps, s1) => s1.issueParcels ps

/-- A context that holds its core: the instruction issues again, from the instruction register if it has issued.
(DESIGN CHOICE, log 17.) -/
def State.holding (s : State) (w : Wait) : Host.Outcome State Fault Refusal :=
  if s.pageOwed w then .next s
  else if w.beforeIssue then s.issueNext
  else
    match decode s.ctx.ir.toList with
    | .ok i => exec i s
    | .error _ => s.issueNext

/-- The context in focus goes on, its pre-emption apart: a fault that is due comes first, then what it waits for, then the phase
of its loop (R270, R271, R420). -/
def State.proceed (s : State) : Host.Outcome State Fault Refusal :=
  if s.takesFault ∧ s.k.pending ≠ [] then exec .asyncFaultTaken s
  else
    match s.ctx.hold with
    | some w => s.holding w
    | none =>
      if s.loopAt .starting then exec .iterationStart s
      else if s.loopAt .complete then exec .iterationRetire s
      else s.issueNext

/-- The core is being pre-empted, outside a window: its contexts issue nothing new (R411, R426), unless a TDONE waits for its
helpers, which is not interrupted (R430). -/
def State.stopsHere (s : State) : Bool := s.hw.preempting.isSome && s.openWindow.isNone && s.control.hold != some .done

/-- The context in focus goes on; of a core that is being pre-empted, only what has to end before the save (R426, R430). -/
def State.runContext (s : State) : Host.Outcome State Fault Refusal :=
  if !s.stopsHere then s.proceed
  else if s.canEndPreempt then s.perform .preemptSaveComplete { core := s.coreNo }
  else if s.ctx.midInstr || (s.takesFault && !s.k.pending.isEmpty) then s.proceed
  else .next s

/-- The turn passes on from an outcome. -/
def turnAfter (o : Host.Outcome State Fault Refusal) : Host.Outcome State Fault Refusal :=
  match o with
  | .next s => .next s.passTurn
  | o => o

/-- The turn of the context in focus. -/
def State.turnOf (s : State) : Host.Outcome State Fault Refusal :=
  turnAfter (if s.ctx.live then s.runContext else .next s)

/-- The turn of a unit of the module, or of the context in focus if no unit has anything to do. -/
def State.moduleTurnOf (s0 : State) : Host.Outcome State Fault Refusal :=
  let s := { s0 with unitTurn := false, moduleTurn := false }
  match s.moduleProgress with
  | some (i, c, s1) => s1.perform i c
  | none => s.turnOf

/-- The next core's turn, or the module's, where nothing came of the turn before it. -/
def State.turnBehind (s : State) : Host.Outcome State Fault Refusal := if s.moduleTurn then s.moduleTurnOf else s.turnOf

/-- The turn passes to the next core from an outcome. -/
def rotateAfter (o : Host.Outcome State Fault Refusal) : Host.Outcome State Fault Refusal :=
  match o with
  | .next s => .next s.rotate
  | o => o

/-- The turn of the engines of the core in focus; if none has anything to do, the turn behind it. -/
def State.engineTurnOf (s0 : State) : Host.Outcome State Fault Refusal :=
  let s := { s0 with unitTurn := false }
  match s.engineProgress with
  | some (i, c, s1) => rotateAfter (s1.perform i c)
  | none => s.rotate.turnBehind

/-- The turn of a unit. -/
def State.unitTurnOf (s : State) : Host.Outcome State Fault Refusal := if s.moduleTurn then s.moduleTurnOf else s.engineTurnOf

/-- The next act of the agenda. (DESIGN CHOICE, log 4.) -/
def State.act (s : State) : Act → Host.Outcome State Fault Refusal
  | .event i c => s.perform i c
  | .run core slot => .next (if core < Config.cores then (s.focusCore core).focusSlot slot else s)
  | .tick n => .next (s.elapse (s.untilTick n))

/-- What comes before everything else: a tick, an update of HEALTH or a step of the clock that is due, and the end of a window that
is to be discarded (R411, R438, R457, R463). (DESIGN CHOICE, log 4.) (DESIGN CHOICE, log 9.) -/
def State.due (s : State) : Option (Instr × Cmd) :=
  if s.tickDue then some (.sampleTick, {})
  else if s.healthDue then some (.healthUpdate, {})
  else if s.stepDownDue then some (.powerStepDown, {})
  else if s.stepUpDue then some (.powerStepUp, {})
  else s.discardDue.map (fun c => (.windowEndDiscard, { core := c }))

/-- A step of the module: what is due, the next act of the agenda, or a turn. (DESIGN CHOICE, log 4.) -/
def State.run (s : State) : Host.Outcome State Fault Refusal :=
  match s.due with
  | some (i, c) => s.perform i c
  | none =>
    match s.agenda with
    | a :: rest => { s with agenda := rest }.act a
    | [] => if s.unitTurn then s.unitTurnOf else s.turnOf

/-- The line that holds the given parcels at its start, with a legal target at its first parcel and its parity (R50, R53).
(DESIGN CHOICE, log 14.) -/
def placedLine (ps : List Parcel) : List Parcel :=
  let text := ps ++ List.replicate (15 - ps.length) 0
  let par := (upFrom 0 8).foldl (fun acc i => acc + (if parityBit text i then 2 ^ (24 + i) else 0)) 0
  text ++ [BitVec.ofNat 32 (par + 1)]

/-- A state in which the context in focus fetches the given parcels next: they stand in the instruction cache at the line of
its PC, in the control context of a core that runs a task, and nothing else is to happen first. (DESIGN CHOICE, log 14.) -/
def State.place (s : State) (ps : List Parcel) : State :=
  let pc := lineOf s.ctx.pc
  let line : Line := { va := pc.toNat, pa := 0, text := placedLine ps }
  { s with
    coreNo := s.coreNo % Config.cores
    ctx := { s.ctx with slot := 15, live := true, pc := pc, hold := none, entry := false, skipBp := false }
    k := { s.k with
      task := some (s.k.task.getD {})
      loop := {}
      pending := []
      window := none
      mvuq := []
      unreleased := []
      peers := s.k.peers.filter (fun c => c.slot != 15) }
    hw := { s.hw with icache := line :: s.hw.icache, group := none, bpctl := Vector.replicate 4 0, preempting := none }
    agenda := []
    inflight := []
    mod := { s.mod with
      sampNext := s.cycle.toNat + 1
      healthTurns := s.cycle.toNat / 2 ^ 30
      clockAt := s.cycle.toNat }
    unitTurn := false
    moduleTurn := false }

end Sys2Proof.Machine
end

