-- ==== Sys2Proof/Machine/Step.lean ====
section
/-! DEFINITION. One step of the machine, and the placing of an instruction where the next step fetches it. -/

namespace Sys2Proof.Machine

/-- One step, after which cycles have passed. -/
def step (s : State) : Host.Outcome State Fault Refusal :=
  if Config.cores ≤ s.coreNo then .fault .noSuchCore
  else match s.run with
    | .next t => .next t.pass
    | .fault r => .fault r
    | .refused r => .refused r

/-- `s` with the instruction whose bits are `w` where the next step fetches it. (DESIGN CHOICE, log 14.) -/
def State.withFetchWord (s : State) (nbits w : Nat) : State := s.place (tableParcels (w % 2 ^ nbits))

end Sys2Proof.Machine
end

