-- ==== Sys2Proof/Certificates/Slice0/Obligations.lean ====
section
/-! DEFINITION. Statements about the machine. The words they are said in come first: what an integer operation's exact
result is, what an instruction writes, and the state that it leaves. -/

namespace Sys2Proof.Claims

open Machine

/-- Width of an integer type in bits: 8, 16, 32 or 64 (R47). -/
def width (ty : BitVec 4) : Nat := 8 * 2 ^ (ty.toNat % 4)

/-- The low bits of a source as a signed, and as an unsigned number (R140). -/
def sval (ty : BitVec 4) (v : Word) : Int := (v.setWidth (width ty)).toInt
def zval (ty : BitVec 4) (v : Word) : Int := (v.setWidth (width ty)).toNat

/-- A source as TY reads it: types 0 to 3 are signed (R47, R140). -/
def val (ty : BitVec 4) (v : Word) : Int := if ty.toNat < 4 then sval ty v else zval ty v

/-- The least and the greatest value of a type (R85). -/
def least (ty : BitVec 4) : Int := if ty.toNat < 4 then -2 ^ (width ty - 1) else 0
def greatest (ty : BitVec 4) : Int := if ty.toNat < 4 then 2 ^ (width ty - 1) - 1 else 2 ^ width ty - 1

/-- The written value for an exact result: clamped under SAT, cut to the width, and extended by the type's signedness
(R86, R140). -/
def written (ty : BitVec 4) (sat : Bool) (r : Int) : Word :=
  let x := if sat then max (least ty) (min (greatest ty) r) else r
  if ty.toNat < 4 then (BitVec.ofInt (width ty) x).signExtend 64 else (BitVec.ofInt (width ty) x).setWidth 64

/-- SATF, when SAT has clamped the result (R56, R86). -/
def clampFlag (ty : BitVec 4) (sat : Bool) (r : Int) : Word :=
  if sat ∧ (r < least ty ∨ greatest ty < r) then 0x40 else 0

/-- A destination operand written (R63, R263): a register; a strand of no active level gets a new youngest bead, and one
of an active level the bead of its iteration. -/
def put (s : State) (d : BitVec 6) (v : Word) : State :=
  if d.toNat < 32 then { s with ctx := { s.ctx with regs := s.ctx.regs.setIfInBounds d.toNat v } }
  else
    let old := s.k.strands.getD (d.toNat - 32) {}
    let new : Strand :=
      if (s.k.loop.owner (d.toNat - 32)).isSome then { old with cur := some v }
      else
        { hist := #v[{ value := v }, old.hist.getD 0 {}, old.hist.getD 1 {}, old.hist.getD 2 {}, old.hist.getD 3 {},
            old.hist.getD 4 {}, old.hist.getD 5 {}, old.hist.getD 6 {}], cur := none }
    { s with k := { s.k with strands := s.k.strands.setIfInBounds (d.toNat - 32) new } }

/-- The instruction has retired: PC names the parcel `len` further on in the stream, RETIRED counts it, and the breakpoints match
again that an ERET before it put off (R51, R54, R444). -/
def retired (s : State) (len : Nat) : State :=
  { s with ctx := { s.ctx with
      pc := parcelsAfter s.ctx.pc len, retired := s.ctx.retired + 1, hold := none, skipBp := false } }

/-- Sticky flags set (R56). -/
def flagged (s : State) (fl : Word) : State := { s with ctx := { s.ctx with fpflags := s.ctx.fpflags ||| fl } }

/-- A predicate written; a write of p0 is discarded (R40, R42). -/
def putPred (s : State) (i : Nat) (b : Bool) : State :=
  if i = 0 then s
  else { s with ctx := { s.ctx with preds := (s.ctx.preds &&& ~~~(1#8 <<< i)) ||| (if b then 1#8 <<< i else 0) } }

/-- The guard of an instruction holds: p0 always reads true (R42). -/
def runs (s : State) (p : BitVec 3) (n : Bool) : Prop := (if p = 0 then true else s.ctx.preds.getLsbD p.toNat) ≠ n

/-- An instruction of two integer operands: its fields, and its operands' values, the second an immediate or an operand. -/
structure IntOp where
  form : Form
  b : State → Word
  exact : Word → Word → Int

/-- A register operation: the 32-bit form works at .s64 and has no guard (R68). -/
def regA (f : A32) (x : BitVec 4 → Word → Word → Int) : Option IntOp :=
  some { form := formA 3 f, b := fun s => s.readOp f.b 0, exact := x 3 }
def regG (f : G64) (x : BitVec 4 → Word → Word → Int) : Option IntOp :=
  some { form := formG f, b := fun s => s.readOp f.b f.db, exact := x f.ty }
/-- An immediate operation: the immediate is sign-extended (R142). -/
def immS (f : I32) (x : BitVec 4 → Word → Word → Int) : Option IntOp :=
  some { form := formI32 3 f, b := fun _ => f.imm.signExtend 64, exact := x 3 }
def immI (f : I64) (x : BitVec 4 → Word → Word → Int) : Option IntOp :=
  some { form := formI f, b := fun _ => f.imm.signExtend 64, exact := x f.ty }
def immW (f : W96) (x : BitVec 4 → Word → Word → Int) : Option IntOp :=
  some { form := formW f, b := fun _ => f.lit.signExtend 64, exact := x f.ty }

/-! Exact results (R141 to R144). -/
def xAdd (ty : BitVec 4) (a b : Word) : Int := val ty a + val ty b
def xSub (ty : BitVec 4) (a b : Word) : Int := val ty a - val ty b
def xMul (ty : BitVec 4) (a b : Word) : Int := val ty a * val ty b
def xMulh (ty : BitVec 4) (a b : Word) : Int := (sval ty a * sval ty b).fdiv (2 ^ width ty)
def xMulhz (ty : BitVec 4) (a b : Word) : Int := (zval ty a * zval ty b).fdiv (2 ^ width ty)
def xDiv (ty : BitVec 4) (a b : Word) : Int := if sval ty b = 0 then -1 else (sval ty a).tdiv (sval ty b)
def xDivz (ty : BitVec 4) (a b : Word) : Int := if zval ty b = 0 then 2 ^ width ty - 1 else (zval ty a).tdiv (zval ty b)
def xRem (ty : BitVec 4) (a b : Word) : Int :=
  if sval ty b = 0 then sval ty a else sval ty a - sval ty b * (sval ty a).tdiv (sval ty b)
def xRemz (ty : BitVec 4) (a b : Word) : Int :=
  if zval ty b = 0 then zval ty a else zval ty a - zval ty b * (zval ty a).tdiv (zval ty b)
def xAnd (ty : BitVec 4) (a b : Word) : Int := ((a &&& b).setWidth (width ty)).toNat
def xOr (ty : BitVec 4) (a b : Word) : Int := ((a ||| b).setWidth (width ty)).toNat
def xXor (ty : BitVec 4) (a b : Word) : Int := ((a ^^^ b).setWidth (width ty)).toNat
def xAndn (ty : BitVec 4) (a b : Word) : Int := ((a &&& ~~~b).setWidth (width ty)).toNat
/-- Amounts of 64 and more act as 64 at every width (R144). -/
def amount (b : Word) : Nat := if 64 ≤ b.toNat then 64 else b.toNat
def xShl (ty : BitVec 4) (a b : Word) : Int := val ty a * 2 ^ amount b
def xShr (ty : BitVec 4) (a b : Word) : Int := (zval ty a).fdiv (2 ^ amount b)
def xSra (ty : BitVec 4) (a b : Word) : Int := (sval ty a).fdiv (2 ^ amount b)
def xRol (ty : BitVec 4) (a b : Word) : Int := ((a.setWidth (width ty)).rotateLeft (b.toNat % width ty)).toNat
def xMin (ty : BitVec 4) (a b : Word) : Int := if sval ty a ≤ sval ty b then sval ty a else sval ty b
def xMax (ty : BitVec 4) (a b : Word) : Int := if sval ty a ≤ sval ty b then sval ty b else sval ty a
def xMinz (ty : BitVec 4) (a b : Word) : Int := if zval ty a ≤ zval ty b then zval ty a else zval ty b
def xMaxz (ty : BitVec 4) (a b : Word) : Int := if zval ty a ≤ zval ty b then zval ty b else zval ty a
def xAbs (ty : BitVec 4) (a _ : Word) : Int := if val ty a < 0 then -(val ty a) else val ty a
def xMov (ty : BitVec 4) (a _ : Word) : Int := val ty a
def xMovl (ty : BitVec 4) (_ b : Word) : Int := val ty b

/-- The integer arithmetic of the opcode table with its exact results (R141 to R144). -/
def arithmetic : Instr → Option IntOp
  | .addA32 f => regA f xAdd | .addI32 f => immS f xAdd | .addG64 f => regG f xAdd | .addI64 f => immI f xAdd
  | .addW96 f => immW f xAdd | .subA32 f => regA f xSub | .subG64 f => regG f xSub
  | .mulA32 f => regA f xMul | .mulG64 f => regG f xMul | .mulI64 f => immI f xMul | .mulW96 f => immW f xMul
  | .mulhA32 f => regA f xMulh | .mulhG64 f => regG f xMulh | .mulhzA32 f => regA f xMulhz | .mulhzG64 f => regG f xMulhz
  | .minA32 f => regA f xMin | .minG64 f => regG f xMin | .minI64 f => immI f xMin | .minW96 f => immW f xMin
  | .maxA32 f => regA f xMax | .maxG64 f => regG f xMax | .maxI64 f => immI f xMax | .maxW96 f => immW f xMax
  | .minzA32 f => regA f xMinz | .minzG64 f => regG f xMinz | .minzI64 f => immI f xMinz | .minzW96 f => immW f xMinz
  | .maxzA32 f => regA f xMaxz | .maxzG64 f => regG f xMaxz | .maxzI64 f => immI f xMaxz | .maxzW96 f => immW f xMaxz
  | .absA32 f => regA f xAbs | .absG64 f => regG f xAbs | .movA32 f => regA f xMov | .movG64 f => regG f xMov
  | .movlI32 f => immS f xMovl | .movlI64 f => immI f xMovl | .movlW96 f => immW f xMovl
  | _ => none

/-- Division (R143). -/
def division : Instr → Option IntOp
  | .divA32 f => regA f xDiv | .divG64 f => regG f xDiv | .divzA32 f => regA f xDivz | .divzG64 f => regG f xDivz
  | .remA32 f => regA f xRem | .remG64 f => regG f xRem | .remzA32 f => regA f xRemz | .remzG64 f => regG f xRemz
  | _ => none

/-- Bitwise operations (R141). -/
def bitwise : Instr → Option IntOp
  | .andA32 f => regA f xAnd | .andI32 f => immS f xAnd | .andG64 f => regG f xAnd | .andI64 f => immI f xAnd
  | .andW96 f => immW f xAnd | .orA32 f => regA f xOr | .orG64 f => regG f xOr | .orI64 f => immI f xOr
  | .orW96 f => immW f xOr | .xorA32 f => regA f xXor | .xorG64 f => regG f xXor | .xorI64 f => immI f xXor
  | .xorW96 f => immW f xXor | .andnA32 f => regA f xAndn | .andnG64 f => regG f xAndn
  | _ => none

/-- Shifts and rotates (R144). -/
def shifting : Instr → Option IntOp
  | .shlA32 f => regA f xShl | .shlI32 f => immS f xShl | .shlG64 f => regG f xShl | .shlI64 f => immI f xShl
  | .shlW96 f => immW f xShl | .shrA32 f => regA f xShr | .shrI32 f => immS f xShr | .shrG64 f => regG f xShr
  | .shrI64 f => immI f xShr | .shrW96 f => immW f xShr | .sraA32 f => regA f xSra | .sraI32 f => immS f xSra
  | .sraG64 f => regG f xSra | .sraI64 f => immI f xSra | .sraW96 f => immW f xSra
  | .rolA32 f => regA f xRol | .rolG64 f => regG f xRol | .rolI64 f => immI f xRol | .rolW96 f => immW f xRol
  | _ => none

/-- The instruction's next state: the destination holds the written value, SATF is set if SAT clamped, the instruction has
retired, and nothing else has changed. -/
def completes (table : Instr → Option IntOp) : Prop :=
  ∀ (i : Instr) (o : IntOp) (s : State), table i = some o → i.wellFormed = true → runs s o.form.p o.form.n →
    let r := o.exact (s.readOp o.form.a o.form.da) (o.b s)
    exec i s = .next (retired (flagged (put s o.form.d (written o.form.ty o.form.sat r))
      (clampFlag o.form.ty o.form.sat r)) o.form.len)

end Sys2Proof.Claims

open Sys2Proof Sys2Proof.Machine Sys2Proof.Claims

/-- R140 and R141: add, subtract, multiply, high halves, minima, maxima, absolute value and moves write the exact result
under the overflow rule, extended by the type's signedness; with their whole frame. -/
def Obligations.ArithmeticResults : Prop := completes arithmetic

/-- R143: division truncates toward zero; by zero it gives all ones, and the remainder its dividend. -/
def Obligations.DivisionResults : Prop := completes division

/-- R141: bitwise operations work on the n-bit patterns. -/
def Obligations.BitwiseResults : Prop := completes bitwise

/-- R144: shifts by the full 64-bit amount, 64 and more acting as 64 at every width, and rotates modulo the width. -/
def Obligations.ShiftResults : Prop := completes shifting

namespace Sys2Proof.Claims

/-- CLZ's, CTZ's and POPC's results on the pattern `x` of `n` bits (R145). -/
def isClz (n x k : Nat) : Prop := k ≤ n ∧ x < 2 ^ (n - k) ∧ (k < n → 2 ^ (n - k - 1) ≤ x)
def isCtz (n x k : Nat) : Prop := k ≤ n ∧ x % 2 ^ k = 0 ∧ (k < n → x % 2 ^ (k + 1) ≠ 0)
def isPopc (n x k : Nat) : Prop := k = ((List.range n).filter (fun i => x.testBit i)).length

/-- The counts of the opcode table. -/
def counting : Instr → Option (Form × (Nat → Nat → Nat → Prop))
  | .clzA32 f => some (formA 3 f, isClz) | .clzG64 f => some (formG f, isClz)
  | .ctzA32 f => some (formA 3 f, isCtz) | .ctzG64 f => some (formG f, isCtz)
  | .popcA32 f => some (formA 3 f, isPopc) | .popcG64 f => some (formG f, isPopc)
  | _ => none

/-- A predicate as an instruction reads it: p0 is true (R42). -/
def pr (s : State) (i : Nat) : Bool := if i = 0 then true else s.ctx.preds.getLsbD i

/-- Bytes of an element of TY 0 to 12 (R120). -/
def size (ty : BitVec 4) : Nat := [1, 2, 4, 8, 1, 2, 4, 8, 4, 2, 2, 1, 1].getD ty.toNat 1

/-- The values of SEXT, ZEXT, LEA, BFX, BFI and SEL (R145 to R147, R150). -/
def fieldValue (s : State) : Instr → Option (Form × Word)
  | .sext f => some (formG f, ((s.readOp f.a f.da).setWidth (width f.ty)).signExtend 64)
  | .zext f => some (formG f, ((s.readOp f.a f.da).setWidth (width f.ty)).setWidth 64)
  | .leaI64 f => some (formI f, s.readOp f.a f.da + f.imm.signExtend 64 * BitVec.ofNat 64 (size f.ty))
  | .leaW96 f => some (formW f, s.readOp f.a f.da + f.lit.signExtend 64 * BitVec.ofNat 64 (size f.ty))
  | .bfx f =>
    let x := ((s.readOp f.a f.da) >>> f.b.toNat).setWidth (f.c.toNat + 1)
    some (formG f, if f.ty = 3 then x.signExtend 64 else x.setWidth 64)
  | .bfi f =>
    let mask : Word := (BitVec.allOnes 64 >>> (63 - f.c.toNat)) <<< f.b.toNat
    some (formG f, (s.readOp f.d 0 &&& ~~~mask) ||| (((s.readOp f.a f.da) <<< f.b.toNat) &&& mask))
  | .sel f =>
    some (formG f, written f.ty false (val f.ty (if pr s f.c.toNat then s.readOp f.a f.da else s.readOp f.b f.db)))
  | _ => none

/-- The conditions of CMP (R148). -/
def compare (cond : Nat) (ty : BitVec 4) (a b : Word) : Bool :=
  match cond with
  | 0 => decide (zval ty a = zval ty b)
  | 1 => decide (zval ty a ≠ zval ty b)
  | 2 => decide (sval ty a < sval ty b)
  | 3 => decide (sval ty a ≤ sval ty b)
  | 4 => decide (sval ty a > sval ty b)
  | 5 => decide (sval ty a ≥ sval ty b)
  | 6 => decide (zval ty a < zval ty b)
  | 7 => decide (zval ty a ≤ zval ty b)
  | 8 => decide (zval ty a > zval ty b)
  | 9 => decide (zval ty a ≥ zval ty b)
  | 10 => decide (zval ty (a &&& b) ≠ 0)
  | _ => decide (zval ty (a &&& b) = 0)

/-- What the predicate instructions write (R148, R149). -/
def predicateValue (s : State) : Instr → Option (Form × Bool)
  | .cmpA32 cond f => some (formA 3 f, compare cond.toNat 3 (s.readOp f.a 0) (s.readOp f.b 0))
  | .cmpG64 cond f =>
    some (formG f, compare cond.toNat f.ty (s.readOp f.a f.da) (s.readOp f.b f.db) && pr s f.c.toNat)
  | .pandA32 f => some (formA 3 f, pr s f.a.toNat && pr s f.b.toNat)
  | .pandG64 f => some (formG f, pr s f.a.toNat && pr s f.b.toNat)
  | .porA32 f => some (formA 3 f, pr s f.a.toNat || pr s f.b.toNat)
  | .porG64 f => some (formG f, pr s f.a.toNat || pr s f.b.toNat)
  | .pxorA32 f => some (formA 3 f, pr s f.a.toNat != pr s f.b.toNat)
  | .pxorG64 f => some (formG f, pr s f.a.toNat != pr s f.b.toNat)
  | .pnotA32 f => some (formA 3 f, !(pr s f.a.toNat))
  | .pnotG64 f => some (formG f, !(pr s f.a.toNat))
  | _ => none

/-- A .f32 source is a NaN: exponent all ones and a fraction that is not zero (R87, R151). -/
def nan32 (v : Word) : Bool := bits v 23 8 == 255 && bits v 0 23 != 0

/-- A .f32 source is a zero, of either sign. -/
def zero32 (v : Word) : Bool := bits v 0 31 == 0

/-- Two .f32 sources that are no NaN compare as their signs and magnitudes do. -/
def key32 (v : Word) : Int := if bits v 31 1 = 1 then -(bits v 0 31 : Int) else bits v 0 31

/-- The conditions of SFCMP (R153): a NaN compares unordered, and the zeros are equal. -/
def compare32 (cond : Nat) (a b : Word) : Bool :=
  let un := nan32 a || nan32 b
  match cond with
  | 0 => !un && decide (key32 a = key32 b)
  | 1 => un || decide (key32 a ≠ key32 b)
  | 2 => !un && decide (key32 a < key32 b)
  | 3 => !un && decide (key32 a ≤ key32 b)
  | 4 => !un && decide (key32 a > key32 b)
  | 5 => !un && decide (key32 a ≥ key32 b)
  | 6 => un
  | _ => !un

/-- The scalar floating arithmetic: the fields, and whether a source is a NaN. -/
def floating (s : State) : Instr → Option (G64 × Bool)
  | .sfadd f => some (f, nan32 (s.readOp f.a f.da) || nan32 (s.readOp f.b f.db))
  | .sfmul f => some (f, nan32 (s.readOp f.a f.da) || nan32 (s.readOp f.b f.db))
  | .sfma f =>
    some (f, nan32 (s.readOp f.a f.da) || nan32 (s.readOp f.b f.db) || nan32 (s.readOp f.c f.dc))
  | .sfcvt f => some (f, false)
  | _ => none

/-- What the guarded-off rule needs: fields, and the destination operand if the instruction has one. -/
structure Off where
  p : BitVec 3
  n : Bool
  len : Nat
  dest : Option (BitVec 6)
  engine : Bool

def offG (f : G64) : Off := { p := f.p, n := f.n, len := 2, dest := none, engine := false }
def offGd (f : G64) : Off := { offG f with dest := some f.d }
def offI (f : I64) : Off := { p := f.p, n := f.n, len := 2, dest := none, engine := false }
def offW (f : W96) : Off := { p := f.p, n := f.n, len := 3, dest := none, engine := false }
def offS (f : SysForm) : Off := { p := f.p, n := f.n, len := if f.wide then 3 else 2, dest := none, engine := false }

/-- The guarded instructions that take no place in the dispatch queue. -/
def guarded : Instr → Option Off
  | .addG64 f | .subG64 f | .mulG64 f | .mulhG64 f | .mulhzG64 f | .divG64 f | .divzG64 f | .remG64 f | .remzG64 f
  | .andG64 f | .orG64 f | .xorG64 f | .andnG64 f | .shlG64 f | .shrG64 f | .sraG64 f | .rolG64 f | .minG64 f | .maxG64 f
  | .minzG64 f | .maxzG64 f | .clzG64 f | .ctzG64 f | .popcG64 f | .absG64 f | .movG64 f | .sext f | .zext f | .bfx f
  | .bfi f | .sel f | .sfadd f | .sfmul f | .sfma f | .sfcvt f | .tget f | .beadq f | .ldx f | .place f | .tierq f | .wprd f
  | .evwait f | .aadd f | .afadd f | .amin f | .amax f | .aand f | .aor f | .axor f | .axchg f | .acas f | .bwait f
  | .bqry f | .xopen f | .xrecv f | .xclose f => some (offGd f)
  | .tierin f => some { offGd f with engine := true }
  | .cmpG64 _ f | .pandG64 f | .porG64 f | .pxorG64 f | .pnotG64 f | .sfcmp _ f | .tdef f | .tset f | .stx f | .bri f
  | .calli f | .retG64 f | .breakc f | .tdoneG64 f | .wpwait f | .fence f | .xfence f | .ntdrain f | .barmJoin f
  | .barmLeave f | .bsig f | .xsend f | .mwait f | .bkpt f | .eret f | .halt f | .pfh f | .hwait f
  | .wdq f | .fsopen f | .fsclose f | .fswait f => some (offG f)
  | .launch f | .tspawn f | .tspawnw f | .tcancelScope f | .tcancelTask f | .tjoin f | .cpy f | .gather f | .scatter f => some { offG f with engine := true }
  | .addI64 f | .mulI64 f | .andI64 f | .orI64 f | .xorI64 f | .shlI64 f | .shrI64 f | .sraI64 f | .rolI64 f | .minI64 f
  | .maxI64 f | .minzI64 f | .maxzI64 f | .movlI64 f | .leaI64 f | .ldI64 f | .ldacqI64 f =>
    some { offI f with dest := some f.d }
  | .hstart f => some { offI f with engine := true }
  | .brI64 f | .brcI64 f | .callI64 f | .stI64 f | .stntI64 f | .strelI64 f | .ldvI64 f | .trapI64 f => some (offI f)
  | .addW96 f | .mulW96 f | .andW96 f | .orW96 f | .xorW96 f | .shlW96 f | .shrW96 f | .sraW96 f | .rolW96 f | .minW96 f
  | .maxW96 f | .minzW96 f | .maxzW96 f | .movlW96 f | .leaW96 f | .ldW96 f | .ldacqW96 f =>
    some { offW f with dest := some f.d }
  | .brW96 f | .brcW96 f | .callW96 f | .stW96 f | .stntW96 f | .strelW96 f | .ldvW96 f | .trapW96 f => some (offW f)
  | .sysrd f => some { offS f with dest := some f.d }
  | .syswr f => some (offS f)
  | _ => none

/-- A strand destination of a guarded-off instruction takes the value at distance 1: in an active level that of the
iteration before, outside every level that of the youngest bead (R42, R263). -/
def passed (s : State) (d : BitVec 6) : State :=
  if d.toNat < 32 then s
  else put s d (s.readBead (d.toNat - 32) (if (s.k.loop.owner (d.toNat - 32)).isSome then 1 else 0))

/-- What a guarded-off instruction leaves. -/
def skipped (s : State) (o : Off) : State :=
  let s1 := match o.dest with
    | some d => passed s d
    | none => s
  retired { s1 with k := { s1.k with engseq := s1.k.engseq + (if o.engine then 1 else 0) } } o.len

end Sys2Proof.Claims

/-- R145 to R147 and R150: CLZ, CTZ and POPC count the bits of the n-bit pattern; extensions, scaled addresses, bit fields and
selection. -/
def Obligations.FieldResults : Prop :=
  (∀ (i : Instr) (f : Form) (is : Nat → Nat → Nat → Prop) (s : State),
    counting i = some (f, is) → i.wellFormed = true → runs s f.p f.n →
    ∃ k, is (width f.ty) ((s.readOp f.a f.da).setWidth (width f.ty)).toNat k ∧
      exec i s = .next (retired (put s f.d (BitVec.ofNat 64 k)) f.len)) ∧
  (∀ (i : Instr) (f : Form) (v : Word) (s : State),
    fieldValue s i = some (f, v) → i.wellFormed = true → runs s f.p f.n →
    exec i s = .next (retired (put s f.d v) f.len))

/-- R148, R149 and R153: compares and predicate logic write their predicate and nothing else; a write of p0 is discarded.
SFCMP compares two .f32 values, unordered where either is a NaN, and ANDs pC. -/
def Obligations.PredicateResults : Prop :=
  (∀ (i : Instr) (f : Form) (b : Bool) (s : State),
    predicateValue s i = some (f, b) → i.wellFormed = true → runs s f.p f.n →
    exec i s = .next (retired (putPred s f.d.toNat b) f.len)) ∧
  (∀ (cond : BitVec 6) (f : G64) (s : State), (Instr.sfcmp cond f).wellFormed = true → runs s f.p f.n →
    exec (.sfcmp cond f) s =
      .next (retired (putPred s f.d.toNat
        (compare32 cond.toNat (s.readOp f.a f.da) (s.readOp f.b f.db) && pr s f.c.toNat)) 2))

/-- SFADD, SFMUL, SFMA and SFCVT complete: only the destination, the flags and, under .sr, SRSEED change (R151, R98, R56);
an arithmetic result with a NaN source is the canonical NaN with sign bit 0, and sets no flag (R89). -/
def Obligations.FloatResults : Prop :=
  ∀ (i : Instr) (f : G64) (isNan : Bool) (s : State),
    floating s i = some (f, isNan) → i.wellFormed = true → runs s f.p f.n →
    ∃ (v seed fl : Word),
      exec i s = .next (retired (flagged { put s f.d v with ctx := { (put s f.d v).ctx with srseed := seed } } fl) 2) ∧
      (f.md ≠ 4 → seed = s.ctx.srseed) ∧ fl &&& ~~~0x7F = 0 ∧ (f.ty.toNat = 8 → v.toNat < 2 ^ 32) ∧
      (isNan = true → v = 0x7FC00000 ∧ fl = 0)

/-- R160: NOP writes nothing and advances RETIRED by one. R73: so does a hint other than number 0, in either length; its
number stands in its first parcel. Hint 0 in a helper does the same. -/
def Obligations.HintResults : Prop :=
  ∀ (s : State), exec .nop s = .next (retired s 1) ∧
    ((bits (s.ctx.ir.getD 0 0) 22 8 > 0xD0 ∨ s.ctx.slot ≠ 15) →
      exec .hint64 s = .next (retired s 2) ∧ exec .hint96 s = .next (retired s 3))

/-- R42: an instruction whose guard fails writes no register, predicate, mask, memory or engine state, advances ENGSEQ only
if it is engine-bound, and passes a strand destination's value on. -/
def Obligations.GuardedOff : Prop :=
  ∀ (i : Instr) (o : Off) (s : State), guarded i = some o → i.wellFormed = true → ¬ runs s o.p o.n →
    s.ctx.slot = 15 → s.k.window = none →
    exec i s = .next (skipped s o)

namespace Sys2Proof.Claims

/-- A transfer: its guard, length, whether it writes LR, and its target (R155 to R157). -/
structure Jump where
  p : BitVec 3 := 0
  n : Bool := false
  len : Nat
  link : Bool
  target : Word

/-- LR as a context reads it: s31 in a control context and s15 in a helper (R156). -/
def linkNo (s : State) : Nat := if s.ctx.slot = 15 then 31 else 15

/-- The unconditional transfers. -/
def jump (s : State) : Instr → Option Jump
  | .brJ32 f => some { len := 1, link := false, target := parcelsAfter s.ctx.pc f.off.toInt }
  | .brI64 f => some { p := f.p, n := f.n, len := 2, link := false, target := parcelsAfter s.ctx.pc f.imm.toInt }
  | .brW96 f => some { p := f.p, n := f.n, len := 3, link := false, target := parcelsAfter s.ctx.pc f.lit.toInt }
  | .callJ32 f => some { len := 1, link := true, target := parcelsAfter s.ctx.pc f.off.toInt }
  | .callI64 f => some { p := f.p, n := f.n, len := 2, link := true, target := parcelsAfter s.ctx.pc f.imm.toInt }
  | .callW96 f => some { p := f.p, n := f.n, len := 3, link := true, target := parcelsAfter s.ctx.pc f.lit.toInt }
  | .retA32 => some { len := 1, link := false, target := s.ctx.regs.getD (linkNo s) 0 }
  | .retG64 f => some { p := f.p, n := f.n, len := 2, link := false, target := s.ctx.regs.getD (linkNo s) 0 }
  | .bri f => some { p := f.p, n := f.n, len := 2, link := false, target := s.readOp f.a f.da }
  | .calli f => some { p := f.p, n := f.n, len := 2, link := true, target := s.readOp f.a f.da }
  | _ => none

/-- BRC: the guard, the length, the condition and its target (R156, R157). -/
def condJump (s : State) : Instr → Option (Jump × Bool)
  | .brcJ32 f => some ({ len := 1, link := false, target := parcelsAfter s.ctx.pc f.off.toInt }, pr s f.p.toNat != f.n)
  | .brcI64 f =>
    some ({ p := f.p, n := f.n, len := 2, link := false, target := parcelsAfter s.ctx.pc f.imm.toInt },
      pr s f.d.toNat != f.opt.getLsbD 0)
  | .brcW96 f =>
    some ({ p := f.p, n := f.n, len := 3, link := false, target := parcelsAfter s.ctx.pc f.lit.toInt },
      pr s f.d.toNat != f.opt.getLsbD 0)
  | _ => none

/-- A target that is no parcel, stands in a line word, or lies in an aperture (R158 step 1). -/
def badAddress (a : Word) : Prop := a.toNat % 4 ≠ 0 ∨ 60 ≤ a.toNat % 64 ∨ bits a 56 8 = 0x80 ∨ bits a 56 8 = 0x81

/-- A legal target: its line is read, which leaves `s1`, its TGT bit is set and an instruction begins there (R61, R158). -/
def legalTarget (s : State) (a : Word) (s1 : State) : Prop :=
  ¬ badAddress a ∧ ∃ text, s.lineAt a = .ok (text, s1) ∧ targetOk text (a.toNat % 64 / 4) = true

/-- A transfer's next state. -/
def went (s : State) (a : Word) : State :=
  { s with ctx := { s.ctx with pc := a, retired := s.ctx.retired + 1, hold := none, skipBp := false } }

/-- LR written (R157). -/
def linked (s : State) (lr : Nat) (v : Word) : State :=
  { s with ctx := { s.ctx with regs := s.ctx.regs.setIfInBounds lr v } }

/-- Where a transfer may issue: not BRI or CALLI in an open exchange window (R408), and no CALLI in a helper (R158). -/
def mayJump (s : State) (i : Instr) : Prop :=
  (s.ctx.slot = 15 → s.k.window = none) ∧ (∀ f, i = .calli f → s.ctx.slot = 15)

/-- A control context in which a trap finds a handler: HACT is clear, TRAPVEC names a legal target that can be fetched, no
loop is active, and its core traces nothing. -/
def hasHandler (s : State) : Prop :=
  s.ctx.slot = 15 ∧ s.k.trapcause.getLsbD 63 = false ∧ s.k.trapvec ≠ 0 ∧ ¬ badAddress s.k.trapvec ∧
  (∃ r, s.translateFetch s.myPart true s.k.trapvec = .ok r) ∧ s.k.loop.running = false ∧ s.hw.tracectl.getLsbD 0 = false

/-- Trap entry (R416): TRAPCAUSE with HACT, TRAPADDR, TRAPSEQ, TRAPPC, and PC at TRAPVEC. -/
def trapped (s : State) (cause : Nat) (addr pc : Word) : State :=
  { s with
    ctx := { s.ctx with pc := s.k.trapvec, hold := none, entry := false, skipBp := false }
    k := { s.k with
      trapcause := BitVec.ofNat 64 (2 ^ 63 + cause)
      trapaddr := addr
      trappc := pc
      trapseq := s.k.engseq.setWidth 64 } }

/-- RETIRED counts the instruction before its trap (R54). -/
def counted (s : State) : State := { s with ctx := { s.ctx with retired := s.ctx.retired + 1 } }

/-- A task has ended Faulted (R423, R424): its core is idle, and it leaves its scope with a fault record of the given cause
that is marked FINAL. -/
def endedWith (s t : State) (cause : Nat) : Prop :=
  t.ctx = {} ∧ t.k = {} ∧ t.coreNo = s.coreNo ∧
  ∃ c : Cmd, (Instr.memberLeave, c) ∈ t.inflight ∧ c.part = s.task.part ∧ c.unit = s.task.scope ∧ c.flag = true ∧
    ∃ r : Word512, c.bytes = bytesOfNat 64 r.toNat ∧ bits r 0 8 = cause ∧ r.getLsbD 19 = true

/-- System registers as a control context reads them (R54, R55, R289). -/
def sysValue (s : State) (n : Nat) : Word :=
  if n = 0x000 then BitVec.ofNat 64 (s.myPart * 2 ^ 32 + 15 * 2 ^ 28 + s.coreNo)
  else if n = 0x001 then s.cycle
  else if n = 0x002 then s.ctx.retired
  else if n = 0x003 then s.ctx.region
  else if n = 0x004 then s.k.engseq.setWidth 64
  else if n = 0x008 then s.k.heapbase
  else if n = 0x009 then s.k.heaplim
  else if n = 0x00A then s.k.heapoff
  else if n = 0x010 then s.k.trapcause
  else if n = 0x011 then s.k.trapaddr
  else if n = 0x012 then s.k.trapseq
  else if n = 0x013 then s.k.trappc
  else if n = 0x014 then s.k.trapvec
  else if n = 0x018 then s.ctx.fpflags
  else if n = 0x019 then s.ctx.srseed
  else if n = 0x030 then s.k.loop.stat
  else (s.k.chans.getD (n - 0x020) {}).wp

/-- A system register written (R54, R56, R415). -/
def sysWrite (s : State) (n : Nat) (v : Word) : State :=
  if n = 0x008 then { s with k := { s.k with heapbase := v } }
  else if n = 0x009 then { s with k := { s.k with heaplim := v } }
  else if n = 0x00A then { s with k := { s.k with heapoff := v } }
  else if n = 0x010 then { s with k := { s.k with trapcause := v &&& 0x800000000003FFFF } }
  else if n = 0x011 then { s with k := { s.k with trapaddr := v } }
  else if n = 0x012 then { s with k := { s.k with trapseq := v } }
  else if n = 0x013 then { s with k := { s.k with trappc := v } }
  else if n = 0x014 then { s with k := { s.k with trapvec := v } }
  else if n = 0x018 then { s with ctx := { s.ctx with fpflags := v &&& 0x7F } }
  else { s with ctx := { s.ctx with srseed := v } }

end Sys2Proof.Claims

/-- R155 to R158: BR, CALL, RET, BRI and CALLI go to their target once every check of it has passed, whose fetch is all
else they leave; a call writes LR with the parcel after itself. -/
def Obligations.Transfers : Prop :=
  ∀ (i : Instr) (j : Jump) (s s1 : State), jump s i = some j → runs s j.p j.n → mayJump s i → legalTarget s j.target s1 →
    exec i s =
      .next (went (if j.link then linked s1 (linkNo s) (parcelsAfter s.ctx.pc j.len) else s1) j.target)

/-- R156 to R158: BRC transfers when its condition holds, and otherwise goes on to the next instruction. -/
def Obligations.ConditionalTransfers : Prop :=
  ∀ (i : Instr) (j : Jump) (taken : Bool) (s : State), condJump s i = some (j, taken) → runs s j.p j.n →
    mayJump s i →
    (taken = true → ∀ s1, legalTarget s j.target s1 → exec i s = .next (went s1 j.target)) ∧
    (taken = false → exec i s = .next (retired s j.len))

/-- R158: a transfer to an address that no transfer may reach raises the bad-branch-target trap with the target in TRAPADDR,
before anything is written; so does a target whose fetch traps, with the fetch's cause. -/
def Obligations.BadTargets : Prop :=
  ∀ (i : Instr) (j : Jump) (s : State), jump s i = some j → runs s j.p j.n → mayJump s i → hasHandler s →
    (badAddress j.target → exec i s = .next (trapped s 3 j.target s.ctx.pc)) ∧
    (∀ text s1, s.lineAt j.target = .ok (text, s1) → targetOk text (j.target.toNat % 64 / 4) = false →
      exec i s = .next (trapped s 3 j.target s.ctx.pc)) ∧
    (∀ cause addr detail, s.lineAt j.target = .error (.trap cause addr detail) → cause < 19 → ¬ badAddress j.target →
      exec i s = .next (trapped s cause j.target s.ctx.pc))

/-- R434 and R416: TRAP takes cause 20 with its immediate, BKPT cause 21 with its code; each counts as retired and names the
parcel after it. -/
def Obligations.TrapInstructions : Prop :=
  ∀ (s : State), hasHandler (counted s) → s.k.window = none →
    (∀ f : I64, runs s f.p f.n →
      exec (.trapI64 f) s = .next (trapped (counted s) 20 (f.imm.signExtend 64) (parcelsAfter s.ctx.pc 2))) ∧
    (∀ f : W96, runs s f.p f.n →
      exec (.trapW96 f) s = .next (trapped (counted s) 20 (f.lit.signExtend 64) (parcelsAfter s.ctx.pc 3))) ∧
    (∀ f : G64, runs s f.p f.n →
      exec (.bkpt f) s = .next (trapped (counted s) 21 (f.a.setWidth 64) (parcelsAfter s.ctx.pc 2)))

/-- R72: an instruction in a reserved major raises the reserved-opcode trap, cause 2, with TRAPADDR the parcel after it. -/
def Obligations.ReservedOpcode : Prop :=
  ∀ (s : State), hasHandler s →
    exec .reservedOpcodeTrap s =
      .next (trapped s 2 (parcelsAfter s.ctx.pc (parcelCount (s.ctx.ir.getD 0 0))) s.ctx.pc)

/-- R434: ERET returns to TRAPPC and clears HACT, outside every loop; without HACT it is illegal. -/
def Obligations.TrapReturn : Prop :=
  (∀ (f : G64) (s : State), runs s f.p f.n → s.ctx.slot = 15 → s.k.window = none →
    s.k.trapcause.getLsbD 63 = true → ¬ badAddress s.k.trappc → s.k.loop.inner = none → s.k.loop.outer = none →
    exec (.eret f) s = .next { s with
      ctx := { s.ctx with pc := s.k.trappc, retired := s.ctx.retired + 1, hold := none, skipBp := true }
      k := { s.k with trapcause := s.k.trapcause &&& ~~~(1#64 <<< 63) } }) ∧
  (∀ (f : G64) (s : State), runs s f.p f.n → s.k.window = none → hasHandler s →
    exec (.eret f) s = .next (trapped s 1 0 s.ctx.pc))

/-- R416, R423 and R424: HALT ends the task with cause 25, a trap without a handler with its own cause, and a trap while HACT is set with
cause 22. -/
def Obligations.TaskEnds : Prop :=
  ∀ (f : G64) (s : State), runs s f.p f.n → s.ctx.slot = 15 → s.k.window = none →
    (∃ t, exec (.halt f) s = .next t ∧ endedWith s t 25) ∧
    (s.k.trapcause.getLsbD 63 = true → ∃ t, exec (.bkpt f) s = .next t ∧ endedWith s t 22) ∧
    (s.k.trapcause.getLsbD 63 = false → s.k.trapvec = 0 → ∃ t, exec (.bkpt f) s = .next t ∧ endedWith s t 21)

/-- R54 and R55: SYSRD reads a listed system register into its destination. -/
def Obligations.SystemReads : Prop :=
  ∀ (f : SysForm) (s : State), (Instr.sysrd f).wellFormed = true → runs s f.p f.n → s.ctx.slot = 15 →
    s.k.window = none →
    exec (.sysrd f) s = .next (retired (put s f.d (sysValue s f.imm.toNat)) (if f.wide then 3 else 2))

/-- R54, R56 and R415: SYSWR writes a system register; a HEAP register refuses a value with a bit below bit 16, as an illegal
instruction. -/
def Obligations.SystemWrites : Prop :=
  ∀ (f : SysForm) (s : State), (Instr.syswr f).wellFormed = true → runs s f.p f.n → s.ctx.slot = 15 →
    s.k.window = none →
    let v := s.readOp f.a f.da
    let heap := f.imm.toNat = 0x008 ∨ f.imm.toNat = 0x009 ∨ f.imm.toNat = 0x00A
    ((heap → bits v 0 16 = 0) → exec (.syswr f) s = .next (retired (sysWrite s f.imm.toNat v) (if f.wide then 3 else 2))) ∧
    (heap → bits v 0 16 ≠ 0 → hasHandler s → exec (.syswr f) s = .next (trapped s 1 0 s.ctx.pc))

namespace Sys2Proof.Claims

/-- No exchange window stands in the way of an instruction that may not issue in one (R408). -/
def calm (s : State) : Prop := s.ctx.slot = 15 → s.k.window = none

/-- A control context outside every exchange window. -/
def plain (s : State) : Prop := s.ctx.slot = 15 ∧ s.k.window = none

/-- No loop body is being executed by the context in focus, and none is suspended. -/
def noLoop (s : State) : Prop := s.ctx.slot = 15 → s.k.loop.inner = none ∧ s.k.loop.outer = none

/-- Every memory is in its canonical form. -/
def tidy (s : State) : Prop := s.mem.wf = true ∧ s.clusterMem.wf = true ∧ s.k.localMem.wf = true

/-- A release at scope .sys may complete (R374): notices have arrived everywhere, and the context's accesses are performed. -/
def released (s : State) : Prop := s.noticesOut = false ∧ s.accessesDone = true

/-- What no access to memory changes: the registers of the context in focus, and those of its core with the tensor table,
the masks, the array, and what is not a message between units or on its way to an engine. -/
def ctxView (s : State) : Ctx :=
  { s.ctx with pc := 0, retired := 0, hold := none, skipBp := false, tag := none, tagAsked := false, nt := [] }
def unheld (l : LoopLevel) : LoopLevel := { l with held := [] }
def kernView (s : State) : Kern :=
  { s.k with
    localMem := []
    chans := s.k.chans.map (fun c => { c with queue := [] })
    unreleased := s.k.unreleased.map (fun u => { u with work := .skipped })
    loop := { s.k.loop with outer := s.k.loop.outer.map unheld, inner := s.k.loop.inner.map unheld } }
def sameRegs (s u : State) : Prop := ctxView u = ctxView s ∧ kernView u = kernView s ∧ u.coreNo = s.coreNo

/-- No byte of an STNT of the context waits at a line where other requests wait (R384). -/
abbrev ntFree (s : State) : Prop := s.ntBlocked = false

/-- `x` is the number whose `n` bytes, the least significant first, are the given ones (R10). -/
def spells (x n : Nat) (byte : Nat → Byte) : Prop := x < 256 ^ n ∧ ∀ i, i < n → x / 256 ^ i % 256 = (byte i).toNat

/-- A loaded value: extended by the type's signedness; floating types load raw bits (R134). -/
def loaded (ty : BitVec 4) (x : Nat) : Word :=
  if ty.toNat < 4 then (BitVec.ofNat (width ty) x).signExtend 64 else BitVec.ofNat 64 x

/-- The loads: fields, effective address, and whether it is an acquire (R134, R136). -/
def loading (s : State) : Instr → Option (Form × Word × Bool)
  | .ldI32 f => some (formI32 3 f, s.readOp f.a 0 + f.imm.signExtend 64, false)
  | .ldI64 f => some (formI f, s.readOp f.a f.da + f.imm.signExtend 64, false)
  | .ldW96 f => some (formW f, s.readOp f.a f.da + f.lit.signExtend 64, false)
  | .ldx f => some (formG f, s.readOp f.a f.da + BitVec.ofNat 64 (size f.ty) * s.readOp f.b f.db, false)
  | .ldacqI64 f => some (formI f, s.readOp f.a f.da + f.imm.signExtend 64, true)
  | .ldacqW96 f => some (formW f, s.readOp f.a f.da + f.lit.signExtend 64, true)
  | _ => none

/-- How a store is made: at once, non-temporal, or as a release (R134 to R136). -/
inductive StoreKind where
  | plain | nontemporal | release
  deriving DecidableEq, Repr

/-- The stores: fields, effective address, the operand whose low bytes are stored, and their kind. -/
def storing (s : State) : Instr → Option (Form × Word × Word × StoreKind)
  | .stI32 f => some (formI32 3 f, s.readOp f.d 0 + f.imm.signExtend 64, s.readOp f.a 0, .plain)
  | .stI64 f => some (formI f, s.readOp f.d 0 + f.imm.signExtend 64, s.readOp f.a f.da, .plain)
  | .stW96 f => some (formW f, s.readOp f.d 0 + f.lit.signExtend 64, s.readOp f.a f.da, .plain)
  | .stx f =>
    some (formG f, s.readOp f.a f.da + BitVec.ofNat 64 (size f.ty) * s.readOp f.b f.db, s.readOp f.c f.dc, .plain)
  | .stntI64 f => some (formI f, s.readOp f.d 0 + f.imm.signExtend 64, s.readOp f.a f.da, .nontemporal)
  | .stntW96 f => some (formW f, s.readOp f.d 0 + f.lit.signExtend 64, s.readOp f.a f.da, .nontemporal)
  | .strelI64 f => some (formI f, s.readOp f.d 0 + f.imm.signExtend 64, s.readOp f.a f.da, .release)
  | .strelW96 f => some (formW f, s.readOp f.d 0 + f.lit.signExtend 64, s.readOp f.a f.da, .release)
  | _ => none

/-- Where a load or store may stand: an exchange window admits LD, LDX, ST and STX of local memory only (R408). -/
def mayAccess (s : State) (i : Instr) (ea : Word) : Prop :=
  calm s ∨ (bits ea 56 8 = 0x80 ∧ match i with
    | .ldI32 _ | .ldI64 _ | .ldW96 _ | .ldx _ | .stI32 _ | .stI64 _ | .stW96 _ | .stx _ => True
    | _ => False)

/-- Bytes of memory as the context reads them, after `n` bytes of `v` have been stored at an address of a space. -/
def storedBytes (s u : State) (t : Target) (n v : Nat) : Prop :=
  ∀ (sp : Space) (a : Nat), u.seenByte sp a =
    if sp = t.space ∧ t.addr ≤ a ∧ a < t.addr + n then BitVec.ofNat 8 (v / 256 ^ (a - t.addr)) else s.seenByte sp a

/-- The instruction has retired, `len` parcels long. -/
def retiredAs (s u : State) (len : Nat) : Prop :=
  u.ctx.pc = parcelsAfter s.ctx.pc len ∧ u.ctx.retired = s.ctx.retired + 1 ∧ u.ctx.hold = none

/-- A field of a tensor entry by its number: first bit, width, and whether it is signed (R139). -/
def tensorPart (c : Nat) : Nat × Nat × Bool :=
  [(0, 64, false), (64, 48, false), (112, 4, false), (116, 2, false), (118, 2, false), (128, 48, true), (176, 48, true),
   (256, 24, false), (280, 24, false), (304, 24, false), (328, 24, false), (352, 3, false), (356, 4, false),
   (360, 4, false), (364, 8, true), (372, 7, false), (379, 1, false)].getD c (379, 1, false)

/-- A field as TGET delivers it. -/
def fieldWord (e : Word512) (c : Nat) : Word :=
  let p := tensorPart c
  let x : BitVec 512 := (e >>> p.1) &&& BitVec.ofNat 512 (2 ^ p.2.1 - 1)
  if p.2.2 && x.getLsbD (p.2.1 - 1) then x.setWidth 64 - BitVec.ofNat 64 (2 ^ p.2.1) else x.setWidth 64

/-- A value that a field takes (R139): it fits, and it is no reserved value and no SIZE of 0. -/
def fieldTakes (c : Nat) (v : Word) : Prop :=
  (c = 0 ∨ (if (tensorPart c).2.2 then
      -(2 ^ ((tensorPart c).2.1 - 1) : Int) ≤ v.toInt ∧ v.toInt < 2 ^ ((tensorPart c).2.1 - 1)
    else v.toNat < 2 ^ (tensorPart c).2.1)) ∧
  (c = 2 → v.toNat < 14) ∧ (c = 3 ∨ c = 4 → v.toNat ≠ 3) ∧ (7 ≤ c ∧ c ≤ 10 → v.toNat ≠ 0) ∧ (c = 11 → v.toNat < 5) ∧
  (c = 12 ∨ c = 13 → v.toNat < 9)

/-- An entry with a field replaced. -/
def withField (e : Word512) (c : Nat) (v : Word) : Word512 :=
  let p := tensorPart c
  let mask : Word512 := BitVec.ofNat 512 (2 ^ p.2.1 - 1) <<< p.1
  (e &&& ~~~mask) ||| ((v.setWidth 512 <<< p.1) &&& mask)

/-- The atomics by their function number in R387. -/
def atomicFn : Instr → Option (G64 × Nat)
  | .aadd f => some (f, 0) | .afadd f => some (f, 1) | .amin f => some (f, 2) | .amax f => some (f, 3)
  | .aand f => some (f, 4) | .aor f => some (f, 5) | .axor f => some (f, 6) | .axchg f => some (f, 7)
  | .acas f => some (f, 8)
  | _ => none

/-- What an atomic writes, if it writes, and the flags it sets (R387): old value, operand, and expected value as patterns of
`8 n` bits. -/
def atomicWrites (fn : Nat) (f : G64) (n old b e : Nat) (new : Option Nat) (fl : Word) : Prop :=
  let x := val f.ty (BitVec.ofNat 64 old)
  let y := val f.ty (BitVec.ofNat 64 b)
  match fn with
  | 0 => new = some ((written f.ty f.sat (x + y)).toNat % 256 ^ n) ∧ fl = clampFlag f.ty f.sat (x + y)
  | 1 => (∃ v, v < 256 ^ n ∧ new = some v) ∧ fl &&& ~~~0x7F = 0
  | 2 => new = some (if y < x then b else old) ∧ fl = 0
  | 3 => new = some (if x < y then b else old) ∧ fl = 0
  | 4 => new = some (old &&& b) ∧ fl = 0
  | 5 => new = some (old ||| b) ∧ fl = 0
  | 6 => new = some (old ^^^ b) ∧ fl = 0
  | 7 => new = some b ∧ fl = 0
  | _ => new = (if old = e then some b else none) ∧ fl = 0

end Sys2Proof.Claims

/-- R128, R131, R248: an address whose top byte is 80 hex lies in local memory and one with 81 hex in the cluster memory of
the core's cluster; an access that runs past either's end traps with its own cause; and a global address is canonical. An access to
local bytes that unfinished engine work holds waits (log 21, DEDUCED from R131), and one to a line of cluster memory that others
wait for takes its turn (R384, log 34). -/
def Obligations.Apertures : Prop :=
  ∀ (s : State) (path : Path) (va : Word) (n : Nat) (w r at' : Bool),
    let off := va.toNat % 2 ^ 56
    (bits va 56 8 = 0x80 → off + n ≤ 0xC0000 → s.mvuBusy off n = false →
      s.lsTarget path va n w r at' = .ok ({ space := .localMem, addr := off }, s)) ∧
    (bits va 56 8 = 0x80 → 0xC0000 < off + n → s.lsTarget path va n w r at' = .error (.trap 5 va 0)) ∧
    (bits va 56 8 = 0x80 → off + n ≤ 0xC0000 → s.mvuBusy off n = true → s.lsTarget path va n w r at' = .error (.hold .operand)) ∧
    (bits va 56 8 = 0x81 → off + n ≤ 0x800000 →
      let line := 2 ^ 46 + (s.coreNo / 16 * 0x800000 + off) / 64
      (s.lineBusy path (s.coreNo / 16) line = false →
        s.lsTarget path va n w r at' = .ok ({ space := .clusterMem, addr := s.coreNo / 16 * 0x800000 + off }, s)) ∧
      (s.lineBusy path (s.coreNo / 16) line = true → s.lsTarget path va n w r at' = .error (s.lineTurn line path))) ∧
    (bits va 56 8 = 0x81 → 0x800000 < off + n → s.lsTarget path va n w r at' = .error (.trap 6 va 0)) ∧
    (bits va 56 8 ≠ 0x80 → bits va 56 8 ≠ 0x81 → bits va 56 8 ≠ 0 → bits va 56 8 ≠ 0xFF →
      s.lsTarget path va n w r at' = .error (.trap 7 va 0))

/-- The translation of an access changes no register of the core, and no memory beside: the model leaves the leaf of a
page-out that it abandons (R257) and the records of errors (R456) to it. -/
def Obligations.AccessFrame : Prop :=
  ∀ (s s1 : State) (path : Path) (va : Word) (n : Nat) (w r at' : Bool) (t : Target),
    s.lsTarget path va n w r at' = .ok (t, s1) →
    sameRegs s s1 ∧ s1.ctx.pc = s.ctx.pc ∧ s1.ctx.retired = s.ctx.retired ∧ s1.ctx.hold = s.ctx.hold ∧
    s1.ctx.nt = s.ctx.nt ∧ s1.k.loop = s.k.loop ∧ s1.k.localMem = s.k.localMem ∧ s1.clusterMem = s.clusterMem ∧
    ((∀ l, (s.page l).stage ≠ .pageOut) → s.recBlocks.length < 294912 → s1.mem = s.mem)

/-- R134 and R136: a load delivers the bytes at its address, as the context sees them, extended by the type; LDACQ ends the
region. Only the destination is written. -/
def Obligations.Loads : Prop :=
  ∀ (i : Instr) (f : Form) (ea : Word) (acq : Bool) (s s1 s2 : State) (t : Target),
    loading s i = some (f, ea, acq) → i.wellFormed = true → runs s f.p f.n → mayAccess s i ea →
    (acq = true → s.ctx.slot = 15 → s.k.loop.running = false) → ea.toNat % size f.ty = 0 →
    s.lsTarget .ls ea (size f.ty) false false acq = .ok (t, s1) → s1.logRead t ea = .ok s2 →
    ∃ x, spells x (size f.ty) (fun k => s2.seenByte t.space (t.addr + k)) ∧
      let r := put (s2.noteNear f.opt t) f.d (loaded f.ty x)
      exec i s = .next (retired (if acq then r.endRegion else r) f.len)

/-- R134 to R136: a store writes the low bytes of its operand at its address and no other byte, and changes no register;
STREL ends the region. -/
def Obligations.Stores : Prop :=
  ∀ (i : Instr) (f : Form) (ea v : Word) (kind : StoreKind) (s s1 : State) (t : Target),
    storing s i = some (f, ea, v, kind) → i.wellFormed = true → runs s f.p f.n → mayAccess s i ea →
    (kind = .release → (s.ctx.slot = 15 → s.k.loop.running = false) ∧ (f.md = 5 → released s)) →
    ea.toNat % size f.ty = 0 → s.lsTarget .ls ea (size f.ty) true true (kind = .release) = .ok (t, s1) → tidy s1 → ntFree s1 →
    (s1.k.loop.susp = false ∨ noLoop s1) →
    ∃ u, exec i s = .next u ∧ sameRegs (if kind = .release then s1.endRegion else s1) u ∧ retiredAs s1 u f.len ∧
      storedBytes s1 u t (size f.ty) v.toNat

/-- R134, R137 (order 1) and, for the atomics, R387: a load, store or atomic whose address is no multiple of its size takes the
misaligned trap, cause 4, with the address in TRAPADDR, and changes nothing else. -/
def Obligations.Misaligned : Prop :=
  ∀ (i : Instr) (s : State), i.wellFormed = true → plain s → hasHandler s →
    (∀ f ea acq, loading s i = some (f, ea, acq) → runs s f.p f.n → ea.toNat % size f.ty ≠ 0 →
      exec i s = .next (trapped s 4 ea s.ctx.pc)) ∧
    (∀ f ea v kind, storing s i = some (f, ea, v, kind) → runs s f.p f.n → ea.toNat % size f.ty ≠ 0 →
      (f.md = 5 → released s) → exec i s = .next (trapped s 4 ea s.ctx.pc)) ∧
    (∀ f fn, atomicFn i = some (f, fn) → runs s f.p f.n → (s.readOp f.a f.da).toNat % size f.ty ≠ 0 →
      exec i s = .next (trapped s 4 (s.readOp f.a f.da) s.ctx.pc))

/-- R77 and R78: LDV makes 32 loads and then one write of 256 bytes of local memory; a bad global address traps as
misaligned and a bad local one as a local-memory fault. -/
def Obligations.VectorLoads : Prop :=
  ∀ (i : Instr) (f : Form) (s : State), (∃ g, i = .ldvI64 g ∧ f = formI g) ∨ (∃ g, i = .ldvW96 g ∧ f = formW g) →
    runs s f.p f.n → plain s → s.k.loop.running = false →
    let ga := s.readOp f.a f.da + f.imm
    let la := s.readOp f.d 0
    (ga.toNat % 8 = 0 → la.toNat % 8 = 0 → la.toNat + 256 ≤ 0xC0000 → s.mvuBusy la.toNat 256 = false →
      ∀ x s1, s.lsWords ga f.opt 32 = .ok (x, s1) → s1.k.localMem.wf = true →
      ∃ m : Mem, exec i s = .next (retired { s1 with k := { s1.k with localMem := m } } f.len) ∧ m.wf = true ∧
        ∀ a, Mem.get m a = if la.toNat ≤ a ∧ a < la.toNat + 256 then BitVec.ofNat 8 (x / 256 ^ (a - la.toNat))
          else Mem.get s1.k.localMem a) ∧
    (hasHandler s → ga.toNat % 8 ≠ 0 → exec i s = .next (trapped s 4 ga s.ctx.pc)) ∧
    (hasHandler s → ga.toNat % 8 = 0 → (la.toNat % 8 ≠ 0 ∨ 0xC0000 < la.toNat + 256) →
      exec i s = .next (trapped s 5 la s.ctx.pc))

/-- R138 and R139: TGET reads a field of a tensor entry and TSET replaces one, refusing a value that it does not take with
the tensor-record trap, cause 11; TDEF replaces the entry with the image that eight loads deliver, or traps. -/
def Obligations.TensorTable : Prop :=
  (∀ (f : G64) (s : State), (Instr.tget f).wellFormed = true → runs s f.p f.n →
    (f.c.toNat = 16 → s.zsOwed f.a.toNat = false) →
    exec (.tget f) s = .next (retired (put s f.d (fieldWord (s.k.tens.getD f.a.toNat 0) f.c.toNat)) 2)) ∧
  (∀ (f : G64) (s : State), (Instr.tset f).wellFormed = true → runs s f.p f.n → plain s →
    s.updateOwed f.d.toNat = false →
    let v := s.readOp f.a f.da
    (fieldTakes f.c.toNat v →
      exec (.tset f) s = .next (retired { s with k := { s.k with
        tens := s.k.tens.setIfInBounds f.d.toNat (withField (s.k.tens.getD f.d.toNat 0) f.c.toNat v) } } 2)) ∧
    (¬ fieldTakes f.c.toNat v → hasHandler s → exec (.tset f) s = .next (trapped s 11 0 s.ctx.pc))) ∧
  (∀ (f : G64) (s s1 : State) (x : Nat), runs s f.p f.n → plain s → s.updateOwed f.d.toNat = false →
    let ea := s.readOp f.a f.da
    ea.toNat % 64 = 0 → s.lsWords ea f.opt 8 = .ok (x, s1) →
    let img : Word512 := BitVec.ofNat 512 x
    (entryRefused img = false →
      exec (.tdef f) s = .next (retired { s1 with k := { s1.k with tens := s1.k.tens.setIfInBounds f.d.toNat img } } 2)) ∧
    (entryRefused img = true → hasHandler s → exec (.tdef f) s = .next (trapped s 11 ea s.ctx.pc)))

/-- R387 and R388: an atomic delivers the old value extended by its type, writes the new one where its row writes, sets
only the flags of its row, and ends the region by its class; no other byte of memory and no other register changes. -/
def Obligations.Atomics : Prop :=
  ∀ (i : Instr) (f : G64) (fn : Nat) (s s0 : State) (t : Target) (old : Nat),
    atomicFn i = some (f, fn) → i.wellFormed = true → runs s f.p f.n → calm s →
    (s.ctx.slot = 15 → s.k.loop.running = false) →
    let ea := s.readOp f.a f.da
    let n := size f.ty
    ea.toNat % n = 0 → (2 ≤ f.c.toNat → f.md = 5 → released s) →
    s.lsTarget .at ea n true true true = .ok (t, s0) → spells old n (fun k => s.seenByte t.space (t.addr + k)) →
    ∃ (new : Option Nat) (fl : Word),
      atomicWrites fn f n old ((s.readOp f.b f.db).toNat % 256 ^ n) ((s.readOp f.d 0).toNat % 256 ^ n) new fl ∧
      ∀ (t' : Target) (s1 s2 : State), s.lsTarget .at ea n true new.isSome true = .ok (t', s1) →
        s1.logReadFrom (s.outside t) t ea = .ok s2 → tidy s2 → ntFree s2 → noLoop s2 →
        ∃ u, exec i s = .next u ∧
          (let r := put (flagged s2 fl) f.d (loaded f.ty old)
           sameRegs (if f.c = 0 then r else r.endRegion) u) ∧ retiredAs s2 u 2 ∧
          (∀ v, new = some v → storedBytes s2 u t n v) ∧ (new = none → ∀ sp a, u.seenByte sp a = s2.seenByte sp a)

/-- R379 to R381 and R325: FENCE ends the region except at .ctx; XFENCE waits for its path; NTDRAIN performs the context's
STNT bytes in their order, and waits while one of them waits at a line (R384); MWAIT waits until at most N entries remain, those
of its own body that are on their way among them (R280). That a narrower FENCE completes at once, and XFENCE waits for engines and its
own STNT bytes alone, is log 5 (DESIGN CHOICE). -/
def Obligations.Fences : Prop :=
  ∀ (f : G64) (s : State), runs s f.p f.n → calm s →
    ((s.ctx.slot = 15 → s.k.loop.running = false) →
      ((f.md = 5 → released s) → exec (.fence f) s = .next (retired (if f.md = 0 then s else s.endRegion) 2)) ∧
      (f.md = 5 → ¬ released s → exec (.fence f) s = .next { s with ctx := { s.ctx with hold := some .condition } })) ∧
    ((s.ctx.slot = 15 → s.k.loop.running = false) →
      exec (.xfence f) s =
        .next (if s.pathDone f.a.toNat f.md = true ∧ (f.a = 5 → f.md = 5 → ntFree s) then
            retired (if f.a = 5 ∧ f.md = 5 then s.drainNt else s) 2
          else { s with ctx := { s.ctx with hold := some .condition } })) ∧
    ((s.ctx.slot = 15 → s.k.loop.running = false) → ¬ ntFree s →
      exec (.ntdrain f) s = .next { s with ctx := { s.ctx with hold := some .condition } }) ∧
    ((s.ctx.slot = 15 → s.k.loop.running = false) → tidy s → ntFree s → ∃ u, exec (.ntdrain f) s = .next u ∧ sameRegs s u ∧
      retiredAs s u 2 ∧ u.ctx.nt = [] ∧ tidy u ∧
      ∀ sp a, u.byteAt sp a =
        match s.ctx.nt.reverse.find? (fun h => h.space == sp && h.addr == a) with
        | some h => h.byte
        | none => s.byteAt sp a) ∧
    (s.ctx.slot = 15 →
      exec (.mwait f) s =
        .next (if s.k.mvuq.length + s.ownHeld ≤ f.c.toNat then retired s 2
          else { s with ctx := { s.ctx with hold := some .condition } }))

namespace Sys2Proof.Claims

/-- The engine-bound instruction has its number (R14). -/
def numbered (s : State) : State := { s with k := { s.k with engseq := s.k.engseq + 1 } }

/-- The instruction waits, and nothing else has happened. -/
def waits (s : State) : State := { s with ctx := { s.ctx with hold := some .condition } }

/-- A failure's result word (R218). -/
def failure (code : Nat) : Word := BitVec.ofNat 64 (2 ^ 31 + code)

/-- The headers of loops: fields, whether the loop has two levels, and the offset of its closing IRET. -/
def heading : Instr → Option (Form × Bool × Int)
  | .loopI64 f => some (formI f, false, f.imm.toInt)
  | .loopW96 f => some (formW f, false, f.lit.toInt)
  | .loopoI64 f => some (formI f, true, f.imm.toInt)
  | .loopoW96 f => some (formW f, true, f.lit.toInt)
  | _ => none

/-- A header's numbers, as the capture takes them. -/
def headerOf (s : State) (f : Form) (off : Int) : Header :=
  { idx := parcelIndex s.ctx.pc, len := f.len, last := ((parcelIndex s.ctx.pc : Int) + off).toNat, depth := f.d.toNat,
    count := (f.a, f.da) }

/-- The level that a header opens (R264, R268 to R273). -/
def newLevel (pc : Word) (s : State) (f : Form) (off : Int) (exit : Word) (set : BitVec 32) (reach : Nat) : LoopLevel :=
  { bodyPc := parcelsAfter pc f.len
    iretPc := parcelsAfter pc off
    exitPc := exit
    count := bits (s.readOp f.a f.da) 0 24
    depth := f.d.toNat
    reach := reach
    set := set
    entryPreds := s.ctx.preds
    lastPreds := s.ctx.preds }

/-- The loop is entered, or left at once where its count is zero. -/
def entered (s : State) (text : Tbl Parcel) (lv : LoopLevel) (outer : Bool) : State :=
  if lv.count = 0 then went s lv.exitPc
  else
    let t := went s lv.bodyPc
    let l := t.k.loop
    { t with k := { t.k with
      loop := if outer then { l with text := text, outer := some lv } else { l with text := text, inner := some lv } } }

/-- The level in progress changed. -/
def onLevel (s : State) (f : LoopLevel → LoopLevel) : State :=
  { s with k := { s.k with loop := match s.k.loop.inner with
    | some l => { s.k.loop with inner := some (f l) }
    | none => { s.k.loop with outer := s.k.loop.outer.map f } } }

/-- A KPOP that has not retired, or a TIERIN that is still held, owes strand `g` its bead (R269, R334, R341). -/
def owed (s : State) (g : Nat) : Bool :=
  s.k.owedDests.any (fun d => d.toNat == 32 + g) || s.k.posted.any (fun e => match e.instr with | .kpop f => !e.squashed && f.d.toNat == 32 + g | _ => false)

/-- BEADQ's word (R291): the iteration that the read names, and 0 bead complete, 1 not yet, 2 from before the level, 3 set to 0
by a level's end; of a strand outside the set, the history is that of the level's entry (R269). -/
def beadWord (s : State) (g d : Nat) : Word :=
  let st := s.frozen g
  let old := fun (n : Nat) => if (st.hist.getD n {}).cleared then 3 else 2
  let word := fun (k : Int) (state : Nat) => BitVec.ofInt 64 (k % 2 ^ 32 * 2 ^ 32 + state)
  match s.k.loop.owner g with
  | some lv =>
    word (lv.iter - d)
      (if d ≤ lv.iter then (if d = 0 ∧ (st.cur = none ∨ owed s g = true) then 1 else 0)
       else old (d - 1))
  | none => word (-(d + 1)) (old d)

/-- A strand of a level whose iteration retires: its bead joins the history, and where none was written the value at distance
1 stands for it (R271). -/
def grown (st : Strand) : Strand :=
  let b : Bead := { value := match st.cur with | some v => v | none => (st.hist.getD 0 {}).value }
  { hist := #v[b, st.hist.getD 0 {}, st.hist.getD 1 {}, st.hist.getD 2 {}, st.hist.getD 3 {}, st.hist.getD 4 {},
      st.hist.getD 5 {}, st.hist.getD 6 {}], cur := none }

/-- A strand at the end of its level: beads beyond the reach are 0 (R272). -/
def trimmed (st : Strand) (reach : Nat) : Strand :=
  { hist := Vector.ofFn (fun i : Fin 8 => if i.val ≤ reach then st.hist.getD i.val {} else { value := 0, cleared := true }),
    cur := none }

/-- The strands of a set changed, and no other. -/
def strandsBy (s u : State) (set : BitVec 32) (f : Strand → Strand) : Prop :=
  ∀ g, g < 32 → u.k.strands.getD g {} = if set.getLsbD g then f (s.k.strands.getD g {}) else s.k.strands.getD g {}

/-- A helper as it starts (R234): the parent's first sixteen registers and its predicates. -/
def helperBorn (s : State) (n : Nat) (entry : Word) : Ctx :=
  { slot := n
    live := true
    pc := entry
    regs := Vector.ofFn (fun i : Fin 32 => if i.val < 16 then s.ctx.regs.getD i.val 0 else 0)
    preds := s.ctx.preds
    srseed := Config.helperSeed s.free
    startPc := s.ctx.pc
    startSeq := s.k.engseq + 1
    regionAt := s.names }

/-- What a loop of one level has issued and not yet released is that of a retired iteration (R279, R287). -/
def issuedBefore (s : State) : List Unreleased :=
  s.k.unreleased.map (fun u => if u.outer = false then { u with retired := true } else u)

end Sys2Proof.Claims

/-- R264 to R270 and R283: a header whose body is captured and passes its checks opens its level and goes on at the first
parcel of the body, or at the exit target where the count is zero; an inner LOOP of a captured body starts an instance
without a fetch, with the strand set, the reach and the exit of its part of that body, and goes on behind its closing IRET where
its count is zero. -/
def Obligations.LoopHeaders : Prop :=
  ∀ (i : Instr) (f : Form) (two : Bool) (off : Int) (s : State), heading i = some (f, two, off) → runs s f.p f.n → plain s →
    (∀ body s1, (two = true ∨ s.k.loop.running = false ∨ s.k.loop.inner ≠ none) →
      s.capture (headerOf s f off) off two = .ok (body, s1) → s1.k.loop.inner = none → s1.k.loop.outer = none →
      let exit := parcelAddr (exitOf body : Nat)
      (∀ set reach, two = false → checkSingle body f.d.toNat = some (set, reach) →
        exec i s = .next (entered s1 (textOf body) (newLevel s.ctx.pc s1 f off exit set reach) false)) ∧
      (∀ sp set reach, two = true → splitBody body = some sp → checkDouble body sp f.d.toNat = some (set, reach) →
        exec i s = .next (entered s1 (textOf body) (newLevel s.ctx.pc s1 f off exit set reach) true))) ∧
    (∀ (s0 s1 : State) (h : Header) (far : Int) (body : List BodyInstr) (sp : Split) (found : BitVec 32 × Nat),
      two = false → s.k.loop.running = true → s.k.loop.inner = none →
      s0.capture h far true = .ok (body, s1) → splitBody body = some sp → checkDouble body sp h.depth = some found →
      s.k.loop.text = textOf body → sp.inner = headerOf s f off → 0 < off →
      let set := strandSet sp.body
      exec i s = .next (entered s (textOf body)
        (newLevel s.ctx.pc s f off (parcelAddr (exitOf sp.body : Nat)) set (reachOf set sp.body)) false))

/-- R290, R282 and R291: IRET completes the iteration in progress; BREAKC completes it as the last where its condition holds;
each is illegal outside a body. BEADQ reports the state of a bead. Iterations run one at a time (log 18, DEDUCED from R277): a read
of an earlier iteration finds its bead complete, and the first write completes the own one. -/
def Obligations.LoopInstructions : Prop :=
  (∀ s : State, s.ctx.slot = 15 → s.k.window = none → s.k.loop.running = true →
    exec .iretA32 s = .next (retired (onLevel s (fun l => { l with phase := .complete })) 1) ∧
    exec .iretG64 s = .next (retired (onLevel s (fun l => { l with phase := .complete })) 2)) ∧
  (∀ s : State, plain s → hasHandler s → exec .iretA32 s = .next (trapped s 1 0 s.ctx.pc) ∧
    exec .iretG64 s = .next (trapped s 1 0 s.ctx.pc)) ∧
  (∀ (f : G64) (s : State), runs s f.p f.n → plain s → s.k.loop.running = true →
    exec (.breakc f) s =
      .next (retired (if pr s f.d.toNat != f.opt.getLsbD 0
        then onLevel s (fun l => { l with phase := .complete, broke := true }) else s) 2)) ∧
  (∀ (f : G64) (s : State), runs s f.p f.n → plain s → hasHandler s →
    exec (.breakc f) s = .next (trapped s 1 0 s.ctx.pc)) ∧
  (∀ (f : G64) (s : State), (Instr.beadq f).wellFormed = true → runs s f.p f.n →
    exec (.beadq f) s = .next (retired (put s f.d (beadWord s (f.a.toNat - 32) f.da.toNat)) 2))

/-- R270 to R273: an iteration starts at the body with the predicates of the instance's start and no bead written; one that
retires commits its stores, adds its beads to the history, and either counts on or ends the level, whose strands are cut at
the reach and whose predicates stand. A loop does not end before all that it has issued is released (R279). -/
def Obligations.Iterations : Prop :=
  (∀ (s : State) (lv : LoopLevel), s.ctx.slot = 15 → s.k.loop.inner = some lv → s.k.loop.susp = false → lv.phase = .starting →
    ∃ u, exec .iterationStart s = .next u ∧
      strandsBy s u lv.set (fun st => { st with cur := none }) ∧
      u = { s with
        ctx := { s.ctx with preds := lv.entryPreds, pc := lv.bodyPc }
        k := { s.k with strands := u.k.strands, loop := { s.k.loop with inner := some { lv with phase := .running, begun := s.ctx.retired } } } }) ∧
  (∀ (s s1 : State) (lv : LoopLevel), s.ctx.slot = 15 → s.k.loop.inner = some lv → s.k.loop.outer = none →
    s.k.loop.susp = false → lv.phase = .complete → s.commitHeld lv.held = ([], s1) →
    (∀ g, lv.set.getLsbD g = true → owed s g = false) → s1.k.loop = s.k.loop → s1.k.mvuq = s.k.mvuq →
    s1.k.unreleased = s.k.unreleased →
    let lv1 : LoopLevel := { lv with held := [], retiredAny := true, lastPreds := s1.ctx.preds, iter := lv.iter + 1 }
    (lv.broke = false → lv.iter + 1 < lv.count →
      ∃ u, exec .iterationRetire s = .next u ∧ strandsBy s1 u lv.set grown ∧
        u = { s1 with k := { s1.k with
          strands := u.k.strands
          loop := { s1.k.loop with inner := some { lv1 with phase := .starting } }
          unreleased := issuedBefore s } }) ∧
    (lv.broke = true ∨ lv.count ≤ lv.iter + 1 → s.k.unreleased ≠ [] →
      exec .iterationRetire s = .next { s1 with k := { s1.k with
        loop := { s1.k.loop with inner := some { lv with held := [] } } } }) ∧
    (lv.broke = true ∨ lv.count ≤ lv.iter + 1 → s.k.unreleased = [] →
      ∃ u, exec .iterationRetire s = .next u ∧ strandsBy s1 u lv.set (fun st => trimmed (grown st) lv.reach) ∧
        u = { s1 with
          ctx := { s1.ctx with pc := lv.exitPc }
          k := { s1.k with
            strands := u.k.strands
            loop := { s1.k.loop with inner := none, text := [] }
            mvuq := s1.k.mvuq.map (fun e => { e with fromLoop := false }) } }))

/-- R234 and R17: HSTART starts the lowest free helper with copies of the parent's first sixteen registers and predicates; HWAIT
waits for its end and reads its end status; HEXIT ends it, once none of its STNT bytes waits at a line (R384); in a control context
HEXIT is illegal, unless its guard fails: then it does nothing (R42, log 23). -/
def Obligations.Helpers : Prop :=
  (∀ (f : I64) (s : State) (n : Nat), runs s f.p f.n → plain s → n < 10 →
    (∀ c, c ∈ s.k.peers → c.slot ≠ n ∧ c.slot ≠ 15) → (∀ m, m < n → ∃ c, c ∈ s.k.peers ∧ c.slot = m) →
    let entry := f.imm.signExtend 64
    let line := s.helperLine (entry.toNat / 64 * 64)
    ¬ badAddress entry → parityOk line = true → targetOk line (entry.toNat % 64 / 4) = true →
    ∃ known, exec (.hstart f) s = .next (retired (put { numbered s with
      k := { (numbered s).k with peers := helperBorn s n entry :: s.k.peers }
      before := known
      free := s.free + 1
      names := s.names + 1 } f.d (BitVec.ofNat 64 n)) 2) ∧ (s.ctx.tag = none → s.before = [] → known = [])) ∧
  (∀ (f : G64) (s : State), runs s f.p f.n → plain s →
    exec (.hwait f) s = .next (if s.k.peers.any (fun c => c.slot == f.a.toNat) then waits s
      else retired (put s f.d ((s.k.helperEnd.getD f.a.toNat 0).setWidth 64)).endRegion 2)) ∧
  (∀ (s : State) (c : Ctx), s.ctx.slot ≠ 15 → s.k.peers.find? (fun x => x.slot == 15) = some c →
    (ntFree s → ∃ u, exec .hexitA32 s = .next u ∧ u.ctx = c ∧ (∀ x, x ∈ u.k.peers → x.slot ≠ s.ctx.slot) ∧
      (s.ctx.slot < 10 → u.k.helperEnd.getD s.ctx.slot 0 = 1)) ∧
    (¬ ntFree s → exec .hexitA32 s = .next (waits s)) ∧
    (runs s s.latchedGuard.1 s.latchedGuard.2 → exec .hexitG64 s = exec .hexitA32 s)) ∧
  (∀ s : State, hasHandler s → exec .hexitA32 s = .next (trapped s 1 0 s.ctx.pc) ∧
    (runs s s.latchedGuard.1 s.latchedGuard.2 → exec .hexitG64 s = .next (trapped s 1 0 s.ctx.pc))) ∧
  (∀ s : State, ¬ runs s s.latchedGuard.1 s.latchedGuard.2 → exec .hexitG64 s = .next (retired s 2))

/-- R235, R209 and R216 to R218: LAUNCH and TSPAWN read their structure and deliver the engine's result word, an index, a tag
or 2 to the 31 with a status; TSPAWNW leaves its core idle when its child is taken. Each is a release and counts in ENGSEQ.
The reply with the instruction is log 4, a reserved bit's status beside its asynchronous fault log 16 (R418), stopping points log 17. -/
def Obligations.Spawns : Prop :=
  (∀ (f : G64) (s s1 : State) (x : Nat), runs s f.p f.n → plain s →
    let ea := s.readOp f.a f.da
    (numbered s).lsWords ea f.opt 16 = .ok (x, s1) →
    let pkt : BitVec 1024 := BitVec.ofNat 1024 x
    (∀ index s2, s1.acceptLaunch s1.myPart ea pkt = .ok (index, s2) →
      exec (.launch f) s = .next (retired (put s2.endRegion f.d (BitVec.ofNat 64 index)) 2)) ∧
    (∀ code, s1.acceptLaunch s1.myPart ea pkt = .error code →
      exec (.launch f) s =
        .next (retired (put (s1.reportReserved (packetReserved pkt) ea).endRegion f.d (failure code)) 2))) ∧
  (∀ (f : G64) (s s1 : State) (x : Nat), runs s f.p f.n → plain s →
    let ea := s.readOp f.a f.da
    (numbered s).lsWords ea f.opt 8 = .ok (x, s1) →
    let img : Word512 := BitVec.ofNat 512 x
    let link := if f.md.getLsbD 0 then some (s1.readOp f.c f.dc) else none
    (∀ tag s2, s1.pushTask img (s1.readOp f.b f.db) link = .ok (tag, s2) →
      exec (.tspawn f) s = .next (retired (put s2.endRegion f.d tag) 2)) ∧
    (∀ code, s1.pushTask img (s1.readOp f.b f.db) link = .error code →
      exec (.tspawn f) s =
        .next (retired (put (s1.reportReserved (recordReserved img) ea).endRegion f.d (failure code)) 2)) ∧
    (∀ s2, s1.spawnWait (formG f) img (s1.readOp f.b f.db) = .ok s2 → s2.ctx = {} ∧ s2.k = {} ∧
      exec (.tspawnw f) s =
        .next (if s.atStop then s2 else { s with ctx := { s.ctx with hold := some .drain } })) ∧
    (∀ code, s1.spawnWait (formG f) img (s1.readOp f.b f.db) = .error code →
      exec (.tspawnw f) s =
        .next (retired (put (s1.reportReserved (recordReserved img) ea).endRegion f.d (failure code)) 2)))

/-- R235: TJOIN sends an arrival at its record, with the zero summary as MD asks; TDONE abandons a suspended loop and drains its
task; WDQ reads the watchdog bits; TCANCEL cancels a scope or a task, of a running one setting its watchdog bit, and delivers a
status. TCANCEL's reply in the same step and TJOIN's arrival as a message are log 4 (DESIGN CHOICE). -/
def Obligations.TaskInstructions : Prop :=
  (∀ (f : G64) (s : State), runs s f.p f.n → plain s → (f.md = 2 → s.zsOwed f.b.toNat = false) →
    let names := f.md = 2 → usable (s.k.tens.getD f.b.toNat 0) (fun sp => decide (sp ≤ 2)) = true
    let zero := f.md == 1 || (f.md == 2 && (s.k.tens.getD f.b.toNat 0).getLsbD 379)
    let note : Cmd := { core := s.coreNo, part := s.myPart, unit := f.c.toNat, tag := s.readOp f.a f.da, flag := zero }
    (names → exec (.tjoin f) s =
      .next (retired { numbered s with inflight := s.inflight ++ [(Instr.arrival, note)] }.endRegion 2)) ∧
    (¬ names → hasHandler s → exec (.tjoin f) s = .next (trapped s 11 0 s.ctx.pc))) ∧
  (∀ s : State, s.ctx.slot = 15 →
    let rest := if s.k.loop.susp then s.abandonLoop else s
    let u := { rest with ctx := { rest.ctx with hold := some .done } }
    exec .tdoneA32 s = .next u ∧ ∀ f : G64, runs s f.p f.n → exec (.tdoneG64 f) s = .next u) ∧
  (∀ (f : G64) (s : State), runs s f.p f.n → plain s →
    exec (.wdq f) s = .next (retired (put s f.d (s.task.wdq.setWidth 64 |||
      (if s.scopeCancelled s.myPart 5 s.task.scope then 1 else 0))) 2)) ∧
  (∀ (f : G64) (s : State), runs s f.p f.n → plain s →
    let i := bits (s.readOp f.a f.da) 0 8
    exec (.tcancelScope f) s = .next (retired (if (s.scope s.myPart i).state = .free then put (numbered s) f.d (failure 8)
      else put ((numbered s).cancelScope s.myPart i) f.d 0) 2)) ∧
  (∀ (f : G64) (s : State), runs s f.p f.n → plain s →
    let tag := s.readOp f.a f.da
    let p := s.myPart
    (s.queueForeign p (tagQueue tag) = true →
      exec (.tcancelTask f) s = .next (retired (put (numbered s) f.d (failure 5)) 2)) ∧
    (s.queueForeign p (tagQueue tag) = false → s.byTag tag = none →
      exec (.tcancelTask f) s = .next (retired (put (numbered s) f.d (failure 8)) 2)) ∧
    (∀ r, s.queueForeign p (tagQueue tag) = false → s.byTag tag = some r → r.state ≠ .running →
      exec (.tcancelTask f) s =
        .next (retired (put ((numbered s).cancelRec (tagQueue tag) (tagSlot tag) r) f.d 0) 2)) ∧
    (∀ r, s.queueForeign p (tagQueue tag) = false → s.byTag tag = some r → r.state = .running →
      exec (.tcancelTask f) s =
        .next (retired (put ((numbered s).onTask (r.core.getD 0) (fun t => { t with wdq := t.wdq ||| 1 })) f.d 0) 2)))

/-- R235, R231 and R26: FSOPEN opens the lowest free scope, as a member of its parent unless it is job-like, with the tile map that
its descriptor gives, or delivers a status; that it parks for a descriptor in the second tier is the model's choice (log 16: R255
does not name FSOPEN); FSCLOSE closes one; FSWAIT waits for its completion, reads its status and may release it. The reply with the
instruction is log 4, the order of checks log 16. -/
def Obligations.ScopeInstructions : Prop :=
  (∀ (f : G64) (s : State), runs s f.p f.n → plain s → f.md.getLsbD 0 = true → (s.readOp f.b f.db).toNat % 64 ≠ 0 →
    exec (.fsopen f) s = .next (retired (put s f.d (failure 3)) 2)) ∧
  (∀ (f : G64) (s : State), runs s f.p f.n → plain s → f.md.getLsbD 0 = true →
    let va := s.readOp f.b f.db
    let p := s.myPart
    let parent := bits (s.readOp f.a f.da) 0 8
    let kind := f.c.toNat
    va.toNat % 64 = 0 →
    (∀ leafAt at', s.engineRead p va 8 = .error (.tierMiss leafAt at') →
      exec (.fsopen f) s = .next (if s.atStop then s.parkTier leafAt at' else { s with ctx := { s.ctx with hold := some .drain } })) ∧
    (∀ bs, s.engineRead p va 8 = .ok bs →
      let d : Word512 := BitVec.ofNat 512 (natOfBytes bs)
      (descBad d = true → exec (.fsopen f) s = .next (retired (put s f.d (failure 3)) 2)) ∧
      (descBad d = false → kind = 4 ∨ ((s.scope p parent).refuses false = none ∧ kind < (s.scope p parent).kind) →
        ∀ i, s.freeScope p = some i →
          let c : Scope := { state := .opened, kind := kind, parent := if kind = 4 then 0 else parent, desc := some d }
          let t := s.onScope p i (fun _ => c)
          let u := if kind = 4 then t else t.onScope p parent (fun q => { q with count := q.count + 1 })
          exec (.fsopen f) s = .next (retired (put u f.d (BitVec.ofNat 64 i)) 2)))) ∧
  (∀ (f : G64) (s : State), runs s f.p f.n → plain s → f.md.getLsbD 0 = false →
    let p := s.myPart
    let parent := bits (s.readOp f.a f.da) 0 8
    let kind := f.c.toNat
    let out := fun (t : State) (w : Word) => exec (.fsopen f) s = .next (retired (put t f.d w) 2)
    (∀ code, kind ≠ 4 → (s.scope p parent).refuses false = some code → out s (failure code)) ∧
    (kind ≠ 4 → (s.scope p parent).refuses false = none → (s.scope p parent).kind ≤ kind → out s (failure 4)) ∧
    ((kind = 4 ∨ ((s.scope p parent).refuses false = none ∧ kind < (s.scope p parent).kind)) →
      (s.freeScope p = none → out s (failure 2)) ∧
      (∀ i, s.freeScope p = some i →
        let c : Scope := { state := .opened, kind := kind, parent := if kind = 4 then 0 else parent }
        let t := s.onScope p i (fun _ => c)
        out (if kind = 4 then t else t.onScope p parent (fun q => { q with count := q.count + 1 })) (BitVec.ofNat 64 i)))) ∧
  (∀ (f : G64) (s : State), runs s f.p f.n → plain s →
    let p := s.myPart
    let i := bits (s.readOp f.a f.da) 0 8
    exec (.fsclose f) s = .next (retired (match (s.scope p i).state with
      | .free => put s f.d (failure 8)
      | .opened => if i = 0 then put s f.d 0
        else put ((s.onScope p i (fun c => { c with state := .closed })).settleScope p i) f.d 0
      | _ => put s f.d 0) 2)) ∧
  (∀ (f : G64) (s : State), runs s f.p f.n → plain s →
    let p := s.myPart
    let i := bits (s.readOp f.a f.da) 0 8
    let c := s.scope p i
    exec (.fswait f) s = .next (if c.state = .opened ∨ c.state = .closed then waits s
      else
        let t := put (s.learn [.scope p i]) f.d c.status
        retired (if f.md.getLsbD 0 ∧ c.state = .complete ∧ i ≠ 0 ∧ (c.kind = 4 ∨ c.parent = 0)
          then (t.onScope p i (fun _ => {})).endRegion else t.endRegion) 2))

namespace Sys2Proof.Claims

/-- Fields of the word that TIERQ delivers (R262): tier, level, window, move in progress, settle, home, module. -/
def residencyWord (v : Word) (tier level window moving settled home module : Nat) : Prop :=
  bits v 0 2 = tier ∧ bits v 2 2 = level ∧ bits v 4 1 = window ∧ bits v 5 1 = moving ∧ bits v 6 1 = settled ∧
  bits v 7 6 = home ∧ bits v 13 51 = module

/-- The result code of a move of a movable page of the first tier to a cluster of a module (R261, R254, R258): 7 in a move, 1 at
home, 2 settled, 3 refused by firmware, 0 accepted. -/
def moveCode (s : State) (pg : Page) (e : Word) (toMod goal : Nat) : Nat :=
  if pg.stage ≠ .none then 7
  else if leafHome e = goal ∧ modOf (leafFrame e) = toMod then 1
  else if s.settled pg ∨ s.pingPong pg then 2
  else if Config.policy s.free = true ∧ s.movesOn (modOf (leafFrame e)) (leafHome e / 24) < 64 then 0 else 3

/-- An accepted move: the page holds new requests, or the move waits for a frame (R253, R256). -/
def moving (pg : Page) (toMod goal : Nat) : Prop :=
  (pg.stage = .holding ∨ pg.stage = .waiting) ∧ pg.target = goal ∧ pg.targetMod = toMod

/-- A copy as its channel takes it: what it captures at issue (R340 to R344). -/
def copyOf (s : State) (f : G64) : Copy :=
  let d := s.k.tens.getD f.d.toNat 0
  let disp : Word := if f.md.getLsbD 2 then s.readOp f.c f.dc else 0
  { pc := s.ctx.pc
    seq := s.k.engseq + 1
    dstId := f.d.toNat
    dst := setBits d 0 64 (bits d 0 64 + disp.toNat)
    src := s.k.tens.getD f.a.toNat 0
    links := (List.range (f.md.toNat % 4)).map (fun i => s.k.tens.getD (f.a.toNat + 1 + i) 0)
    displaced := f.md.getLsbD 2
    near := f.opt.getLsbD 0
    agent := s.agent
    order := s.names
    fromLoop := s.ctx.slot == 15 && s.k.loop.running }

/-- A channel changed. -/
def onChan (s : State) (n : Nat) (g : Chan → Chan) : State :=
  { s with k := { s.k with chans := s.k.chans.setIfInBounds n (g (s.k.chans.getD n {})) } }

/-- A request of GATHER or SCATTER as the indirect engine takes it (R354, R355). -/
def requestOf (s : State) (f : G64) (scatter : Bool) : IxReq :=
  { core := s.coreNo
    slot := s.ctx.slot
    scatter := scatter
    mode := f.md
    sat := f.sat
    line := f.c.toNat
    pc := s.ctx.pc
    seq := s.k.engseq + 1
    dstId := f.d.toNat
    list := s.k.tens.getD f.a.toNat 0
    src := s.k.tens.getD f.b.toNat 0
    dst := s.k.tens.getD f.d.toNat 0
    agent := s.agent
    taskId := s.task.id
    near := f.opt.getLsbD 0 }

/-- The barrier that an instruction names: b`n` of its cluster, or a domain (R389, R391). -/
def barrierNo (s : State) (f : G64) : Nat := if f.md = 4 then 2048 + f.a.toNat else s.coreNo / 16 * 32 + f.a.toNat

/-- It may name it: a domain is valid and of its partition (R392). -/
def mayName (s : State) (f : G64) : Prop := f.md = 4 → s.domainOk f.a.toNat = true

/-- A barrier after an arrival of a task, which may leave with it, and whether its phase has ended (R393). -/
def afterArrival (b : Barrier) (task core : Nat) (leave : Bool) : Barrier × Bool :=
  let b1 := if leave then { b with leaving := b.leaving ++ [(task, core)] } else b
  if b.arrived.any (fun m => m.1 == task) then (b1, false)
  else
    let all := b1.arrived ++ [(task, core)]
    if all.length = b1.members.length then
      ({ members := b1.members.filter (fun m => !(b1.leaving.any (fun l => l.1 == m.1)))
         arrived := []
         leaving := []
         phase := b1.phase + 1
         releasing := b1.releasing ++ [b1.phase] }, true)
    else ({ b1 with arrived := all }, false)

/-- The barrier's new state, with the message that releases the waiting members of its phase if that has ended (R36, R393). -/
def barrierPut (s : State) (id : Nat) (r : Barrier × Bool) : State :=
  let t := s.setBarrier id r.1
  if r.2 then { t with inflight := t.inflight ++ [(Instr.barrierRelease, { unit := id, value := (r.1.phase - 1).setWidth 64 })] }
  else t

/-- The bits of a schedule entry's slot in a window: a send, its destination, a receive, its source (R403). -/
def slotWord (w : Window) (slot : Nat) : BitVec 32 := w.sched.getD slot 0

/-- A value leaves in a slot (R407, R409). -/
def sent (s : State) (w : Window) (slot dest : Nat) (v : Word) : State :=
  { s with
    k := { s.k with window := some { w with sent := slot :: w.sent } }
    inflight := s.inflight ++ [(Instr.exchangeArrival,
      { core := dest, part := w.domain, unit := slot, addr := s.coreNo, value := v, tag := w.phase.setWidth 64 })] }

end Sys2Proof.Claims

/-- R260 to R262: PFH changes no register; TIERQ describes the page of an address or the place that the heap window names, or
answers 3; PLACE's codes for an address that has no movable page and for a move, whose start opens the page's move. The order of
the codes is log 12, that an accepted move waits for a frame log 25. -/
def Obligations.PlacementInstructions : Prop :=
  (∀ (f : G64) (s : State), runs s f.p f.n → calm s →
    ∃ u, exec (.pfh f) s = .next u ∧ sameRegs s u ∧ retiredAs s u 2) ∧
  (∀ (f : G64) (s : State), runs s f.p f.n → calm s →
    let va := s.readOp f.a f.da
    (canonical va = false → exec (.tierq f) s = .next (retired (put s f.d 3) 2)) ∧
    (∀ e at' level s1, canonical va = true → inWindow s.agent va = false →
      s.walk s.myPart (s.coreNo / 384) va = (.leaf e at' level, s1) → level < 4 →
      ∃ v, exec (.tierq f) s = .next (retired (put s f.d v) 2) ∧
        residencyWord v (leafTier e) level 0 (if (s.page at').stage = .none then 0 else 1)
          (if s.settled (s.page at') then 1 else 0) (leafHome e) (modOf (leafFrame e))) ∧
    (canonical va = true → inWindow s.agent va = false →
      (∀ e at' level s1, s.walk s.myPart (s.coreNo / 384) va ≠ (.leaf e at' level, s1)) →
      exec (.tierq f) s = .next (retired (put s f.d 3) 2)) ∧
    (∀ t s1, canonical va = true → inWindow s.agent va = true → s.windowTarget s.agent va 1 = .ok (t, s1) →
      ∃ v, exec (.tierq f) s = .next (retired (put s f.d v) 2) ∧ residencyWord v 0 0 1 0 0 t.home (modOf t.addr)) ∧
    (∀ r, canonical va = true → inWindow s.agent va = true → s.windowTarget s.agent va 1 = .error r →
      exec (.tierq f) s = .next (retired (put s f.d 3) 2))) ∧
  (∀ (f : G64) (s : State), runs s f.p f.n → plain s →
    let va := s.readOp f.a f.da
    let out := fun (t : State) (code : Nat) => exec (.place f) s = .next (retired (put t f.d (BitVec.ofNat 64 code)) 2)
    ((bits va 56 8 = 0x80 ∨ bits va 56 8 = 0x81 ∨ inWindow s.agent va = true) → out s 4) ∧
    (canonical va = false → bits va 56 8 ≠ 0x80 → bits va 56 8 ≠ 0x81 → inWindow s.agent va = false → out s 5) ∧
    (canonical va = true → inWindow s.agent va = false →
      ∀ e at' level s1, s.walk s.myPart (s.coreNo / 384) va = (.leaf e at' level, s1) →
      (¬ (level = 0 ∧ leafPin e = false) → out s1 4) ∧
      (level = 0 → leafPin e = false → leafTier e = 0 → f.c.toNat < 2 →
        let goal := if f.c.toNat = 0 then bits (s.readOp f.b f.db) 0 6 else s.coreNo / 16
        (¬ (goal < 48 ∧ s1.ownsCluster s.myPart goal = true) → out s1 6) ∧
        (goal < 48 → s1.ownsCluster s.myPart goal = true →
          let code := moveCode s1 (s1.page at') e s1.modNo goal
          ∃ t, out t code ∧ ((s1.page at').stage = .none → (code = 0 ↔ moving (t.page at') s1.modNo goal))))))

/-- R340 to R350 and R279: CPY takes a place in its channel with what it captures, or fails its checks; in a loop body, behind what
is still on its way or for want of a place, it goes on and is released later. WPWAIT waits for the pointer,
and traps on a stopped channel; WPRD reads the pointer or the status. -/
def Obligations.CopyInstructions : Prop :=
  (∀ (f : G64) (s : State), runs s f.p f.n → calm s →
    let n := (s.readOp f.b f.db).toNat % 8
    let x := copyOf s f
    let direct := s.inBody = true → s.k.unreleased = []
    (4 ≤ (s.k.chans.getD n {}).queue.length → s.inBody = false → exec (.cpy f) s = .next { s with ctx := { s.ctx with hold := some .room } }) ∧
    ((s.k.chans.getD n {}).queue.length < 4 → direct → copyChecks x.dst x.src x.links = .ok () →
      exec (.cpy f) s =
        .next (retired (onChan { numbered s with names := s.names + 1 } n (fun c => { c with queue := c.queue ++ [x] })) 2)) ∧
    (s.inBody = true → 4 ≤ (s.k.chans.getD n {}).queue.length ∨ s.k.unreleased ≠ [] →
      copyChecks x.dst x.src x.links = .ok () →
      exec (.cpy f) s =
        .next (retired { s with
          names := s.names + 1
          k := { s.k with unreleased := s.k.unreleased ++ [{ work := .copy n x, outer := s.k.loop.inner.isNone }] } } 2)) ∧
    (∀ cause, (s.inBody = true ∨ (s.k.chans.getD n {}).queue.length < 4) → copyChecks x.dst x.src x.links = .error (.trap cause 0 0) →
      cause < 22 → hasHandler s → exec (.cpy f) s = .next (trapped s cause 0 s.ctx.pc))) ∧
  (∀ (f : G64) (s : State), runs s f.p f.n → calm s →
    let n := (s.readOp f.a f.da).toNat % 8
    let c := s.k.chans.getD n {}
    ((s.readOp f.b f.db).toNat ≤ c.wp.toNat → exec (.wpwait f) s = .next (retired s 2)) ∧
    (c.wp.toNat < (s.readOp f.b f.db).toNat → c.stopped = false → exec (.wpwait f) s = .next (waits s)) ∧
    (c.wp.toNat < (s.readOp f.b f.db).toNat → c.stopped = true → hasHandler s →
      exec (.wpwait f) s = .next (trapped s 15 (BitVec.ofNat 64 n) s.ctx.pc)) ∧
    (f.md ≠ 1 → exec (.wprd f) s = .next (retired (put s f.d c.wp) 2)) ∧
    (f.md = 1 → c.queue.length < 5 → ∃ v, exec (.wprd f) s = .next (retired (put s f.d v) 2) ∧
      v.getLsbD 0 = c.tmiss ∧ v.getLsbD 1 = c.held ∧ v.getLsbD 2 = c.pfhold ∧ v.getLsbD 3 = c.stopped ∧
      v.getLsbD 4 = !c.queue.isEmpty ∧ bits v 5 59 = c.queue.length - 1))

/-- R351 to R356: GATHER and SCATTER post a request on their cluster's engine, or fail their checks; EVWAIT takes an event;
TIERIN reports how many pages of a range have to come, and signals its line at once if none has; in a loop body, behind what is
still on its way, it is released later (R279). -/
def Obligations.IndirectInstructions : Prop :=
  (∀ (f : G64) (s : State) (scatter : Bool), runs s f.p f.n → calm s →
    let i : Instr := if scatter then .scatter f else .gather f
    let r := requestOf s f scatter
    let q := Tbl.getD s.ix (s.coreNo / 16) []
    (32 ≤ q.length → exec i s = .next { s with ctx := { s.ctx with hold := some .room } }) ∧
    (q.length < 32 → indirectChecks scatter r.dst r.list r.src = .ok () →
      exec i s = .next (retired { numbered s with ix := Tbl.put s.ix (s.coreNo / 16) (q ++ [r]) } 2)) ∧
    (∀ cause, q.length < 32 → indirectChecks scatter r.dst r.list r.src = .error (.trap cause 0 0) → cause < 22 →
      hasHandler s → exec i s = .next (trapped s cause 0 s.ctx.pc))) ∧
  (∀ (f : G64) (s : State), runs s f.p f.n → calm s → s.ctx.hold ≠ some .signalled →
    let line := f.a.toNat
    (s.k.events.getLsbD line = true → line < 16 → exec (.evwait f) s =
      .next (retired (put { s with k := { s.k with events := s.k.events &&& ~~~(1#16 <<< line) } } f.d 1) 2)) ∧
    (s.k.events.getLsbD line = false → f.md = 1 → exec (.evwait f) s = .next (retired (put s f.d 0) 2)) ∧
    (s.k.events.getLsbD line = false → f.md ≠ 1 → exec (.evwait f) s = .next (waits s))) ∧
  (∀ (f : G64) (s : State), runs s f.p f.n → calm s →
    let a := (s.readOp f.a f.da).toNat
    let len := prefetchLength (s.readOp f.b f.db)
    let r := (numbered s).tierPages s.agent (f.opt.getLsbD 0) (a + len) 16385 a
    let direct := s.inBody = true → s.k.unreleased = []
    (s.inBody = true → s.k.unreleased ≠ [] →
      exec (.tierin f) s = .next (retired { s with k := { s.k with unreleased := s.k.unreleased ++
        [{ work := .tierin s.agent s.ctx.pc (f.opt.getLsbD 0) f.c.toNat f.d (s.readOp f.a f.da) (BitVec.ofNat 64 len)
           outer := s.k.loop.inner.isNone }] } } 2)) ∧
    (direct → r.1 = [] → exec (.tierin f) s = .next (retired (put (r.2.signal f.c.toNat) f.d 0) 2)) ∧
    (direct → r.1 ≠ [] → ∃ u, exec (.tierin f) s = .next u ∧ retiredAs s u 2 ∧
      ctxView u = ctxView (put s f.d (BitVec.ofNat 64 r.1.length)) ∧
      u.k.tierins = s.k.tierins ++
        [{ pc := s.ctx.pc, seq := s.k.engseq + 1, line := f.c.toNat, leaves := r.1.map (fun x => x.1) }]))

/-- R389 to R396: BARM joins and leaves a barrier or a domain; BSIG arrives; BWAIT arrives, waits, and returns with the new
phase; BQRY reports it. What a barrier does not admit is the barrier fault, cause 16, with its number. The release as a message, and a leaver that stays to the end of its phase, are log 28. -/
def Obligations.Barriers : Prop :=
  ∀ (f : G64) (s : State), runs s f.p f.n → plain s → s.k.loop.running = false →
    let id := barrierNo s f
    let b := s.barrier id
    let t := s.task.id
    let member := b.members.any (fun m => m.1 == t)
    let arrived := b.arrived.any (fun m => m.1 == t)
    let admitted := f.md = 4 → (s.domain f.a.toNat).admits s.coreNo = true
    let fault := trapped s 16 (f.a.setWidth 64) s.ctx.pc
    (mayName s f → member = false → admitted →
      exec (.barmJoin f) s =
        .next (retired (s.setBarrier id { b with members := b.members ++ [(t, s.coreNo)] }) 2)) ∧
    (mayName s f → (member = true ∨ ¬ admitted) → hasHandler s → exec (.barmJoin f) s = .next fault) ∧
    (mayName s f → member = true →
      exec (.barmLeave f) s = .next (retired (barrierPut s id (afterArrival b t s.coreNo true)).endRegion 2)) ∧
    (mayName s f → member = true → arrived = false →
      exec (.bsig f) s = .next (retired (barrierPut s id (afterArrival b t s.coreNo false)).endRegion 2)) ∧
    (mayName s f → member = true → (s.ctx.hold = none) →
      let u := if arrived then s else (barrierPut s id (afterArrival b t s.coreNo false)).endRegion
      exec (.bwait f) s = .next { u with ctx := { u.ctx with hold := some (.barrier id b.phase) } }) ∧
    (∀ ph, s.ctx.hold = some (.barrier id ph) → b.phase ≠ ph → ¬ ph ∈ b.releasing →
      exec (.bwait f) s = .next (retired (put s f.d ((ph + 1).setWidth 64)).endRegion 2)) ∧
    (∀ ph, s.ctx.hold = some (.released ph) →
      exec (.bwait f) s = .next (retired (put s f.d ((ph + 1).setWidth 64)).endRegion 2)) ∧
    (s.ctx.hold = some .domainLost → hasHandler s → exec (.bwait f) s = .next fault) ∧
    (mayName s f → member = false → hasHandler s →
      exec (.bsig f) s = .next fault ∧ exec (.barmLeave f) s = .next fault ∧
      (s.ctx.hold = none → exec (.bwait f) s = .next fault)) ∧
    (mayName s f → member = true → arrived = true → hasHandler s → exec (.bsig f) s = .next fault) ∧
    (¬ mayName s f → hasHandler s →
      exec (.bqry f) s = .next fault ∧ exec (.barmJoin f) s = .next fault ∧ exec (.barmLeave f) s = .next fault ∧
      exec (.bsig f) s = .next fault ∧ (s.ctx.hold = none → exec (.bwait f) s = .next fault)) ∧
    (mayName s f → b.members.length < 1024 → b.arrived.length < 1024 →
      ∃ v, exec (.bqry f) s = .next (retired (put s f.d v) 2) ∧ v.getLsbD 0 = member ∧ v.getLsbD 1 = arrived ∧
        bits v 12 10 = b.arrived.length ∧ bits v 22 10 = b.members.length ∧ bits v 32 16 = b.phase.toNat)

/-- R401 to R410: XOPEN arrives at its domain and returns the first cycle of its first slot once its window is open; XSEND
leaves in its slot, or waits for it; XRECV delivers what came in its slot, once it is over; XCLOSE reports and ends the
window. Without a window each but XOPEN is the exchange-state fault, cause 18, with reason 5. The order of checks is log 23. -/
def Obligations.Exchanges : Prop :=
  ∀ (f : G64) (s : State), runs s f.p f.n → s.ctx.slot = 15 → s.k.loop.running = false →
    let a := s.readOp f.a f.da
    (∀ ph w, s.ctx.hold = some (.exchange ph) → s.k.window = some w → w.opened = true →
      exec (.xopen f) s = .next (retired (put s f.d (BitVec.ofNat 64 (w.t0 + w.lead))).endRegion 2)) ∧
    (∀ u, s.ctx.hold = none → s.enterExchange f = .ok u →
      exec (.xopen f) s = .next u ∧
      let par := s.readOp f.c f.dc
      let ph := (s.barrier (2048 + f.a.toNat)).phase
      u.ctx.hold = some (.exchange ph) ∧ ∃ sched, u.k.window = some
        { domain := f.a.toNat, phase := ph + 1, lead := bits par 32 16, slen := bits par 16 8, nslot := bits par 0 13,
          sched := sched }) ∧
    (∀ w, s.ctx.hold = none → s.k.window = some w → w.opened = true → hasHandler s →
      exec (.xopen f) s = .next (trapped s 18 4 s.ctx.pc)) ∧
    (s.k.window = none → s.ctx.hold = none → hasHandler s →
      exec (.xsend f) s = .next (trapped s 18 5 s.ctx.pc) ∧ exec (.xrecv f) s = .next (trapped s 18 5 s.ctx.pc) ∧
      exec (.xclose f) s = .next (trapped s 18 5 s.ctx.pc)) ∧
    (∀ w, s.k.window = some w → w.opened = true →
      (s.ctx.hold = none →
        let dest := s.readOp f.b f.db
        let v := s.readOp f.c f.dc
        let ok := a.toNat < w.nslot ∧ (slotWord w a.toNat).getLsbD 10 = true ∧
          bits (slotWord w a.toNat) 0 10 = dest.toNat ∧ ¬ (a.toNat ∈ w.sent) ∧
          s.cycle.toNat < w.t0 + w.lead + (a.toNat + 1) * w.slen
        (ok → w.t0 + w.lead + a.toNat * w.slen ≤ s.cycle.toNat →
          exec (.xsend f) s = .next (retired (sent s w a.toNat dest.toNat v) 2)) ∧
        (ok → s.cycle.toNat < w.t0 + w.lead + a.toNat * w.slen →
          exec (.xsend f) s = .next { s with ctx := { s.ctx with hold := some (.send a.toNat dest.toNat v) } }) ∧
        (¬ ok → hasHandler s → exec (.xsend f) s = .next (trapped s 17 a s.ctx.pc))) ∧
      (let ok := a.toNat < w.nslot ∧ (slotWord w a.toNat).getLsbD 26 = true
       (ok → w.t0 + w.lead + (a.toNat + 1) * w.slen ≤ s.cycle.toNat → s.arrivalDue a.toNat = false →
         exec (.xrecv f) s = .next (retired (put s f.d (Tbl.getD w.store a.toNat 0)) 2)) ∧
       (ok → s.cycle.toNat < w.t0 + w.lead + (a.toNat + 1) * w.slen →
         exec (.xrecv f) s = .next { s with ctx := { s.ctx with hold := some (.recv a.toNat) } }) ∧
       (¬ ok → hasHandler s → exec (.xrecv f) s = .next (trapped s 17 a s.ctx.pc))) ∧
      (w.t0 + w.lead + w.nslot * w.slen ≤ s.cycle.toNat → s.anyArrivalDue w = false →
        exec (.xclose f) s = .next (retired (put { s with
          k := { s.k with window := none }
          hw := { s.hw with icache := s.hw.icache.map (fun l => { l with locked := false }) } } f.d w.status) 2)) ∧
      (s.cycle.toNat < w.t0 + w.lead + w.nslot * w.slen → exec (.xclose f) s = .next (waits s)))

namespace Sys2Proof.Claims

/-- What an instruction of the dispatch queue is checked for and captures: fields, tensors, the three checks of R169 and R309
(tensor record, tensor format, tensor shape), and the scalar operands. -/
structure Posting where
  f : G64
  ids : List Nat
  record : Bool := true
  format : Bool := true
  shape : Bool := true
  x : Word := 0
  y : Word := 0

/-- The checks of a vector instruction over its tensors (R169). -/
def vecPost (s : State) (f : G64) (ids : List (BitVec 6)) (fmts shapes : List Word512 → Bool) (x : Word) : Option Posting :=
  let es := ids.map (fun i => s.k.tens.getD i.toNat 0)
  some { f := f, ids := ids.map BitVec.toNat, record := es.all usableLocal, format := fmts es,
         shape := es.all (fun e => decide (tCount e ≤ 2 ^ 20)) && shapes es, x := x }

/-- One that broadcasts its sources to the shape of its destination (R165). -/
def elementPost (s : State) (f : G64) (ids : List (BitVec 6)) (fmts : List Word512 → Bool) : Option Posting :=
  vecPost s f ids fmts sourcesFit 0

/-- One that reduces the rows of A (R182). -/
def reducePost (s : State) (f : G64) (ids : List (BitVec 6)) : Option Posting := vecPost s f ids allAlike reduceShapes 0

/-- MMA and MMAK: the Crown origin and the greatest K (R315, R316, R335). -/
def productPost (s : State) (f : G64) (o : Word) (most : Nat) : Option Posting :=
  let p : MatOps := { a := s.k.tens.getD f.a.toNat 0, b := s.k.tens.getD f.b.toNat 0, o := o.toNat }
  let sc := scaleIds p.a p.b
  some { f := f
         ids := f.a.toNat :: f.b.toNat :: sc
         record := usableLocal p.a && tRank p.b != 0 && sc.all (fun i => usableLocal (s.k.tens.getD i 0))
         format := pairOk (tFmt p.a) (tFmt p.b) && sc.all (fun i => tFmt (s.k.tens.getD i 0) == 8)
         shape := productShape p most && (!(tScv p.a) || scaleShape (s.k.tens.getD (tScaleId p.a) 0) p.chunks p.m) &&
           (!(tScv p.b) || scaleShape (s.k.tens.getD (tScaleId p.b) 0) p.chunks ((p.n + 127) / 128))
         x := o }

/-- VSCAN: D, A, and the head flags and the carry if it names them (R185). -/
def scanPost (s : State) (f : G64) : Option Posting :=
  let t := fun (i : BitVec 6) => s.k.tens.getD i.toNat 0
  let heads := f.opt.getLsbD 0
  let carry := f.opt.getLsbD 1
  vecPost s f ([f.d, f.a] ++ (if heads then [f.b] else []) ++ (if carry then [f.c] else []))
    (fun _ => allAlike [t f.d, t f.a] && (!heads || tFmt (t f.b) == 4) &&
      (!carry || tFmt (t f.c) == (if isFloat (tFmt (t f.a)) then 8 else 3)))
    (fun _ => sameShape (t f.a) (t f.d) && (!heads || sameShape (t f.a) (t f.b)) && (!carry || rowShape (t f.a) (t f.c))) 0

/-- The instructions of the dispatch queue (R293). -/
def posting (s : State) : Instr → Option Posting
  | .vadd f | .vsub f | .vmul f | .vmin f | .vmax f => elementPost s f [f.d, f.a, f.b] allAlike
  | .vfma f | .vclamp f => elementPost s f [f.d, f.a, f.b, f.c] allAlike
  | .vabs f | .vneg f => elementPost s f [f.d, f.a] allAlike
  | .vrcp f | .vrsq f | .vsqrt f | .vexp2 f | .vlog2 f => elementPost s f [f.d, f.a] allFloat
  | .vand f | .vor f | .vxor f | .vshl f | .vshr f => elementPost s f [f.d, f.a, f.b] allInt
  | .vcvt f => elementPost s f [f.d, f.a] (fun _ => true)
  | .vcpy f => elementPost s f [f.d, f.a] (fun es => tFmt (es.getD 0 0) == tFmt (es.getD 1 0))
  | .vsrnd f => elementPost s f [f.d, f.a, f.b] (fun es =>
      isFloat (tFmt (es.getD 0 0)) && isFloat (tFmt (es.getD 1 0)) && tFmt (es.getD 2 0) == 5)
  | .vcmp f => elementPost s f [f.d, f.a, f.b] (fun es => !(isFloat (tFmt (es.getD 0 0))) && allAlike (es.drop 1))
  | .vsel f => elementPost s f [f.d, f.a, f.b, f.c] (fun es =>
      tFmt (es.getD 0 0) == tFmt (es.getD 1 0) && tFmt (es.getD 0 0) == tFmt (es.getD 2 0) && tFmt (es.getD 0 0) != 13 &&
      !(isFloat (tFmt (es.getD 3 0))))
  | .vpwl f => vecPost s f [f.d, f.a, f.b]
      (fun es => isFloat (tFmt (es.getD 0 0)) && isFloat (tFmt (es.getD 1 0)) && tFmt (es.getD 2 0) == 8)
      (fun es => fitsShape (es.getD 0 0) (es.getD 1 0) && tableShape (es.getD 2 0)) 0
  | .vreds f | .vredm f => reducePost s f [f.d, f.a]
  | .vdot f => reducePost s f [f.d, f.a, f.b]
  | .vscan f => scanPost s f
  | .vbcast f => vecPost s f [f.d] (fun es => es.all (fun e => tFmt e != 13)) (fun _ => true) (s.readOp f.a f.da)
  | .viota f => vecPost s f [f.d] (fun _ => true) (fun _ => true) (s.readOp f.a f.da)
  | .vscale f => vecPost s f [f.d, f.a] allFloat sourcesFit (s.readOp f.b f.db)
  | .vred4 f => vecPost s f [f.d, f.a]
      (fun es => (tFmt (es.getD 0 0) == 8 && tFmt (es.getD 1 0) == 8) || (tFmt (es.getD 0 0) == 2 && tFmt (es.getD 1 0) == 2))
      (fun es => decide (1 ≤ tCount (es.getD 0 0)) && decide (tCount (es.getD 0 0) ≤ 256) &&
        tCount (es.getD 1 0) == 4 * tCount (es.getD 0 0)) 0
  | .mfill f =>
    let a := s.k.tens.getD f.a.toNat 0
    let o := s.readOp f.b f.db
    some { f := f, ids := [f.a.toNat], record := usableLocal a, format := crownFormat (tFmt a)
           shape := decide (tRank a ≤ 2) && decide (1 ≤ tSize a 1) && decide (tSize a 1 ≤ 256) &&
             crownFits (tFmt a) o.toNat (tSize a 0)
           x := o }
  | .mpat f =>
    let o := s.readOp f.a f.da
    let n := s.readOp f.b f.db
    some { f := f, ids := [], shape := crownFits f.ty o.toNat n.toNat, x := o, y := n }
  | .mzero f =>
    let a := s.readOp f.a f.da
    let m := s.readOp f.b f.db
    some { f := f, ids := [], shape := decide (1 ≤ m.toNat) && decide (a.toNat + m.toNat ≤ 256), x := a, y := m }
  | .mma f => productPost s f (s.readOp f.c f.dc) 6144
  | .mmak f => productPost s f (s.readOp f.d 0) 4096
  | .mdrain f =>
    let d := s.k.tens.getD f.d.toNat 0
    let row := s.readOp f.a f.da
    some { f := f, ids := [f.d.toNat], record := usableLocal d, shape := bezelShape d row, x := row }
  | .mloadb f =>
    let a := s.k.tens.getD f.a.toNat 0
    let row := s.readOp f.b f.db
    some { f := f, ids := [f.a.toNat], record := usableLocal a, shape := bezelShape a row, x := row }
  | .mscl f =>
    let a := s.k.tens.getD f.a.toNat 0
    let row := s.readOp f.b f.db
    some { f := f, ids := [f.a.toNat], record := usableLocal a, format := tFmt a == 8
           shape := tRank a == 1 && decide (tSize a 0 ≤ 256) && decide (row.toNat + tSize a 0 ≤ 256)
           x := row }
  | .scout f =>
    let c := s.readOp f.c f.dc
    let d := s.k.tens.getD f.d.toNat 0
    let p : MatOps := { a := s.k.tens.getD f.a.toNat 0, b := s.k.tens.getD f.b.toNat 0, o := bits c 0 13 }
    some { f := f
           ids := [f.d.toNat, f.a.toNat, f.b.toNat]
           record := usableLocal d && usableLocal p.a && tRank p.b != 0
           format := tFmt d == 9 && pairOk (tFmt p.a) (tFmt p.b)
           shape := bits c 13 3 == 0 && bits c 21 43 == 0 && productShape p 6144 && decide (tRank d ≤ 2) &&
             tSize d 1 == p.m && decide (1 ≤ tSize d 0) && decide (tSize d 0 ≤ 32) &&
             decide (bits c 16 5 + (p.n + 127) / 128 ≤ tSize d 0)
           x := c }
  | .ksel f =>
    let a := s.k.tens.getD f.a.toNat 0
    some { f := f, ids := [f.a.toNat], record := usableLocal a, format := tFmt a == 9
           shape := decide (tRank a ≤ 2) && decide (1 ≤ tSize a 0) && decide (tSize a 0 ≤ 32) && decide (1 ≤ tSize a 1) &&
             decide (tSize a 1 ≤ 256)
           x := s.readOp f.b f.db }
  | .kand f | .kor f | .knot f | .kpop f => some { f := f, ids := [] }
  | _ => none

/-- VRED4 has no place in a loop, unless it is suspended (R77, R265). -/
def reduces4 : Instr → Bool
  | .vred4 _ => true
  | _ => false

/-- In a loop body an instruction's entry is held, and has no number before its release (R279, R414). -/
def delayed (s : State) (e : Entry) : State :=
  { s with
    names := s.names + 1
    k := { s.k with unreleased := s.k.unreleased ++ [{ work := .entry { e with seq := 0 }, outer := s.k.loop.inner.isNone }] } }

/-- An entry joins the dispatch queue, and ENGSEQ advances (R14, R293). -/
def posted (s : State) (e : Entry) : State :=
  { s with k := { s.k with engseq := s.k.engseq + 1, mvuq := s.k.mvuq ++ [e] }, names := s.names + 1 }

end Sys2Proof.Claims

/-- R293, R308, R125, R169, R309, R279: an instruction of the dispatch queue waits while all sixteen entries are taken, or what a
loop has issued is still on its way, unless that is suspended (log 18), fails its checks precisely, and else takes an entry with the tensor entries and operands that
it captures; guarded off, it takes one that uses no resource. In a loop body it never waits, and is held where it would have to. -/
def Obligations.DispatchQueue : Prop :=
  ∀ (i : Instr) (p : Posting) (s : State), posting s i = some p → plain s → (reduces4 i = true → s.k.loop.running = false) →
    let e : Entry := { instr := i, guard := true, pc := s.ctx.pc, seq := s.k.engseq + 1, fromLoop := s.k.loop.running,
                       order := s.names }
    let room := s.k.mvuq.length < 16 ∧ (s.k.unreleased = [] ∨ s.k.loop.susp = true)
    (¬ room → s.k.loop.running = false → exec i s = .next { s with ctx := { s.ctx with hold := some .dispatchFull } }) ∧
    (room ∨ s.k.loop.running = true → ¬ runs s p.f.p p.f.n →
      let off : Entry := { e with guard := false, stage := .finished }
      (room → exec i s = .next (retired (posted s off) 2)) ∧ (¬ room → exec i s = .next (retired (delayed s off) 2))) ∧
    (room ∨ s.k.loop.running = true → runs s p.f.p p.f.n →
      (p.record = true → p.format = true → p.shape = true →
        ∃ tens : Tbl Word512, (∀ id ∈ p.ids, Tbl.getD tens id 0 = s.k.tens.getD id 0) ∧
          (room → exec i s = .next (retired (posted s { e with tens := tens, x := p.x, y := p.y }) 2)) ∧
          (¬ room → exec i s = .next (retired (delayed s { e with tens := tens, x := p.x, y := p.y }) 2))) ∧
      (hasHandler s →
        (p.record = false → exec i s = .next (trapped s 11 0 s.ctx.pc)) ∧
        (p.record = true → p.format = false → exec i s = .next (trapped s 12 0 s.ctx.pc)) ∧
        (p.record = true → p.format = true → p.shape = false → exec i s = .next (trapped s 13 0 s.ctx.pc))))

namespace Sys2Proof.Claims

/-- The event is at the core in focus, whose control context is in focus, and the core is not traced. -/
def here (s : State) : Prop := s.cmd.core = s.coreNo ∧ s.ctx.slot = 15 ∧ s.hw.tracectl.getLsbD 0 = false

/-- The dispatch queue of the core, its oldest entry first; entries, and those still on their way to it, have places of their own
in the order (R279, R293). -/
def queued (s : State) (e : Entry) (rest : List Entry) : Prop :=
  s.k.mvuq = e :: rest ∧ ∀ x ∈ s.k.posted.tail, x.order ≠ e.order

/-- The shared resource of an instruction: the array, the vector datapath or the transfer port (R292). -/
def resource : Instr → Option Nat
  | .mma _ | .mmak _ | .scout _ => some 0
  | .mfill _ | .mpat _ | .mzero _ | .mdrain _ | .mloadb _ | .mscl _ => some 2
  | .ksel _ | .kand _ | .kor _ | .knot _ | .kpop _ => none
  | _ => some 1

/-- The arbiter of a resource of the core's quad has granted it to the core (R296). -/
def served (s : State) (res : Option Nat) : Prop :=
  ∀ r, res = some r → (Tbl.getD s.arbiters (s.coreNo / 4 * 4 + r) {}).grant = some (s.coreNo % 4)

/-- The oldest entry is free to start: it waits, comes from no loop, and has passed its decision point if it has one. -/
def ready (e : Entry) : Prop :=
  e.stage = .waiting ∧ e.fromLoop = false ∧ (resource e.instr = some 0 → e.decided = true)

/-- Local memory as an entry reads its element number `m`: what that element's quantum has taken in stands before what memory holds
(R297, R299). -/
def entryMem (s : State) (e : Entry) (m : Nat) : Mem := overlay s.k.localMem (e.taken.getD (e.quantumOf m) [])

/-- An element of a tensor of an integer format, and the source element that the tuple of a destination reads (R164, R165). -/
def element (m : Mem) (t : Word512) (u : Tuple) : Int :=
  val (tFmt t) (BitVec.ofNat 64 (Mem.readLE m (elemAddr t u).toNat (size (tFmt t))))
def source (s : State) (e : Entry) (id : BitVec 6) (m : Nat) (u : Tuple) : Int :=
  let t := Tbl.getD e.tens id.toNat 0
  let pick := fun (n : Nat) (i : Nat) => if tSize t n = 1 then 0 else i
  element (entryMem s e m) t { i0 := pick 0 u.i0, i1 := pick 1 u.i1, i2 := pick 2 u.i2, i3 := pick 3 u.i3 }

/-- An operation on infinite two's-complement patterns (R181). -/
def patterns (op : BitVec 72 → BitVec 72 → BitVec 72) (x y : Int) : Int := (op (BitVec.ofInt 72 x) (BitVec.ofInt 72 y)).toInt

/-- The conditions of VCMP on integers (R180): none is unordered. -/
def compareInts (cond : Nat) (x y : Int) : Bool :=
  [decide (x = y), decide (x ≠ y), decide (x < y), decide (x ≤ y), decide (x > y), decide (x ≥ y), false].getD cond true

/-- A vector instruction on integers: fields, tensors of its sources, and the exact result of the elements of A, B and C, the
element's number and the scalar operand (R173, R175, R180, R181). -/
def lanewise : Instr → Option (G64 × List (BitVec 6) × (Int → Int → Int → Nat → Word → Int))
  | .vadd f => some (f, [f.a, f.b], fun x y _ _ _ => x + y)
  | .vsub f => some (f, [f.a, f.b], fun x y _ _ _ => x - y)
  | .vmul f => some (f, [f.a, f.b], fun x y _ _ _ => x * y)
  | .vfma f => some (f, [f.a, f.b, f.c], fun x y z _ _ => x * y + z)
  | .vmin f => some (f, [f.a, f.b], fun x y _ _ _ => min x y)
  | .vmax f => some (f, [f.a, f.b], fun x y _ _ _ => max x y)
  | .vclamp f => some (f, [f.a, f.b, f.c], fun x y z _ _ => min (max x y) z)
  | .vabs f => some (f, [f.a], fun x _ _ _ _ => if x < 0 then -x else x)
  | .vneg f => some (f, [f.a], fun x _ _ _ _ => -x)
  | .vcvt f | .vcpy f => some (f, [f.a], fun x _ _ _ _ => x)
  | .vcmp f => some (f, [f.a, f.b], fun x y _ _ _ => if compareInts f.c.toNat x y then 1 else 0)
  | .vsel f => some (f, [f.a, f.b, f.c], fun x y z _ _ => if z = 0 then y else x)
  | .vand f => some (f, [f.a, f.b], fun x y _ _ _ => patterns (fun p q => p &&& q) x y)
  | .vor f => some (f, [f.a, f.b], fun x y _ _ _ => patterns (fun p q => p ||| q) x y)
  | .vxor f => some (f, [f.a, f.b], fun x y _ _ _ => patterns (fun p q => p ^^^ q) x y)
  | .vshl f => some (f, [f.a, f.b], fun x y _ _ _ => x * 2 ^ (max 0 (min y 64)).toNat)
  | .vshr f => some (f, [f.a, f.b], fun x y _ _ _ => x / 2 ^ (max 0 (min y 64)).toNat)
  | .viota f => some (f, [], fun _ _ _ m b => b.toInt + m)
  | _ => none

/-- Sources that have to be of the destination's format (R175). -/
def sameFormat : Instr → List (BitVec 6)
  | .vcpy f => [f.a]
  | .vsel f => [f.a, f.b]
  | _ => []

/-- Every element of a tensor lies in its buffer (R122). -/
def inBounds (t : Word512) : Prop := ∀ m, m < tCount t → elemIn t (tupleOf t m) = true

/-- The buffers of two tensors have no byte in common. -/
def apart (t u : Word512) : Prop := tBase t + tExtent t ≤ tBase u ∨ tBase u + tExtent u ≤ tBase t

/-- No two elements of a tensor share a byte. -/
def noOverlap (t : Word512) : Prop :=
  ∀ m n, m < tCount t → n < tCount t → m ≠ n →
    elemAddr t (tupleOf t m) + size (tFmt t) ≤ elemAddr t (tupleOf t n) ∨
    elemAddr t (tupleOf t n) + size (tFmt t) ≤ elemAddr t (tupleOf t m)

/-- What mask logic writes (R334). -/
def maskResult (s : State) : Instr → Option (BitVec 6 × MaskWord)
  | .kand f => some (f.d, s.k.masks.getD f.a.toNat 0 &&& s.k.masks.getD f.b.toNat 0)
  | .kor f => some (f.d, s.k.masks.getD f.a.toNat 0 ||| s.k.masks.getD f.b.toNat 0)
  | .knot f => some (f.d, ~~~(s.k.masks.getD f.a.toNat 0))
  | _ => none

/-- What no entry's work changes: all of a core but memories, the array, masks, the queue, and the generator. -/
def coreView (s : State) : Ctx × Kern :=
  ({ s.ctx with srseed := 0 }, { s.k with localMem := [], crown := [], bezel := [], masks := Vector.replicate 16 0, mvuq := [] })

/-- The faults of a core with one more: in order of report, and of one cycle in the order of their sources, one of each source
(R418). -/
def ranked (q : List Pending) (p : Pending) : List Pending :=
  let behind := fun (x : Pending) => x.cycle == p.cycle && decide (p.source < x.source)
  if q.any (fun x => x.source == p.source) then q
  else q.filter (fun x => !(behind x)) ++ p :: q.filter behind

/-- The core's engines are not to stop (R426). -/
def free (s : State) : Prop := s.stopping s.coreNo = false

/-- Number of an arbiter of the core's quad. -/
def arbiterOf (s : State) (res : Nat) : Nat := s.coreNo / 4 * 4 + res

/-- The event that does an entry's work: its start, if one quantum of 128 cycles holds it, or the decision of its arbiter at the
end of its last quantum (R171, R296). That the work is done then, at once, is the model's schedule (log 21). -/
def lastQuantum (s : State) (e : Entry) (res : Nat) (i : Instr) : Prop :=
  (i = .mvuEntryStart ∧ ready e ∧ e.cycles ≤ 128) ∨
  (i = .arbiterDecision ∧ e.stage = .started ∧ e.left ≤ 128 ∧ s.cmd.unit = arbiterOf s res)

/-- An arbiter's grant taken back at the end of a quantum (R296). -/
def quantumOver (s t : State) (res : Option Nat) : Prop :=
  ∀ r, res = some r → (Tbl.getD t.arbiters (s.coreNo / 4 * 4 + r) {}).grant = none

end Sys2Proof.Claims

/-- R173, R175, R180, R181, R86, R123: a vector instruction on integer tensors whose elements lie in their buffers, whose
destination shares no byte with a source, in a local memory of canonical form (log 3): its start writes every element, by the overflow rule, from the source elements
that its tuple reads, as its quantum has taken them in, and no byte outside the destination's buffer; SATF is set if an element was clamped, and the summary says whether
all are zero. The event is the one that does the entry's work, at its start or at the end of its last quantum. -/
def Obligations.VectorIntegers : Prop :=
  ∀ (f : G64) (ids : List (BitVec 6)) (fn : Int → Int → Int → Nat → Word → Int) (e : Entry) (rest : List Entry) (i : Instr)
    (s : State), lanewise e.instr = some (f, ids, fn) → here s → queued s e rest → lastQuantum s e 1 i → free s →
    served s (some 1) → s.k.localMem.wf = true →
    let d := Tbl.getD e.tens f.d.toNat 0
    let result := fun (m : Nat) =>
      let u := tupleOf d m
      fn (source s e f.a m u) (source s e f.b m u) (source s e f.c m u) m e.x
    (tFmt d).toNat < 8 → inBounds d → noOverlap d →
    (∀ id ∈ ids, let t := Tbl.getD e.tens id.toNat 0
      (tFmt t).toNat < 8 ∧ inBounds t ∧ fitsShape d t = true ∧ apart d t) →
    (∀ id ∈ sameFormat e.instr, tFmt (Tbl.getD e.tens id.toNat 0) = tFmt d) →
    ∃ t r, exec i s = .next t ∧ t.k.mvuq = { e with stage := .finished, left := 0, result := r } :: rest ∧
      t.ctx = s.ctx ∧ r.fault = none ∧
      (∀ m, m < tCount d → Mem.readLE t.k.localMem (elemAddr d (tupleOf d m)).toNat (size (tFmt d)) =
        (written (tFmt d) f.sat (result m)).toNat % 2 ^ width (tFmt d)) ∧
      (∀ a, (a < tBase d ∨ tBase d + tExtent d ≤ a) → Mem.get t.k.localMem a = Mem.get s.k.localMem a) ∧
      (r.flags = 0 ∨ r.flags = 0x40) ∧
      (r.flags = 0x40 ↔ ∃ m, m < tCount d ∧ clampFlag (tFmt d) f.sat (result m) ≠ 0) ∧
      (∃ z, r.zs = [(f.d.toNat, true, z)] ∧
        (z = true ↔ ∀ m, m < tCount d → (written (tFmt d) f.sat (result m)).toNat % 2 ^ width (tFmt d) = 0))

/-- R171, R294 to R296, R310, R314, R334, R426: the oldest entry that is free to start does so once its resource serves it. A product
starts, or ends with a bounds fault; of any other, an entry of at most 128 cycles does its whole work, ends its quantum, and is
finished, and a longer one is finished by a bounds fault, or ends its quantum with what that has read and the rest to do; its
arbiter's next decision ends a further one. Nothing changes
but the memories, the array, the masks, the queue and the generator. Mask logic writes its mask whole; KPOP counts for its
retirement; MZERO makes its Bezel rows +0. An entry that no arbiter serves does not start, and none starts on a core whose
engines are to stop. -/
def Obligations.EntryStarts : Prop :=
  (∀ (e : Entry) (rest : List Entry) (s : State), here s → queued s e rest → ready e → free s →
    served s (resource e.instr) →
    let product := ∃ f, e.instr = .mma f ∨ e.instr = .mmak f
    ∃ t e1, exec .mvuEntryStart s = .next t ∧ t.k.mvuq = e1 :: rest ∧
      e1 = { e with stage := e1.stage, left := e1.left, tiles := e1.tiles, result := e1.result, taken := e1.taken, seed := e1.seed } ∧
      coreView t = coreView s ∧ t.coreNo = s.coreNo ∧ t.mem = s.mem ∧ t.clusterMem = s.clusterMem ∧ t.others = s.others ∧
      (product → (e1.stage = .started ∧ e1.left = e.left ∧ e1.result = e.result) ∨
        (e1.stage = .finished ∧ ∃ a, e1.result = { fault := some (14, a) })) ∧
      (¬ product → e.cycles ≤ 128 → e1.stage = .finished) ∧
      (¬ product → 128 < e.cycles → (e1.stage = .finished ∧ e1.result.fault ≠ none) ∨
        e1 = { e with stage := .started, left := e.cycles - 128, taken := e1.taken, seed := e1.seed }) ∧
      (e1.stage = .finished ∨ ¬ product → quantumOver s t (resource e.instr))) ∧
  (∀ (e : Entry) (rest : List Entry) (res : Nat) (s : State), here s → queued s e rest → e.stage = .started →
    resource e.instr = some res → e.product = none → free s → served s (some res) → s.cmd.unit = arbiterOf s res →
    ∃ t e1, exec .arbiterDecision s = .next t ∧ t.k.mvuq = e1 :: rest ∧ coreView t = coreView s ∧ t.mem = s.mem ∧
      (128 < e.left → e1 = { e with left := e.left - 128, taken := e1.taken } ∧ t.k = { s.k with mvuq := e1 :: rest }) ∧
      (e.left ≤ 128 → e1 = { e with stage := .finished, left := 0, result := e1.result })) ∧
  (∀ (e : Entry) (rest : List Entry) (s : State), here s → queued s e rest → ready e → ¬ free s →
    exec .mvuEntryStart s = .next s) ∧
  (∀ (e : Entry) (rest : List Entry) (s : State), here s → queued s e rest → ready e → free s →
    let done := fun (s1 : State) (r : EntryResult) => exec .mvuEntryStart s =
      .next { s1 with k := { s1.k with mvuq := { e with stage := .finished, left := 0, result := r } :: rest } }
    (∀ d v, maskResult s e.instr = some (d, v) →
      done { s with k := { s.k with masks := s.k.masks.setIfInBounds d.toNat v } } {}) ∧
    (∀ f n, e.instr = .kpop f → n = ((List.range 256).filter (fun i => (s.k.masks.getD f.a.toNat 0).getLsbD i)).length →
      done s { scalar := some (f.d, BitVec.ofNat 64 n) }) ∧
    (∀ r, resource e.instr = some r → ¬ served s (some r) → exec .mvuEntryStart s = .next s)) ∧
  (∀ (f : G64) (e : Entry) (rest : List Entry) (event : Instr) (s : State), e.instr = .mzero f → here s → queued s e rest →
    lastQuantum s e 2 event → free s → served s (some 2) →
    ∃ t, exec event s = .next t ∧ ∀ i j, j < 256 →
      Tbl.getD t.k.bezel (256 * i + j) 0 =
        if e.x.toNat ≤ i ∧ i < e.x.toNat + e.y.toNat then 0 else Tbl.getD s.k.bezel (256 * i + j) 0)

/-- R296, R318, R319, R305, R295, R419: an arbiter grants its resource to the first core in turn that wants it; a decision
point samples the summaries of a product's operands, and finishes an absorbing product; a chunk is applied to the Bezel and the
quantum ends, of 16-bit operands the second, the first having taken in half of them (R297); the oldest finished entry retires with its flags, its count or its fault, which discards the younger entries. -/
def Obligations.QuadEvents : Prop :=
  (∀ (s : State), s.cmd.unit % 4 < 3 →
    let a := Tbl.getD s.arbiters s.cmd.unit {}
    let base := s.cmd.unit / 4 * 4
    let wants := fun (p : Nat) => s.wants (base + p) (s.cmd.unit % 4)
    (∀ p, a.grant = some p → wants p = true → (s.kernOf (base + p)).quantumDue (s.cmd.unit % 4) = false →
      exec .arbiterDecision s = .next s) ∧
    (∀ p, a.grant = none → a.last = some p → p < 4 → (∀ q, q < 4 → s.stopping (base + q) = false) →
      ∀ n, 1 ≤ n → n ≤ 4 → wants ((p + n) % 4) = true → (∀ k, 1 ≤ k → k < n → wants ((p + k) % 4) = false) →
      exec .arbiterDecision s =
        .next { s with arbiters := Tbl.put s.arbiters s.cmd.unit { last := some ((p + n) % 4), grant := some ((p + n) % 4) } })) ∧
  (∀ (e : Entry) (rest : List Entry) (f : G64) (s : State), here s → queued s e rest → e.guard = true → e.decided = false →
    e.stage = .waiting →
    let zs := tZs (s.k.tens.getD f.a.toNat 0) || tZs (s.k.tens.getD f.b.toNat 0)
    let done := fun (e1 : Entry) => exec .mmaDecisionPoint s = .next { s with k := { s.k with mvuq := e1 :: rest } }
    (e.instr = .scout f → done { e with decided := true, zs := zs }) ∧
    (e.instr = .mma f → ∃ todo, todo.length = ((tSize (Tbl.getD e.tens f.a.toNat 0) 0) + 127) / 128 ∧
      done { e with decided := true, zs := zs, todo := todo, stage := if zs then .finished else .waiting }) ∧
    (e.instr = .mmak f → ∃ todo, done { e with
      decided := true
      zs := zs
      mask := s.k.masks.getD f.c.toNat 0
      todo := todo
      stage := if zs || todo.isEmpty then .finished else .waiting })) ∧
  (∀ (e : Entry) (rest : List Entry) (f : G64) (c : Nat) (cs : List Nat) (s : State), here s → queued s e rest →
    (e.instr = .mma f ∨ e.instr = .mmak f) → e.stage = .started → e.todo = c :: cs → served s (some 0) → free s →
    s.k.quantumDue 0 = false →
    ∃ t e1, exec .chunkPromotion s = .next t ∧ t.k.mvuq = e1 :: rest ∧ e1.todo = cs ∧
      (e1.stage = .finished ↔ cs = []) ∧ e1.result.fault = e.result.fault ∧ quantumOver s t (some 0) ∧ t.ctx = s.ctx ∧
      { t.k with bezel := [], mvuq := [], ring := [] } = { s.k with bezel := [], mvuq := [], ring := [] } ∧ t.mem = s.mem) ∧
  (∀ (e : Entry) (rest : List Entry) (p : MatOps) (keep : Nat → Nat → Bool) (s : State), here s → queued s e rest →
    e.product = some (p, keep) → size (tFmt p.a) = 2 → e.stage = .started → e.left = 0 → e.todo ≠ [] → served s (some 0) →
    free s → s.cmd.unit = arbiterOf s 0 →
    ∃ t taken, exec .arbiterDecision s = .next t ∧
      t.k = { s.k with mvuq := { e with left := 1, taken := taken } :: rest } ∧ t.ctx = s.ctx ∧ t.mem = s.mem) ∧
  (∀ (e : Entry) (rest : List Entry) (s : State), here s → queued s e rest → s.k.unreleased = [] →
    (e.stage ≠ .finished → exec .mvuEntryRetire s = .next s) ∧
    (e.stage = .finished → e.result.fault = none → e.result.zs = [] → e.squashed = false →
      let s1 := flagged { s with k := { s.k with mvuq := rest } } e.result.flags
      (∀ d v, e.result.scalar = some (d, v) → exec .mvuEntryRetire s = .next (put s1 d v)) ∧
      (∀ f, e.result.scalar = none → e.instr = .kpop f → e.guard = false →
        exec .mvuEntryRetire s = .next (passed s1 f.d)) ∧
      (e.result.scalar = none → (∀ f, e.instr ≠ .kpop f) → exec .mvuEntryRetire s = .next s1)) ∧
    (∀ cause addr, e.stage = .finished → e.result.fault = some (cause, addr) →
      ∃ p : Pending, p.cause = cause ∧ p.source = 0 ∧ p.addr = e.pc ∧ p.seq = e.seq ∧
        exec .mvuEntryRetire s = .next { s with k := { s.k with mvuq := [], pending := ranked s.k.pending p } }))

namespace Sys2Proof.Claims

/-- A channel of the core goes on with an empty queue when its fault is taken, and what waits for room in it is released (R346,
R279). -/
def afterFault (s : State) (source : Nat) : State :=
  if 1 ≤ source ∧ source ≤ 8 then
    (onChan s (source - 1)
      (fun c => { c with queue := [], stopped := false, held := false, pfhold := false, waiting := none })).release
  else if source = 9 then s.restartUnit 9
  else s

/-- The instruction at the PC has not issued (R29, R420): a CPY stalled for room has (R426). -/
def notIssued (s : State) : Prop :=
  s.ctx.hold = none ∨ s.ctx.hold = some .operand ∨ s.ctx.hold = some .dispatchFull

/-- A VRED4's fault taken before any later instruction has issued: the VRED4 is to restart (R77). -/
def restarted (s : State) (p : Pending) : Bool := p.restart && s.ctx.pc == parcelsAfter p.addr 2

/-- Entry by an asynchronous fault (R416, R420) from the state in which its unit goes on: the PC saved is that of the boundary, or of
a VRED4 that restarts; TRAPADDR and TRAPSEQ name the launching instruction. -/
def interrupted (t : State) (p : Pending) : State :=
  { t with
    ctx := { t.ctx with
      pc := t.k.trapvec
      retired := if restarted t p then t.ctx.retired - 1 else t.ctx.retired
      hold := none
      entry := false }
    k := { t.k with
      trapcause := BitVec.ofNat 64 (2 ^ 63 + 2 ^ 16 + p.sub * 2 ^ 8 + p.cause)
      trapaddr := p.addr
      trappc := if restarted t p then p.addr else t.ctx.pc
      trapseq := p.seq.setWidth 64 } }

/-- The contexts of a core that is pre-empted stand at boundaries, its engines at stopping points, and no fault is due (R426, R430). -/
def mayEnd (s : State) : Prop :=
  (∀ c ∈ s.ctx :: s.k.peers, c.midInstr = false) ∧ s.atStop = true ∧ (s.k.pending = [] ∨ s.takesFault = false)

/-- The PC that a save records: that of a VRED4 that has not done its work, which is to restart (R77, R426). -/
def savedPc (s : State) : Word :=
  match s.k.mvuq.find? (fun e => e.guard && e.stage == .waiting && reduces4 e.instr) with
  | some e => e.pc
  | none => s.ctx.pc

/-- PREEMPT when a request is over: the core and the result code (R425, R450). -/
def preemptDone (s t : State) (part code : Nat) : Prop :=
  t.hw.preempting = none ∧ (t.parts.getD part {}).preempt = BitVec.ofNat 64 (s.coreNo + code * 2 ^ 32)

/-- The message that a member leaves its scope (R28). -/
def leaving (part scope : Nat) : Instr × Cmd := (Instr.memberLeave, { part := part, unit := scope })

/-- A record's fields changed by an arrival (R228): JOIN, ARRIVED, which a launch record has not (R217), and, for an absorbing
one, ABS. -/
def arrived (r : Rec) (slot : Nat) (absorbing : Bool) : Rec :=
  let b : Word512 := if r.img.getLsbD 244 then r.img else setBits r.img (288 + slot) 1 1
  let a : Word512 := setBits b 256 16 (bits r.img 256 16 - 1)
  { r with img := if absorbing ∧ r.state = .waiting then setBits a (304 + slot) 1 1 else a }

end Sys2Proof.Claims

/-- R420, R416, R418, R77: at an instruction boundary the oldest pending fault is taken, by the entry that a precise trap uses, with
ASYNC set; while an instruction that has issued waits, between two iterations of a loop, or while HACT is set, none is.
When nothing is taken is log 27, the restart of a VRED4 log 21. -/
def Obligations.AsyncFaults : Prop :=
  ∀ (p : Pending) (rest : List Pending) (s : State), s.k.pending = p :: rest →
    let t := afterFault { s with k := { s.k with pending := rest } } p.source
    (s.ctx.live = true → notIssued s → hasHandler s → hasHandler t → (p.cause < 22 ∨ p.cause = 23) → p.sub < 256 →
      exec .asyncFaultTaken s = .next (interrupted t p)) ∧
    ((¬ notIssued s ∨ s.k.trapcause.getLsbD 63 = true ∨ s.ctx.slot ≠ 15 ∨ s.ctx.live = false ∨
      s.loopAt .starting = true ∨ s.loopAt .complete = true) → exec .asyncFaultTaken s = .next s)

/-- R22, R28, R235, R410, R411, R425 to R430, R435: a task whose TDONE has drained retires: its core is idle, its slot is free
with the next generation, its scope is told. PREEMPT asks a core of the partition that is not yet asked, and answers 1 for an
idle one. A pre-emption saves the task in a Locket, Ready, or is refused with 1, 2 for a task without a slot whose queue has no
free one, or 3. A window is discarded at its end. A member's leaving is counted in its scope, and the last one's completes a closed job. -/
def Obligations.TaskEvents : Prop :=
  (∀ (s : State), here s →
    ((s.ctx.hold ≠ some .done ∨ s.k.mvuq ≠ [] ∨ s.k.peers ≠ [] ∨ s.k.tierins ≠ []) → exec .taskRetire s = .next s) ∧
    (s.ctx.hold = some .done → s.drained = true → ntFree s → s.k.window = none → ∃ t, exec .taskRetire s = .next t ∧
      t.ctx = {} ∧ t.k = {} ∧ t.coreNo = s.coreNo ∧ leaving s.task.part s.task.scope ∈ t.inflight ∧
      (∀ tag, s.task.tag = some tag → t.record? (tagQueue tag) (tagSlot tag) = none ∧
        t.genOf (tagQueue tag) (tagSlot tag) = s.genOf (tagQueue tag) (tagSlot tag) + 1))) ∧
  (∀ (s : State), s.cmd.part < 16 → bits s.cmd.value 0 10 = s.coreNo → s.coreNo < 768 →
    let pt := s.parts.getD s.cmd.part {}
    ((pt.preempt.getLsbD 63 = true ∨ pt.clusters.getLsbD (s.coreNo / 16) = false) → exec .preempt s = .next s) ∧
    (pt.preempt.getLsbD 63 = false → pt.clusters.getLsbD (s.coreNo / 16) = true →
      ∃ t, exec .preempt s = .next t ∧ t.ctx = s.ctx ∧ t.k = s.k ∧ t.mem = s.mem ∧
        (s.k.task = none → preemptDone s t s.cmd.part 1) ∧
        (s.k.task ≠ none → t.hw = { s.hw with preempting := some { part := s.cmd.part } } ∧
          (t.parts.getD s.cmd.part {}).preempt = BitVec.ofNat 64 (2 ^ 63 + s.coreNo)))) ∧
  (∀ (s : State) (part : Nat), here s → s.hw.preempting = some { part := part } → part < 16 →
    (∀ w, s.k.window = some w → w.opened = true → exec .preemptSaveComplete s = .next s) ∧
    (¬ mayEnd s → exec .preemptSaveComplete s = .next s) ∧
    (s.k.window = none → mayEnd s →
      (s.k.task = none → ∃ t, exec .preemptSaveComplete s = .next t ∧ preemptDone s t part 1 ∧ t.ctx = s.ctx ∧ t.k = s.k) ∧
      (∀ k, s.k.task = some k → k.tag = none → s.freeSlotOf k.queue = none →
        ∃ t, exec .preemptSaveComplete s = .next t ∧ preemptDone s t part 2 ∧ t.ctx = s.ctx ∧ t.k = s.k) ∧
      (∀ k tag, s.k.task = some k → k.tag = some tag →
        ((s.parts.getD k.part {}).freeLocket = none →
          ∃ t, exec .preemptSaveComplete s = .next t ∧ preemptDone s t part 3 ∧ t.ctx = s.ctx ∧ t.k = s.k) ∧
        (∀ n, (s.parts.getD k.part {}).freeLocket = some n →
          let at' := (s.parts.getD k.part {}).locketAddr n
          ∃ t r sv, exec .preemptSaveComplete s = .next t ∧ preemptDone s t part 0 ∧ t.ctx = {} ∧ t.k = {} ∧
            t.record? (tagQueue tag) (tagSlot tag) = some r ∧ r.state = .ready ∧ r.locket = some at' ∧
            r.core = some s.coreNo ∧ Tbl.find t.lockets at' = some sv ∧ sv.ctx.pc = savedPc s ∧ sv.ctx.regs = s.ctx.regs ∧
            sv.ctx.preds = s.ctx.preds ∧ sv.k.strands = s.k.strands ∧ sv.k.tens = s.k.tens ∧ sv.reason = 1)))) ∧
  (∀ (s : State) (w : Window), here s → s.k.window = some w → w.opened = true →
    let ended := decide (w.t0 + w.lead + w.nslot * w.slen ≤ s.cycle.toNat)
    (ended = false → exec .windowEndDiscard s = .next s) ∧
    (ended = true → s.hw.preempting ≠ none → s.ctx.hold = none →
      exec .windowEndDiscard s = .next { s with
        k := { s.k with window := none }
        hw := { s.hw with icache := s.hw.icache.map (fun l => { l with locked := false }) } })) ∧
  (∀ (s : State), s.cmd.part < 16 →
    let c := Tbl.getD (s.parts.getD s.cmd.part {}).scopes s.cmd.unit {}
    let fr : Option Word512 := if s.cmd.flag then some (BitVec.ofNat 512 (natOfBytes s.cmd.bytes)) else none
    let c1 : Scope := { c with
      count := c.count - 1
      faulted := c.faulted || s.cmd.flag
      first := c.first.or fr
      nfault := min 65535 (c.nfault + s.cmd.flag.toNat) }
    (c.state = .free → exec .memberLeave s = .next s) ∧
    (c.state ≠ .free → s.cmd.value = 1 → exec .memberLeave s = .next (s.settleScope s.cmd.part s.cmd.unit)) ∧
    (s.cmd.value ≠ 1 → (c.state = .opened ∨ c.state = .complete ∨ (c.state = .closed ∧ 1 < c.count)) →
      let pt := s.parts.getD s.cmd.part {}
      exec .memberLeave s = .next { s with parts := s.parts.setIfInBounds s.cmd.part { pt with
        scopes := Tbl.put pt.scopes s.cmd.unit c1 } }) ∧
    (s.cmd.value ≠ 1 → c.state = .closed → c.count ≤ 1 → c.kind = 4 → c.desc = none → s.cmd.unit ≠ 0 →
      ∃ t, exec .memberLeave s = .next t ∧
        Tbl.getD (t.parts.getD s.cmd.part {}).scopes s.cmd.unit {} = { c1 with state := .complete }))

/-- R208, R211, R214, R219, R228, R229, R398: a doorbell's packet is read, once its page and its lines are there, accepted or
refused, and answered in its STATUS.
That a doorbell whose packet lies in the second tier asks for the page and waits is the model's choice (log 16: R255 does not name
packet reads). An idle core starts the record it pops, from the images: CODE, FRAME, the tag, registers, predicates, masks, tensors. A core is
reserved for a phased record, which waits for all its cores. An arrival counts down JOIN and readies the record at 0 or, for a
record that needs no more, at once, with a withdrawal to each of its producers: also where that arrival is the last (R228,
log 26). A withdrawal counts down DEMAND and cancels an unwanted producer. The waits of a doorbell are logs 29 and 34. -/
def Obligations.QueueEvents : Prop :=
  (∀ (s : State), s.cmd.unit < 8 →
    (s.engineOwner s.cmd.unit = none → exec .launchdoor s = .next s) ∧
    (∀ p, s.engineOwner s.cmd.unit = some p → s.replayOn p = false →
      let va := s.cmd.value
      let answers := fun (x : State) (w : Word) =>
        (∀ t, x.engineWrite p (va + 120) w = .ok t → exec .launchdoor s = .next t) ∧
        (∀ e, x.engineWrite p (va + 120) w = .error e → exec .launchdoor s = .next (x.noteFault p e))
      (s.doorbellWaits p va = true → exec .launchdoor s =
        .next { s with inflight := s.inflight ++ [(Instr.launchdoor, { unit := s.cmd.unit, value := va })] }) ∧
      (s.doorbellWaits p va = false →
        (∀ leaf at', s.engineRead p va 16 = .error (.tierMiss leaf at') → exec .launchdoor s =
          .next (let t := s.askPageIn p leaf at'
            { t with inflight := t.inflight ++ [(Instr.launchdoor, { unit := s.cmd.unit, value := va })] })) ∧
        (∀ r, s.engineRead p va 16 = .error r → (∀ leaf at', r ≠ .tierMiss leaf at') →
          answers (s.noteFault p r) (failure 9)) ∧
        (∀ bs, s.engineRead p va 16 = .ok bs →
          let pkt : BitVec 1024 := BitVec.ofNat 1024 (natOfBytes bs)
          (∀ c, s.acceptLaunch p va pkt = .error c → answers s (failure c)) ∧
          (∀ n s1, s.acceptLaunch p va pkt = .ok (n, s1) → answers s1 (BitVec.ofNat 64 n)))))) ∧
  (∀ (s : State), s.cmd.core = s.coreNo → s.ctx.slot = 15 → s.hw.reservation = none → s.hw.tracectl.getLsbD 0 = false →
    (s.ctx.live = true → exec .dispatch s = .next s) ∧
    (s.isIdle s.coreNo = true →
      (s.popOf s.coreNo s.hw.serveq = none → exec .dispatch s = .next s) ∧
      (∀ q slot, s.popOf s.coreNo s.hw.serveq = some (.reserve q slot) →
        ∃ t, exec .dispatch s = .next t ∧ t.hw = { s.hw with reservation := some (q, slot) } ∧
          { t with hw := s.hw, others := s.others } = s) ∧
      (∀ p q slot r, s.popOf s.coreNo s.hw.serveq = some (.take q slot r) → s.corePart s.coreNo = some p →
        s.headerWaits p r = true → exec .dispatch s = .next s) ∧
      (∀ p q slot r, s.popOf s.coreNo s.hw.serveq = some (.take q slot r) → s.corePart s.coreNo = some p →
        s.headerWaits p r = false → r.img.getLsbD 244 = false → r.locket = none → r.dep = none →
        r.helpAddr = s.hw.helperAddr → r.hlines = s.hw.helperLines →
        let s1 := s.putRec q slot (runningRec r s.coreNo)
        let tag := tagOf q slot (s.genOf q slot)
        let frame : Word := BitVec.ofNat 64 (bits r.img 64 64)
        ∀ rb tb u, s1.readImage p r.regsAddr 128 = .ok (.ok rb) → s1.readImage p r.tensAddr 512 = .ok (.ok tb) →
          regsRefused rb = false → (tensorsOf tb).any entryRefused = false →
          s1.engineWords p frame [BitVec.ofNat 64 (bits r.img 288 32), r.cons] = .ok u →
          ∃ t, exec .dispatch s = .next t ∧ t.mem = u.mem ∧ t.ctx.live = true ∧ t.ctx.slot = 15 ∧
            t.ctx.pc = BitVec.ofNat 64 (bits r.img 0 64) ∧
            (∀ i : Fin 32, t.ctx.regs.get i =
              if i.val = 1 then tag else if i.val = 2 then frame else dwordOf rb (8 * i.val)) ∧
            t.ctx.preds = BitVec.ofNat 8 (bits (dwordOf rb 768) 0 8) ∧ t.ctx.srseed = dwordOf rb 808 ∧
            t.ctx.retired = 0 ∧ t.ctx.region = 0 ∧ t.ctx.fpflags = 0 ∧ t.ctx.hold = none ∧
            t.k.heapbase = dwordOf rb 776 ∧ t.k.heaplim = dwordOf rb 784 ∧ t.k.heapoff = dwordOf rb 792 ∧
            t.k.trapvec = dwordOf rb 800 ∧ t.k.trapcause = 0 ∧ t.k.engseq = 0 ∧ t.k.mvuq = [] ∧ t.k.peers = [] ∧
            (∀ i : Fin 64, t.k.tens.get i = (tensorsOf tb).getD i.val 0) ∧ (∀ i : Fin 32, t.k.strands.get i = {}) ∧
            (∃ k, t.k.task = some k ∧ k.tag = some tag ∧ k.part = p ∧ k.scope = bits r.img 248 8) ∧
            t.record? q slot = some (runningRec r s.coreNo)))) ∧
  (∀ (s : State), (s.phasedChoice s.cmd.part = none → exec .phasedDispatch s = .next s) ∧
    (∀ q slot r, s.phasedChoice s.cmd.part = some (q, slot, r) →
      let n := packetCount r.packet
      let may := s.partRuns s.cmd.part = true ∧ n ≤ (s.reservedCores q slot).length ∧ s.headersWait s.cmd.part n r = false
      (¬ may → exec .phasedDispatch s = .next s) ∧
      (may → s.imagesThere s.cmd.part q n r = .ok () →
        ∃ t, exec .phasedDispatch s = .next t ∧ ∀ c, (t.hwOf c).reservation ≠ some (q, slot)) ∧
      (∀ leaf va, may → s.imagesThere s.cmd.part q n r = .error (leaf, va) →
        exec .phasedDispatch s =
          .next ((s.askPageIn s.cmd.part leaf va).putRec q slot { r with onLeaf := some leaf })))) ∧
  (∀ (s : State), let tag := s.cmd.tag
    let q := tagQueue tag
    let n := tagSlot tag
    ((s.byTag tag = none ∨ s.queueForeign s.cmd.part q = true ∨ 16 ≤ s.cmd.unit) → exec .arrival s = .next s) ∧
    (∀ r, s.byTag tag = some r → s.queueForeign s.cmd.part q = false → s.cmd.unit < 16 →
      let r1 := arrived r s.cmd.unit s.cmd.flag
      let needless := r.img.getLsbD 243 && s.cmd.flag && r.img.getLsbD (272 + s.cmd.unit)
      (r.state ≠ .waiting → exec .arrival s = .next (s.putRec q n r1)) ∧
      (r.state = .waiting → bits r.img 256 16 ≤ 1 → needless = false →
        exec .arrival s = .next (s.putRec q n { r1 with state := .ready, readyAt := s.cycle.toNat })) ∧
      (r.state = .waiting → 1 < bits r.img 256 16 → needless = false → exec .arrival s = .next (s.putRec q n r1)) ∧
      (r.state = .waiting → needless = true →
        ∃ t, exec .arrival s = .next t ∧ t.record? q n = some { r1 with state := .ready, readyAt := s.cycle.toNat } ∧
          ∀ lo, (lo = 320 ∨ lo = 352) → bits r.img lo 32 ≠ 0 → ∃ c : Cmd, (Instr.withdrawal, c) ∈ t.inflight ∧
            c.value = BitVec.ofNat 64 (bits r.img lo 32)))) ∧
  (∀ (s : State), s.cmd.value.toNat < 2 ^ 32 →
    let q := bits s.cmd.value 20 9
    let n := bits s.cmd.value 0 20
    let current := bits (s.genOf q n) 0 3 = bits s.cmd.value 29 3
    ((s.record? q n = none ∨ ¬ current) → exec .withdrawal s = .next s) ∧
    (∀ r, s.record? q n = some r → current → r.dep = none →
      let left := bits r.img 236 4 - 1
      let r1 : Rec := { r with img := setBits r.img 236 4 left }
      (left ≠ 0 → exec .withdrawal s = .next (s.putRec q n r1)) ∧
      (left = 0 → r.state = .parked → exec .withdrawal s = .next (s.putRec q n { r1 with wdq := r.wdq ||| 2 })) ∧
      (left = 0 → r.state = .running → r.core = some s.coreNo →
        exec .withdrawal s = .next (let t := s.putRec q n r1
          { t with k := { t.k with task := s.k.task.map (fun k => { k with wdq := k.wdq ||| 2 }) } })) ∧
      (left = 0 → (r.state = .waiting ∨ r.state = .ready) →
        ∃ t, exec .withdrawal s = .next t ∧ t.record? q n = none ∧ t.genOf q n = s.genOf q n + 1 ∧
          (r.img.getLsbD 244 = false → leaving (bits (Tbl.getD s.queues q {}).ctl 52 4) (bits r.img 248 8) ∈ t.inflight))))

namespace Sys2Proof.Claims

/-- No TIERIN is pending on any core. -/
def noTierins (s : State) : Prop := s.k.tierins = [] ∧ ∀ e ∈ s.others, e.2.k.tierins = []

/-- The word of a page-table entry at a physical address, as memory holds it (R240). -/
def entryAt (s : State) (at' : Nat) : Word := BitVec.ofNat 64 (Mem.readLE s.mem at' 8)

/-- The entry of a page that has moved: its new frame and its new home (R253). -/
def newEntry (pg : Page) : Word := setBits (setBits pg.oldLeaf 16 36 (pg.newFrame / 65536)) 10 6 pg.target

/-- The entry of a page that has come in: TIER 0 and its new frame, all else as the page-in has found it (R256). -/
def cameIn (e : Word) (frame : Nat) : Word := setBits (setBits e 59 2 0) 16 36 (frame / 65536)

/-- The entry of a page that has gone out: TIER 1 and its frame in the second tier (R257). -/
def wentOut (pg : Page) : Word := setBits (setBits pg.oldLeaf 59 2 1) 16 36 (pg.newFrame / 65536)

/-- A range of memory shares no byte with a free pool (R256) or with the slot of a record (R211). -/
def aside (s : State) (a n : Nat) : Prop :=
  (∀ p i, bits (s.part p).freepool 12 40 ≠ 0 → i < (s.part p).poolSize → (s.part p).poolEntry i + 8 ≤ a ∨ a + n ≤ (s.part p).poolEntry i) ∧
  (∀ q slot r, s.record? q slot = some r →
    let x := s.slotsAt (s.queue q) + 64 * slot
    s.slotsAt (s.queue q) = 0 ∨ x + 64 ≤ a ∨ a + n ≤ x)

/-- An entry and a frame that nothing else is written to: neither meets the other, a pool, or a record's slot. -/
def alone (s : State) (at' frame : Nat) : Prop :=
  (at' + 8 ≤ frame ∨ frame + 65536 ≤ at') ∧ aside s at' 8 ∧ aside s frame 65536

/-- The frame `new` of `t` holds the 64 KiB that the frame `old` of `s` holds. -/
def copied (s t : State) (old new : Nat) : Prop := ∀ i, i < 65536 → Mem.get t.mem (new + i) = Mem.get s.mem (old + i)

/-- The state in which every STNT to a frame has been performed (R253, R257). -/
def performed (s : State) (frame : Nat) : State := s.drainEverywhere (HeldByte.lies (inFrame frame))

/-- A page that waits for a frame for which its partition has been asked (R256). -/
def starving (s : State) (pg : Page) : Bool := pg.starved.any (s.poolAsked pg.part)

/-- A walk's leaf is a page that may move or change its tier (R249). -/
def movablePage (e : Word) (level : Nat) : Prop := level = 0 ∧ leafPin e = false

/-- No translation, and no cached line, of the range is left on the core in focus. -/
def forgotten (t : State) (part lo n : Nat) : Prop :=
  (∀ x ∈ t.hw.tlb, x.part = part → x.base + x.size ≤ lo ∨ lo + n ≤ x.base) ∧
  (∀ x ∈ t.hw.icache, x.va + 64 ≤ lo ∨ lo + n ≤ x.va)

end Sys2Proof.Claims

/-- R250, R255 to R257: PAGEDONE ends its request and returns the task parked on it to the head of its queue, Ready. A page-in copies the
page to a frame of HBM and, unless software has changed the entry meanwhile, gives the entry TIER 0 and that FRAME; it lets every
waiting task go on, or asks for frames. A page-out takes a second-tier frame and marks the entry TIER 2; its end copies the page there and
gives the entry TIER 1 and that FRAME, and returns the page to rest, or to a page-in that was asked for meanwhile. -/
def Obligations.PageEvents : Prop :=
  (∀ (s : State), s.cmd.part < 16 →
    let seq : BitVec 32 := BitVec.ofNat 32 s.cmd.value.toNat
    let reqs := (s.parts.getD s.cmd.part {}).requests
    ((∀ r ∈ reqs, r.seq ≠ seq) → exec .pagedone s = .next s) ∧
    (∀ r, reqs.find? (fun r => r.seq == seq) = some r →
      ∃ t, exec .pagedone s = .next t ∧ (∀ x ∈ (t.parts.getD s.cmd.part {}).requests, x.seq ≠ seq) ∧ t.ctx = s.ctx ∧
        t.k = s.k ∧
        ∀ tag x, r.parked = some tag → s.byTag tag = some x → x.state = .parked → x.onLeaf = none →
          ∃ y, t.record? (tagQueue tag) (tagSlot tag) = some y ∧ y.state = .ready ∧ y.readyAt = s.cycle.toNat ∧
            y.headRank = s.names ∧ y.img.getLsbD 242 = true ∧ y.locket = x.locket)) ∧
  (∀ (s : State), noTierins s →
    let at' := s.cmd.addr
    let pg := s.page at'
    let e := pg.oldLeaf
    ((pg.stage ≠ .pageIn ∨ s.isStranded at' = true ∨ (bits e 0 2 = 2 ∧ leafTier e = 1 ∧ starving s pg = true)) →
      ∃ t, exec .pageInComplete s = .next t ∧ t.mem = s.mem ∧ t.pages = s.pages) ∧
    (pg.stage = .pageIn → s.isStranded at' = false → bits e 0 2 = 2 → leafTier e = 1 → starving s pg = false →
      let fits := fun (f : Nat) => s.hbmOwned pg.part f && modOf f == s.modNo && dieOf f == leafHome e / 24
      (∀ f s1, s.takeFrame pg.part fits = some (f, s1) →
        ∃ t, exec .pageInComplete s = .next t ∧ (t.page at').stage = .none ∧
          (∀ q n r, t.record? q n = some r → r.onLeaf ≠ some at') ∧
          (s.mem.wf = true → leafChk e = false → alone s at' f →
            copied s1 t (leafFrame e) f ∧ (entryAt s1 at' = e → entryAt t at' = cameIn e f) ∧
            (entryAt s1 at' ≠ e → entryAt t at' = entryAt s1 at'))) ∧
      (s.takeFrame pg.part fits = none → pg.part < 16 →
        ∃ t, exec .pageInComplete s = .next t ∧ (t.page at').stage = .pageIn ∧
          ∃ r ∈ (t.parts.getD pg.part {}).requests, r.pool = some (leafHome e / 24)))) ∧
  (∀ (s : State), canonical s.cmd.value = true → ∀ e at' level s1,
    s.walk s.cmd.part 0 s.cmd.value = (.leaf e at' level, s1) →
    let free := movablePage e level ∧ leafTier e = 0 ∧ (s1.page at').stage = .none
    (s1.page at').undone = false →
    (¬ free → exec .pageOutStart s = .next s1) ∧
    (free → s1.takeFrame s.cmd.part (s1.tierOwned s.cmd.part) = none → exec .pageOutStart s = .next s1) ∧
    (free → ∀ f s2, s1.takeFrame s.cmd.part (s1.tierOwned s.cmd.part) = some (f, s2) →
      ∃ t, exec .pageOutStart s = .next t ∧ (t.page at').stage = .pageOut ∧ (t.page at').newFrame = f ∧
        (t.page at').oldLeaf = e ∧ (t.page at').wanted = false ∧
        t.mem = Mem.writeLE s2.mem at' 8 (setBits e 59 2 2).toNat)) ∧
  (∀ (s : State), noTierins s →
    let at' := s.cmd.addr
    let pg := s.page at'
    pg.undone = false →
    let old := leafFrame pg.oldLeaf
    let busy := s.storesHeld (inFrame old) || s.linesWait old
    ((pg.stage ≠ .pageOut ∨ busy = true) →
      ∃ t, exec .pageOutCopyDone s = .next t ∧ t.mem = s.mem ∧ t.pages = s.pages) ∧
    (pg.stage = .pageOut → busy = false →
      ∃ t, exec .pageOutCopyDone s = .next t ∧ (t.page at').stage = (if pg.wanted then .pageIn else .none) ∧
        (t.page at').wanted = false ∧ (t.page at').readers = [] ∧
        let r := performed s old
        (entryAt r at' = setBits pg.oldLeaf 59 2 2 → r.mem.wf = true → leafChk pg.oldLeaf = false → alone s at' pg.newFrame →
          copied r t old pg.newFrame ∧ entryAt t at' = wentOut pg)))

/-- R246, R252 to R254, R258, R450: a move by firmware begins as PLACE's does; it takes a frame, and once drained it streams; its switch
copies the page and changes FRAME and HOME of the entry, unless software has changed the entry; its shoot-down ends it. Forwarded requests
send redirect notices, which replace translations. A settle ends, and an epoch restarts the counts. SHOOTDOWN is taken while
not BUSY; once no loop holds a store that its range has translated, and no STNT of the range waits at a line, it is done, and no
translation of the range is left. Acceptance and epochs are log 12, the switch as one act log 25, the walk entries log 7. -/
def Obligations.MoveEvents : Prop :=
  (∀ (s : State), canonical s.cmd.value = true → ∀ e at' level s1,
    s.walk s.cmd.part 0 s.cmd.value = (.leaf e at' level, s1) → leafTier e = 0 →
    let toMod := if s.cmd.flag then s.cmd.tag.toNat % 64 else s.modNo
    let may := movablePage e level ∧ s.cmd.unit < 48 ∧
      (toMod ≠ s.modNo ∨ s1.ownsCluster s.cmd.part s.cmd.unit = true)
    let code := moveCode s1 (s1.page at') e toMod s.cmd.unit
    (¬ may → exec .migrationRequest s = .next s1) ∧
    (may → ∃ t, exec .migrationRequest s = .next t ∧
      (code = 0 → moving (t.page at') toMod s.cmd.unit ∧ (t.page at').oldLeaf = e) ∧
      (code ≠ 0 → t.mem = s1.mem ∧ (t.page at').stage = (s1.page at').stage))) ∧
  (∀ (s : State), let at' := s.cmd.addr
    let pg := s.page at'
    let fits := fun (f : Nat) => s.hbmOwned pg.part f && modOf f == pg.targetMod && dieOf f == pg.target / 24
    ((pg.stage ≠ .waiting ∧ (pg.stage ≠ .holding ∨ s.linesWait (leafFrame pg.oldLeaf) = true)) →
      exec .migrationDrained s = .next s) ∧
    (pg.stage = .waiting → starving s pg = false →
      ∀ f s1, s.takeFrame pg.part fits = some (f, s1) →
        ∃ t, exec .migrationDrained s = .next t ∧ (t.page at').stage = .holding ∧ (t.page at').newFrame = f) ∧
    (pg.stage = .holding → s.linesWait (leafFrame pg.oldLeaf) = false →
      ∃ t, exec .migrationDrained s = .next t ∧ (t.page at').stage = .streaming ∧ (t.page at').newFrame = pg.newFrame)) ∧
  (∀ (s : State), let at' := s.cmd.addr
    let pg := s.page at'
    let old := leafFrame pg.oldLeaf
    let r := performed s old
    ((pg.stage ≠ .streaming ∨ s.linesWait old = true) → exec .migrationStreamDone s = .next s) ∧
    (pg.stage = .streaming → s.linesWait old = false → entryAt r at' ≠ pg.oldLeaf →
      ∃ t, exec .migrationStreamDone s = .next t ∧ (t.page at').stage = .none) ∧
    (pg.stage = .streaming → s.linesWait old = false → entryAt r at' = pg.oldLeaf → leafChk pg.oldLeaf = false →
      r.mem.wf = true → (at' + 8 ≤ pg.newFrame ∨ pg.newFrame + 65536 ≤ at') →
      ∃ t, exec .migrationStreamDone s = .next t ∧ (t.page at').stage = .forwarding ∧
        entryAt t at' = newEntry pg ∧ copied r t old pg.newFrame)) ∧
  (∀ (s : State), let at' := s.cmd.addr
    let pg := s.page at'
    let held := s.pagedHeld pg.part (pg.va.toNat / 65536 * 65536) 65536
    ((pg.stage ≠ .forwarding ∨ held = true) → exec .migrationShootdownDone s = .next s) ∧
    (pg.stage = .forwarding → held = false → ∃ t, exec .migrationShootdownDone s = .next t ∧ (t.page at').stage = .none ∧
      (s.ownsCluster pg.part (s.coreNo / 16) = true → forgotten t pg.part (pg.va.toNat / 65536 * 65536) 65536))) ∧
  (∀ (s : State), let at' := s.cmd.addr
    (∀ n, (s.page at').settle = some n →
      (s.cycle.toNat < n → exec .settleEnd s = .next s) ∧
      (n ≤ s.cycle.toNat → ∃ t, exec .settleEnd s = .next t ∧ (t.page at').settle = none ∧ (t.page at').history = [] ∧
        t.mem = s.mem)) ∧
    (let past := s.cycle.toNat / 2 ^ Config.epochLog
     (s.mod.epochs < past → exec .epochEnd s = .next { s with
       pages := s.pages.map (fun e => (e.1, { e.2 with near := [] }))
       mod := { s.mod with epochs := past } }) ∧
     (past ≤ s.mod.epochs → exec .epochEnd s = .next s)) ∧
    (let pg := s.page at'
     pg.stage = .forwarding → exec .forwardedRequest s = .next { s with inflight := s.inflight ++
      [(Instr.redirectNotice, { core := s.cmd.core, part := pg.part, addr := at', value := newEntry pg, tag := pg.oldLeaf })] }) ∧
    ((s.page at').stage ≠ .forwarding → exec .forwardedRequest s = .next s) ∧
    (s.cmd.core = s.coreNo →
      ∃ u, exec .redirectNotice s = .next u ∧
        { u with translated := s.translated } = { s with hw := { s.hw with tlb := s.hw.tlb.map (fun t =>
          if t.leafAt = at' ∧ t.part = s.cmd.part ∧ t.leaf = s.cmd.tag then
            { t with leaf := s.cmd.value, checked := leafChk s.cmd.value && s.hasBlock (leafFrame s.cmd.value), refused := [] }
          else t) } })) ∧
  (∀ (s : State), s.cmd.part < 16 →
    let pt := s.parts.getD s.cmd.part {}
    let count := bits pt.shootdown 0 32
    let first := ((BitVec.ofNat 57 pt.sdStart.toNat).signExtend 64).toNat
    let held := s.pagedHeld s.cmd.part first (count * 65536) || s.ntWaits (HeldByte.paged first (count * 65536))
    (pt.shootdown.getLsbD 63 = true → exec .shootdown s = .next s) ∧
    (pt.shootdown.getLsbD 63 = false → ∃ t, exec .shootdown s = .next t ∧ t.mem = s.mem ∧ t.hw = s.hw ∧
      (t.parts.getD s.cmd.part {}).shootdown = BitVec.ofNat 64 (2 ^ 63 + bits s.cmd.value 0 32) ∧
      (t.parts.getD s.cmd.part {}).sdStart = pt.sdva) ∧
    ((pt.shootdown.getLsbD 63 = false ∨ held = true) →
      exec .shootdownComplete s = .next s) ∧
    (pt.shootdown.getLsbD 63 = true → held = false →
      ∃ t, exec .shootdownComplete s = .next t ∧ (t.parts.getD s.cmd.part {}).shootdown = BitVec.ofNat 64 count ∧
        t.walks = [] ∧
        (s.ownsCluster s.cmd.part (s.coreNo / 16) = true →
          forgotten t s.cmd.part first (count * 65536))))

namespace Sys2Proof.Claims

/-- An access record of a 64-byte granule (R372); an unlisted one names no context. -/
def granule (s : State) (g : Nat) : Word := Tbl.getD s.records g 0xFFFFF000FFFFF000

/-- A field of a record, its identity at bit `lo` + 12 and its tag at bit `lo` + 1, names no context, an application core, or
an open region (R372, R375, R445). -/
def namesOpen (s : State) (r : Word) (lo : Nat) : Prop :=
  bits r (lo + 12) 20 = 0xFFFFF ∨ bits r (lo + 12) 4 = 14 ∨ s.regionOpen (bits r (lo + 12) 20) (bits r (lo + 1) 11) = true

/-- A field of a record, as above, names an application core or an open region. -/
def staysOpen (s : State) (r : Word) (lo : Nat) : Prop :=
  bits r (lo + 12) 4 = 14 ∨ s.regionOpen (bits r (lo + 12) 20) (bits r (lo + 1) 11) = true

/-- A request of another module for an unchecked page, as its command carries it (R460; the encoding is the model's, log 33):
operation 0 reads, 1 writes, 2 + FN is an atomic. -/
def remote (c : Cmd) : LineReq :=
  { ident := c.core % 2 ^ 20
    tag := if c.flag then some (c.unit / 2 ^ 16 % 2048) else none
    addr := c.addr
    size := c.unit / 4096 % 16
    ty := BitVec.ofNat 4 (c.unit / 16)
    sat := c.unit / 256 % 2 == 1
    op := c.unit % 16
    value := c.value
    expect := c.tag }

/-- What a request leaves in memory (R373, R387). -/
def served1 (s : State) (r : LineReq) : Mem :=
  let n := r.size
  let old := Mem.readLE s.mem r.addr n
  if r.op = 0 then s.mem
  else if r.op = 1 then Mem.writeLE s.mem r.addr n r.value.toNat
  else match (atomicNew (r.op - 2) r.ty r.sat old (r.value.toNat % 2 ^ (8 * n)) (r.expect.toNat % 2 ^ (8 * n))).1 with
    | some v => Mem.writeLE s.mem r.addr n v
    | none => s.mem

/-- A request writes: it is a store, or an atomic that has a new value (R385 to R387). -/
def wrote1 (s : State) (r : LineReq) : Prop :=
  let n := r.size
  r.op = 1 ∨ 2 ≤ r.op ∧ (atomicNew (r.op - 2) r.ty r.sat (Mem.readLE s.mem r.addr n) (r.value.toNat % 2 ^ (8 * n))
    (r.expect.toNat % 2 ^ (8 * n))).1.isSome = true

/-- Start of the home map (R448). -/
def mapAt (s : State) : Nat := bits s.mod.homemap 12 40 * 4096

end Sys2Proof.Claims

/-- R243, R253, R363, R372 to R375, R383, R384, R387, R445, R448, R460: what homes do, each event completing from every state that it
names. HOME_ACCESS performs the oldest STNT of a core, all its bytes at once (log 5), or a write of an application core, whose identity
it leaves in the records of checked granules; either waits while requests wait at a held line of its bytes (log 34); a byte of the
home map whose bit 7 is set gives its region a record block.
REGION_NOTICE forgets the region of a context of another module. RECORD_CLEAR clears the fields that name ended regions, and no
other. REMOTE_REQUEST is performed, waits behind a held line, or stays on its way while its page moves; ATOMIC_ENGINE_REQUEST
serves the oldest request of a held line. RECFREE and SCOPEFREE release what system software names. Identities in
records are log 30, the dirty mark log 34, the form of a request log 33. -/
def Obligations.HomeEvents : Prop :=
  (∀ (s : State), s.cmd.bytes = [] → s.cmd.core = s.coreNo →
    (s.ctx.nt = [] → exec .homeAccess s = .next s) ∧
    ∀ h rest, s.ctx.nt = h :: rest → (∀ b ∈ s.ctx.nt, b.space = .globalMem) →
      let now := s.ctx.nt.filter (fun b => b.order == h.order)
      (now.any s.byteWaits = true → exec .homeAccess s = .next s) ∧
      (now.any s.byteWaits = false → ∃ t, exec .homeAccess s = .next t ∧ { t with hot := s.hot, before := s.before } = { s with
        mem := now.foldl (fun m b => Mem.set m b.addr b.byte) s.mem
        ctx := { s.ctx with nt := s.ctx.nt.filter (fun b => b.order != h.order) } })) ∧
  (∀ (s : State), s.cmd.bytes ≠ [] →
    let a := s.cmd.addr
    let n := s.cmd.bytes.length
    let here := a + n ≤ 2 ^ 52 ∧ modOf a = s.modNo ∧ ((inHbm a = true ∧ s.inView (a + n - 1) = true) ∨ inTier a = true)
    let awaited := ∃ g, a / 64 ≤ g ∧ g ≤ (a + n - 1) / 64 ∧ s.awaited (g * 64) = true
    let home := here ∧ ¬ awaited
    (¬ here → exec .homeAccess s = .next s) ∧
    (here → awaited → exec .homeAccess s = .next { s with inflight := s.inflight ++ [(.homeAccess, s.cmd)] }) ∧
    (home → (mapAt s = 0 ∨ a + n ≤ mapAt s ∨ mapAt s + 294912 ≤ a) →
      ∃ t, exec .homeAccess s = .next t ∧ t.mem = Mem.putBytes s.mem a s.cmd.bytes ∧ t.ctx = s.ctx ∧ t.k = s.k ∧
        ∀ g, a / 64 ≤ g → g ≤ (a + n - 1) / 64 →
          (s.recBlocks.contains (g * 64 / 2 ^ 21) = true →
            bits (granule t g) 44 20 = s.modNo * 2 ^ 14 + s.cmd.unit % 16 * 16 + 14 ∧
            bits (granule t g) 0 32 = bits (granule s g) 0 32) ∧
          (s.recBlocks.contains (g * 64 / 2 ^ 21) = false → granule t g = granule s g)) ∧
    (∀ b region, home → s.cmd.bytes = [b] → mapAt s ≠ 0 → region < 294912 → a = mapAt s + region →
      let block := s.modNo * 2 ^ 25 + region
      (b.getLsbD 7 = false → ∃ t, exec .homeAccess s = .next t ∧ t.mem = Mem.set s.mem a b ∧ t.recBlocks = s.recBlocks) ∧
      (b.getLsbD 7 = true → s.recBlocks.length < 294912 →
        ∃ t, exec .homeAccess s = .next t ∧ t.mem = Mem.set s.mem a b ∧ t.recBlocks.contains block = true))) ∧
  (∀ (s : State),
    (s.cmd.flag = true → exec .regionNotice s =
      .next { s with homeTags := s.homeTags.filter (fun e => e.1 != s.cmd.core) }) ∧
    (s.cmd.flag = false → exec .regionNotice s = .next s) ∧
    (∃ t, exec .recordClear s = .next t ∧
      { t with records := [] } = { s with records := [], mod := { s.mod with cleared := s.cycle.toNat } } ∧
      (∀ e ∈ t.records, namesOpen s e.2 32 ∧ namesOpen s e.2 0) ∧
      ∀ e ∈ s.records, staysOpen s e.2 32 → staysOpen s e.2 0 → e ∈ t.records)) ∧
  (∀ (s : State), let r := remote s.cmd
    let home := bits (Mem.get s.mem (mapAt s + r.addr % 2 ^ 46 / 2 ^ 21)) 0 6
    let may := s.cmd.core / 2 ^ 14 ≠ s.modNo ∧ modOf r.addr = s.modNo ∧ s.hbmOwned s.cmd.part r.addr = true ∧ 1 ≤ r.size ∧
      r.size ≤ 8
    (s.cmd.leaf = none → s.pages = [] → mapAt s = 0 → exec .remoteRequest s = .next s) ∧
    (s.cmd.leaf = none → s.pages = [] → mapAt s ≠ 0 → s.fenced = [] → s.poisoned = [] → s.cmd.unit / 2 ^ 27 % 2 = 0 →
      (¬ may → exec .remoteRequest s = .next s) ∧
      (may → Tbl.getD s.hot home [] = [] → s.waiters (2 * (r.addr / 64)) = [] →
        ∃ t, exec .remoteRequest s = .next t ∧ t.mem = served1 s r ∧ t.records = s.records) ∧
      (∀ l, may → Tbl.getD s.hot home [] = [l] → l.addr = r.addr / 64 → s.waitCount l.addr < 64 →
        let l1 := { l with waiting := l.waiting ++ [{ r with age := s.cycle.toNat }] }
        exec .remoteRequest s = .next { s with hot := Tbl.put s.hot home [l1] })) ∧
    (∀ leaf e, s.cmd.leaf = some leaf → s.leafAt leaf = e → bits e 0 2 = 2 → leafTier e = 0 →
      ((s.page leaf).stage = .holding ∨ (s.page leaf).stage = .streaming ∨ (s.page leaf).stage = .switching) →
      exec .remoteRequest s = .next { s with inflight := s.inflight ++ [(.remoteRequest, s.cmd)] })) ∧
  (∀ (s : State) (l : HotLine) (more : List HotLine), Tbl.getD s.hot s.cmd.unit [] = l :: more →
    (∀ x ∈ more, x.addr ≠ l.addr ∧ x.waiting = []) → more.length < 64 → s.waiters (2 * l.addr) = [] →
    (l.waiting = [] → exec .atomicEngineRequest s = .next s) ∧
    (∀ r rest, l.waiting = r :: rest → r.addr / 64 = l.addr → r.checked = false →
      ∃ t x, exec .atomicEngineRequest s = .next t ∧ t.mem = served1 s r ∧ t.records = s.records ∧
        Tbl.getD t.hot s.cmd.unit [] = x :: more ∧ x.addr = l.addr ∧ x.waiting = rest ∧
        (x.dirty = true ↔ l.dirty = true ∨ wrote1 s r))) ∧
  (∀ (s : State), let region := bits s.cmd.value 21 31
    (s.recBlocks.contains region = true → ∃ t, exec .recfree s = .next t ∧ t.recBlocks.contains region = false ∧
      (∀ g, g * 64 / 2 ^ 21 = region → granule t g = 0xFFFFF000FFFFF000) ∧
      (∀ g, g * 64 / 2 ^ 21 ≠ region → granule t g = granule s g)) ∧
    (s.recBlocks.contains region = false → exec .recfree s = .next s)) ∧
  (∀ (s : State), let i := bits s.cmd.value 0 8
    let p := bits s.cmd.value 8 4
    let c := Tbl.getD (s.parts.getD p {}).scopes i {}
    let may := s.scopeEngine p = some s.cmd.unit ∧ c.state = .complete ∧ i ≠ 0 ∧ (c.kind = 4 ∨ c.parent = 0)
    (¬ may → exec .scopefree s = .next s) ∧
    (may → ∃ t, exec .scopefree s = .next t ∧ Tbl.getD (t.parts.getD p {}).scopes i {} = {} ∧ t.mem = s.mem))


namespace Sys2Proof.Claims

/-- The control context of a core waits at an instruction that it has issued (R29). -/
def standsAt (s : State) (i : Instr) : Prop :=
  s.cmd.core = s.coreNo ∧ s.ctx.slot = 15 ∧ s.ctx.live = true ∧ decode s.ctx.ir.toList = .ok i ∧ s.k.loop.running = false

/-- A window of a domain as the release of the phase before its own leaves it: open, its timeline at this cycle (R401, R406). -/
def opening (k : Kern) (domain : Nat) (ph : BitVec 16) (now : Nat) : Kern :=
  { k with window := k.window.map (fun w =>
      if w.domain = domain ∧ w.phase = ph + 1 ∧ ¬ w.opened then { w with opened := true, t0 := now } else w) }

end Sys2Proof.Claims

/-- R344 to R346, R349, R354 to R356: a channel starts its oldest copy, or discards it while the channel is stopped; a copy whose elements do
not all lie in their buffers stops its channel, with a bounds fault pending. A delivered element is copied whole, the write
pointer counts its bytes, and the last one ends the copy. An indirect engine does one chunk of its oldest request, whose end
signals the event line; of a core with an unreported fault it discards the request. -/
def Obligations.EngineEvents : Prop :=
  (∀ (x : Copy) (rest : List Copy) (s : State), here s → s.cmd.unit < 8 →
    let n := s.cmd.unit
    let c := s.k.chans.getD n {}
    c.queue = x :: rest →
    (c.stopped = true → exec .copyStart s = .next (onChan s n (fun q =>
      { q with queue := rest, held := false, pfhold := false, waiting := none }))) ∧
    (c.stopped = false → x.started = true → exec .copyStart s = .next s) ∧
    (c.stopped = false → x.started = false → s.canStart x = true →
      (x.boundsFault = none → tCount x.dst ≠ 0 → exec .copyStart s = .next (onChan s n (fun q =>
        { q with tmiss := false, queue := { x with started := true } :: rest }))) ∧
      (∀ a, x.boundsFault = some a → ∃ t p, exec .copyStart s = .next t ∧ t.k.pending = ranked s.k.pending p ∧
        p.cause = 14 ∧ p.source = 1 + n ∧ p.addr = x.pc ∧ p.seq = x.seq ∧ (t.k.chans.getD n {}).stopped = true ∧
        (t.k.chans.getD n {}).queue = rest ∧ t.mem = s.mem ∧ t.k.localMem = s.k.localMem)) ∧
    (x.started = true → x.part = 0 → c.waiting = none → x.links = [] → tFmt x.dst ≠ 13 → tFmt x.src = tFmt x.dst →
      tSpace x.src = 0 → tSpace x.dst = 0 → tCount x.src = tCount x.dst → x.next < tCount x.dst →
      let u := tupleOf x.src x.next
      let v := tupleOf x.dst x.next
      let w := size (tFmt x.dst)
      elemIn x.src u = true → elemIn x.dst v = true → elemAddr x.src u < 2 ^ 64 → elemAddr x.dst v < 2 ^ 64 →
      ∃ t, exec .copyElementDelivered s = .next t ∧ t.mem = s.mem ∧ t.ctx = s.ctx ∧
        t.k.localMem = Mem.writeLE s.k.localMem (elemAddr x.dst v).toNat w
          (Mem.readLE s.k.localMem (elemAddr x.src u).toNat w) ∧
        (t.k.chans.getD n {}).wp = c.wp + BitVec.ofNat 64 w ∧
        (x.next + 1 = tCount x.dst → (t.k.chans.getD n {}).queue = rest) ∧
        (x.next + 1 < tCount x.dst → ∃ y, (t.k.chans.getD n {}).queue = y :: rest ∧ y.next = x.next + 1 ∧ y.started = true))) ∧
  (∀ (r : IxReq) (rest : List IxReq) (s : State), s.ctx.slot = 15 → r.core = s.coreNo → r.slot = 15 →
    Tbl.getD s.ix s.cmd.unit [] = r :: rest → (∀ line, s.waiterOf line = none) →
    let signalled := fun (t : State) => t.k.events = setBits s.k.events r.line 1 1 ∧ Tbl.getD t.ix s.cmd.unit [] = rest
    (s.k.ixStopped = true → ∃ t, exec .indirectChunk s = .next t ∧ signalled t ∧ t.mem = s.mem) ∧
    (∀ r1 s1, s.k.ixStopped = false → r.waiting = none → s.doChunk r = (r1, s1, none) → s1.ctx.slot = 15 →
      let left := (Tbl.getD s1.ix s.cmd.unit []).drop 1
      ∃ t, exec .indirectChunk s = .next t ∧ t.mem = s1.mem ∧ t.clusterMem = s1.clusterMem ∧ t.k.localMem = s1.k.localMem ∧
        (256 * r1.chunk < tSize r.list 0 → Tbl.getD t.ix s.cmd.unit [] = r1 :: left ∧ t.k.events = s1.k.events) ∧
        (tSize r.list 0 ≤ 256 * r1.chunk → s1.waiterOf r.line = none → r1.line = r.line → r1.slot = 15 →
          Tbl.getD t.ix s.cmd.unit [] = left ∧ t.ctx.fpflags = s1.ctx.fpflags ||| r1.flags ∧
          t.k.events = setBits s1.k.events r.line 1 1)))

/-- R36, R390, R393, R401, R406 to R410: the release of a barrier's members, which opens a domain's windows; the making and clearing
of a domain; an exchange instruction that waits goes on when what it waits for is there, and a value that arrives is stored in
its slot, or counted as unexpected. A release as a message and the fault of a context in XOPEN are log 28, windows in Lockets log 23. -/
def Obligations.ExchangeEvents : Prop :=
  (∀ (s : State), let id := s.cmd.unit
    let ph := s.cmd.value.setWidth 16
    let b := s.barrier id
    let open' := fun k => opening k (id - 2048) ph s.cycle.toNat
    (ph ∉ b.releasing → exec .barrierRelease s = .next s) ∧
    (ph ∈ b.releasing → id < 2048 →
      exec .barrierRelease s = .next (s.setBarrier id { b with releasing := b.releasing.erase ph })) ∧
    (ph ∈ b.releasing → 2048 ≤ id → exec .barrierRelease s = .next
      { s.setBarrier id { b with releasing := b.releasing.erase ph } with
        k := open' s.k
        others := s.others.map (fun e => (e.1, { e.2 with k := open' e.2.k }))
        lockets := s.lockets.map (fun e => (e.1, { e.2 with k := open' e.2.k })) })) ∧
  (∀ (s : State), s.cmd.unit < 64 → s.cmd.part < 2 →
    let n := s.cmd.unit
    let d := s.domain n
    let valid := d.valid.getD s.cmd.part false
    (valid = true → exec .domainValidSet s = .next s) ∧
    (valid = false → ∃ t, exec .domainValidSet s = .next t ∧
      t.domain n = { d with valid := d.valid.setIfInBounds s.cmd.part true, bar := {} } ∧ t.ctx = s.ctx ∧ t.k = s.k) ∧
    (valid = false → exec .domainValidClear s = .next s) ∧
    (valid = true → ∃ t, exec .domainValidClear s = .next t ∧
      t.domain n = { d with valid := d.valid.setIfInBounds s.cmd.part false, bar := { phase := d.bar.phase } } ∧
      (∀ ph, s.ctx.hold = some (.barrier (2048 + n) ph) →
        (d.bar.phase = ph ∨ ph ∈ d.bar.releasing → t.ctx = { s.ctx with hold := some .domainLost }) ∧
        (¬ (d.bar.phase = ph ∨ ph ∈ d.bar.releasing) → t.ctx = { s.ctx with hold := some (.released ph) })) ∧
      (∀ w ph, s.ctx.hold = some (.exchange ph) → s.k.window = some w → w.opened = false → w.domain = n →
        t.ctx = { s.ctx with hold := some .domainLost }) ∧
      (s.ctx.hold = none → t.ctx = s.ctx))) ∧
  (∀ (f : G64) (w : Window) (s : State), runs s f.p f.n → s.k.window = some w → w.opened = true →
    (∀ ph, standsAt s (.xopen f) → s.ctx.hold = some (.exchange ph) →
      exec .xopenArrive s = .next (retired (put s f.d (BitVec.ofNat 64 (w.t0 + w.lead))).endRegion 2)) ∧
    (∀ slot dest v, standsAt s (.xsend f) → s.ctx.hold = some (.send slot dest v) →
      w.t0 + w.lead + slot * w.slen ≤ s.cycle.toNat → exec .xsendTransmit s = .next (retired (sent s w slot dest v) 2)) ∧
    (standsAt s (.xrecv f) → s.ctx.hold = some (.recv (s.readOp f.a f.da).toNat) →
      let slot := (s.readOp f.a f.da).toNat
      slot < w.nslot → (slotWord w slot).getLsbD 26 = true → s.arrivalDue slot = false →
      w.t0 + w.lead + (slot + 1) * w.slen ≤ s.cycle.toNat →
      exec .xrecvDeliver s = .next (retired (put s f.d (Tbl.getD w.store slot 0)) 2)) ∧
    (standsAt s (.xclose f) → s.ctx.hold = some .condition → s.anyArrivalDue w = false →
      w.t0 + w.lead + w.nslot * w.slen ≤ s.cycle.toNat →
      exec .xcloseComplete s = .next (retired (put { s with
        k := { s.k with window := none }
        hw := { s.hw with icache := s.hw.icache.map (fun l => { l with locked := false }) } } f.d w.status) 2))) ∧
  (∀ (s : State), s.cmd.core = s.coreNo → s.ctx.hold = none → s.ctx.slot = 15 →
    exec .xopenArrive s = .next s ∧ exec .xsendTransmit s = .next s ∧ exec .xrecvDeliver s = .next s ∧
    exec .xcloseComplete s = .next s) ∧
  (∀ (s : State), s.cmd.core = s.coreNo →
    (s.k.window = none → exec .exchangeArrival s = .next s) ∧
    (∀ w, s.k.window = some w → w.opened = true →
      let e := slotWord w s.cmd.unit
      let expected := w.domain = s.cmd.part ∧ w.phase.setWidth 64 = s.cmd.tag ∧ s.cmd.unit < w.nslot ∧
        e.getLsbD 26 = true ∧ bits e 16 10 = s.cmd.addr ∧ Tbl.find w.store s.cmd.unit = none
      (expected → exec .exchangeArrival s = .next { s with k := { s.k with window := some { w with
        store := Tbl.put w.store s.cmd.unit s.cmd.value } } }) ∧
      (¬ expected → exec .exchangeArrival s = .next { s with k := { s.k with window := some { w with
        unexp := min 8191 (w.unexp + 1) } } })))

namespace Sys2Proof.Claims

/-- A unit of a mask belongs to another partition: `mine` is the mask that a partition owns (R451). -/
def elsewhereOwned (s : State) (p : Nat) (mine : Part → Word) (v : Word) : Prop :=
  ∃ o b, o < 16 ∧ o ≠ p ∧ b < 64 ∧ (mine (s.parts.getD o {})).getLsbD b = true ∧ v.getLsbD b = true

/-- The queue engines that a PARTCTL value names, as a mask (R450). -/
def engines (v : Word) : Word := BitVec.ofNat 64 (bits v 8 8)

/-- A queue control word after a write (R213): with EN set only EN is taken. -/
def queueWord (old v new : Word) (en : Nat) : Prop :=
  bits new 0 1 = en ∧
  (old.getLsbD 0 = true → bits new 1 63 = bits old 1 63) ∧
  (old.getLsbD 0 = false → bits new 1 5 = bits old 1 5 ∧ bits new 6 39 = bits v 6 39 ∧ bits new 52 4 = bits v 52 4 ∧
    bits new 47 5 = if 6 ≤ bits v 47 5 ∧ bits v 47 5 ≤ 20 then bits v 47 5 else bits old 47 5)

/-- Nothing runs or is kept for a partition (R452). -/
def quiet (s : State) (p : Nat) : Prop :=
  (∀ c ∈ s.coreList, s.ownsCore p c = true → (s.kernOf c).task = none) ∧
  ∀ x ∈ s.recordsOf p, x.2.2.state ≠ .running ∧ x.2.2.state ≠ .parked

end Sys2Proof.Claims

/-- R213, R240, R390, R437, R445, R448 to R452, R456, R459, R460, R463: what system software's writes to the control space do. A queue
is enabled and disabled by the owner of its engine; a partition starts with an empty scope table and stops once it has drained;
units go to no second partition; sampling starts with cleared indices; a fixed register stands still while it is in use; a gap of
the space ignores the write; and an attestation leaves its report. Blocks of a new home map are log 24, the
first tick log 31, digests and signatures log 10. -/
def Obligations.RegisterWrites : Prop :=
  (∀ (s : State) (en : Bool), let i := if en then Instr.queueEnable else Instr.queueDisable
    let q := s.cmd.unit
    let v := s.cmd.value
    let may := q < 512 ∧ s.engineOwner (q / 64) = some (bits v 52 4)
    (¬ may → exec i s = .next s) ∧
    (may → ∃ t, exec i s = .next t ∧ { t with queues := s.queues } = s ∧ (∀ r, r ≠ q → t.queue r = s.queue r) ∧
      t.queue q = { s.queue q with ctl := (t.queue q).ctl } ∧ queueWord (s.queue q).ctl v (t.queue q).ctl en.toNat)) ∧
  (∀ (s : State), s.cmd.part < 16 → let p := s.cmd.part
    let pt := s.parts.getD p {}
    let v := s.cmd.value
    let named := setBits pt.ctl 8 8 (bits v 8 8)
    let fails := pt.ctl.getLsbD 0 = true ∨ elsewhereOwned s p (fun q => engines q.ctl) (engines v)
    (fails → exec .partitionEnable s = .next s) ∧
    (¬ fails → (bits v 8 8 = 0 ∨ pt.clusters = 0) →
      exec .partitionEnable s = .next (s.onPart p (fun q => { q with ctl := named }))) ∧
    (¬ fails → bits v 8 8 ≠ 0 → pt.clusters ≠ 0 →
      exec .partitionEnable s = .next (s.onPart p (fun q => { q with
        ctl := setBits (setBits named 0 1 1) 1 1 0
        draining := false
        scopes := [(0, { state := .opened, kind := 4 })] }))) ∧
    (pt.ctl.getLsbD 0 = true → pt.draining = true → exec .partitionDisable s = .next s) ∧
    (∀ c, pt.ctl.getLsbD 0 = true → pt.draining = false → s.queues = [] → pt.scopes = [(0, c)] → c.state = .opened →
      exec .partitionDisable s = .next (s.onPart p (fun q => { q with
        draining := true
        scopes := [(0, { c with cancelled := true })] }))) ∧
    (pt.draining = true → quiet s p →
      exec .partitionDrained s = .next (s.onPart p (fun q => { q with ctl := setBits q.ctl 0 1 0, draining := false }))) ∧
    ((pt.draining = false ∨ ¬ quiet s p) → exec .partitionDrained s = .next s)) ∧
  (∀ (s : State), let v := s.cmd.value
    let m := s.mod
    (m.sampctl.getLsbD 0 = true → exec .sampleEnable s = .next s) ∧
    (m.sampctl.getLsbD 0 = false → ∃ c : Word,
      bits c 15 37 = bits v 15 37 ∧ bits c 52 12 = bits m.sampctl 52 12 ∧ bits c 1 4 = bits m.sampctl 1 4 ∧
      bits c 10 5 = (if bits v 10 5 ≤ 16 then bits v 10 5 else bits m.sampctl 10 5) ∧
      bits c 5 5 = (if 8 ≤ bits v 5 5 ∧ bits v 5 5 ≤ 24 then bits v 5 5 else bits m.sampctl 5 5) ∧
      (bits v 15 37 = 0 → bits c 0 1 = 0 ∧ exec .sampleEnable s = .next { s with mod := { m with sampctl := c } }) ∧
      (bits v 15 37 ≠ 0 → bits c 0 1 = 1 ∧ ∃ t, exec .sampleEnable s = .next t ∧
        (∃ n, t.mod = { m with
          sampctl := c
          samptail := 0
          samphead := 0
          sampSeq := 0
          sampDropped := 0
          sampFirst := true
          sampNext := n
          sampTime := 0
          engineCounts := []
          quadCounts := [] } ∧ s.cycle.toNat < n ∧ n ≤ s.cycle.toNat + 2 ^ bits c 5 5 ∧ n % 2 ^ bits c 5 5 = 0) ∧
        t.hw = { s.hw with counts := {} } ∧
        t.others = s.others.map (fun e => (e.1, { e.2 with hw := { e.2.hw with counts := {} } })) ∧
        { t with mod := m, hw := s.hw, others := s.others } = s))) ∧
  (∀ (s : State), let v := s.cmd.value
    let m := s.mod
    let index := BitVec.ofNat 64 (v.toNat % 2 ^ 32)
    exec .rpheadWrite s = .next (s.onPart s.cmd.part (fun q => { q with rphead := index })) ∧
    (m.errWait = [] → exec .errheadWrite s = .next { s with mod := { m with errhead := index } }) ∧
    (∀ r, m.errWait = [r] → bits m.errring 12 40 ≠ 0 → (m.errtail - index).toNat % 2 ^ 32 < 2 ^ (bits m.errring 0 4 + 7) →
      exec .errheadWrite s = .next { s with
        mem := Mem.writeLE s.mem
          (bits m.errring 12 40 * 4096 + m.errtail.toNat % 2 ^ (bits m.errring 0 4 + 7) * 32) 32 r.toNat
        mod := { m with
          errhead := index
          errtail := BitVec.ofNat 64 ((m.errtail.toNat + 1) % 2 ^ 32)
          errWait := [] } }) ∧
    (m.linkEnabled = true → exec .modidWrite s = .next s) ∧
    (m.linkEnabled = false → exec .modidWrite s = .next { s with mod := { m with modid := v &&& 63 } }) ∧
    (let nonce := Mem.putBytes s.appMem (bits v 9 43 * 512) (s.cmd.bytes.take 64)
     (m.attest.getLsbD 63 = true → exec .attest s = .next { s with appMem := nonce }) ∧
     (m.attest.getLsbD 63 = false → exec .attest s = .next { s with
        appMem := nonce
        mod := { m with attest := v &&& 0xFFFFFFFFFFE00 ||| 0x8000000000000000 } }))) ∧
  (∀ (s : State), let a := bits s.mod.attest 9 43 * 512
    (s.mod.attest.getLsbD 63 = false → exec .attestComplete s = .next s) ∧
    (s.mod.attest.getLsbD 63 = true → s.appMem.wf = true → ∃ t, exec .attestComplete s = .next t ∧
      { t with appMem := s.appMem } = { s with mod := { s.mod with attest := setBits s.mod.attest 63 1 0 } } ∧
      Mem.bytes t.appMem a 64 = Mem.bytes s.appMem a 64 ∧
      Mem.readLE t.appMem (a + 64) 64 = s.mod.measurement.toNat ∧
      Mem.readLE t.appMem (a + 128) 64 = (Config.sha512 s.ownership).toNat ∧
      Mem.readLE t.appMem (a + 192) 8 = s.mod.rollback.toNat ∧
      Mem.readLE t.appMem (a + 200) 8 = s.mod.health.toNat ∧
      (Mem.bytes t.appMem (a + 208) 132).reverse =
        bytesOfNat 132 (Config.sign (Config.sha512 (Mem.bytes t.appMem a 208))).toNat ∧
      (∀ x, a + 340 ≤ x → x < a + 512 → Mem.get t.appMem x = 0) ∧
      ∀ x, (x < a ∨ a + 512 ≤ x) → Mem.get t.appMem x = Mem.get s.appMem x)) ∧
  (∀ (s : State), let a := s.cmd.addr
    let v := s.cmd.value
    let m := s.mod
    let p := (a - 0x10000) / 0x1000
    let pt := s.parts.getD p {}
    (a = 0x20 → ∃ t, exec .registerWrite s = .next t ∧ t.mod.homemap = v &&& 0xFFFFFFFFFF000 ∧ t.ctx = s.ctx ∧ t.k = s.k ∧
      (∀ r, r < 294912 → bits v 12 40 ≠ 0 → (Mem.get s.mem (bits v 12 40 * 4096 + r)).getLsbD 7 = true →
        s.recBlocks.length + s.mem.length ≤ 294912 → t.recBlocks.contains (s.modNo * 2 ^ 25 + r) = true) ∧
      (s.mem = [] → t = { s with mod := { m with homemap := v &&& 0xFFFFFFFFFF000 } })) ∧
    (a = 0x38 → m.errWait = [] → exec .registerWrite s = .next { s with mod := { m with errring := v &&& 0xFFFFFFFFFF00F } }) ∧
    (a = 0x28 → 1000 ≤ bits v 0 16 → bits v 0 16 ≤ 2400 → exec .registerWrite s =
      .next { s with mod := { m with powercap := BitVec.ofNat 64 (bits v 0 16) } }) ∧
    (a = 0x28 → (bits v 0 16 < 1000 ∨ 2400 < bits v 0 16) → exec .registerWrite s = .next s) ∧
    ((a = 0x10 ∨ a = 0x30 ∨ a = 0x40 ∨ (0x28000 ≤ a ∧ a < 0x30000)) → exec .registerWrite s = .next s) ∧
    (0x10000 ≤ a → a < 0x20000 →
      (a % 0x1000 = 0x08 → (elsewhereOwned s p (fun q => q.clusters) (v &&& 0xFFFFFFFFFFFF) ∨ pt.ctl.getLsbD 0 = true) →
        exec .registerWrite s = .next s) ∧
      (a % 0x1000 = 0x08 → ¬ elsewhereOwned s p (fun q => q.clusters) (v &&& 0xFFFFFFFFFFFF) → pt.ctl.getLsbD 0 = false →
        exec .registerWrite s = .next (s.onPart p (fun q => { q with clusters := v &&& 0xFFFFFFFFFFFF }))) ∧
      (a % 0x1000 = 0x30 → pt.ctl.getLsbD 0 = true → exec .registerWrite s = .next s) ∧
      (a % 0x1000 = 0x30 → pt.ctl.getLsbD 0 = false →
        exec .registerWrite s = .next (s.onPart p (fun q => { q with ptroot := v &&& 0xFFFFFFFFFF000 }))) ∧
      (a % 0x1000 = 0x38 →
        exec .registerWrite s = .next (s.onPart p (fun q => { q with sdva := v &&& 0x1FFFFFFFFFF0000 })))) ∧
    (s.coreNo < 768 → a = 0x40000 + 0x100 * s.coreNo →
      exec .registerWrite s = .next { s with hw := { s.hw with serveq := v &&& 0xFFFFFFFFFF } }) ∧
    (∀ n, n < 4 → s.coreNo < 768 → a = 0x40020 + 0x100 * s.coreNo + 8 * n →
      exec .registerWrite s = .next { s with hw := { s.hw with bppc := s.hw.bppc.setIfInBounds n v } }))

namespace Sys2Proof.Claims

/-- The error ring has room for one more record, and none waits for it (R456). -/
def errorRoom (s : State) : Prop :=
  bits s.mod.errring 12 40 ≠ 0 ∧ s.mod.errWait = [] ∧ (s.mod.errtail - s.mod.errhead).toNat % 2 ^ 32 < 2 ^ (bits s.mod.errring 0 4 + 7)

/-- Place of the next error record (R456). -/
def errorSlot (s : State) : Nat :=
  bits s.mod.errring 12 40 * 4096 + s.mod.errtail.toNat % 2 ^ (bits s.mod.errring 0 4 + 7) * 32

/-- Number of a unit class in an error record (R456). -/
def classNo : UnitClass → Nat
  | .core => 1
  | .quad => 2
  | .cluster => 3
  | .queueEngine => 4
  | .pseudoChannel => 5
  | .shared => 6

/-- A corrected error of a unit (R454, R456): it is counted, and its record stands in the ring. -/
def correctedIn (s t : State) (c : UnitClass) (n addr : Nat) : Prop :=
  let key := classNo c * 65536 + n
  let count := Tbl.getD s.corrected key 0 + 1
  Tbl.getD t.corrected key 0 = count ∧
  t.mod = { s.mod with errtail := BitVec.ofNat 64 ((s.mod.errtail.toNat + 1) % 2 ^ 32) } ∧
  ∃ w : BitVec 256, t.mem = Mem.writeLE s.mem (errorSlot s) 32 w.toNat ∧ bits w 0 16 = 1 ∧ bits w 16 8 = classNo c ∧
    bits w 24 12 = n % 4096 ∧ (count < 2 ^ 64 → bits w 64 64 = count) ∧ (addr < 2 ^ 64 → count < 2 ^ 64 → bits w 128 64 = addr)

/-- An error record of the root port `port` stands in the ring, or is counted while there is none (R456, R461, R465). -/
def portError (s t : State) (port : Nat) : Prop :=
  (bits s.mod.errring 12 40 = 0 →
    let key := 393216 + 12288 + port % 4096
    t.mem = s.mem ∧ t.mod = s.mod ∧ Tbl.getD t.corrected key 0 = Tbl.getD s.corrected key 0 + 1) ∧
  (errorRoom s → t.mod = { s.mod with errtail := BitVec.ofNat 64 ((s.mod.errtail.toNat + 1) % 2 ^ 32) } ∧
    ∃ w : BitVec 256, t.mem = Mem.writeLE s.mem (errorSlot s) 32 w.toNat ∧ bits w 16 8 = 6 ∧ bits w 24 12 = port % 4096)

/-- A unit as an error event names it (R2, R456); shared ones are numbered in four ranges (log 29). -/
def errorUnit (s : State) (c : UnitClass) : Prop :=
  s.cmd.part = classNo c ∧
  s.cmd.unit < match c with
    | .core => 768 | .quad => 192 | .cluster => 48 | .queueEngine => 8 | .pseudoChannel => 1536 | .shared => 16384

end Sys2Proof.Claims

/-- R188, R205, R437 to R439, R454 to R464: events of the module as a whole. A sample tick counts, and writes a record while the ring
has room. A corrected error is counted and recorded; an uncorrectable one takes a pseudo-channel out of service, once, and discards a
cached copy, of a core or of a walk cache, alone. Boot goes through its states; a reset leaves every register at its reset value and
memory as it is; links and ports fail; DMA of a root port is translated by the tables of the partition that it is assigned to, and one
that meets a tier miss or a refused translation writes nothing but an error record and does not come again; a container that is none is
refused; the test port reads its registers. That such a tier miss starts the page-in, and what a reset keeps, is log 31, the partition
of a port log 33, the wait of DMA log 34, the order of refusals log 32, the numbers of shared units log 29; health, power and
signatures are logs 9 and 10. -/
def Obligations.ModuleEvents : Prop :=
  (∀ (s : State), let m := s.mod
    let used := (m.samptail - m.samphead).toNat % 2 ^ 32
    let size := 2 ^ bits m.sampctl 10 5
    let due := m.sampctl.getLsbD 0 = true ∧ m.sampNext ≤ s.cycle.toNat
    let after : Module := { m with
      sampSeq := m.sampSeq + 1
      sampNext := m.sampNext + 2 ^ bits m.sampctl 5 5
      sampTime := 0
      engineCounts := []
      quadCounts := [] }
    (¬ due → exec .sampleTick s = .next s) ∧
    (due → used = size → ∃ t, exec .sampleTick s = .next t ∧ t.hw.counts = {} ∧
      t.mod = { after with sampDropped := m.sampDropped + 1 }) ∧
    (due → used ≠ size → ∃ t, exec .sampleTick s = .next t ∧ t.hw.counts = {} ∧
      t.mod = { after with
        sampDropped := 0
        samptail := BitVec.ofNat 64 ((m.samptail.toNat + 1) % 2 ^ 32)
        sampFirst := false })) ∧
  (∀ (s : State) (c : UnitClass), errorUnit s c → let n := s.cmd.unit
    (s.cmd.flag = false → exec .scrub s = .next s) ∧
    (s.cmd.flag = true → errorRoom s → ∃ t, exec .scrub s = .next t ∧ correctedIn s t c n s.cmd.addr) ∧
    (s.cmd.flag = false → errorRoom s → ∃ t, exec .eccError s = .next t ∧ correctedIn s t c n s.cmd.addr) ∧
    (s.cmd.flag = true → c = .pseudoChannel → s.isFenced c n = true → exec .eccError s = .next s) ∧
    (s.cmd.flag = true → c = .pseudoChannel → s.isFenced c n = false → ∃ t, exec .eccError s = .next t ∧
      t.isFenced c n = true ∧ t.ctx = s.ctx ∧ t.k = s.k ∧
      ∀ p, s.setOwner (n / 16) = some p → (t.parts.getD p {}).ctl = setBits (s.parts.getD p {}).ctl 1 1 1) ∧
    (s.cmd.flag = true → c = .core → s.cmd.value ≠ 0 → n = s.coreNo → let va := s.cmd.tag.toNat
      ∃ t, exec .eccError s = .next t ∧ t.walks = s.walks ∧ t.fenced = s.fenced ∧ t.ctx = s.ctx ∧ t.k = s.k ∧
        (s.cmd.value = 1 → t.hw = { s.hw with
          tlb := s.hw.tlb.filter (fun x => !(decide (x.base ≤ va) && decide (va < x.base + x.size))) }) ∧
        (s.cmd.value ≠ 1 → t.hw = { s.hw with icache := s.hw.icache.filter (fun l => l.va != va / 64 * 64) })) ∧
    (s.cmd.flag = true → c = .shared → ∃ t, exec .eccError s = .next t ∧ t.fenced = s.fenced ∧ t.ctx = s.ctx ∧ t.k = s.k ∧
      t.hw = s.hw ∧ t.walks = if s.cmd.value = 0 then s.walks else s.walks.filter (fun e => e.1 != s.cmd.addr)) ∧
    (∀ l, s.cmd.flag = true → c = .cluster → s.cmd.value ≠ 0 → Tbl.getD s.hot n [] = [l] → l.addr = s.cmd.addr / 64 →
      l.dirty = false → l.waiting = [] →
      ∃ t, exec .eccError s = .next t ∧ Tbl.getD t.hot n [] = [] ∧ t.fenced = s.fenced ∧ t.ctx = s.ctx ∧ t.k = s.k)) ∧
  (∀ (s : State), let m := s.mod
    let now := s.cycle.toNat
    (m.healthTurns < now / 2 ^ 30 → ∃ h, exec .healthUpdate s = .next { s with
        free := s.free + 3
        mod := { m with health := h, healthTurns := now / 2 ^ 30 } } ∧
      bits h 0 16 = min 255 s.fenced.length) ∧
    (now / 2 ^ 30 ≤ m.healthTurns → exec .healthUpdate s = .next s) ∧
    (let ms := s.sinceClock
     let cap := m.powercap.toNat
     let down := 1 ≤ ms ∧ cap < (s.meanAt (ms - 1)).toNat ∧ m.clock < 3
     let up := 10 ≤ ms ∧ (∀ n, ms ≤ n + 10 → n < ms → (s.meanAt n).toNat < cap) ∧ 0 < m.clock
     (down → exec .powerStepDown s = .next { s with mod := { m with clock := m.clock + 1, clockAt := now } }) ∧
     (¬ down → exec .powerStepDown s = .next s) ∧
     (up → exec .powerStepUp s = .next { s with mod := { m with clock := m.clock - 1, clockAt := now } }) ∧
     (¬ up → exec .powerStepUp s = .next s)) ∧
    (m.boot = .reset → exec .powerGood s = .next { s with mod := { m with boot := .rom } }) ∧
    (m.boot ≠ .reset → exec .powerGood s = .next s) ∧
    (m.boot ≠ .rom → exec .romImageCheck s = .next s) ∧
    (let fits := fun (image : List Byte) (version : Word) =>
       Config.signatureOk image = true ∧ m.rollback.toNat ≤ version.toNat
     let good := m.imageCut = false ∧ fits m.image m.imageVersion
     let offered := s.cmd.bytes ≠ [] ∧ fits s.cmd.bytes s.cmd.value
     (m.boot = .rom → good → exec .romImageCheck s =
        .next { s with mod := { m with boot := .firmware, measurement := Config.sha512 m.image } }) ∧
     (m.boot = .rom → ¬ good → ∃ t, exec .romImageCheck s = .next t ∧ t.mod.boot = .recovery ∧
        t.mod.measurement = m.measurement ∧
        (offered → t.mod.image = s.cmd.bytes ∧ t.mod.imageVersion = s.cmd.value ∧ t.mod.imageCut = false) ∧
        (¬ offered → t.mod.image = m.image ∧ t.mod.imageVersion = m.imageVersion ∧ t.mod.imageCut = m.imageCut))) ∧
    (m.boot ≠ .firmware → exec .firmwareBringUp s = .next s) ∧
    (m.boot = .firmware → ∃ t, exec .firmwareBringUp s = .next t ∧ t.mod.boot = .running ∧
      ∀ i b, i < 18 → s.cmd.bytes[i]? = some b → b.toNat < 64 →
        Tbl.find t.mod.links i = some b.toNat ∧ t.mod.linkEnabled = true) ∧
    (m.boot = .firmware → ∃ t, exec .firmwareBringUp s = .next t ∧
      ∀ i b, i < 16 → s.cmd.bytes[18 + i]? = some b → b.toNat < 16 → Tbl.find t.mod.rootPorts i = some b.toNat)) ∧
  (∀ (s : State), let image := if s.cmd.flag then s.cmd.bytes else s.mod.image
    let version := if s.cmd.flag then s.cmd.value else s.mod.imageVersion
    let after := fun (cut : Bool) => { State.reset with
      mem := s.mem
      mod := { State.reset.mod with image := image, imageVersion := version, imageCut := cut, rollback := s.mod.rollback }
      cmd := s.cmd
      agenda := s.agenda
      free := s.free
      names := s.names }
    exec .moduleReset s = .next (after (!s.cmd.flag && s.mod.imageCut)) ∧
    exec .powerOff s = .next { after (s.cmd.flag || s.mod.imageCut) with mem := [] }) ∧
  (∀ (s : State), let m := s.mod
    let n := s.cmd.unit
    exec .flitResend s = .next s ∧
    (Tbl.find m.links n = none → exec .linkFail s = .next s) ∧
    (∀ target, Tbl.find m.links n = some target →
      let left := Tbl.del m.links n
      ((∃ e ∈ left, e.2 = target) → exec .linkFail s = .next { s with mod := { m with links := left } }) ∧
      ((∀ e ∈ left, e.2 ≠ target) → s.late = [] → (∀ c, (s.focusCore c).outstandingTo target = none) →
        exec .linkFail s = .next { s with mod := { m with links := left, lost := target :: m.lost } })) ∧
    (8 ≤ n → exec .cxlPortFail s = .next s) ∧
    (n < 8 → s.pages = [] → exec .cxlPortFail s =
      .next { s with mod := { m with portsDown := n :: m.portsDown.filter (fun p => p != n) } }) ∧
    ((96 ≤ n ∨ n ∈ m.slices) → exec .dynamicCapacity s = .next s) ∧
    (n < 96 → n ∉ m.slices → exec .dynamicCapacity s = .next { s with mod := { m with slices := n :: m.slices } }) ∧
    (Tbl.find m.rootPorts n = none → ∃ t, exec .dmaRequest s = .next t ∧ t.ctx = s.ctx ∧ t.k = s.k ∧ t.inflight = s.inflight ∧
      portError s t n) ∧
    (∀ p, Tbl.find m.rootPorts n = some p →
      (∀ x b, s.cmd.bytes = [b] → s.engineXlate p s.cmd.value true = .ok x →
        (s.awaited x.addr = false → ∃ t, exec .dmaRequest s = .next t ∧
          { t with hot := s.hot, before := s.before } = { s with mem := Mem.set s.mem x.addr b }) ∧
        (s.awaited x.addr = true →
          exec .dmaRequest s = .next { s with inflight := s.inflight ++ [(.dmaRequest, s.cmd)] })) ∧
      (∀ xs, s.cmd.bytes = [] → s.dmaTargets p s.cmd.value false s.cmd.addr = .ok xs →
        (∀ x ∈ xs, s.awaited x.addr = false) → exec .dmaRequest s = .next s) ∧
      (∀ b leaf va, s.cmd.bytes = [b] → s.engineXlate p s.cmd.value true = .error (.tierMiss leaf va) →
        ∃ t, exec .dmaRequest s = .next t ∧ t.ctx = s.ctx ∧ t.k = s.k ∧ t.inflight = s.inflight ∧ portError s t n ∧
          ((s.page leaf).stage = .none → (t.page leaf).stage = .pageIn ∧ (t.page leaf).va = va)) ∧
      (∀ b cause addr detail, s.cmd.bytes = [b] → s.engineXlate p s.cmd.value true = .error (.trap cause addr detail) →
        ∃ t, exec .dmaRequest s = .next t ∧ t.ctx = s.ctx ∧ t.k = s.k ∧ t.inflight = s.inflight ∧ portError s t n))) ∧
  (∀ (s : State), let a := s.cmd.unit
    let img := s.cmd.bytes
    let h := ContainerHead.read img
    let fs := funcsOf img h
    let xrefs := (img.drop h.xref).take (8 * h.xrefn)
    let out := fs.map (translateFunc img h fs)
    let code := fun (helper : Bool) => (out.filter (fun o => o.level != 255 && o.helper == helper)).flatMap (fun o => o.code.bytes)
    bits s.mod.homemap 12 40 = 0 →
      (field img 0 4 ≠ 0x51414854 → s.mem.wf = true → ∃ t, exec .thaquetTranslation s = .next t ∧ t.ctx = s.ctx ∧ t.k = s.k ∧
        Mem.readLE t.mem a 32 = 2 ^ 64 + 255 * 2 ^ 56 ∧ ∀ x, (x < a ∨ a + 32 ≤ x) → Mem.get t.mem x = Mem.get s.mem x) ∧
      (containerBad img = false → ∃ t records, exec .thaquetTranslation s = .next t ∧ t.ctx = s.ctx ∧ t.k = s.k ∧
        t.mem = Mem.putBytes (Mem.putBytes (Mem.putBytes s.mem s.cmd.addr (code false)) s.cmd.tag.toNat (code true)) a records ∧
        records.length = (out.map (fun o => 32 + 8 * (o.code.map o.level).length + xrefs.length)).sum)) ∧
  (∀ (s : State), let m := s.mod
    exec .bypass s = .next { s with mod := { m with tap := .bypass, tapData := 0 } } ∧
    exec .idcode s = .next { s with mod := { m with tap := .idcode, tapData := 0x0D960A2B } } ∧
    exec .samplePreload s = .next { s with mod := { m with
      tap := .samplePreload
      tapData := s.cmd.value.setWidth 32
      cells := s.cmd.value } } ∧
    exec .extest s = .next { s with mod := { m with tap := .extest, tapData := m.cells.setWidth 32 } } ∧
    (∃ d, exec .bootstat s = .next { s with mod := { m with tap := .bootstat, tapData := d } }))

/-- R43 to R46, R65 and the encoding tables: words that the manual writes out decode to the instructions it writes beside them: of
the families of scalar arithmetic, transfers, floating point, memory, loops, arrays, masks, consistency, exchange and traps. -/
def Obligations.DecodeWords : Prop :=
  decode [0x040C3FFF#32] = .ok (.addI32 { d := 3, a := 3, imm := 0xFFF }) ∧
  decode [0x112FFFEE#32] = .ok (.brcJ32 { p := 1, off := 0xFFFEE }) ∧
  decode [0x89003100#32, 0x00000D00#32] = .ok (.loopI64 { d := 3, a := 4, imm := 13 }) ∧
  decode [0x85022850#32, 0x00000130#32] = .ok (.shlI64 { d := 34, a := 33, da := 2, imm := 1, ty := 3 }) ∧
  decode [0x80021848#32, 0x88000030#32] = .ok (.addG64 { d := 33, a := 33, da := 1, b := 34, ty := 3 }) ∧
  decode [0x8C423840#32, 0x00000020#32] = .ok (.stI64 { d := 35, a := 33, ty := 2 }) ∧
  decode [0xA4000280#32, 0x0C020100#32] = .ok (.mpat { a := 10, b := 3, c := 1 }) ∧
  decode [0xA4000000#32, 0x04140300#32] = .ok (.mma { b := 1, c := 10 }) ∧
  decode [0xA4003280#32, 0x00000400#32] = .ok (.mdrain { d := 3, a := 10 }) ∧
  decode [0xA8003180#32, 0x24000100#32] = .ok (.ksel { d := 3, a := 6, b := 9 }) ∧
  decode [0x94800000#32, 0x0000000A#32] = .ok (.fence { md := 5 }) ∧
  decode [0x94800040#32, 0x00000108#32] = .ok (.xfence { a := 1, md := 4 }) ∧
  decode [0x988141C0#32, 0x440E0008#32] = .ok (.xopen { d := 20, a := 7, b := 17, c := 7, md := 4 }) ∧
  decode [0x98800480#32, 0x3C1A0100#32] = .ok (.xsend { a := 18, b := 15, c := 13 }) ∧
  decode [0xACC00000#32, 0x00000700#32] = .ok (.trapI64 { imm := 7 }) ∧
  decode [0xAC405000#32, 0x00001000#32] = .ok (.sysrd { d := 5, imm := 16 }) ∧
  decode [0xAC000000#32, 0x00000000#32] = .ok (.eret {})

/-- R43 to R46, R65: decoding and encoding agree, for every instruction and every value of its operands. -/
def Obligations.RoundTrip : Prop :=
  ∀ (i : Instr), i.wellFormed = true → encode i ≠ [] → ∀ rest, decode (encode i ++ rest) = .ok i

/-- R43 to R46, R65: what the decoder answers is well-formed, and in an instruction of one or two parcels no bit is dropped: they are
the words of the instruction. Excepted are words with fields that the manual declares ignored: NOP and hints (R72, R73), a reserved
opcode, and the guard of HEXIT, which the instruction register holds (the model's, log 13). -/
def Obligations.DecodedWellFormed : Prop :=
  ∀ (ps : List Parcel) (i : Instr), decode ps = .ok i → i.wellFormed = true ∧
    (i ≠ .nop → i ≠ .hint64 → i ≠ .hint96 → i ≠ .reservedOpcodeTrap → i ≠ .hexitG64 → (encode i).length ≤ 2 →
      encode i = ps.take (encode i).length)

/-- R16, R65, R270, R420, R438, R444, R457: in the turn of a context that runs, with nothing due before its next instruction, that context executes
the instruction that the parcels at its PC decode to; then the turn passes on, and cycles pass. The agenda, the turns and the
instruction register are the model's own (logs 4, 13 and 17). -/
def Obligations.StepRunsDecoded : Prop :=
  ∀ (s s1 t : State) (ps : List Parcel) (i : Instr), s.coreNo < 768 → s.agenda = [] → s.unitTurn = false →
    s.due = none → s.ctx.live = true →
    s.stopsHere = false → s.ctx.hold = none → s.ctx.entry = false → s.loopAt .starting = false → s.loopAt .complete = false →
    (s.k.pending = [] ∨ s.takesFault = false) →
    s.fetch = .ok (ps, s1) → s1.ctx.hold = none → s1.breakpoint i.engineBound = none → decode ps = .ok i →
    (s1.ctx.slot = 15 ∨ i.legal true = true) → s1.awaitsMask i = false →
    exec i { s1 with
      ctx := { s1.ctx with ir := #v[ps.getD 0 0, ps.getD 1 0, ps.getD 2 0] }
      hw := if s1.ctx.slot = 15 then { s1.hw with issued := true } else { s1.hw with helped := true } } = .next t →
    step s = .next t.passTurn.pass

/-- Every step of the module goes on: no instruction, from no state, ends in a fault or a refusal. Only a core that does not exist
faults. -/
def Obligations.Progress : Prop :=
  (∀ (i : Instr) (s : State), ∃ t, exec i s = .next t) ∧
  ∀ (s : State), (s.coreNo < 768 → ∃ t, step s = .next t) ∧ (768 ≤ s.coreNo → step s = .fault .noSuchCore)

namespace Sys2Proof.Claims

/-- The core in focus is a core of the module, and every memory that it can reach is in its canonical form. -/
def sound (s : State) : Prop :=
  s.coreNo < 768 ∧ tidy s ∧ s.appMem.wf = true ∧ s.k.crown.wf = true ∧
  ∀ e ∈ s.others, e.2.k.localMem.wf = true ∧ e.2.k.crown.wf = true

/-- Scalar instructions, transfers, loads, stores and atomics. -/
def ordinary (s : State) (i : Instr) : Prop :=
  (arithmetic i).isSome ∨ (division i).isSome ∨ (bitwise i).isSome ∨ (shifting i).isSome ∨ (counting i).isSome ∨
  (fieldValue s i).isSome ∨ (predicateValue s i).isSome ∨ (floating s i).isSome ∨ (jump s i).isSome ∨
  (condJump s i).isSome ∨ (loading s i).isSome ∨ (storing s i).isSome ∨ (atomicFn i).isSome

end Sys2Proof.Claims

/-- After reset (R2, R213, R437, R450, R457): no task runs, no partition has a unit, no queue is enabled, and the registers have the
values that the manual states; the invariant of the machine holds. -/
def Obligations.ResetState : Prop :=
  sound State.reset ∧ State.reset.ctx.live = false ∧ State.reset.k.task = none ∧
  State.reset.mod.sampctl = 0x100 ∧ State.reset.mod.health = 0xFFFF000000000000 ∧ State.reset.mod.errring = 0 ∧
  (∀ q, bits (State.reset.queue q).ctl 0 1 = 0 ∧ bits (State.reset.queue q).ctl 47 5 = 6 ∧ (State.reset.queue q).slots = []) ∧
  (∀ p, (State.reset.parts.getD p {}).ctl = 0 ∧ (State.reset.parts.getD p {}).clusters = 0) ∧
  (∀ n, (State.reset.domains.getD n {}).valid = #v[false, false]) ∧
  State.reset.hw.tracectl = 0 ∧ (∀ n, State.reset.hw.bpctl.getD n 0 = 0)

/-- R10, and the invariant that log 3 chooses: a step of scalar code keeps it: however a scalar instruction, a transfer, a load, a store or an atomic
ends, in its effect, in a trap, parked or with the end of its task, memories keep their canonical form. -/
def Obligations.OrdinaryKeepsInvariant : Prop :=
  ∀ (i : Instr) (s t : State), ordinary s i → sound s → exec i s = .next t → sound t
end

