-- ==== Sys2Proof/Laws/State.lean ====
section
/-! SUPPORT. What each named update of the state leaves in each field. -/

namespace Sys2Proof.Machine

variable (s : State)

@[simp] theorem State.setReg_coreNo (i : Nat) (v : Word) : (s.setReg i v).coreNo = s.coreNo := rfl
@[simp] theorem State.setReg_ctx_slot (i : Nat) (v : Word) : (s.setReg i v).ctx.slot = s.ctx.slot := rfl
@[simp] theorem State.setReg_ctx_live (i : Nat) (v : Word) : (s.setReg i v).ctx.live = s.ctx.live := rfl
@[simp] theorem State.setReg_ctx_pc (i : Nat) (v : Word) : (s.setReg i v).ctx.pc = s.ctx.pc := rfl
@[simp] theorem State.setReg_ctx_regs (i : Nat) (v : Word) : (s.setReg i v).ctx.regs = s.ctx.regs.setIfInBounds i v := rfl
@[simp] theorem State.setReg_ctx_preds (i : Nat) (v : Word) : (s.setReg i v).ctx.preds = s.ctx.preds := rfl
@[simp] theorem State.setReg_ctx_retired (i : Nat) (v : Word) : (s.setReg i v).ctx.retired = s.ctx.retired := rfl
@[simp] theorem State.setReg_ctx_region (i : Nat) (v : Word) : (s.setReg i v).ctx.region = s.ctx.region := rfl
@[simp] theorem State.setReg_ctx_regionAt (i : Nat) (v : Word) : (s.setReg i v).ctx.regionAt = s.ctx.regionAt := rfl
@[simp] theorem State.setReg_ctx_tag (i : Nat) (v : Word) : (s.setReg i v).ctx.tag = s.ctx.tag := rfl
@[simp] theorem State.setReg_ctx_tagAsked (i : Nat) (v : Word) : (s.setReg i v).ctx.tagAsked = s.ctx.tagAsked := rfl
@[simp] theorem State.setReg_ctx_fpflags (i : Nat) (v : Word) : (s.setReg i v).ctx.fpflags = s.ctx.fpflags := rfl
@[simp] theorem State.setReg_ctx_srseed (i : Nat) (v : Word) : (s.setReg i v).ctx.srseed = s.ctx.srseed := rfl
@[simp] theorem State.setReg_ctx_hold (i : Nat) (v : Word) : (s.setReg i v).ctx.hold = s.ctx.hold := rfl
@[simp] theorem State.setReg_ctx_nt (i : Nat) (v : Word) : (s.setReg i v).ctx.nt = s.ctx.nt := rfl
@[simp] theorem State.setReg_ctx_ir (i : Nat) (v : Word) : (s.setReg i v).ctx.ir = s.ctx.ir := rfl
@[simp] theorem State.setReg_ctx_startPc (i : Nat) (v : Word) : (s.setReg i v).ctx.startPc = s.ctx.startPc := rfl
@[simp] theorem State.setReg_ctx_startSeq (i : Nat) (v : Word) : (s.setReg i v).ctx.startSeq = s.ctx.startSeq := rfl
@[simp] theorem State.setReg_ctx_entry (i : Nat) (v : Word) : (s.setReg i v).ctx.entry = s.ctx.entry := rfl
@[simp] theorem State.setReg_ctx_skipBp (i : Nat) (v : Word) : (s.setReg i v).ctx.skipBp = s.ctx.skipBp := rfl
@[simp] theorem State.setReg_k (i : Nat) (v : Word) : (s.setReg i v).k = s.k := rfl
@[simp] theorem State.setReg_hw (i : Nat) (v : Word) : (s.setReg i v).hw = s.hw := rfl
@[simp] theorem State.setReg_others (i : Nat) (v : Word) : (s.setReg i v).others = s.others := rfl
@[simp] theorem State.setReg_mem (i : Nat) (v : Word) : (s.setReg i v).mem = s.mem := rfl
@[simp] theorem State.setReg_clusterMem (i : Nat) (v : Word) : (s.setReg i v).clusterMem = s.clusterMem := rfl
@[simp] theorem State.setReg_appMem (i : Nat) (v : Word) : (s.setReg i v).appMem = s.appMem := rfl
@[simp] theorem State.setReg_walks (i : Nat) (v : Word) : (s.setReg i v).walks = s.walks := rfl
@[simp] theorem State.setReg_recBlocks (i : Nat) (v : Word) : (s.setReg i v).recBlocks = s.recBlocks := rfl
@[simp] theorem State.setReg_refused (i : Nat) (v : Word) : (s.setReg i v).refused = s.refused := rfl
@[simp] theorem State.setReg_records (i : Nat) (v : Word) : (s.setReg i v).records = s.records := rfl
@[simp] theorem State.setReg_homeTags (i : Nat) (v : Word) : (s.setReg i v).homeTags = s.homeTags := rfl
@[simp] theorem State.setReg_before (i : Nat) (v : Word) : (s.setReg i v).before = s.before := rfl
@[simp] theorem State.setReg_translated (i : Nat) (v : Word) : (s.setReg i v).translated = s.translated := rfl
@[simp] theorem State.setReg_poisoned (i : Nat) (v : Word) : (s.setReg i v).poisoned = s.poisoned := rfl
@[simp] theorem State.setReg_pages (i : Nat) (v : Word) : (s.setReg i v).pages = s.pages := rfl
@[simp] theorem State.setReg_queues (i : Nat) (v : Word) : (s.setReg i v).queues = s.queues := rfl
@[simp] theorem State.setReg_parts (i : Nat) (v : Word) : (s.setReg i v).parts = s.parts := rfl
@[simp] theorem State.setReg_deps (i : Nat) (v : Word) : (s.setReg i v).deps = s.deps := rfl
@[simp] theorem State.setReg_versions (i : Nat) (v : Word) : (s.setReg i v).versions = s.versions := rfl
@[simp] theorem State.setReg_lockets (i : Nat) (v : Word) : (s.setReg i v).lockets = s.lockets := rfl
@[simp] theorem State.setReg_ix (i : Nat) (v : Word) : (s.setReg i v).ix = s.ix := rfl
@[simp] theorem State.setReg_hot (i : Nat) (v : Word) : (s.setReg i v).hot = s.hot := rfl
@[simp] theorem State.setReg_late (i : Nat) (v : Word) : (s.setReg i v).late = s.late := rfl
@[simp] theorem State.setReg_barriers (i : Nat) (v : Word) : (s.setReg i v).barriers = s.barriers := rfl
@[simp] theorem State.setReg_domains (i : Nat) (v : Word) : (s.setReg i v).domains = s.domains := rfl
@[simp] theorem State.setReg_arbiters (i : Nat) (v : Word) : (s.setReg i v).arbiters = s.arbiters := rfl
@[simp] theorem State.setReg_fenced (i : Nat) (v : Word) : (s.setReg i v).fenced = s.fenced := rfl
@[simp] theorem State.setReg_corrected (i : Nat) (v : Word) : (s.setReg i v).corrected = s.corrected := rfl
@[simp] theorem State.setReg_mod (i : Nat) (v : Word) : (s.setReg i v).mod = s.mod := rfl
@[simp] theorem State.setReg_inflight (i : Nat) (v : Word) : (s.setReg i v).inflight = s.inflight := rfl
@[simp] theorem State.setReg_cycle (i : Nat) (v : Word) : (s.setReg i v).cycle = s.cycle := rfl
@[simp] theorem State.setReg_cmd (i : Nat) (v : Word) : (s.setReg i v).cmd = s.cmd := rfl
@[simp] theorem State.setReg_agenda (i : Nat) (v : Word) : (s.setReg i v).agenda = s.agenda := rfl
@[simp] theorem State.setReg_free (i : Nat) (v : Word) : (s.setReg i v).free = s.free := rfl
@[simp] theorem State.setReg_readAt (i : Nat) (v : Word) : (s.setReg i v).readAt = s.readAt := rfl
@[simp] theorem State.setReg_names (i : Nat) (v : Word) : (s.setReg i v).names = s.names := rfl
@[simp] theorem State.setReg_unitTurn (i : Nat) (v : Word) : (s.setReg i v).unitTurn = s.unitTurn := rfl
@[simp] theorem State.setReg_moduleTurn (i : Nat) (v : Word) : (s.setReg i v).moduleTurn = s.moduleTurn := rfl
@[simp] theorem State.setReg_kindTurn (i : Nat) (v : Word) : (s.setReg i v).kindTurn = s.kindTurn := rfl

@[simp] theorem State.setFlags_coreNo (f : Word) : (s.setFlags f).coreNo = s.coreNo := rfl
@[simp] theorem State.setFlags_ctx_slot (f : Word) : (s.setFlags f).ctx.slot = s.ctx.slot := rfl
@[simp] theorem State.setFlags_ctx_live (f : Word) : (s.setFlags f).ctx.live = s.ctx.live := rfl
@[simp] theorem State.setFlags_ctx_pc (f : Word) : (s.setFlags f).ctx.pc = s.ctx.pc := rfl
@[simp] theorem State.setFlags_ctx_regs (f : Word) : (s.setFlags f).ctx.regs = s.ctx.regs := rfl
@[simp] theorem State.setFlags_ctx_preds (f : Word) : (s.setFlags f).ctx.preds = s.ctx.preds := rfl
@[simp] theorem State.setFlags_ctx_retired (f : Word) : (s.setFlags f).ctx.retired = s.ctx.retired := rfl
@[simp] theorem State.setFlags_ctx_region (f : Word) : (s.setFlags f).ctx.region = s.ctx.region := rfl
@[simp] theorem State.setFlags_ctx_regionAt (f : Word) : (s.setFlags f).ctx.regionAt = s.ctx.regionAt := rfl
@[simp] theorem State.setFlags_ctx_tag (f : Word) : (s.setFlags f).ctx.tag = s.ctx.tag := rfl
@[simp] theorem State.setFlags_ctx_tagAsked (f : Word) : (s.setFlags f).ctx.tagAsked = s.ctx.tagAsked := rfl
@[simp] theorem State.setFlags_ctx_fpflags (f : Word) : (s.setFlags f).ctx.fpflags = s.ctx.fpflags ||| f := rfl
@[simp] theorem State.setFlags_ctx_srseed (f : Word) : (s.setFlags f).ctx.srseed = s.ctx.srseed := rfl
@[simp] theorem State.setFlags_ctx_hold (f : Word) : (s.setFlags f).ctx.hold = s.ctx.hold := rfl
@[simp] theorem State.setFlags_ctx_nt (f : Word) : (s.setFlags f).ctx.nt = s.ctx.nt := rfl
@[simp] theorem State.setFlags_ctx_ir (f : Word) : (s.setFlags f).ctx.ir = s.ctx.ir := rfl
@[simp] theorem State.setFlags_ctx_startPc (f : Word) : (s.setFlags f).ctx.startPc = s.ctx.startPc := rfl
@[simp] theorem State.setFlags_ctx_startSeq (f : Word) : (s.setFlags f).ctx.startSeq = s.ctx.startSeq := rfl
@[simp] theorem State.setFlags_ctx_entry (f : Word) : (s.setFlags f).ctx.entry = s.ctx.entry := rfl
@[simp] theorem State.setFlags_ctx_skipBp (f : Word) : (s.setFlags f).ctx.skipBp = s.ctx.skipBp := rfl
@[simp] theorem State.setFlags_k (f : Word) : (s.setFlags f).k = s.k := rfl
@[simp] theorem State.setFlags_hw (f : Word) : (s.setFlags f).hw = s.hw := rfl
@[simp] theorem State.setFlags_others (f : Word) : (s.setFlags f).others = s.others := rfl
@[simp] theorem State.setFlags_mem (f : Word) : (s.setFlags f).mem = s.mem := rfl
@[simp] theorem State.setFlags_clusterMem (f : Word) : (s.setFlags f).clusterMem = s.clusterMem := rfl
@[simp] theorem State.setFlags_appMem (f : Word) : (s.setFlags f).appMem = s.appMem := rfl
@[simp] theorem State.setFlags_walks (f : Word) : (s.setFlags f).walks = s.walks := rfl
@[simp] theorem State.setFlags_recBlocks (f : Word) : (s.setFlags f).recBlocks = s.recBlocks := rfl
@[simp] theorem State.setFlags_refused (f : Word) : (s.setFlags f).refused = s.refused := rfl
@[simp] theorem State.setFlags_records (f : Word) : (s.setFlags f).records = s.records := rfl
@[simp] theorem State.setFlags_homeTags (f : Word) : (s.setFlags f).homeTags = s.homeTags := rfl
@[simp] theorem State.setFlags_before (f : Word) : (s.setFlags f).before = s.before := rfl
@[simp] theorem State.setFlags_translated (f : Word) : (s.setFlags f).translated = s.translated := rfl
@[simp] theorem State.setFlags_poisoned (f : Word) : (s.setFlags f).poisoned = s.poisoned := rfl
@[simp] theorem State.setFlags_pages (f : Word) : (s.setFlags f).pages = s.pages := rfl
@[simp] theorem State.setFlags_queues (f : Word) : (s.setFlags f).queues = s.queues := rfl
@[simp] theorem State.setFlags_parts (f : Word) : (s.setFlags f).parts = s.parts := rfl
@[simp] theorem State.setFlags_deps (f : Word) : (s.setFlags f).deps = s.deps := rfl
@[simp] theorem State.setFlags_versions (f : Word) : (s.setFlags f).versions = s.versions := rfl
@[simp] theorem State.setFlags_lockets (f : Word) : (s.setFlags f).lockets = s.lockets := rfl
@[simp] theorem State.setFlags_ix (f : Word) : (s.setFlags f).ix = s.ix := rfl
@[simp] theorem State.setFlags_hot (f : Word) : (s.setFlags f).hot = s.hot := rfl
@[simp] theorem State.setFlags_late (f : Word) : (s.setFlags f).late = s.late := rfl
@[simp] theorem State.setFlags_barriers (f : Word) : (s.setFlags f).barriers = s.barriers := rfl
@[simp] theorem State.setFlags_domains (f : Word) : (s.setFlags f).domains = s.domains := rfl
@[simp] theorem State.setFlags_arbiters (f : Word) : (s.setFlags f).arbiters = s.arbiters := rfl
@[simp] theorem State.setFlags_fenced (f : Word) : (s.setFlags f).fenced = s.fenced := rfl
@[simp] theorem State.setFlags_corrected (f : Word) : (s.setFlags f).corrected = s.corrected := rfl
@[simp] theorem State.setFlags_mod (f : Word) : (s.setFlags f).mod = s.mod := rfl
@[simp] theorem State.setFlags_inflight (f : Word) : (s.setFlags f).inflight = s.inflight := rfl
@[simp] theorem State.setFlags_cycle (f : Word) : (s.setFlags f).cycle = s.cycle := rfl
@[simp] theorem State.setFlags_cmd (f : Word) : (s.setFlags f).cmd = s.cmd := rfl
@[simp] theorem State.setFlags_agenda (f : Word) : (s.setFlags f).agenda = s.agenda := rfl
@[simp] theorem State.setFlags_free (f : Word) : (s.setFlags f).free = s.free := rfl
@[simp] theorem State.setFlags_readAt (f : Word) : (s.setFlags f).readAt = s.readAt := rfl
@[simp] theorem State.setFlags_names (f : Word) : (s.setFlags f).names = s.names := rfl
@[simp] theorem State.setFlags_unitTurn (f : Word) : (s.setFlags f).unitTurn = s.unitTurn := rfl
@[simp] theorem State.setFlags_moduleTurn (f : Word) : (s.setFlags f).moduleTurn = s.moduleTurn := rfl
@[simp] theorem State.setFlags_kindTurn (f : Word) : (s.setFlags f).kindTurn = s.kindTurn := rfl

@[simp] theorem State.setFpu_coreNo (e : Fpu) : (s.setFpu e).coreNo = s.coreNo := rfl
@[simp] theorem State.setFpu_ctx_slot (e : Fpu) : (s.setFpu e).ctx.slot = s.ctx.slot := rfl
@[simp] theorem State.setFpu_ctx_live (e : Fpu) : (s.setFpu e).ctx.live = s.ctx.live := rfl
@[simp] theorem State.setFpu_ctx_pc (e : Fpu) : (s.setFpu e).ctx.pc = s.ctx.pc := rfl
@[simp] theorem State.setFpu_ctx_regs (e : Fpu) : (s.setFpu e).ctx.regs = s.ctx.regs := rfl
@[simp] theorem State.setFpu_ctx_preds (e : Fpu) : (s.setFpu e).ctx.preds = s.ctx.preds := rfl
@[simp] theorem State.setFpu_ctx_retired (e : Fpu) : (s.setFpu e).ctx.retired = s.ctx.retired := rfl
@[simp] theorem State.setFpu_ctx_region (e : Fpu) : (s.setFpu e).ctx.region = s.ctx.region := rfl
@[simp] theorem State.setFpu_ctx_regionAt (e : Fpu) : (s.setFpu e).ctx.regionAt = s.ctx.regionAt := rfl
@[simp] theorem State.setFpu_ctx_tag (e : Fpu) : (s.setFpu e).ctx.tag = s.ctx.tag := rfl
@[simp] theorem State.setFpu_ctx_tagAsked (e : Fpu) : (s.setFpu e).ctx.tagAsked = s.ctx.tagAsked := rfl
@[simp] theorem State.setFpu_ctx_fpflags (e : Fpu) : (s.setFpu e).ctx.fpflags = s.ctx.fpflags ||| e.flags := rfl
@[simp] theorem State.setFpu_ctx_srseed (e : Fpu) : (s.setFpu e).ctx.srseed = e.seed := rfl
@[simp] theorem State.setFpu_ctx_hold (e : Fpu) : (s.setFpu e).ctx.hold = s.ctx.hold := rfl
@[simp] theorem State.setFpu_ctx_nt (e : Fpu) : (s.setFpu e).ctx.nt = s.ctx.nt := rfl
@[simp] theorem State.setFpu_ctx_ir (e : Fpu) : (s.setFpu e).ctx.ir = s.ctx.ir := rfl
@[simp] theorem State.setFpu_ctx_startPc (e : Fpu) : (s.setFpu e).ctx.startPc = s.ctx.startPc := rfl
@[simp] theorem State.setFpu_ctx_startSeq (e : Fpu) : (s.setFpu e).ctx.startSeq = s.ctx.startSeq := rfl
@[simp] theorem State.setFpu_ctx_entry (e : Fpu) : (s.setFpu e).ctx.entry = s.ctx.entry := rfl
@[simp] theorem State.setFpu_ctx_skipBp (e : Fpu) : (s.setFpu e).ctx.skipBp = s.ctx.skipBp := rfl
@[simp] theorem State.setFpu_k (e : Fpu) : (s.setFpu e).k = s.k := rfl
@[simp] theorem State.setFpu_hw (e : Fpu) : (s.setFpu e).hw = s.hw := rfl
@[simp] theorem State.setFpu_others (e : Fpu) : (s.setFpu e).others = s.others := rfl
@[simp] theorem State.setFpu_mem (e : Fpu) : (s.setFpu e).mem = s.mem := rfl
@[simp] theorem State.setFpu_clusterMem (e : Fpu) : (s.setFpu e).clusterMem = s.clusterMem := rfl
@[simp] theorem State.setFpu_appMem (e : Fpu) : (s.setFpu e).appMem = s.appMem := rfl
@[simp] theorem State.setFpu_walks (e : Fpu) : (s.setFpu e).walks = s.walks := rfl
@[simp] theorem State.setFpu_recBlocks (e : Fpu) : (s.setFpu e).recBlocks = s.recBlocks := rfl
@[simp] theorem State.setFpu_refused (e : Fpu) : (s.setFpu e).refused = s.refused := rfl
@[simp] theorem State.setFpu_records (e : Fpu) : (s.setFpu e).records = s.records := rfl
@[simp] theorem State.setFpu_homeTags (e : Fpu) : (s.setFpu e).homeTags = s.homeTags := rfl
@[simp] theorem State.setFpu_before (e : Fpu) : (s.setFpu e).before = s.before := rfl
@[simp] theorem State.setFpu_translated (e : Fpu) : (s.setFpu e).translated = s.translated := rfl
@[simp] theorem State.setFpu_poisoned (e : Fpu) : (s.setFpu e).poisoned = s.poisoned := rfl
@[simp] theorem State.setFpu_pages (e : Fpu) : (s.setFpu e).pages = s.pages := rfl
@[simp] theorem State.setFpu_queues (e : Fpu) : (s.setFpu e).queues = s.queues := rfl
@[simp] theorem State.setFpu_parts (e : Fpu) : (s.setFpu e).parts = s.parts := rfl
@[simp] theorem State.setFpu_deps (e : Fpu) : (s.setFpu e).deps = s.deps := rfl
@[simp] theorem State.setFpu_versions (e : Fpu) : (s.setFpu e).versions = s.versions := rfl
@[simp] theorem State.setFpu_lockets (e : Fpu) : (s.setFpu e).lockets = s.lockets := rfl
@[simp] theorem State.setFpu_ix (e : Fpu) : (s.setFpu e).ix = s.ix := rfl
@[simp] theorem State.setFpu_hot (e : Fpu) : (s.setFpu e).hot = s.hot := rfl
@[simp] theorem State.setFpu_late (e : Fpu) : (s.setFpu e).late = s.late := rfl
@[simp] theorem State.setFpu_barriers (e : Fpu) : (s.setFpu e).barriers = s.barriers := rfl
@[simp] theorem State.setFpu_domains (e : Fpu) : (s.setFpu e).domains = s.domains := rfl
@[simp] theorem State.setFpu_arbiters (e : Fpu) : (s.setFpu e).arbiters = s.arbiters := rfl
@[simp] theorem State.setFpu_fenced (e : Fpu) : (s.setFpu e).fenced = s.fenced := rfl
@[simp] theorem State.setFpu_corrected (e : Fpu) : (s.setFpu e).corrected = s.corrected := rfl
@[simp] theorem State.setFpu_mod (e : Fpu) : (s.setFpu e).mod = s.mod := rfl
@[simp] theorem State.setFpu_inflight (e : Fpu) : (s.setFpu e).inflight = s.inflight := rfl
@[simp] theorem State.setFpu_cycle (e : Fpu) : (s.setFpu e).cycle = s.cycle := rfl
@[simp] theorem State.setFpu_cmd (e : Fpu) : (s.setFpu e).cmd = s.cmd := rfl
@[simp] theorem State.setFpu_agenda (e : Fpu) : (s.setFpu e).agenda = s.agenda := rfl
@[simp] theorem State.setFpu_free (e : Fpu) : (s.setFpu e).free = s.free := rfl
@[simp] theorem State.setFpu_readAt (e : Fpu) : (s.setFpu e).readAt = s.readAt := rfl
@[simp] theorem State.setFpu_names (e : Fpu) : (s.setFpu e).names = s.names := rfl
@[simp] theorem State.setFpu_unitTurn (e : Fpu) : (s.setFpu e).unitTurn = s.unitTurn := rfl
@[simp] theorem State.setFpu_moduleTurn (e : Fpu) : (s.setFpu e).moduleTurn = s.moduleTurn := rfl
@[simp] theorem State.setFpu_kindTurn (e : Fpu) : (s.setFpu e).kindTurn = s.kindTurn := rfl

@[simp] theorem State.retire_coreNo (n : Nat) : (s.retire n).coreNo = s.coreNo := rfl
@[simp] theorem State.retire_ctx_slot (n : Nat) : (s.retire n).ctx.slot = s.ctx.slot := rfl
@[simp] theorem State.retire_ctx_live (n : Nat) : (s.retire n).ctx.live = s.ctx.live := rfl
@[simp] theorem State.retire_ctx_pc (n : Nat) : (s.retire n).ctx.pc = parcelsAfter s.ctx.pc n := rfl
@[simp] theorem State.retire_ctx_regs (n : Nat) : (s.retire n).ctx.regs = s.ctx.regs := rfl
@[simp] theorem State.retire_ctx_preds (n : Nat) : (s.retire n).ctx.preds = s.ctx.preds := rfl
@[simp] theorem State.retire_ctx_retired (n : Nat) : (s.retire n).ctx.retired = s.ctx.retired + 1 := rfl
@[simp] theorem State.retire_ctx_region (n : Nat) : (s.retire n).ctx.region = s.ctx.region := rfl
@[simp] theorem State.retire_ctx_regionAt (n : Nat) : (s.retire n).ctx.regionAt = s.ctx.regionAt := rfl
@[simp] theorem State.retire_ctx_tag (n : Nat) : (s.retire n).ctx.tag = s.ctx.tag := rfl
@[simp] theorem State.retire_ctx_tagAsked (n : Nat) : (s.retire n).ctx.tagAsked = s.ctx.tagAsked := rfl
@[simp] theorem State.retire_ctx_fpflags (n : Nat) : (s.retire n).ctx.fpflags = s.ctx.fpflags := rfl
@[simp] theorem State.retire_ctx_srseed (n : Nat) : (s.retire n).ctx.srseed = s.ctx.srseed := rfl
@[simp] theorem State.retire_ctx_hold (n : Nat) : (s.retire n).ctx.hold = none := rfl
@[simp] theorem State.retire_ctx_nt (n : Nat) : (s.retire n).ctx.nt = s.ctx.nt := rfl
@[simp] theorem State.retire_ctx_ir (n : Nat) : (s.retire n).ctx.ir = s.ctx.ir := rfl
@[simp] theorem State.retire_ctx_startPc (n : Nat) : (s.retire n).ctx.startPc = s.ctx.startPc := rfl
@[simp] theorem State.retire_ctx_startSeq (n : Nat) : (s.retire n).ctx.startSeq = s.ctx.startSeq := rfl
@[simp] theorem State.retire_ctx_entry (n : Nat) : (s.retire n).ctx.entry = s.ctx.entry := rfl
@[simp] theorem State.retire_ctx_skipBp (n : Nat) : (s.retire n).ctx.skipBp = false := rfl
@[simp] theorem State.retire_k (n : Nat) : (s.retire n).k = s.k := rfl
@[simp] theorem State.retire_hw (n : Nat) : (s.retire n).hw = s.hw := rfl
@[simp] theorem State.retire_others (n : Nat) : (s.retire n).others = s.others := rfl
@[simp] theorem State.retire_mem (n : Nat) : (s.retire n).mem = s.mem := rfl
@[simp] theorem State.retire_clusterMem (n : Nat) : (s.retire n).clusterMem = s.clusterMem := rfl
@[simp] theorem State.retire_appMem (n : Nat) : (s.retire n).appMem = s.appMem := rfl
@[simp] theorem State.retire_walks (n : Nat) : (s.retire n).walks = s.walks := rfl
@[simp] theorem State.retire_recBlocks (n : Nat) : (s.retire n).recBlocks = s.recBlocks := rfl
@[simp] theorem State.retire_refused (n : Nat) : (s.retire n).refused = s.refused := rfl
@[simp] theorem State.retire_records (n : Nat) : (s.retire n).records = s.records := rfl
@[simp] theorem State.retire_homeTags (n : Nat) : (s.retire n).homeTags = s.homeTags := rfl
@[simp] theorem State.retire_before (n : Nat) : (s.retire n).before = s.before := rfl
@[simp] theorem State.retire_translated (n : Nat) : (s.retire n).translated = s.translated := rfl
@[simp] theorem State.retire_poisoned (n : Nat) : (s.retire n).poisoned = s.poisoned := rfl
@[simp] theorem State.retire_pages (n : Nat) : (s.retire n).pages = s.pages := rfl
@[simp] theorem State.retire_queues (n : Nat) : (s.retire n).queues = s.queues := rfl
@[simp] theorem State.retire_parts (n : Nat) : (s.retire n).parts = s.parts := rfl
@[simp] theorem State.retire_deps (n : Nat) : (s.retire n).deps = s.deps := rfl
@[simp] theorem State.retire_versions (n : Nat) : (s.retire n).versions = s.versions := rfl
@[simp] theorem State.retire_lockets (n : Nat) : (s.retire n).lockets = s.lockets := rfl
@[simp] theorem State.retire_ix (n : Nat) : (s.retire n).ix = s.ix := rfl
@[simp] theorem State.retire_hot (n : Nat) : (s.retire n).hot = s.hot := rfl
@[simp] theorem State.retire_late (n : Nat) : (s.retire n).late = s.late := rfl
@[simp] theorem State.retire_barriers (n : Nat) : (s.retire n).barriers = s.barriers := rfl
@[simp] theorem State.retire_domains (n : Nat) : (s.retire n).domains = s.domains := rfl
@[simp] theorem State.retire_arbiters (n : Nat) : (s.retire n).arbiters = s.arbiters := rfl
@[simp] theorem State.retire_fenced (n : Nat) : (s.retire n).fenced = s.fenced := rfl
@[simp] theorem State.retire_corrected (n : Nat) : (s.retire n).corrected = s.corrected := rfl
@[simp] theorem State.retire_mod (n : Nat) : (s.retire n).mod = s.mod := rfl
@[simp] theorem State.retire_inflight (n : Nat) : (s.retire n).inflight = s.inflight := rfl
@[simp] theorem State.retire_cycle (n : Nat) : (s.retire n).cycle = s.cycle := rfl
@[simp] theorem State.retire_cmd (n : Nat) : (s.retire n).cmd = s.cmd := rfl
@[simp] theorem State.retire_agenda (n : Nat) : (s.retire n).agenda = s.agenda := rfl
@[simp] theorem State.retire_free (n : Nat) : (s.retire n).free = s.free := rfl
@[simp] theorem State.retire_readAt (n : Nat) : (s.retire n).readAt = s.readAt := rfl
@[simp] theorem State.retire_names (n : Nat) : (s.retire n).names = s.names := rfl
@[simp] theorem State.retire_unitTurn (n : Nat) : (s.retire n).unitTurn = s.unitTurn := rfl
@[simp] theorem State.retire_moduleTurn (n : Nat) : (s.retire n).moduleTurn = s.moduleTurn := rfl
@[simp] theorem State.retire_kindTurn (n : Nat) : (s.retire n).kindTurn = s.kindTurn := rfl

@[simp] theorem State.goto_coreNo (a : Word) : (s.goto a).coreNo = s.coreNo := rfl
@[simp] theorem State.goto_ctx_slot (a : Word) : (s.goto a).ctx.slot = s.ctx.slot := rfl
@[simp] theorem State.goto_ctx_live (a : Word) : (s.goto a).ctx.live = s.ctx.live := rfl
@[simp] theorem State.goto_ctx_pc (a : Word) : (s.goto a).ctx.pc = a := rfl
@[simp] theorem State.goto_ctx_regs (a : Word) : (s.goto a).ctx.regs = s.ctx.regs := rfl
@[simp] theorem State.goto_ctx_preds (a : Word) : (s.goto a).ctx.preds = s.ctx.preds := rfl
@[simp] theorem State.goto_ctx_retired (a : Word) : (s.goto a).ctx.retired = s.ctx.retired + 1 := rfl
@[simp] theorem State.goto_ctx_region (a : Word) : (s.goto a).ctx.region = s.ctx.region := rfl
@[simp] theorem State.goto_ctx_regionAt (a : Word) : (s.goto a).ctx.regionAt = s.ctx.regionAt := rfl
@[simp] theorem State.goto_ctx_tag (a : Word) : (s.goto a).ctx.tag = s.ctx.tag := rfl
@[simp] theorem State.goto_ctx_tagAsked (a : Word) : (s.goto a).ctx.tagAsked = s.ctx.tagAsked := rfl
@[simp] theorem State.goto_ctx_fpflags (a : Word) : (s.goto a).ctx.fpflags = s.ctx.fpflags := rfl
@[simp] theorem State.goto_ctx_srseed (a : Word) : (s.goto a).ctx.srseed = s.ctx.srseed := rfl
@[simp] theorem State.goto_ctx_hold (a : Word) : (s.goto a).ctx.hold = none := rfl
@[simp] theorem State.goto_ctx_nt (a : Word) : (s.goto a).ctx.nt = s.ctx.nt := rfl
@[simp] theorem State.goto_ctx_ir (a : Word) : (s.goto a).ctx.ir = s.ctx.ir := rfl
@[simp] theorem State.goto_ctx_startPc (a : Word) : (s.goto a).ctx.startPc = s.ctx.startPc := rfl
@[simp] theorem State.goto_ctx_startSeq (a : Word) : (s.goto a).ctx.startSeq = s.ctx.startSeq := rfl
@[simp] theorem State.goto_ctx_entry (a : Word) : (s.goto a).ctx.entry = s.ctx.entry := rfl
@[simp] theorem State.goto_ctx_skipBp (a : Word) : (s.goto a).ctx.skipBp = false := rfl
@[simp] theorem State.goto_k (a : Word) : (s.goto a).k = s.k := rfl
@[simp] theorem State.goto_hw (a : Word) : (s.goto a).hw = s.hw := rfl
@[simp] theorem State.goto_others (a : Word) : (s.goto a).others = s.others := rfl
@[simp] theorem State.goto_mem (a : Word) : (s.goto a).mem = s.mem := rfl
@[simp] theorem State.goto_clusterMem (a : Word) : (s.goto a).clusterMem = s.clusterMem := rfl
@[simp] theorem State.goto_appMem (a : Word) : (s.goto a).appMem = s.appMem := rfl
@[simp] theorem State.goto_walks (a : Word) : (s.goto a).walks = s.walks := rfl
@[simp] theorem State.goto_recBlocks (a : Word) : (s.goto a).recBlocks = s.recBlocks := rfl
@[simp] theorem State.goto_refused (a : Word) : (s.goto a).refused = s.refused := rfl
@[simp] theorem State.goto_records (a : Word) : (s.goto a).records = s.records := rfl
@[simp] theorem State.goto_homeTags (a : Word) : (s.goto a).homeTags = s.homeTags := rfl
@[simp] theorem State.goto_before (a : Word) : (s.goto a).before = s.before := rfl
@[simp] theorem State.goto_translated (a : Word) : (s.goto a).translated = s.translated := rfl
@[simp] theorem State.goto_poisoned (a : Word) : (s.goto a).poisoned = s.poisoned := rfl
@[simp] theorem State.goto_pages (a : Word) : (s.goto a).pages = s.pages := rfl
@[simp] theorem State.goto_queues (a : Word) : (s.goto a).queues = s.queues := rfl
@[simp] theorem State.goto_parts (a : Word) : (s.goto a).parts = s.parts := rfl
@[simp] theorem State.goto_deps (a : Word) : (s.goto a).deps = s.deps := rfl
@[simp] theorem State.goto_versions (a : Word) : (s.goto a).versions = s.versions := rfl
@[simp] theorem State.goto_lockets (a : Word) : (s.goto a).lockets = s.lockets := rfl
@[simp] theorem State.goto_ix (a : Word) : (s.goto a).ix = s.ix := rfl
@[simp] theorem State.goto_hot (a : Word) : (s.goto a).hot = s.hot := rfl
@[simp] theorem State.goto_late (a : Word) : (s.goto a).late = s.late := rfl
@[simp] theorem State.goto_barriers (a : Word) : (s.goto a).barriers = s.barriers := rfl
@[simp] theorem State.goto_domains (a : Word) : (s.goto a).domains = s.domains := rfl
@[simp] theorem State.goto_arbiters (a : Word) : (s.goto a).arbiters = s.arbiters := rfl
@[simp] theorem State.goto_fenced (a : Word) : (s.goto a).fenced = s.fenced := rfl
@[simp] theorem State.goto_corrected (a : Word) : (s.goto a).corrected = s.corrected := rfl
@[simp] theorem State.goto_mod (a : Word) : (s.goto a).mod = s.mod := rfl
@[simp] theorem State.goto_inflight (a : Word) : (s.goto a).inflight = s.inflight := rfl
@[simp] theorem State.goto_cycle (a : Word) : (s.goto a).cycle = s.cycle := rfl
@[simp] theorem State.goto_cmd (a : Word) : (s.goto a).cmd = s.cmd := rfl
@[simp] theorem State.goto_agenda (a : Word) : (s.goto a).agenda = s.agenda := rfl
@[simp] theorem State.goto_free (a : Word) : (s.goto a).free = s.free := rfl
@[simp] theorem State.goto_readAt (a : Word) : (s.goto a).readAt = s.readAt := rfl
@[simp] theorem State.goto_names (a : Word) : (s.goto a).names = s.names := rfl
@[simp] theorem State.goto_unitTurn (a : Word) : (s.goto a).unitTurn = s.unitTurn := rfl
@[simp] theorem State.goto_moduleTurn (a : Word) : (s.goto a).moduleTurn = s.moduleTurn := rfl
@[simp] theorem State.goto_kindTurn (a : Word) : (s.goto a).kindTurn = s.kindTurn := rfl

@[simp] theorem State.wait_coreNo (w : Wait) : (s.wait w).coreNo = s.coreNo := rfl
@[simp] theorem State.wait_ctx_slot (w : Wait) : (s.wait w).ctx.slot = s.ctx.slot := rfl
@[simp] theorem State.wait_ctx_live (w : Wait) : (s.wait w).ctx.live = s.ctx.live := rfl
@[simp] theorem State.wait_ctx_pc (w : Wait) : (s.wait w).ctx.pc = s.ctx.pc := rfl
@[simp] theorem State.wait_ctx_regs (w : Wait) : (s.wait w).ctx.regs = s.ctx.regs := rfl
@[simp] theorem State.wait_ctx_preds (w : Wait) : (s.wait w).ctx.preds = s.ctx.preds := rfl
@[simp] theorem State.wait_ctx_retired (w : Wait) : (s.wait w).ctx.retired = s.ctx.retired := rfl
@[simp] theorem State.wait_ctx_region (w : Wait) : (s.wait w).ctx.region = s.ctx.region := rfl
@[simp] theorem State.wait_ctx_regionAt (w : Wait) : (s.wait w).ctx.regionAt = s.ctx.regionAt := rfl
@[simp] theorem State.wait_ctx_tag (w : Wait) : (s.wait w).ctx.tag = s.ctx.tag := rfl
@[simp] theorem State.wait_ctx_tagAsked (w : Wait) : (s.wait w).ctx.tagAsked = s.ctx.tagAsked := rfl
@[simp] theorem State.wait_ctx_fpflags (w : Wait) : (s.wait w).ctx.fpflags = s.ctx.fpflags := rfl
@[simp] theorem State.wait_ctx_srseed (w : Wait) : (s.wait w).ctx.srseed = s.ctx.srseed := rfl
@[simp] theorem State.wait_ctx_hold (w : Wait) : (s.wait w).ctx.hold = some w := rfl
@[simp] theorem State.wait_ctx_nt (w : Wait) : (s.wait w).ctx.nt = s.ctx.nt := rfl
@[simp] theorem State.wait_ctx_ir (w : Wait) : (s.wait w).ctx.ir = s.ctx.ir := rfl
@[simp] theorem State.wait_ctx_startPc (w : Wait) : (s.wait w).ctx.startPc = s.ctx.startPc := rfl
@[simp] theorem State.wait_ctx_startSeq (w : Wait) : (s.wait w).ctx.startSeq = s.ctx.startSeq := rfl
@[simp] theorem State.wait_ctx_entry (w : Wait) : (s.wait w).ctx.entry = s.ctx.entry := rfl
@[simp] theorem State.wait_ctx_skipBp (w : Wait) : (s.wait w).ctx.skipBp = s.ctx.skipBp := rfl
@[simp] theorem State.wait_k (w : Wait) : (s.wait w).k = s.k := rfl
@[simp] theorem State.wait_hw (w : Wait) : (s.wait w).hw = s.hw := rfl
@[simp] theorem State.wait_others (w : Wait) : (s.wait w).others = s.others := rfl
@[simp] theorem State.wait_mem (w : Wait) : (s.wait w).mem = s.mem := rfl
@[simp] theorem State.wait_clusterMem (w : Wait) : (s.wait w).clusterMem = s.clusterMem := rfl
@[simp] theorem State.wait_appMem (w : Wait) : (s.wait w).appMem = s.appMem := rfl
@[simp] theorem State.wait_walks (w : Wait) : (s.wait w).walks = s.walks := rfl
@[simp] theorem State.wait_recBlocks (w : Wait) : (s.wait w).recBlocks = s.recBlocks := rfl
@[simp] theorem State.wait_refused (w : Wait) : (s.wait w).refused = s.refused := rfl
@[simp] theorem State.wait_records (w : Wait) : (s.wait w).records = s.records := rfl
@[simp] theorem State.wait_homeTags (w : Wait) : (s.wait w).homeTags = s.homeTags := rfl
@[simp] theorem State.wait_before (w : Wait) : (s.wait w).before = s.before := rfl
@[simp] theorem State.wait_translated (w : Wait) : (s.wait w).translated = s.translated := rfl
@[simp] theorem State.wait_poisoned (w : Wait) : (s.wait w).poisoned = s.poisoned := rfl
@[simp] theorem State.wait_pages (w : Wait) : (s.wait w).pages = s.pages := rfl
@[simp] theorem State.wait_queues (w : Wait) : (s.wait w).queues = s.queues := rfl
@[simp] theorem State.wait_parts (w : Wait) : (s.wait w).parts = s.parts := rfl
@[simp] theorem State.wait_deps (w : Wait) : (s.wait w).deps = s.deps := rfl
@[simp] theorem State.wait_versions (w : Wait) : (s.wait w).versions = s.versions := rfl
@[simp] theorem State.wait_lockets (w : Wait) : (s.wait w).lockets = s.lockets := rfl
@[simp] theorem State.wait_ix (w : Wait) : (s.wait w).ix = s.ix := rfl
@[simp] theorem State.wait_hot (w : Wait) : (s.wait w).hot = s.hot := rfl
@[simp] theorem State.wait_late (w : Wait) : (s.wait w).late = s.late := rfl
@[simp] theorem State.wait_barriers (w : Wait) : (s.wait w).barriers = s.barriers := rfl
@[simp] theorem State.wait_domains (w : Wait) : (s.wait w).domains = s.domains := rfl
@[simp] theorem State.wait_arbiters (w : Wait) : (s.wait w).arbiters = s.arbiters := rfl
@[simp] theorem State.wait_fenced (w : Wait) : (s.wait w).fenced = s.fenced := rfl
@[simp] theorem State.wait_corrected (w : Wait) : (s.wait w).corrected = s.corrected := rfl
@[simp] theorem State.wait_mod (w : Wait) : (s.wait w).mod = s.mod := rfl
@[simp] theorem State.wait_inflight (w : Wait) : (s.wait w).inflight = s.inflight := rfl
@[simp] theorem State.wait_cycle (w : Wait) : (s.wait w).cycle = s.cycle := rfl
@[simp] theorem State.wait_cmd (w : Wait) : (s.wait w).cmd = s.cmd := rfl
@[simp] theorem State.wait_agenda (w : Wait) : (s.wait w).agenda = s.agenda := rfl
@[simp] theorem State.wait_free (w : Wait) : (s.wait w).free = s.free := rfl
@[simp] theorem State.wait_readAt (w : Wait) : (s.wait w).readAt = s.readAt := rfl
@[simp] theorem State.wait_names (w : Wait) : (s.wait w).names = s.names := rfl
@[simp] theorem State.wait_unitTurn (w : Wait) : (s.wait w).unitTurn = s.unitTurn := rfl
@[simp] theorem State.wait_moduleTurn (w : Wait) : (s.wait w).moduleTurn = s.moduleTurn := rfl
@[simp] theorem State.wait_kindTurn (w : Wait) : (s.wait w).kindTurn = s.kindTurn := rfl

@[simp] theorem State.countRetired_coreNo : (s.countRetired).coreNo = s.coreNo := rfl
@[simp] theorem State.countRetired_ctx_slot : (s.countRetired).ctx.slot = s.ctx.slot := rfl
@[simp] theorem State.countRetired_ctx_live : (s.countRetired).ctx.live = s.ctx.live := rfl
@[simp] theorem State.countRetired_ctx_pc : (s.countRetired).ctx.pc = s.ctx.pc := rfl
@[simp] theorem State.countRetired_ctx_regs : (s.countRetired).ctx.regs = s.ctx.regs := rfl
@[simp] theorem State.countRetired_ctx_preds : (s.countRetired).ctx.preds = s.ctx.preds := rfl
@[simp] theorem State.countRetired_ctx_retired : (s.countRetired).ctx.retired = s.ctx.retired + 1 := rfl
@[simp] theorem State.countRetired_ctx_region : (s.countRetired).ctx.region = s.ctx.region := rfl
@[simp] theorem State.countRetired_ctx_regionAt : (s.countRetired).ctx.regionAt = s.ctx.regionAt := rfl
@[simp] theorem State.countRetired_ctx_tag : (s.countRetired).ctx.tag = s.ctx.tag := rfl
@[simp] theorem State.countRetired_ctx_tagAsked : (s.countRetired).ctx.tagAsked = s.ctx.tagAsked := rfl
@[simp] theorem State.countRetired_ctx_fpflags : (s.countRetired).ctx.fpflags = s.ctx.fpflags := rfl
@[simp] theorem State.countRetired_ctx_srseed : (s.countRetired).ctx.srseed = s.ctx.srseed := rfl
@[simp] theorem State.countRetired_ctx_hold : (s.countRetired).ctx.hold = s.ctx.hold := rfl
@[simp] theorem State.countRetired_ctx_nt : (s.countRetired).ctx.nt = s.ctx.nt := rfl
@[simp] theorem State.countRetired_ctx_ir : (s.countRetired).ctx.ir = s.ctx.ir := rfl
@[simp] theorem State.countRetired_ctx_startPc : (s.countRetired).ctx.startPc = s.ctx.startPc := rfl
@[simp] theorem State.countRetired_ctx_startSeq : (s.countRetired).ctx.startSeq = s.ctx.startSeq := rfl
@[simp] theorem State.countRetired_ctx_entry : (s.countRetired).ctx.entry = s.ctx.entry := rfl
@[simp] theorem State.countRetired_ctx_skipBp : (s.countRetired).ctx.skipBp = s.ctx.skipBp := rfl
@[simp] theorem State.countRetired_k : (s.countRetired).k = s.k := rfl
@[simp] theorem State.countRetired_hw : (s.countRetired).hw = s.hw := rfl
@[simp] theorem State.countRetired_others : (s.countRetired).others = s.others := rfl
@[simp] theorem State.countRetired_mem : (s.countRetired).mem = s.mem := rfl
@[simp] theorem State.countRetired_clusterMem : (s.countRetired).clusterMem = s.clusterMem := rfl
@[simp] theorem State.countRetired_appMem : (s.countRetired).appMem = s.appMem := rfl
@[simp] theorem State.countRetired_walks : (s.countRetired).walks = s.walks := rfl
@[simp] theorem State.countRetired_recBlocks : (s.countRetired).recBlocks = s.recBlocks := rfl
@[simp] theorem State.countRetired_refused : (s.countRetired).refused = s.refused := rfl
@[simp] theorem State.countRetired_records : (s.countRetired).records = s.records := rfl
@[simp] theorem State.countRetired_homeTags : (s.countRetired).homeTags = s.homeTags := rfl
@[simp] theorem State.countRetired_before : (s.countRetired).before = s.before := rfl
@[simp] theorem State.countRetired_translated : (s.countRetired).translated = s.translated := rfl
@[simp] theorem State.countRetired_poisoned : (s.countRetired).poisoned = s.poisoned := rfl
@[simp] theorem State.countRetired_pages : (s.countRetired).pages = s.pages := rfl
@[simp] theorem State.countRetired_queues : (s.countRetired).queues = s.queues := rfl
@[simp] theorem State.countRetired_parts : (s.countRetired).parts = s.parts := rfl
@[simp] theorem State.countRetired_deps : (s.countRetired).deps = s.deps := rfl
@[simp] theorem State.countRetired_versions : (s.countRetired).versions = s.versions := rfl
@[simp] theorem State.countRetired_lockets : (s.countRetired).lockets = s.lockets := rfl
@[simp] theorem State.countRetired_ix : (s.countRetired).ix = s.ix := rfl
@[simp] theorem State.countRetired_hot : (s.countRetired).hot = s.hot := rfl
@[simp] theorem State.countRetired_late : (s.countRetired).late = s.late := rfl
@[simp] theorem State.countRetired_barriers : (s.countRetired).barriers = s.barriers := rfl
@[simp] theorem State.countRetired_domains : (s.countRetired).domains = s.domains := rfl
@[simp] theorem State.countRetired_arbiters : (s.countRetired).arbiters = s.arbiters := rfl
@[simp] theorem State.countRetired_fenced : (s.countRetired).fenced = s.fenced := rfl
@[simp] theorem State.countRetired_corrected : (s.countRetired).corrected = s.corrected := rfl
@[simp] theorem State.countRetired_mod : (s.countRetired).mod = s.mod := rfl
@[simp] theorem State.countRetired_inflight : (s.countRetired).inflight = s.inflight := rfl
@[simp] theorem State.countRetired_cycle : (s.countRetired).cycle = s.cycle := rfl
@[simp] theorem State.countRetired_cmd : (s.countRetired).cmd = s.cmd := rfl
@[simp] theorem State.countRetired_agenda : (s.countRetired).agenda = s.agenda := rfl
@[simp] theorem State.countRetired_free : (s.countRetired).free = s.free := rfl
@[simp] theorem State.countRetired_readAt : (s.countRetired).readAt = s.readAt := rfl
@[simp] theorem State.countRetired_names : (s.countRetired).names = s.names := rfl
@[simp] theorem State.countRetired_unitTurn : (s.countRetired).unitTurn = s.unitTurn := rfl
@[simp] theorem State.countRetired_moduleTurn : (s.countRetired).moduleTurn = s.moduleTurn := rfl
@[simp] theorem State.countRetired_kindTurn : (s.countRetired).kindTurn = s.kindTurn := rfl

@[simp] theorem State.latch_coreNo (ps : List Parcel) : (s.latch ps).coreNo = s.coreNo := rfl
@[simp] theorem State.latch_ctx_slot (ps : List Parcel) : (s.latch ps).ctx.slot = s.ctx.slot := rfl
@[simp] theorem State.latch_ctx_live (ps : List Parcel) : (s.latch ps).ctx.live = s.ctx.live := rfl
@[simp] theorem State.latch_ctx_pc (ps : List Parcel) : (s.latch ps).ctx.pc = s.ctx.pc := rfl
@[simp] theorem State.latch_ctx_regs (ps : List Parcel) : (s.latch ps).ctx.regs = s.ctx.regs := rfl
@[simp] theorem State.latch_ctx_preds (ps : List Parcel) : (s.latch ps).ctx.preds = s.ctx.preds := rfl
@[simp] theorem State.latch_ctx_retired (ps : List Parcel) : (s.latch ps).ctx.retired = s.ctx.retired := rfl
@[simp] theorem State.latch_ctx_region (ps : List Parcel) : (s.latch ps).ctx.region = s.ctx.region := rfl
@[simp] theorem State.latch_ctx_regionAt (ps : List Parcel) : (s.latch ps).ctx.regionAt = s.ctx.regionAt := rfl
@[simp] theorem State.latch_ctx_tag (ps : List Parcel) : (s.latch ps).ctx.tag = s.ctx.tag := rfl
@[simp] theorem State.latch_ctx_tagAsked (ps : List Parcel) : (s.latch ps).ctx.tagAsked = s.ctx.tagAsked := rfl
@[simp] theorem State.latch_ctx_fpflags (ps : List Parcel) : (s.latch ps).ctx.fpflags = s.ctx.fpflags := rfl
@[simp] theorem State.latch_ctx_srseed (ps : List Parcel) : (s.latch ps).ctx.srseed = s.ctx.srseed := rfl
@[simp] theorem State.latch_ctx_hold (ps : List Parcel) : (s.latch ps).ctx.hold = s.ctx.hold := rfl
@[simp] theorem State.latch_ctx_nt (ps : List Parcel) : (s.latch ps).ctx.nt = s.ctx.nt := rfl
@[simp] theorem State.latch_ctx_ir (ps : List Parcel) : (s.latch ps).ctx.ir = #v[ps.getD 0 0, ps.getD 1 0, ps.getD 2 0] := rfl
@[simp] theorem State.latch_ctx_startPc (ps : List Parcel) : (s.latch ps).ctx.startPc = s.ctx.startPc := rfl
@[simp] theorem State.latch_ctx_startSeq (ps : List Parcel) : (s.latch ps).ctx.startSeq = s.ctx.startSeq := rfl
@[simp] theorem State.latch_ctx_entry (ps : List Parcel) : (s.latch ps).ctx.entry = s.ctx.entry := rfl
@[simp] theorem State.latch_ctx_skipBp (ps : List Parcel) : (s.latch ps).ctx.skipBp = s.ctx.skipBp := rfl
@[simp] theorem State.latch_k (ps : List Parcel) : (s.latch ps).k = s.k := rfl
@[simp] theorem State.latch_hw (ps : List Parcel) : (s.latch ps).hw = s.hw := rfl
@[simp] theorem State.latch_others (ps : List Parcel) : (s.latch ps).others = s.others := rfl
@[simp] theorem State.latch_mem (ps : List Parcel) : (s.latch ps).mem = s.mem := rfl
@[simp] theorem State.latch_clusterMem (ps : List Parcel) : (s.latch ps).clusterMem = s.clusterMem := rfl
@[simp] theorem State.latch_appMem (ps : List Parcel) : (s.latch ps).appMem = s.appMem := rfl
@[simp] theorem State.latch_walks (ps : List Parcel) : (s.latch ps).walks = s.walks := rfl
@[simp] theorem State.latch_recBlocks (ps : List Parcel) : (s.latch ps).recBlocks = s.recBlocks := rfl
@[simp] theorem State.latch_refused (ps : List Parcel) : (s.latch ps).refused = s.refused := rfl
@[simp] theorem State.latch_records (ps : List Parcel) : (s.latch ps).records = s.records := rfl
@[simp] theorem State.latch_homeTags (ps : List Parcel) : (s.latch ps).homeTags = s.homeTags := rfl
@[simp] theorem State.latch_before (ps : List Parcel) : (s.latch ps).before = s.before := rfl
@[simp] theorem State.latch_translated (ps : List Parcel) : (s.latch ps).translated = s.translated := rfl
@[simp] theorem State.latch_poisoned (ps : List Parcel) : (s.latch ps).poisoned = s.poisoned := rfl
@[simp] theorem State.latch_pages (ps : List Parcel) : (s.latch ps).pages = s.pages := rfl
@[simp] theorem State.latch_queues (ps : List Parcel) : (s.latch ps).queues = s.queues := rfl
@[simp] theorem State.latch_parts (ps : List Parcel) : (s.latch ps).parts = s.parts := rfl
@[simp] theorem State.latch_deps (ps : List Parcel) : (s.latch ps).deps = s.deps := rfl
@[simp] theorem State.latch_versions (ps : List Parcel) : (s.latch ps).versions = s.versions := rfl
@[simp] theorem State.latch_lockets (ps : List Parcel) : (s.latch ps).lockets = s.lockets := rfl
@[simp] theorem State.latch_ix (ps : List Parcel) : (s.latch ps).ix = s.ix := rfl
@[simp] theorem State.latch_hot (ps : List Parcel) : (s.latch ps).hot = s.hot := rfl
@[simp] theorem State.latch_late (ps : List Parcel) : (s.latch ps).late = s.late := rfl
@[simp] theorem State.latch_barriers (ps : List Parcel) : (s.latch ps).barriers = s.barriers := rfl
@[simp] theorem State.latch_domains (ps : List Parcel) : (s.latch ps).domains = s.domains := rfl
@[simp] theorem State.latch_arbiters (ps : List Parcel) : (s.latch ps).arbiters = s.arbiters := rfl
@[simp] theorem State.latch_fenced (ps : List Parcel) : (s.latch ps).fenced = s.fenced := rfl
@[simp] theorem State.latch_corrected (ps : List Parcel) : (s.latch ps).corrected = s.corrected := rfl
@[simp] theorem State.latch_mod (ps : List Parcel) : (s.latch ps).mod = s.mod := rfl
@[simp] theorem State.latch_inflight (ps : List Parcel) : (s.latch ps).inflight = s.inflight := rfl
@[simp] theorem State.latch_cycle (ps : List Parcel) : (s.latch ps).cycle = s.cycle := rfl
@[simp] theorem State.latch_cmd (ps : List Parcel) : (s.latch ps).cmd = s.cmd := rfl
@[simp] theorem State.latch_agenda (ps : List Parcel) : (s.latch ps).agenda = s.agenda := rfl
@[simp] theorem State.latch_free (ps : List Parcel) : (s.latch ps).free = s.free := rfl
@[simp] theorem State.latch_readAt (ps : List Parcel) : (s.latch ps).readAt = s.readAt := rfl
@[simp] theorem State.latch_names (ps : List Parcel) : (s.latch ps).names = s.names := rfl
@[simp] theorem State.latch_unitTurn (ps : List Parcel) : (s.latch ps).unitTurn = s.unitTurn := rfl
@[simp] theorem State.latch_moduleTurn (ps : List Parcel) : (s.latch ps).moduleTurn = s.moduleTurn := rfl
@[simp] theorem State.latch_kindTurn (ps : List Parcel) : (s.latch ps).kindTurn = s.kindTurn := rfl

@[simp] theorem State.bumpSeq_coreNo : (s.bumpSeq).coreNo = s.coreNo := rfl
@[simp] theorem State.bumpSeq_ctx : (s.bumpSeq).ctx = s.ctx := rfl
@[simp] theorem State.bumpSeq_k_task : (s.bumpSeq).k.task = s.k.task := rfl
@[simp] theorem State.bumpSeq_k_strands : (s.bumpSeq).k.strands = s.k.strands := rfl
@[simp] theorem State.bumpSeq_k_masks : (s.bumpSeq).k.masks = s.k.masks := rfl
@[simp] theorem State.bumpSeq_k_tens : (s.bumpSeq).k.tens = s.k.tens := rfl
@[simp] theorem State.bumpSeq_k_chans : (s.bumpSeq).k.chans = s.k.chans := rfl
@[simp] theorem State.bumpSeq_k_events : (s.bumpSeq).k.events = s.k.events := rfl
@[simp] theorem State.bumpSeq_k_tierins : (s.bumpSeq).k.tierins = s.k.tierins := rfl
@[simp] theorem State.bumpSeq_k_ixStopped : (s.bumpSeq).k.ixStopped = s.k.ixStopped := rfl
@[simp] theorem State.bumpSeq_k_ixSaved : (s.bumpSeq).k.ixSaved = s.k.ixSaved := rfl
@[simp] theorem State.bumpSeq_k_loop : (s.bumpSeq).k.loop = s.k.loop := rfl
@[simp] theorem State.bumpSeq_k_localMem : (s.bumpSeq).k.localMem = s.k.localMem := rfl
@[simp] theorem State.bumpSeq_k_crown : (s.bumpSeq).k.crown = s.k.crown := rfl
@[simp] theorem State.bumpSeq_k_bezel : (s.bumpSeq).k.bezel = s.k.bezel := rfl
@[simp] theorem State.bumpSeq_k_engseq : (s.bumpSeq).k.engseq = s.k.engseq + 1 := rfl
@[simp] theorem State.bumpSeq_k_heapbase : (s.bumpSeq).k.heapbase = s.k.heapbase := rfl
@[simp] theorem State.bumpSeq_k_heaplim : (s.bumpSeq).k.heaplim = s.k.heaplim := rfl
@[simp] theorem State.bumpSeq_k_heapoff : (s.bumpSeq).k.heapoff = s.k.heapoff := rfl
@[simp] theorem State.bumpSeq_k_trapcause : (s.bumpSeq).k.trapcause = s.k.trapcause := rfl
@[simp] theorem State.bumpSeq_k_trapaddr : (s.bumpSeq).k.trapaddr = s.k.trapaddr := rfl
@[simp] theorem State.bumpSeq_k_trapseq : (s.bumpSeq).k.trapseq = s.k.trapseq := rfl
@[simp] theorem State.bumpSeq_k_trappc : (s.bumpSeq).k.trappc = s.k.trappc := rfl
@[simp] theorem State.bumpSeq_k_trapvec : (s.bumpSeq).k.trapvec = s.k.trapvec := rfl
@[simp] theorem State.bumpSeq_k_helperEnd : (s.bumpSeq).k.helperEnd = s.k.helperEnd := rfl
@[simp] theorem State.bumpSeq_k_mvuq : (s.bumpSeq).k.mvuq = s.k.mvuq := rfl
@[simp] theorem State.bumpSeq_k_unreleased : (s.bumpSeq).k.unreleased = s.k.unreleased := rfl
@[simp] theorem State.bumpSeq_k_ring : (s.bumpSeq).k.ring = s.k.ring := rfl
@[simp] theorem State.bumpSeq_k_pending : (s.bumpSeq).k.pending = s.k.pending := rfl
@[simp] theorem State.bumpSeq_k_window : (s.bumpSeq).k.window = s.k.window := rfl
@[simp] theorem State.bumpSeq_k_peers : (s.bumpSeq).k.peers = s.k.peers := rfl
@[simp] theorem State.bumpSeq_hw : (s.bumpSeq).hw = s.hw := rfl
@[simp] theorem State.bumpSeq_others : (s.bumpSeq).others = s.others := rfl
@[simp] theorem State.bumpSeq_mem : (s.bumpSeq).mem = s.mem := rfl
@[simp] theorem State.bumpSeq_clusterMem : (s.bumpSeq).clusterMem = s.clusterMem := rfl
@[simp] theorem State.bumpSeq_appMem : (s.bumpSeq).appMem = s.appMem := rfl
@[simp] theorem State.bumpSeq_walks : (s.bumpSeq).walks = s.walks := rfl
@[simp] theorem State.bumpSeq_recBlocks : (s.bumpSeq).recBlocks = s.recBlocks := rfl
@[simp] theorem State.bumpSeq_refused : (s.bumpSeq).refused = s.refused := rfl
@[simp] theorem State.bumpSeq_records : (s.bumpSeq).records = s.records := rfl
@[simp] theorem State.bumpSeq_homeTags : (s.bumpSeq).homeTags = s.homeTags := rfl
@[simp] theorem State.bumpSeq_before : (s.bumpSeq).before = s.before := rfl
@[simp] theorem State.bumpSeq_translated : (s.bumpSeq).translated = s.translated := rfl
@[simp] theorem State.bumpSeq_poisoned : (s.bumpSeq).poisoned = s.poisoned := rfl
@[simp] theorem State.bumpSeq_pages : (s.bumpSeq).pages = s.pages := rfl
@[simp] theorem State.bumpSeq_queues : (s.bumpSeq).queues = s.queues := rfl
@[simp] theorem State.bumpSeq_parts : (s.bumpSeq).parts = s.parts := rfl
@[simp] theorem State.bumpSeq_deps : (s.bumpSeq).deps = s.deps := rfl
@[simp] theorem State.bumpSeq_versions : (s.bumpSeq).versions = s.versions := rfl
@[simp] theorem State.bumpSeq_lockets : (s.bumpSeq).lockets = s.lockets := rfl
@[simp] theorem State.bumpSeq_ix : (s.bumpSeq).ix = s.ix := rfl
@[simp] theorem State.bumpSeq_hot : (s.bumpSeq).hot = s.hot := rfl
@[simp] theorem State.bumpSeq_late : (s.bumpSeq).late = s.late := rfl
@[simp] theorem State.bumpSeq_barriers : (s.bumpSeq).barriers = s.barriers := rfl
@[simp] theorem State.bumpSeq_domains : (s.bumpSeq).domains = s.domains := rfl
@[simp] theorem State.bumpSeq_arbiters : (s.bumpSeq).arbiters = s.arbiters := rfl
@[simp] theorem State.bumpSeq_fenced : (s.bumpSeq).fenced = s.fenced := rfl
@[simp] theorem State.bumpSeq_corrected : (s.bumpSeq).corrected = s.corrected := rfl
@[simp] theorem State.bumpSeq_mod : (s.bumpSeq).mod = s.mod := rfl
@[simp] theorem State.bumpSeq_inflight : (s.bumpSeq).inflight = s.inflight := rfl
@[simp] theorem State.bumpSeq_cycle : (s.bumpSeq).cycle = s.cycle := rfl
@[simp] theorem State.bumpSeq_cmd : (s.bumpSeq).cmd = s.cmd := rfl
@[simp] theorem State.bumpSeq_agenda : (s.bumpSeq).agenda = s.agenda := rfl
@[simp] theorem State.bumpSeq_free : (s.bumpSeq).free = s.free := rfl
@[simp] theorem State.bumpSeq_readAt : (s.bumpSeq).readAt = s.readAt := rfl
@[simp] theorem State.bumpSeq_names : (s.bumpSeq).names = s.names := rfl
@[simp] theorem State.bumpSeq_unitTurn : (s.bumpSeq).unitTurn = s.unitTurn := rfl
@[simp] theorem State.bumpSeq_moduleTurn : (s.bumpSeq).moduleTurn = s.moduleTurn := rfl
@[simp] theorem State.bumpSeq_kindTurn : (s.bumpSeq).kindTurn = s.kindTurn := rfl

@[simp] theorem State.setStrand_coreNo (g : Nat) (v : Strand) : (s.setStrand g v).coreNo = s.coreNo := rfl
@[simp] theorem State.setStrand_ctx (g : Nat) (v : Strand) : (s.setStrand g v).ctx = s.ctx := rfl
@[simp] theorem State.setStrand_k_task (g : Nat) (v : Strand) : (s.setStrand g v).k.task = s.k.task := rfl
@[simp] theorem State.setStrand_k_strands (g : Nat) (v : Strand) : (s.setStrand g v).k.strands = s.k.strands.setIfInBounds g v := rfl
@[simp] theorem State.setStrand_k_masks (g : Nat) (v : Strand) : (s.setStrand g v).k.masks = s.k.masks := rfl
@[simp] theorem State.setStrand_k_tens (g : Nat) (v : Strand) : (s.setStrand g v).k.tens = s.k.tens := rfl
@[simp] theorem State.setStrand_k_chans (g : Nat) (v : Strand) : (s.setStrand g v).k.chans = s.k.chans := rfl
@[simp] theorem State.setStrand_k_events (g : Nat) (v : Strand) : (s.setStrand g v).k.events = s.k.events := rfl
@[simp] theorem State.setStrand_k_tierins (g : Nat) (v : Strand) : (s.setStrand g v).k.tierins = s.k.tierins := rfl
@[simp] theorem State.setStrand_k_ixStopped (g : Nat) (v : Strand) : (s.setStrand g v).k.ixStopped = s.k.ixStopped := rfl
@[simp] theorem State.setStrand_k_ixSaved (g : Nat) (v : Strand) : (s.setStrand g v).k.ixSaved = s.k.ixSaved := rfl
@[simp] theorem State.setStrand_k_loop (g : Nat) (v : Strand) : (s.setStrand g v).k.loop = s.k.loop := rfl
@[simp] theorem State.setStrand_k_localMem (g : Nat) (v : Strand) : (s.setStrand g v).k.localMem = s.k.localMem := rfl
@[simp] theorem State.setStrand_k_crown (g : Nat) (v : Strand) : (s.setStrand g v).k.crown = s.k.crown := rfl
@[simp] theorem State.setStrand_k_bezel (g : Nat) (v : Strand) : (s.setStrand g v).k.bezel = s.k.bezel := rfl
@[simp] theorem State.setStrand_k_engseq (g : Nat) (v : Strand) : (s.setStrand g v).k.engseq = s.k.engseq := rfl
@[simp] theorem State.setStrand_k_heapbase (g : Nat) (v : Strand) : (s.setStrand g v).k.heapbase = s.k.heapbase := rfl
@[simp] theorem State.setStrand_k_heaplim (g : Nat) (v : Strand) : (s.setStrand g v).k.heaplim = s.k.heaplim := rfl
@[simp] theorem State.setStrand_k_heapoff (g : Nat) (v : Strand) : (s.setStrand g v).k.heapoff = s.k.heapoff := rfl
@[simp] theorem State.setStrand_k_trapcause (g : Nat) (v : Strand) : (s.setStrand g v).k.trapcause = s.k.trapcause := rfl
@[simp] theorem State.setStrand_k_trapaddr (g : Nat) (v : Strand) : (s.setStrand g v).k.trapaddr = s.k.trapaddr := rfl
@[simp] theorem State.setStrand_k_trapseq (g : Nat) (v : Strand) : (s.setStrand g v).k.trapseq = s.k.trapseq := rfl
@[simp] theorem State.setStrand_k_trappc (g : Nat) (v : Strand) : (s.setStrand g v).k.trappc = s.k.trappc := rfl
@[simp] theorem State.setStrand_k_trapvec (g : Nat) (v : Strand) : (s.setStrand g v).k.trapvec = s.k.trapvec := rfl
@[simp] theorem State.setStrand_k_helperEnd (g : Nat) (v : Strand) : (s.setStrand g v).k.helperEnd = s.k.helperEnd := rfl
@[simp] theorem State.setStrand_k_mvuq (g : Nat) (v : Strand) : (s.setStrand g v).k.mvuq = s.k.mvuq := rfl
@[simp] theorem State.setStrand_k_unreleased (g : Nat) (v : Strand) : (s.setStrand g v).k.unreleased = s.k.unreleased := rfl
@[simp] theorem State.setStrand_k_ring (g : Nat) (v : Strand) : (s.setStrand g v).k.ring = s.k.ring := rfl
@[simp] theorem State.setStrand_k_pending (g : Nat) (v : Strand) : (s.setStrand g v).k.pending = s.k.pending := rfl
@[simp] theorem State.setStrand_k_window (g : Nat) (v : Strand) : (s.setStrand g v).k.window = s.k.window := rfl
@[simp] theorem State.setStrand_k_peers (g : Nat) (v : Strand) : (s.setStrand g v).k.peers = s.k.peers := rfl
@[simp] theorem State.setStrand_hw (g : Nat) (v : Strand) : (s.setStrand g v).hw = s.hw := rfl
@[simp] theorem State.setStrand_others (g : Nat) (v : Strand) : (s.setStrand g v).others = s.others := rfl
@[simp] theorem State.setStrand_mem (g : Nat) (v : Strand) : (s.setStrand g v).mem = s.mem := rfl
@[simp] theorem State.setStrand_clusterMem (g : Nat) (v : Strand) : (s.setStrand g v).clusterMem = s.clusterMem := rfl
@[simp] theorem State.setStrand_appMem (g : Nat) (v : Strand) : (s.setStrand g v).appMem = s.appMem := rfl
@[simp] theorem State.setStrand_walks (g : Nat) (v : Strand) : (s.setStrand g v).walks = s.walks := rfl
@[simp] theorem State.setStrand_recBlocks (g : Nat) (v : Strand) : (s.setStrand g v).recBlocks = s.recBlocks := rfl
@[simp] theorem State.setStrand_refused (g : Nat) (v : Strand) : (s.setStrand g v).refused = s.refused := rfl
@[simp] theorem State.setStrand_records (g : Nat) (v : Strand) : (s.setStrand g v).records = s.records := rfl
@[simp] theorem State.setStrand_homeTags (g : Nat) (v : Strand) : (s.setStrand g v).homeTags = s.homeTags := rfl
@[simp] theorem State.setStrand_before (g : Nat) (v : Strand) : (s.setStrand g v).before = s.before := rfl
@[simp] theorem State.setStrand_translated (g : Nat) (v : Strand) : (s.setStrand g v).translated = s.translated := rfl
@[simp] theorem State.setStrand_poisoned (g : Nat) (v : Strand) : (s.setStrand g v).poisoned = s.poisoned := rfl
@[simp] theorem State.setStrand_pages (g : Nat) (v : Strand) : (s.setStrand g v).pages = s.pages := rfl
@[simp] theorem State.setStrand_queues (g : Nat) (v : Strand) : (s.setStrand g v).queues = s.queues := rfl
@[simp] theorem State.setStrand_parts (g : Nat) (v : Strand) : (s.setStrand g v).parts = s.parts := rfl
@[simp] theorem State.setStrand_deps (g : Nat) (v : Strand) : (s.setStrand g v).deps = s.deps := rfl
@[simp] theorem State.setStrand_versions (g : Nat) (v : Strand) : (s.setStrand g v).versions = s.versions := rfl
@[simp] theorem State.setStrand_lockets (g : Nat) (v : Strand) : (s.setStrand g v).lockets = s.lockets := rfl
@[simp] theorem State.setStrand_ix (g : Nat) (v : Strand) : (s.setStrand g v).ix = s.ix := rfl
@[simp] theorem State.setStrand_hot (g : Nat) (v : Strand) : (s.setStrand g v).hot = s.hot := rfl
@[simp] theorem State.setStrand_late (g : Nat) (v : Strand) : (s.setStrand g v).late = s.late := rfl
@[simp] theorem State.setStrand_barriers (g : Nat) (v : Strand) : (s.setStrand g v).barriers = s.barriers := rfl
@[simp] theorem State.setStrand_domains (g : Nat) (v : Strand) : (s.setStrand g v).domains = s.domains := rfl
@[simp] theorem State.setStrand_arbiters (g : Nat) (v : Strand) : (s.setStrand g v).arbiters = s.arbiters := rfl
@[simp] theorem State.setStrand_fenced (g : Nat) (v : Strand) : (s.setStrand g v).fenced = s.fenced := rfl
@[simp] theorem State.setStrand_corrected (g : Nat) (v : Strand) : (s.setStrand g v).corrected = s.corrected := rfl
@[simp] theorem State.setStrand_mod (g : Nat) (v : Strand) : (s.setStrand g v).mod = s.mod := rfl
@[simp] theorem State.setStrand_inflight (g : Nat) (v : Strand) : (s.setStrand g v).inflight = s.inflight := rfl
@[simp] theorem State.setStrand_cycle (g : Nat) (v : Strand) : (s.setStrand g v).cycle = s.cycle := rfl
@[simp] theorem State.setStrand_cmd (g : Nat) (v : Strand) : (s.setStrand g v).cmd = s.cmd := rfl
@[simp] theorem State.setStrand_agenda (g : Nat) (v : Strand) : (s.setStrand g v).agenda = s.agenda := rfl
@[simp] theorem State.setStrand_free (g : Nat) (v : Strand) : (s.setStrand g v).free = s.free := rfl
@[simp] theorem State.setStrand_readAt (g : Nat) (v : Strand) : (s.setStrand g v).readAt = s.readAt := rfl
@[simp] theorem State.setStrand_names (g : Nat) (v : Strand) : (s.setStrand g v).names = s.names := rfl
@[simp] theorem State.setStrand_unitTurn (g : Nat) (v : Strand) : (s.setStrand g v).unitTurn = s.unitTurn := rfl
@[simp] theorem State.setStrand_moduleTurn (g : Nat) (v : Strand) : (s.setStrand g v).moduleTurn = s.moduleTurn := rfl
@[simp] theorem State.setStrand_kindTurn (g : Nat) (v : Strand) : (s.setStrand g v).kindTurn = s.kindTurn := rfl

@[simp] theorem State.setTensor_coreNo (i : Nat) (v : Word512) : (s.setTensor i v).coreNo = s.coreNo := rfl
@[simp] theorem State.setTensor_ctx (i : Nat) (v : Word512) : (s.setTensor i v).ctx = s.ctx := rfl
@[simp] theorem State.setTensor_k_task (i : Nat) (v : Word512) : (s.setTensor i v).k.task = s.k.task := rfl
@[simp] theorem State.setTensor_k_strands (i : Nat) (v : Word512) : (s.setTensor i v).k.strands = s.k.strands := rfl
@[simp] theorem State.setTensor_k_masks (i : Nat) (v : Word512) : (s.setTensor i v).k.masks = s.k.masks := rfl
@[simp] theorem State.setTensor_k_tens (i : Nat) (v : Word512) : (s.setTensor i v).k.tens = s.k.tens.setIfInBounds i v := rfl
@[simp] theorem State.setTensor_k_chans (i : Nat) (v : Word512) : (s.setTensor i v).k.chans = s.k.chans := rfl
@[simp] theorem State.setTensor_k_events (i : Nat) (v : Word512) : (s.setTensor i v).k.events = s.k.events := rfl
@[simp] theorem State.setTensor_k_tierins (i : Nat) (v : Word512) : (s.setTensor i v).k.tierins = s.k.tierins := rfl
@[simp] theorem State.setTensor_k_ixStopped (i : Nat) (v : Word512) : (s.setTensor i v).k.ixStopped = s.k.ixStopped := rfl
@[simp] theorem State.setTensor_k_ixSaved (i : Nat) (v : Word512) : (s.setTensor i v).k.ixSaved = s.k.ixSaved := rfl
@[simp] theorem State.setTensor_k_loop (i : Nat) (v : Word512) : (s.setTensor i v).k.loop = s.k.loop := rfl
@[simp] theorem State.setTensor_k_localMem (i : Nat) (v : Word512) : (s.setTensor i v).k.localMem = s.k.localMem := rfl
@[simp] theorem State.setTensor_k_crown (i : Nat) (v : Word512) : (s.setTensor i v).k.crown = s.k.crown := rfl
@[simp] theorem State.setTensor_k_bezel (i : Nat) (v : Word512) : (s.setTensor i v).k.bezel = s.k.bezel := rfl
@[simp] theorem State.setTensor_k_engseq (i : Nat) (v : Word512) : (s.setTensor i v).k.engseq = s.k.engseq := rfl
@[simp] theorem State.setTensor_k_heapbase (i : Nat) (v : Word512) : (s.setTensor i v).k.heapbase = s.k.heapbase := rfl
@[simp] theorem State.setTensor_k_heaplim (i : Nat) (v : Word512) : (s.setTensor i v).k.heaplim = s.k.heaplim := rfl
@[simp] theorem State.setTensor_k_heapoff (i : Nat) (v : Word512) : (s.setTensor i v).k.heapoff = s.k.heapoff := rfl
@[simp] theorem State.setTensor_k_trapcause (i : Nat) (v : Word512) : (s.setTensor i v).k.trapcause = s.k.trapcause := rfl
@[simp] theorem State.setTensor_k_trapaddr (i : Nat) (v : Word512) : (s.setTensor i v).k.trapaddr = s.k.trapaddr := rfl
@[simp] theorem State.setTensor_k_trapseq (i : Nat) (v : Word512) : (s.setTensor i v).k.trapseq = s.k.trapseq := rfl
@[simp] theorem State.setTensor_k_trappc (i : Nat) (v : Word512) : (s.setTensor i v).k.trappc = s.k.trappc := rfl
@[simp] theorem State.setTensor_k_trapvec (i : Nat) (v : Word512) : (s.setTensor i v).k.trapvec = s.k.trapvec := rfl
@[simp] theorem State.setTensor_k_helperEnd (i : Nat) (v : Word512) : (s.setTensor i v).k.helperEnd = s.k.helperEnd := rfl
@[simp] theorem State.setTensor_k_mvuq (i : Nat) (v : Word512) : (s.setTensor i v).k.mvuq = s.k.mvuq := rfl
@[simp] theorem State.setTensor_k_unreleased (i : Nat) (v : Word512) : (s.setTensor i v).k.unreleased = s.k.unreleased := rfl
@[simp] theorem State.setTensor_k_ring (i : Nat) (v : Word512) : (s.setTensor i v).k.ring = s.k.ring := rfl
@[simp] theorem State.setTensor_k_pending (i : Nat) (v : Word512) : (s.setTensor i v).k.pending = s.k.pending := rfl
@[simp] theorem State.setTensor_k_window (i : Nat) (v : Word512) : (s.setTensor i v).k.window = s.k.window := rfl
@[simp] theorem State.setTensor_k_peers (i : Nat) (v : Word512) : (s.setTensor i v).k.peers = s.k.peers := rfl
@[simp] theorem State.setTensor_hw (i : Nat) (v : Word512) : (s.setTensor i v).hw = s.hw := rfl
@[simp] theorem State.setTensor_others (i : Nat) (v : Word512) : (s.setTensor i v).others = s.others := rfl
@[simp] theorem State.setTensor_mem (i : Nat) (v : Word512) : (s.setTensor i v).mem = s.mem := rfl
@[simp] theorem State.setTensor_clusterMem (i : Nat) (v : Word512) : (s.setTensor i v).clusterMem = s.clusterMem := rfl
@[simp] theorem State.setTensor_appMem (i : Nat) (v : Word512) : (s.setTensor i v).appMem = s.appMem := rfl
@[simp] theorem State.setTensor_walks (i : Nat) (v : Word512) : (s.setTensor i v).walks = s.walks := rfl
@[simp] theorem State.setTensor_recBlocks (i : Nat) (v : Word512) : (s.setTensor i v).recBlocks = s.recBlocks := rfl
@[simp] theorem State.setTensor_refused (i : Nat) (v : Word512) : (s.setTensor i v).refused = s.refused := rfl
@[simp] theorem State.setTensor_records (i : Nat) (v : Word512) : (s.setTensor i v).records = s.records := rfl
@[simp] theorem State.setTensor_homeTags (i : Nat) (v : Word512) : (s.setTensor i v).homeTags = s.homeTags := rfl
@[simp] theorem State.setTensor_before (i : Nat) (v : Word512) : (s.setTensor i v).before = s.before := rfl
@[simp] theorem State.setTensor_translated (i : Nat) (v : Word512) : (s.setTensor i v).translated = s.translated := rfl
@[simp] theorem State.setTensor_poisoned (i : Nat) (v : Word512) : (s.setTensor i v).poisoned = s.poisoned := rfl
@[simp] theorem State.setTensor_pages (i : Nat) (v : Word512) : (s.setTensor i v).pages = s.pages := rfl
@[simp] theorem State.setTensor_queues (i : Nat) (v : Word512) : (s.setTensor i v).queues = s.queues := rfl
@[simp] theorem State.setTensor_parts (i : Nat) (v : Word512) : (s.setTensor i v).parts = s.parts := rfl
@[simp] theorem State.setTensor_deps (i : Nat) (v : Word512) : (s.setTensor i v).deps = s.deps := rfl
@[simp] theorem State.setTensor_versions (i : Nat) (v : Word512) : (s.setTensor i v).versions = s.versions := rfl
@[simp] theorem State.setTensor_lockets (i : Nat) (v : Word512) : (s.setTensor i v).lockets = s.lockets := rfl
@[simp] theorem State.setTensor_ix (i : Nat) (v : Word512) : (s.setTensor i v).ix = s.ix := rfl
@[simp] theorem State.setTensor_hot (i : Nat) (v : Word512) : (s.setTensor i v).hot = s.hot := rfl
@[simp] theorem State.setTensor_late (i : Nat) (v : Word512) : (s.setTensor i v).late = s.late := rfl
@[simp] theorem State.setTensor_barriers (i : Nat) (v : Word512) : (s.setTensor i v).barriers = s.barriers := rfl
@[simp] theorem State.setTensor_domains (i : Nat) (v : Word512) : (s.setTensor i v).domains = s.domains := rfl
@[simp] theorem State.setTensor_arbiters (i : Nat) (v : Word512) : (s.setTensor i v).arbiters = s.arbiters := rfl
@[simp] theorem State.setTensor_fenced (i : Nat) (v : Word512) : (s.setTensor i v).fenced = s.fenced := rfl
@[simp] theorem State.setTensor_corrected (i : Nat) (v : Word512) : (s.setTensor i v).corrected = s.corrected := rfl
@[simp] theorem State.setTensor_mod (i : Nat) (v : Word512) : (s.setTensor i v).mod = s.mod := rfl
@[simp] theorem State.setTensor_inflight (i : Nat) (v : Word512) : (s.setTensor i v).inflight = s.inflight := rfl
@[simp] theorem State.setTensor_cycle (i : Nat) (v : Word512) : (s.setTensor i v).cycle = s.cycle := rfl
@[simp] theorem State.setTensor_cmd (i : Nat) (v : Word512) : (s.setTensor i v).cmd = s.cmd := rfl
@[simp] theorem State.setTensor_agenda (i : Nat) (v : Word512) : (s.setTensor i v).agenda = s.agenda := rfl
@[simp] theorem State.setTensor_free (i : Nat) (v : Word512) : (s.setTensor i v).free = s.free := rfl
@[simp] theorem State.setTensor_readAt (i : Nat) (v : Word512) : (s.setTensor i v).readAt = s.readAt := rfl
@[simp] theorem State.setTensor_names (i : Nat) (v : Word512) : (s.setTensor i v).names = s.names := rfl
@[simp] theorem State.setTensor_unitTurn (i : Nat) (v : Word512) : (s.setTensor i v).unitTurn = s.unitTurn := rfl
@[simp] theorem State.setTensor_moduleTurn (i : Nat) (v : Word512) : (s.setTensor i v).moduleTurn = s.moduleTurn := rfl
@[simp] theorem State.setTensor_kindTurn (i : Nat) (v : Word512) : (s.setTensor i v).kindTurn = s.kindTurn := rfl

@[simp] theorem State.setMask_coreNo (i : Nat) (v : MaskWord) : (s.setMask i v).coreNo = s.coreNo := rfl
@[simp] theorem State.setMask_ctx (i : Nat) (v : MaskWord) : (s.setMask i v).ctx = s.ctx := rfl
@[simp] theorem State.setMask_k_task (i : Nat) (v : MaskWord) : (s.setMask i v).k.task = s.k.task := rfl
@[simp] theorem State.setMask_k_strands (i : Nat) (v : MaskWord) : (s.setMask i v).k.strands = s.k.strands := rfl
@[simp] theorem State.setMask_k_masks (i : Nat) (v : MaskWord) : (s.setMask i v).k.masks = s.k.masks.setIfInBounds i v := rfl
@[simp] theorem State.setMask_k_tens (i : Nat) (v : MaskWord) : (s.setMask i v).k.tens = s.k.tens := rfl
@[simp] theorem State.setMask_k_chans (i : Nat) (v : MaskWord) : (s.setMask i v).k.chans = s.k.chans := rfl
@[simp] theorem State.setMask_k_events (i : Nat) (v : MaskWord) : (s.setMask i v).k.events = s.k.events := rfl
@[simp] theorem State.setMask_k_tierins (i : Nat) (v : MaskWord) : (s.setMask i v).k.tierins = s.k.tierins := rfl
@[simp] theorem State.setMask_k_ixStopped (i : Nat) (v : MaskWord) : (s.setMask i v).k.ixStopped = s.k.ixStopped := rfl
@[simp] theorem State.setMask_k_ixSaved (i : Nat) (v : MaskWord) : (s.setMask i v).k.ixSaved = s.k.ixSaved := rfl
@[simp] theorem State.setMask_k_loop (i : Nat) (v : MaskWord) : (s.setMask i v).k.loop = s.k.loop := rfl
@[simp] theorem State.setMask_k_localMem (i : Nat) (v : MaskWord) : (s.setMask i v).k.localMem = s.k.localMem := rfl
@[simp] theorem State.setMask_k_crown (i : Nat) (v : MaskWord) : (s.setMask i v).k.crown = s.k.crown := rfl
@[simp] theorem State.setMask_k_bezel (i : Nat) (v : MaskWord) : (s.setMask i v).k.bezel = s.k.bezel := rfl
@[simp] theorem State.setMask_k_engseq (i : Nat) (v : MaskWord) : (s.setMask i v).k.engseq = s.k.engseq := rfl
@[simp] theorem State.setMask_k_heapbase (i : Nat) (v : MaskWord) : (s.setMask i v).k.heapbase = s.k.heapbase := rfl
@[simp] theorem State.setMask_k_heaplim (i : Nat) (v : MaskWord) : (s.setMask i v).k.heaplim = s.k.heaplim := rfl
@[simp] theorem State.setMask_k_heapoff (i : Nat) (v : MaskWord) : (s.setMask i v).k.heapoff = s.k.heapoff := rfl
@[simp] theorem State.setMask_k_trapcause (i : Nat) (v : MaskWord) : (s.setMask i v).k.trapcause = s.k.trapcause := rfl
@[simp] theorem State.setMask_k_trapaddr (i : Nat) (v : MaskWord) : (s.setMask i v).k.trapaddr = s.k.trapaddr := rfl
@[simp] theorem State.setMask_k_trapseq (i : Nat) (v : MaskWord) : (s.setMask i v).k.trapseq = s.k.trapseq := rfl
@[simp] theorem State.setMask_k_trappc (i : Nat) (v : MaskWord) : (s.setMask i v).k.trappc = s.k.trappc := rfl
@[simp] theorem State.setMask_k_trapvec (i : Nat) (v : MaskWord) : (s.setMask i v).k.trapvec = s.k.trapvec := rfl
@[simp] theorem State.setMask_k_helperEnd (i : Nat) (v : MaskWord) : (s.setMask i v).k.helperEnd = s.k.helperEnd := rfl
@[simp] theorem State.setMask_k_mvuq (i : Nat) (v : MaskWord) : (s.setMask i v).k.mvuq = s.k.mvuq := rfl
@[simp] theorem State.setMask_k_unreleased (i : Nat) (v : MaskWord) : (s.setMask i v).k.unreleased = s.k.unreleased := rfl
@[simp] theorem State.setMask_k_ring (i : Nat) (v : MaskWord) : (s.setMask i v).k.ring = s.k.ring := rfl
@[simp] theorem State.setMask_k_pending (i : Nat) (v : MaskWord) : (s.setMask i v).k.pending = s.k.pending := rfl
@[simp] theorem State.setMask_k_window (i : Nat) (v : MaskWord) : (s.setMask i v).k.window = s.k.window := rfl
@[simp] theorem State.setMask_k_peers (i : Nat) (v : MaskWord) : (s.setMask i v).k.peers = s.k.peers := rfl
@[simp] theorem State.setMask_hw (i : Nat) (v : MaskWord) : (s.setMask i v).hw = s.hw := rfl
@[simp] theorem State.setMask_others (i : Nat) (v : MaskWord) : (s.setMask i v).others = s.others := rfl
@[simp] theorem State.setMask_mem (i : Nat) (v : MaskWord) : (s.setMask i v).mem = s.mem := rfl
@[simp] theorem State.setMask_clusterMem (i : Nat) (v : MaskWord) : (s.setMask i v).clusterMem = s.clusterMem := rfl
@[simp] theorem State.setMask_appMem (i : Nat) (v : MaskWord) : (s.setMask i v).appMem = s.appMem := rfl
@[simp] theorem State.setMask_walks (i : Nat) (v : MaskWord) : (s.setMask i v).walks = s.walks := rfl
@[simp] theorem State.setMask_recBlocks (i : Nat) (v : MaskWord) : (s.setMask i v).recBlocks = s.recBlocks := rfl
@[simp] theorem State.setMask_refused (i : Nat) (v : MaskWord) : (s.setMask i v).refused = s.refused := rfl
@[simp] theorem State.setMask_records (i : Nat) (v : MaskWord) : (s.setMask i v).records = s.records := rfl
@[simp] theorem State.setMask_homeTags (i : Nat) (v : MaskWord) : (s.setMask i v).homeTags = s.homeTags := rfl
@[simp] theorem State.setMask_before (i : Nat) (v : MaskWord) : (s.setMask i v).before = s.before := rfl
@[simp] theorem State.setMask_translated (i : Nat) (v : MaskWord) : (s.setMask i v).translated = s.translated := rfl
@[simp] theorem State.setMask_poisoned (i : Nat) (v : MaskWord) : (s.setMask i v).poisoned = s.poisoned := rfl
@[simp] theorem State.setMask_pages (i : Nat) (v : MaskWord) : (s.setMask i v).pages = s.pages := rfl
@[simp] theorem State.setMask_queues (i : Nat) (v : MaskWord) : (s.setMask i v).queues = s.queues := rfl
@[simp] theorem State.setMask_parts (i : Nat) (v : MaskWord) : (s.setMask i v).parts = s.parts := rfl
@[simp] theorem State.setMask_deps (i : Nat) (v : MaskWord) : (s.setMask i v).deps = s.deps := rfl
@[simp] theorem State.setMask_versions (i : Nat) (v : MaskWord) : (s.setMask i v).versions = s.versions := rfl
@[simp] theorem State.setMask_lockets (i : Nat) (v : MaskWord) : (s.setMask i v).lockets = s.lockets := rfl
@[simp] theorem State.setMask_ix (i : Nat) (v : MaskWord) : (s.setMask i v).ix = s.ix := rfl
@[simp] theorem State.setMask_hot (i : Nat) (v : MaskWord) : (s.setMask i v).hot = s.hot := rfl
@[simp] theorem State.setMask_late (i : Nat) (v : MaskWord) : (s.setMask i v).late = s.late := rfl
@[simp] theorem State.setMask_barriers (i : Nat) (v : MaskWord) : (s.setMask i v).barriers = s.barriers := rfl
@[simp] theorem State.setMask_domains (i : Nat) (v : MaskWord) : (s.setMask i v).domains = s.domains := rfl
@[simp] theorem State.setMask_arbiters (i : Nat) (v : MaskWord) : (s.setMask i v).arbiters = s.arbiters := rfl
@[simp] theorem State.setMask_fenced (i : Nat) (v : MaskWord) : (s.setMask i v).fenced = s.fenced := rfl
@[simp] theorem State.setMask_corrected (i : Nat) (v : MaskWord) : (s.setMask i v).corrected = s.corrected := rfl
@[simp] theorem State.setMask_mod (i : Nat) (v : MaskWord) : (s.setMask i v).mod = s.mod := rfl
@[simp] theorem State.setMask_inflight (i : Nat) (v : MaskWord) : (s.setMask i v).inflight = s.inflight := rfl
@[simp] theorem State.setMask_cycle (i : Nat) (v : MaskWord) : (s.setMask i v).cycle = s.cycle := rfl
@[simp] theorem State.setMask_cmd (i : Nat) (v : MaskWord) : (s.setMask i v).cmd = s.cmd := rfl
@[simp] theorem State.setMask_agenda (i : Nat) (v : MaskWord) : (s.setMask i v).agenda = s.agenda := rfl
@[simp] theorem State.setMask_free (i : Nat) (v : MaskWord) : (s.setMask i v).free = s.free := rfl
@[simp] theorem State.setMask_readAt (i : Nat) (v : MaskWord) : (s.setMask i v).readAt = s.readAt := rfl
@[simp] theorem State.setMask_names (i : Nat) (v : MaskWord) : (s.setMask i v).names = s.names := rfl
@[simp] theorem State.setMask_unitTurn (i : Nat) (v : MaskWord) : (s.setMask i v).unitTurn = s.unitTurn := rfl
@[simp] theorem State.setMask_moduleTurn (i : Nat) (v : MaskWord) : (s.setMask i v).moduleTurn = s.moduleTurn := rfl
@[simp] theorem State.setMask_kindTurn (i : Nat) (v : MaskWord) : (s.setMask i v).kindTurn = s.kindTurn := rfl

@[simp] theorem State.onChan_coreNo (n : Nat) (f : Chan → Chan) : (s.onChan n f).coreNo = s.coreNo := rfl
@[simp] theorem State.onChan_ctx (n : Nat) (f : Chan → Chan) : (s.onChan n f).ctx = s.ctx := rfl
@[simp] theorem State.onChan_k_task (n : Nat) (f : Chan → Chan) : (s.onChan n f).k.task = s.k.task := rfl
@[simp] theorem State.onChan_k_strands (n : Nat) (f : Chan → Chan) : (s.onChan n f).k.strands = s.k.strands := rfl
@[simp] theorem State.onChan_k_masks (n : Nat) (f : Chan → Chan) : (s.onChan n f).k.masks = s.k.masks := rfl
@[simp] theorem State.onChan_k_tens (n : Nat) (f : Chan → Chan) : (s.onChan n f).k.tens = s.k.tens := rfl
@[simp] theorem State.onChan_k_chans (n : Nat) (f : Chan → Chan) : (s.onChan n f).k.chans = s.k.chans.setIfInBounds n (f (s.chan n)) := rfl
@[simp] theorem State.onChan_k_events (n : Nat) (f : Chan → Chan) : (s.onChan n f).k.events = s.k.events := rfl
@[simp] theorem State.onChan_k_tierins (n : Nat) (f : Chan → Chan) : (s.onChan n f).k.tierins = s.k.tierins := rfl
@[simp] theorem State.onChan_k_ixStopped (n : Nat) (f : Chan → Chan) : (s.onChan n f).k.ixStopped = s.k.ixStopped := rfl
@[simp] theorem State.onChan_k_ixSaved (n : Nat) (f : Chan → Chan) : (s.onChan n f).k.ixSaved = s.k.ixSaved := rfl
@[simp] theorem State.onChan_k_loop (n : Nat) (f : Chan → Chan) : (s.onChan n f).k.loop = s.k.loop := rfl
@[simp] theorem State.onChan_k_localMem (n : Nat) (f : Chan → Chan) : (s.onChan n f).k.localMem = s.k.localMem := rfl
@[simp] theorem State.onChan_k_crown (n : Nat) (f : Chan → Chan) : (s.onChan n f).k.crown = s.k.crown := rfl
@[simp] theorem State.onChan_k_bezel (n : Nat) (f : Chan → Chan) : (s.onChan n f).k.bezel = s.k.bezel := rfl
@[simp] theorem State.onChan_k_engseq (n : Nat) (f : Chan → Chan) : (s.onChan n f).k.engseq = s.k.engseq := rfl
@[simp] theorem State.onChan_k_heapbase (n : Nat) (f : Chan → Chan) : (s.onChan n f).k.heapbase = s.k.heapbase := rfl
@[simp] theorem State.onChan_k_heaplim (n : Nat) (f : Chan → Chan) : (s.onChan n f).k.heaplim = s.k.heaplim := rfl
@[simp] theorem State.onChan_k_heapoff (n : Nat) (f : Chan → Chan) : (s.onChan n f).k.heapoff = s.k.heapoff := rfl
@[simp] theorem State.onChan_k_trapcause (n : Nat) (f : Chan → Chan) : (s.onChan n f).k.trapcause = s.k.trapcause := rfl
@[simp] theorem State.onChan_k_trapaddr (n : Nat) (f : Chan → Chan) : (s.onChan n f).k.trapaddr = s.k.trapaddr := rfl
@[simp] theorem State.onChan_k_trapseq (n : Nat) (f : Chan → Chan) : (s.onChan n f).k.trapseq = s.k.trapseq := rfl
@[simp] theorem State.onChan_k_trappc (n : Nat) (f : Chan → Chan) : (s.onChan n f).k.trappc = s.k.trappc := rfl
@[simp] theorem State.onChan_k_trapvec (n : Nat) (f : Chan → Chan) : (s.onChan n f).k.trapvec = s.k.trapvec := rfl
@[simp] theorem State.onChan_k_helperEnd (n : Nat) (f : Chan → Chan) : (s.onChan n f).k.helperEnd = s.k.helperEnd := rfl
@[simp] theorem State.onChan_k_mvuq (n : Nat) (f : Chan → Chan) : (s.onChan n f).k.mvuq = s.k.mvuq := rfl
@[simp] theorem State.onChan_k_unreleased (n : Nat) (f : Chan → Chan) : (s.onChan n f).k.unreleased = s.k.unreleased := rfl
@[simp] theorem State.onChan_k_ring (n : Nat) (f : Chan → Chan) : (s.onChan n f).k.ring = s.k.ring := rfl
@[simp] theorem State.onChan_k_pending (n : Nat) (f : Chan → Chan) : (s.onChan n f).k.pending = s.k.pending := rfl
@[simp] theorem State.onChan_k_window (n : Nat) (f : Chan → Chan) : (s.onChan n f).k.window = s.k.window := rfl
@[simp] theorem State.onChan_k_peers (n : Nat) (f : Chan → Chan) : (s.onChan n f).k.peers = s.k.peers := rfl
@[simp] theorem State.onChan_hw (n : Nat) (f : Chan → Chan) : (s.onChan n f).hw = s.hw := rfl
@[simp] theorem State.onChan_others (n : Nat) (f : Chan → Chan) : (s.onChan n f).others = s.others := rfl
@[simp] theorem State.onChan_mem (n : Nat) (f : Chan → Chan) : (s.onChan n f).mem = s.mem := rfl
@[simp] theorem State.onChan_clusterMem (n : Nat) (f : Chan → Chan) : (s.onChan n f).clusterMem = s.clusterMem := rfl
@[simp] theorem State.onChan_appMem (n : Nat) (f : Chan → Chan) : (s.onChan n f).appMem = s.appMem := rfl
@[simp] theorem State.onChan_walks (n : Nat) (f : Chan → Chan) : (s.onChan n f).walks = s.walks := rfl
@[simp] theorem State.onChan_recBlocks (n : Nat) (f : Chan → Chan) : (s.onChan n f).recBlocks = s.recBlocks := rfl
@[simp] theorem State.onChan_refused (n : Nat) (f : Chan → Chan) : (s.onChan n f).refused = s.refused := rfl
@[simp] theorem State.onChan_records (n : Nat) (f : Chan → Chan) : (s.onChan n f).records = s.records := rfl
@[simp] theorem State.onChan_homeTags (n : Nat) (f : Chan → Chan) : (s.onChan n f).homeTags = s.homeTags := rfl
@[simp] theorem State.onChan_before (n : Nat) (f : Chan → Chan) : (s.onChan n f).before = s.before := rfl
@[simp] theorem State.onChan_translated (n : Nat) (f : Chan → Chan) : (s.onChan n f).translated = s.translated := rfl
@[simp] theorem State.onChan_poisoned (n : Nat) (f : Chan → Chan) : (s.onChan n f).poisoned = s.poisoned := rfl
@[simp] theorem State.onChan_pages (n : Nat) (f : Chan → Chan) : (s.onChan n f).pages = s.pages := rfl
@[simp] theorem State.onChan_queues (n : Nat) (f : Chan → Chan) : (s.onChan n f).queues = s.queues := rfl
@[simp] theorem State.onChan_parts (n : Nat) (f : Chan → Chan) : (s.onChan n f).parts = s.parts := rfl
@[simp] theorem State.onChan_deps (n : Nat) (f : Chan → Chan) : (s.onChan n f).deps = s.deps := rfl
@[simp] theorem State.onChan_versions (n : Nat) (f : Chan → Chan) : (s.onChan n f).versions = s.versions := rfl
@[simp] theorem State.onChan_lockets (n : Nat) (f : Chan → Chan) : (s.onChan n f).lockets = s.lockets := rfl
@[simp] theorem State.onChan_ix (n : Nat) (f : Chan → Chan) : (s.onChan n f).ix = s.ix := rfl
@[simp] theorem State.onChan_hot (n : Nat) (f : Chan → Chan) : (s.onChan n f).hot = s.hot := rfl
@[simp] theorem State.onChan_late (n : Nat) (f : Chan → Chan) : (s.onChan n f).late = s.late := rfl
@[simp] theorem State.onChan_barriers (n : Nat) (f : Chan → Chan) : (s.onChan n f).barriers = s.barriers := rfl
@[simp] theorem State.onChan_domains (n : Nat) (f : Chan → Chan) : (s.onChan n f).domains = s.domains := rfl
@[simp] theorem State.onChan_arbiters (n : Nat) (f : Chan → Chan) : (s.onChan n f).arbiters = s.arbiters := rfl
@[simp] theorem State.onChan_fenced (n : Nat) (f : Chan → Chan) : (s.onChan n f).fenced = s.fenced := rfl
@[simp] theorem State.onChan_corrected (n : Nat) (f : Chan → Chan) : (s.onChan n f).corrected = s.corrected := rfl
@[simp] theorem State.onChan_mod (n : Nat) (f : Chan → Chan) : (s.onChan n f).mod = s.mod := rfl
@[simp] theorem State.onChan_inflight (n : Nat) (f : Chan → Chan) : (s.onChan n f).inflight = s.inflight := rfl
@[simp] theorem State.onChan_cycle (n : Nat) (f : Chan → Chan) : (s.onChan n f).cycle = s.cycle := rfl
@[simp] theorem State.onChan_cmd (n : Nat) (f : Chan → Chan) : (s.onChan n f).cmd = s.cmd := rfl
@[simp] theorem State.onChan_agenda (n : Nat) (f : Chan → Chan) : (s.onChan n f).agenda = s.agenda := rfl
@[simp] theorem State.onChan_free (n : Nat) (f : Chan → Chan) : (s.onChan n f).free = s.free := rfl
@[simp] theorem State.onChan_readAt (n : Nat) (f : Chan → Chan) : (s.onChan n f).readAt = s.readAt := rfl
@[simp] theorem State.onChan_names (n : Nat) (f : Chan → Chan) : (s.onChan n f).names = s.names := rfl
@[simp] theorem State.onChan_unitTurn (n : Nat) (f : Chan → Chan) : (s.onChan n f).unitTurn = s.unitTurn := rfl
@[simp] theorem State.onChan_moduleTurn (n : Nat) (f : Chan → Chan) : (s.onChan n f).moduleTurn = s.moduleTurn := rfl
@[simp] theorem State.onChan_kindTurn (n : Nat) (f : Chan → Chan) : (s.onChan n f).kindTurn = s.kindTurn := rfl

@[simp] theorem State.pend_coreNo (p : Pending) : (s.pend p).coreNo = s.coreNo := by
  simp only [State.pend]; split <;> rfl
@[simp] theorem State.pend_ctx (p : Pending) : (s.pend p).ctx = s.ctx := by
  simp only [State.pend]; split <;> rfl
@[simp] theorem State.pend_k_task (p : Pending) : (s.pend p).k.task = s.k.task := by
  simp only [State.pend]; split <;> rfl
@[simp] theorem State.pend_k_strands (p : Pending) : (s.pend p).k.strands = s.k.strands := by
  simp only [State.pend]; split <;> rfl
@[simp] theorem State.pend_k_masks (p : Pending) : (s.pend p).k.masks = s.k.masks := by
  simp only [State.pend]; split <;> rfl
@[simp] theorem State.pend_k_tens (p : Pending) : (s.pend p).k.tens = s.k.tens := by
  simp only [State.pend]; split <;> rfl
@[simp] theorem State.pend_k_chans (p : Pending) : (s.pend p).k.chans = s.k.chans := by
  simp only [State.pend]; split <;> rfl
@[simp] theorem State.pend_k_events (p : Pending) : (s.pend p).k.events = s.k.events := by
  simp only [State.pend]; split <;> rfl
@[simp] theorem State.pend_k_tierins (p : Pending) : (s.pend p).k.tierins = s.k.tierins := by
  simp only [State.pend]; split <;> rfl
@[simp] theorem State.pend_k_ixStopped (p : Pending) : (s.pend p).k.ixStopped = s.k.ixStopped := by
  simp only [State.pend]; split <;> rfl
@[simp] theorem State.pend_k_ixSaved (p : Pending) : (s.pend p).k.ixSaved = s.k.ixSaved := by
  simp only [State.pend]; split <;> rfl
@[simp] theorem State.pend_k_loop (p : Pending) : (s.pend p).k.loop = s.k.loop := by
  simp only [State.pend]; split <;> rfl
@[simp] theorem State.pend_k_localMem (p : Pending) : (s.pend p).k.localMem = s.k.localMem := by
  simp only [State.pend]; split <;> rfl
@[simp] theorem State.pend_k_crown (p : Pending) : (s.pend p).k.crown = s.k.crown := by
  simp only [State.pend]; split <;> rfl
@[simp] theorem State.pend_k_bezel (p : Pending) : (s.pend p).k.bezel = s.k.bezel := by
  simp only [State.pend]; split <;> rfl
@[simp] theorem State.pend_k_engseq (p : Pending) : (s.pend p).k.engseq = s.k.engseq := by
  simp only [State.pend]; split <;> rfl
@[simp] theorem State.pend_k_heapbase (p : Pending) : (s.pend p).k.heapbase = s.k.heapbase := by
  simp only [State.pend]; split <;> rfl
@[simp] theorem State.pend_k_heaplim (p : Pending) : (s.pend p).k.heaplim = s.k.heaplim := by
  simp only [State.pend]; split <;> rfl
@[simp] theorem State.pend_k_heapoff (p : Pending) : (s.pend p).k.heapoff = s.k.heapoff := by
  simp only [State.pend]; split <;> rfl
@[simp] theorem State.pend_k_trapcause (p : Pending) : (s.pend p).k.trapcause = s.k.trapcause := by
  simp only [State.pend]; split <;> rfl
@[simp] theorem State.pend_k_trapaddr (p : Pending) : (s.pend p).k.trapaddr = s.k.trapaddr := by
  simp only [State.pend]; split <;> rfl
@[simp] theorem State.pend_k_trapseq (p : Pending) : (s.pend p).k.trapseq = s.k.trapseq := by
  simp only [State.pend]; split <;> rfl
@[simp] theorem State.pend_k_trappc (p : Pending) : (s.pend p).k.trappc = s.k.trappc := by
  simp only [State.pend]; split <;> rfl
@[simp] theorem State.pend_k_trapvec (p : Pending) : (s.pend p).k.trapvec = s.k.trapvec := by
  simp only [State.pend]; split <;> rfl
@[simp] theorem State.pend_k_helperEnd (p : Pending) : (s.pend p).k.helperEnd = s.k.helperEnd := by
  simp only [State.pend]; split <;> rfl
@[simp] theorem State.pend_k_mvuq (p : Pending) : (s.pend p).k.mvuq = s.k.mvuq := by
  simp only [State.pend]; split <;> rfl
@[simp] theorem State.pend_k_unreleased (p : Pending) : (s.pend p).k.unreleased = s.k.unreleased := by
  simp only [State.pend]; split <;> rfl
@[simp] theorem State.pend_k_ring (p : Pending) : (s.pend p).k.ring = s.k.ring := by
  simp only [State.pend]; split <;> rfl
@[simp] theorem State.pend_k_pending (p : Pending) : (s.pend p).k.pending = if s.k.pending.any (fun x => x.source == p.source) then s.k.pending else
      s.k.pending.filter (fun x => !(x.cycle == p.cycle && decide (p.source < x.source))) ++ [p] ++
      s.k.pending.filter (fun x => x.cycle == p.cycle && decide (p.source < x.source)) := by
  simp only [State.pend]; split <;> rfl
@[simp] theorem State.pend_k_window (p : Pending) : (s.pend p).k.window = s.k.window := by
  simp only [State.pend]; split <;> rfl
@[simp] theorem State.pend_k_peers (p : Pending) : (s.pend p).k.peers = s.k.peers := by
  simp only [State.pend]; split <;> rfl
@[simp] theorem State.pend_hw (p : Pending) : (s.pend p).hw = s.hw := by
  simp only [State.pend]; split <;> rfl
@[simp] theorem State.pend_others (p : Pending) : (s.pend p).others = s.others := by
  simp only [State.pend]; split <;> rfl
@[simp] theorem State.pend_mem (p : Pending) : (s.pend p).mem = s.mem := by
  simp only [State.pend]; split <;> rfl
@[simp] theorem State.pend_clusterMem (p : Pending) : (s.pend p).clusterMem = s.clusterMem := by
  simp only [State.pend]; split <;> rfl
@[simp] theorem State.pend_appMem (p : Pending) : (s.pend p).appMem = s.appMem := by
  simp only [State.pend]; split <;> rfl
@[simp] theorem State.pend_walks (p : Pending) : (s.pend p).walks = s.walks := by
  simp only [State.pend]; split <;> rfl
@[simp] theorem State.pend_recBlocks (p : Pending) : (s.pend p).recBlocks = s.recBlocks := by
  simp only [State.pend]; split <;> rfl
@[simp] theorem State.pend_refused (p : Pending) : (s.pend p).refused = s.refused := by
  simp only [State.pend]; split <;> rfl
@[simp] theorem State.pend_records (p : Pending) : (s.pend p).records = s.records := by
  simp only [State.pend]; split <;> rfl
@[simp] theorem State.pend_homeTags (p : Pending) : (s.pend p).homeTags = s.homeTags := by
  simp only [State.pend]; split <;> rfl
@[simp] theorem State.pend_before (p : Pending) : (s.pend p).before = s.before := by
  simp only [State.pend]; split <;> rfl
@[simp] theorem State.pend_translated (p : Pending) : (s.pend p).translated = s.translated := by
  simp only [State.pend]; split <;> rfl
@[simp] theorem State.pend_poisoned (p : Pending) : (s.pend p).poisoned = s.poisoned := by
  simp only [State.pend]; split <;> rfl
@[simp] theorem State.pend_pages (p : Pending) : (s.pend p).pages = s.pages := by
  simp only [State.pend]; split <;> rfl
@[simp] theorem State.pend_queues (p : Pending) : (s.pend p).queues = s.queues := by
  simp only [State.pend]; split <;> rfl
@[simp] theorem State.pend_parts (p : Pending) : (s.pend p).parts = s.parts := by
  simp only [State.pend]; split <;> rfl
@[simp] theorem State.pend_deps (p : Pending) : (s.pend p).deps = s.deps := by
  simp only [State.pend]; split <;> rfl
@[simp] theorem State.pend_versions (p : Pending) : (s.pend p).versions = s.versions := by
  simp only [State.pend]; split <;> rfl
@[simp] theorem State.pend_lockets (p : Pending) : (s.pend p).lockets = s.lockets := by
  simp only [State.pend]; split <;> rfl
@[simp] theorem State.pend_ix (p : Pending) : (s.pend p).ix = s.ix := by
  simp only [State.pend]; split <;> rfl
@[simp] theorem State.pend_hot (p : Pending) : (s.pend p).hot = s.hot := by
  simp only [State.pend]; split <;> rfl
@[simp] theorem State.pend_late (p : Pending) : (s.pend p).late = s.late := by
  simp only [State.pend]; split <;> rfl
@[simp] theorem State.pend_barriers (p : Pending) : (s.pend p).barriers = s.barriers := by
  simp only [State.pend]; split <;> rfl
@[simp] theorem State.pend_domains (p : Pending) : (s.pend p).domains = s.domains := by
  simp only [State.pend]; split <;> rfl
@[simp] theorem State.pend_arbiters (p : Pending) : (s.pend p).arbiters = s.arbiters := by
  simp only [State.pend]; split <;> rfl
@[simp] theorem State.pend_fenced (p : Pending) : (s.pend p).fenced = s.fenced := by
  simp only [State.pend]; split <;> rfl
@[simp] theorem State.pend_corrected (p : Pending) : (s.pend p).corrected = s.corrected := by
  simp only [State.pend]; split <;> rfl
@[simp] theorem State.pend_mod (p : Pending) : (s.pend p).mod = s.mod := by
  simp only [State.pend]; split <;> rfl
@[simp] theorem State.pend_inflight (p : Pending) : (s.pend p).inflight = s.inflight := by
  simp only [State.pend]; split <;> rfl
@[simp] theorem State.pend_cycle (p : Pending) : (s.pend p).cycle = s.cycle := by
  simp only [State.pend]; split <;> rfl
@[simp] theorem State.pend_cmd (p : Pending) : (s.pend p).cmd = s.cmd := by
  simp only [State.pend]; split <;> rfl
@[simp] theorem State.pend_agenda (p : Pending) : (s.pend p).agenda = s.agenda := by
  simp only [State.pend]; split <;> rfl
@[simp] theorem State.pend_free (p : Pending) : (s.pend p).free = s.free := by
  simp only [State.pend]; split <;> rfl
@[simp] theorem State.pend_readAt (p : Pending) : (s.pend p).readAt = s.readAt := by
  simp only [State.pend]; split <;> rfl
@[simp] theorem State.pend_names (p : Pending) : (s.pend p).names = s.names := by
  simp only [State.pend]; split <;> rfl
@[simp] theorem State.pend_unitTurn (p : Pending) : (s.pend p).unitTurn = s.unitTurn := by
  simp only [State.pend]; split <;> rfl
@[simp] theorem State.pend_moduleTurn (p : Pending) : (s.pend p).moduleTurn = s.moduleTurn := by
  simp only [State.pend]; split <;> rfl
@[simp] theorem State.pend_kindTurn (p : Pending) : (s.pend p).kindTurn = s.kindTurn := by
  simp only [State.pend]; split <;> rfl

@[simp] theorem State.putMem_coreNo (a n v : Nat) : (s.putMem a n v).coreNo = s.coreNo := rfl
@[simp] theorem State.putMem_ctx (a n v : Nat) : (s.putMem a n v).ctx = s.ctx := rfl
@[simp] theorem State.putMem_k (a n v : Nat) : (s.putMem a n v).k = s.k := rfl
@[simp] theorem State.putMem_hw (a n v : Nat) : (s.putMem a n v).hw = s.hw := rfl
@[simp] theorem State.putMem_others (a n v : Nat) : (s.putMem a n v).others = s.others := rfl
@[simp] theorem State.putMem_mem (a n v : Nat) : (s.putMem a n v).mem = Mem.writeLE s.mem a n v := rfl
@[simp] theorem State.putMem_clusterMem (a n v : Nat) : (s.putMem a n v).clusterMem = s.clusterMem := rfl
@[simp] theorem State.putMem_appMem (a n v : Nat) : (s.putMem a n v).appMem = s.appMem := rfl
@[simp] theorem State.putMem_walks (a n v : Nat) : (s.putMem a n v).walks = s.walks := rfl
@[simp] theorem State.putMem_recBlocks (a n v : Nat) : (s.putMem a n v).recBlocks = s.recBlocks := rfl
@[simp] theorem State.putMem_refused (a n v : Nat) : (s.putMem a n v).refused = s.refused := rfl
@[simp] theorem State.putMem_records (a n v : Nat) : (s.putMem a n v).records = s.records := rfl
@[simp] theorem State.putMem_homeTags (a n v : Nat) : (s.putMem a n v).homeTags = s.homeTags := rfl
@[simp] theorem State.putMem_before (a n v : Nat) : (s.putMem a n v).before = s.before := rfl
@[simp] theorem State.putMem_translated (a n v : Nat) : (s.putMem a n v).translated = s.translated := rfl
@[simp] theorem State.putMem_poisoned (a n v : Nat) : (s.putMem a n v).poisoned = s.poisoned := rfl
@[simp] theorem State.putMem_pages (a n v : Nat) : (s.putMem a n v).pages = s.pages := rfl
@[simp] theorem State.putMem_queues (a n v : Nat) : (s.putMem a n v).queues = s.queues := rfl
@[simp] theorem State.putMem_parts (a n v : Nat) : (s.putMem a n v).parts = s.parts := rfl
@[simp] theorem State.putMem_deps (a n v : Nat) : (s.putMem a n v).deps = s.deps := rfl
@[simp] theorem State.putMem_versions (a n v : Nat) : (s.putMem a n v).versions = s.versions := rfl
@[simp] theorem State.putMem_lockets (a n v : Nat) : (s.putMem a n v).lockets = s.lockets := rfl
@[simp] theorem State.putMem_ix (a n v : Nat) : (s.putMem a n v).ix = s.ix := rfl
@[simp] theorem State.putMem_hot (a n v : Nat) : (s.putMem a n v).hot = s.hot := rfl
@[simp] theorem State.putMem_late (a n v : Nat) : (s.putMem a n v).late = s.late := rfl
@[simp] theorem State.putMem_barriers (a n v : Nat) : (s.putMem a n v).barriers = s.barriers := rfl
@[simp] theorem State.putMem_domains (a n v : Nat) : (s.putMem a n v).domains = s.domains := rfl
@[simp] theorem State.putMem_arbiters (a n v : Nat) : (s.putMem a n v).arbiters = s.arbiters := rfl
@[simp] theorem State.putMem_fenced (a n v : Nat) : (s.putMem a n v).fenced = s.fenced := rfl
@[simp] theorem State.putMem_corrected (a n v : Nat) : (s.putMem a n v).corrected = s.corrected := rfl
@[simp] theorem State.putMem_mod (a n v : Nat) : (s.putMem a n v).mod = s.mod := rfl
@[simp] theorem State.putMem_inflight (a n v : Nat) : (s.putMem a n v).inflight = s.inflight := rfl
@[simp] theorem State.putMem_cycle (a n v : Nat) : (s.putMem a n v).cycle = s.cycle := rfl
@[simp] theorem State.putMem_cmd (a n v : Nat) : (s.putMem a n v).cmd = s.cmd := rfl
@[simp] theorem State.putMem_agenda (a n v : Nat) : (s.putMem a n v).agenda = s.agenda := rfl
@[simp] theorem State.putMem_free (a n v : Nat) : (s.putMem a n v).free = s.free := rfl
@[simp] theorem State.putMem_readAt (a n v : Nat) : (s.putMem a n v).readAt = s.readAt := rfl
@[simp] theorem State.putMem_names (a n v : Nat) : (s.putMem a n v).names = s.names := rfl
@[simp] theorem State.putMem_unitTurn (a n v : Nat) : (s.putMem a n v).unitTurn = s.unitTurn := rfl
@[simp] theorem State.putMem_moduleTurn (a n v : Nat) : (s.putMem a n v).moduleTurn = s.moduleTurn := rfl
@[simp] theorem State.putMem_kindTurn (a n v : Nat) : (s.putMem a n v).kindTurn = s.kindTurn := rfl

@[simp] theorem State.onPart_coreNo (p : Nat) (f : Part → Part) : (s.onPart p f).coreNo = s.coreNo := rfl
@[simp] theorem State.onPart_ctx (p : Nat) (f : Part → Part) : (s.onPart p f).ctx = s.ctx := rfl
@[simp] theorem State.onPart_k (p : Nat) (f : Part → Part) : (s.onPart p f).k = s.k := rfl
@[simp] theorem State.onPart_hw (p : Nat) (f : Part → Part) : (s.onPart p f).hw = s.hw := rfl
@[simp] theorem State.onPart_others (p : Nat) (f : Part → Part) : (s.onPart p f).others = s.others := rfl
@[simp] theorem State.onPart_mem (p : Nat) (f : Part → Part) : (s.onPart p f).mem = s.mem := rfl
@[simp] theorem State.onPart_clusterMem (p : Nat) (f : Part → Part) : (s.onPart p f).clusterMem = s.clusterMem := rfl
@[simp] theorem State.onPart_appMem (p : Nat) (f : Part → Part) : (s.onPart p f).appMem = s.appMem := rfl
@[simp] theorem State.onPart_walks (p : Nat) (f : Part → Part) : (s.onPart p f).walks = s.walks := rfl
@[simp] theorem State.onPart_recBlocks (p : Nat) (f : Part → Part) : (s.onPart p f).recBlocks = s.recBlocks := rfl
@[simp] theorem State.onPart_refused (p : Nat) (f : Part → Part) : (s.onPart p f).refused = s.refused := rfl
@[simp] theorem State.onPart_records (p : Nat) (f : Part → Part) : (s.onPart p f).records = s.records := rfl
@[simp] theorem State.onPart_homeTags (p : Nat) (f : Part → Part) : (s.onPart p f).homeTags = s.homeTags := rfl
@[simp] theorem State.onPart_before (p : Nat) (f : Part → Part) : (s.onPart p f).before = s.before := rfl
@[simp] theorem State.onPart_translated (p : Nat) (f : Part → Part) : (s.onPart p f).translated = s.translated := rfl
@[simp] theorem State.onPart_poisoned (p : Nat) (f : Part → Part) : (s.onPart p f).poisoned = s.poisoned := rfl
@[simp] theorem State.onPart_pages (p : Nat) (f : Part → Part) : (s.onPart p f).pages = s.pages := rfl
@[simp] theorem State.onPart_queues (p : Nat) (f : Part → Part) : (s.onPart p f).queues = s.queues := rfl
@[simp] theorem State.onPart_parts (p : Nat) (f : Part → Part) : (s.onPart p f).parts = s.parts.setIfInBounds p (f (s.part p)) := rfl
@[simp] theorem State.onPart_deps (p : Nat) (f : Part → Part) : (s.onPart p f).deps = s.deps := rfl
@[simp] theorem State.onPart_versions (p : Nat) (f : Part → Part) : (s.onPart p f).versions = s.versions := rfl
@[simp] theorem State.onPart_lockets (p : Nat) (f : Part → Part) : (s.onPart p f).lockets = s.lockets := rfl
@[simp] theorem State.onPart_ix (p : Nat) (f : Part → Part) : (s.onPart p f).ix = s.ix := rfl
@[simp] theorem State.onPart_hot (p : Nat) (f : Part → Part) : (s.onPart p f).hot = s.hot := rfl
@[simp] theorem State.onPart_late (p : Nat) (f : Part → Part) : (s.onPart p f).late = s.late := rfl
@[simp] theorem State.onPart_barriers (p : Nat) (f : Part → Part) : (s.onPart p f).barriers = s.barriers := rfl
@[simp] theorem State.onPart_domains (p : Nat) (f : Part → Part) : (s.onPart p f).domains = s.domains := rfl
@[simp] theorem State.onPart_arbiters (p : Nat) (f : Part → Part) : (s.onPart p f).arbiters = s.arbiters := rfl
@[simp] theorem State.onPart_fenced (p : Nat) (f : Part → Part) : (s.onPart p f).fenced = s.fenced := rfl
@[simp] theorem State.onPart_corrected (p : Nat) (f : Part → Part) : (s.onPart p f).corrected = s.corrected := rfl
@[simp] theorem State.onPart_mod (p : Nat) (f : Part → Part) : (s.onPart p f).mod = s.mod := rfl
@[simp] theorem State.onPart_inflight (p : Nat) (f : Part → Part) : (s.onPart p f).inflight = s.inflight := rfl
@[simp] theorem State.onPart_cycle (p : Nat) (f : Part → Part) : (s.onPart p f).cycle = s.cycle := rfl
@[simp] theorem State.onPart_cmd (p : Nat) (f : Part → Part) : (s.onPart p f).cmd = s.cmd := rfl
@[simp] theorem State.onPart_agenda (p : Nat) (f : Part → Part) : (s.onPart p f).agenda = s.agenda := rfl
@[simp] theorem State.onPart_free (p : Nat) (f : Part → Part) : (s.onPart p f).free = s.free := rfl
@[simp] theorem State.onPart_readAt (p : Nat) (f : Part → Part) : (s.onPart p f).readAt = s.readAt := rfl
@[simp] theorem State.onPart_names (p : Nat) (f : Part → Part) : (s.onPart p f).names = s.names := rfl
@[simp] theorem State.onPart_unitTurn (p : Nat) (f : Part → Part) : (s.onPart p f).unitTurn = s.unitTurn := rfl
@[simp] theorem State.onPart_moduleTurn (p : Nat) (f : Part → Part) : (s.onPart p f).moduleTurn = s.moduleTurn := rfl
@[simp] theorem State.onPart_kindTurn (p : Nat) (f : Part → Part) : (s.onPart p f).kindTurn = s.kindTurn := rfl

@[simp] theorem State.onQueue_coreNo (q : Nat) (f : Queue → Queue) : (s.onQueue q f).coreNo = s.coreNo := rfl
@[simp] theorem State.onQueue_ctx (q : Nat) (f : Queue → Queue) : (s.onQueue q f).ctx = s.ctx := rfl
@[simp] theorem State.onQueue_k (q : Nat) (f : Queue → Queue) : (s.onQueue q f).k = s.k := rfl
@[simp] theorem State.onQueue_hw (q : Nat) (f : Queue → Queue) : (s.onQueue q f).hw = s.hw := rfl
@[simp] theorem State.onQueue_others (q : Nat) (f : Queue → Queue) : (s.onQueue q f).others = s.others := rfl
@[simp] theorem State.onQueue_mem (q : Nat) (f : Queue → Queue) : (s.onQueue q f).mem = s.mem := rfl
@[simp] theorem State.onQueue_clusterMem (q : Nat) (f : Queue → Queue) : (s.onQueue q f).clusterMem = s.clusterMem := rfl
@[simp] theorem State.onQueue_appMem (q : Nat) (f : Queue → Queue) : (s.onQueue q f).appMem = s.appMem := rfl
@[simp] theorem State.onQueue_walks (q : Nat) (f : Queue → Queue) : (s.onQueue q f).walks = s.walks := rfl
@[simp] theorem State.onQueue_recBlocks (q : Nat) (f : Queue → Queue) : (s.onQueue q f).recBlocks = s.recBlocks := rfl
@[simp] theorem State.onQueue_refused (q : Nat) (f : Queue → Queue) : (s.onQueue q f).refused = s.refused := rfl
@[simp] theorem State.onQueue_records (q : Nat) (f : Queue → Queue) : (s.onQueue q f).records = s.records := rfl
@[simp] theorem State.onQueue_homeTags (q : Nat) (f : Queue → Queue) : (s.onQueue q f).homeTags = s.homeTags := rfl
@[simp] theorem State.onQueue_before (q : Nat) (f : Queue → Queue) : (s.onQueue q f).before = s.before := rfl
@[simp] theorem State.onQueue_translated (q : Nat) (f : Queue → Queue) : (s.onQueue q f).translated = s.translated := rfl
@[simp] theorem State.onQueue_poisoned (q : Nat) (f : Queue → Queue) : (s.onQueue q f).poisoned = s.poisoned := rfl
@[simp] theorem State.onQueue_pages (q : Nat) (f : Queue → Queue) : (s.onQueue q f).pages = s.pages := rfl
@[simp] theorem State.onQueue_queues (q : Nat) (f : Queue → Queue) : (s.onQueue q f).queues = Tbl.put s.queues q (f (s.queue q)) := rfl
@[simp] theorem State.onQueue_parts (q : Nat) (f : Queue → Queue) : (s.onQueue q f).parts = s.parts := rfl
@[simp] theorem State.onQueue_deps (q : Nat) (f : Queue → Queue) : (s.onQueue q f).deps = s.deps := rfl
@[simp] theorem State.onQueue_versions (q : Nat) (f : Queue → Queue) : (s.onQueue q f).versions = s.versions := rfl
@[simp] theorem State.onQueue_lockets (q : Nat) (f : Queue → Queue) : (s.onQueue q f).lockets = s.lockets := rfl
@[simp] theorem State.onQueue_ix (q : Nat) (f : Queue → Queue) : (s.onQueue q f).ix = s.ix := rfl
@[simp] theorem State.onQueue_hot (q : Nat) (f : Queue → Queue) : (s.onQueue q f).hot = s.hot := rfl
@[simp] theorem State.onQueue_late (q : Nat) (f : Queue → Queue) : (s.onQueue q f).late = s.late := rfl
@[simp] theorem State.onQueue_barriers (q : Nat) (f : Queue → Queue) : (s.onQueue q f).barriers = s.barriers := rfl
@[simp] theorem State.onQueue_domains (q : Nat) (f : Queue → Queue) : (s.onQueue q f).domains = s.domains := rfl
@[simp] theorem State.onQueue_arbiters (q : Nat) (f : Queue → Queue) : (s.onQueue q f).arbiters = s.arbiters := rfl
@[simp] theorem State.onQueue_fenced (q : Nat) (f : Queue → Queue) : (s.onQueue q f).fenced = s.fenced := rfl
@[simp] theorem State.onQueue_corrected (q : Nat) (f : Queue → Queue) : (s.onQueue q f).corrected = s.corrected := rfl
@[simp] theorem State.onQueue_mod (q : Nat) (f : Queue → Queue) : (s.onQueue q f).mod = s.mod := rfl
@[simp] theorem State.onQueue_inflight (q : Nat) (f : Queue → Queue) : (s.onQueue q f).inflight = s.inflight := rfl
@[simp] theorem State.onQueue_cycle (q : Nat) (f : Queue → Queue) : (s.onQueue q f).cycle = s.cycle := rfl
@[simp] theorem State.onQueue_cmd (q : Nat) (f : Queue → Queue) : (s.onQueue q f).cmd = s.cmd := rfl
@[simp] theorem State.onQueue_agenda (q : Nat) (f : Queue → Queue) : (s.onQueue q f).agenda = s.agenda := rfl
@[simp] theorem State.onQueue_free (q : Nat) (f : Queue → Queue) : (s.onQueue q f).free = s.free := rfl
@[simp] theorem State.onQueue_readAt (q : Nat) (f : Queue → Queue) : (s.onQueue q f).readAt = s.readAt := rfl
@[simp] theorem State.onQueue_names (q : Nat) (f : Queue → Queue) : (s.onQueue q f).names = s.names := rfl
@[simp] theorem State.onQueue_unitTurn (q : Nat) (f : Queue → Queue) : (s.onQueue q f).unitTurn = s.unitTurn := rfl
@[simp] theorem State.onQueue_moduleTurn (q : Nat) (f : Queue → Queue) : (s.onQueue q f).moduleTurn = s.moduleTurn := rfl
@[simp] theorem State.onQueue_kindTurn (q : Nat) (f : Queue → Queue) : (s.onQueue q f).kindTurn = s.kindTurn := rfl

@[simp] theorem State.onPage_coreNo (a : Nat) (f : Page → Page) : (s.onPage a f).coreNo = s.coreNo := rfl
@[simp] theorem State.onPage_ctx (a : Nat) (f : Page → Page) : (s.onPage a f).ctx = s.ctx := rfl
@[simp] theorem State.onPage_k (a : Nat) (f : Page → Page) : (s.onPage a f).k = s.k := rfl
@[simp] theorem State.onPage_hw (a : Nat) (f : Page → Page) : (s.onPage a f).hw = s.hw := rfl
@[simp] theorem State.onPage_others (a : Nat) (f : Page → Page) : (s.onPage a f).others = s.others := rfl
@[simp] theorem State.onPage_mem (a : Nat) (f : Page → Page) : (s.onPage a f).mem = s.mem := rfl
@[simp] theorem State.onPage_clusterMem (a : Nat) (f : Page → Page) : (s.onPage a f).clusterMem = s.clusterMem := rfl
@[simp] theorem State.onPage_appMem (a : Nat) (f : Page → Page) : (s.onPage a f).appMem = s.appMem := rfl
@[simp] theorem State.onPage_walks (a : Nat) (f : Page → Page) : (s.onPage a f).walks = s.walks := rfl
@[simp] theorem State.onPage_recBlocks (a : Nat) (f : Page → Page) : (s.onPage a f).recBlocks = s.recBlocks := rfl
@[simp] theorem State.onPage_refused (a : Nat) (f : Page → Page) : (s.onPage a f).refused = s.refused := rfl
@[simp] theorem State.onPage_records (a : Nat) (f : Page → Page) : (s.onPage a f).records = s.records := rfl
@[simp] theorem State.onPage_homeTags (a : Nat) (f : Page → Page) : (s.onPage a f).homeTags = s.homeTags := rfl
@[simp] theorem State.onPage_before (a : Nat) (f : Page → Page) : (s.onPage a f).before = s.before := rfl
@[simp] theorem State.onPage_translated (a : Nat) (f : Page → Page) : (s.onPage a f).translated = s.translated := rfl
@[simp] theorem State.onPage_poisoned (a : Nat) (f : Page → Page) : (s.onPage a f).poisoned = s.poisoned := rfl
@[simp] theorem State.onPage_pages (a : Nat) (f : Page → Page) : (s.onPage a f).pages = Tbl.put s.pages a (f (s.page a)) := rfl
@[simp] theorem State.onPage_queues (a : Nat) (f : Page → Page) : (s.onPage a f).queues = s.queues := rfl
@[simp] theorem State.onPage_parts (a : Nat) (f : Page → Page) : (s.onPage a f).parts = s.parts := rfl
@[simp] theorem State.onPage_deps (a : Nat) (f : Page → Page) : (s.onPage a f).deps = s.deps := rfl
@[simp] theorem State.onPage_versions (a : Nat) (f : Page → Page) : (s.onPage a f).versions = s.versions := rfl
@[simp] theorem State.onPage_lockets (a : Nat) (f : Page → Page) : (s.onPage a f).lockets = s.lockets := rfl
@[simp] theorem State.onPage_ix (a : Nat) (f : Page → Page) : (s.onPage a f).ix = s.ix := rfl
@[simp] theorem State.onPage_hot (a : Nat) (f : Page → Page) : (s.onPage a f).hot = s.hot := rfl
@[simp] theorem State.onPage_late (a : Nat) (f : Page → Page) : (s.onPage a f).late = s.late := rfl
@[simp] theorem State.onPage_barriers (a : Nat) (f : Page → Page) : (s.onPage a f).barriers = s.barriers := rfl
@[simp] theorem State.onPage_domains (a : Nat) (f : Page → Page) : (s.onPage a f).domains = s.domains := rfl
@[simp] theorem State.onPage_arbiters (a : Nat) (f : Page → Page) : (s.onPage a f).arbiters = s.arbiters := rfl
@[simp] theorem State.onPage_fenced (a : Nat) (f : Page → Page) : (s.onPage a f).fenced = s.fenced := rfl
@[simp] theorem State.onPage_corrected (a : Nat) (f : Page → Page) : (s.onPage a f).corrected = s.corrected := rfl
@[simp] theorem State.onPage_mod (a : Nat) (f : Page → Page) : (s.onPage a f).mod = s.mod := rfl
@[simp] theorem State.onPage_inflight (a : Nat) (f : Page → Page) : (s.onPage a f).inflight = s.inflight := rfl
@[simp] theorem State.onPage_cycle (a : Nat) (f : Page → Page) : (s.onPage a f).cycle = s.cycle := rfl
@[simp] theorem State.onPage_cmd (a : Nat) (f : Page → Page) : (s.onPage a f).cmd = s.cmd := rfl
@[simp] theorem State.onPage_agenda (a : Nat) (f : Page → Page) : (s.onPage a f).agenda = s.agenda := rfl
@[simp] theorem State.onPage_free (a : Nat) (f : Page → Page) : (s.onPage a f).free = s.free := rfl
@[simp] theorem State.onPage_readAt (a : Nat) (f : Page → Page) : (s.onPage a f).readAt = s.readAt := rfl
@[simp] theorem State.onPage_names (a : Nat) (f : Page → Page) : (s.onPage a f).names = s.names := rfl
@[simp] theorem State.onPage_unitTurn (a : Nat) (f : Page → Page) : (s.onPage a f).unitTurn = s.unitTurn := rfl
@[simp] theorem State.onPage_moduleTurn (a : Nat) (f : Page → Page) : (s.onPage a f).moduleTurn = s.moduleTurn := rfl
@[simp] theorem State.onPage_kindTurn (a : Nat) (f : Page → Page) : (s.onPage a f).kindTurn = s.kindTurn := rfl

@[simp] theorem State.onDomain_coreNo (n : Nat) (f : Domain → Domain) : (s.onDomain n f).coreNo = s.coreNo := rfl
@[simp] theorem State.onDomain_ctx (n : Nat) (f : Domain → Domain) : (s.onDomain n f).ctx = s.ctx := rfl
@[simp] theorem State.onDomain_k (n : Nat) (f : Domain → Domain) : (s.onDomain n f).k = s.k := rfl
@[simp] theorem State.onDomain_hw (n : Nat) (f : Domain → Domain) : (s.onDomain n f).hw = s.hw := rfl
@[simp] theorem State.onDomain_others (n : Nat) (f : Domain → Domain) : (s.onDomain n f).others = s.others := rfl
@[simp] theorem State.onDomain_mem (n : Nat) (f : Domain → Domain) : (s.onDomain n f).mem = s.mem := rfl
@[simp] theorem State.onDomain_clusterMem (n : Nat) (f : Domain → Domain) : (s.onDomain n f).clusterMem = s.clusterMem := rfl
@[simp] theorem State.onDomain_appMem (n : Nat) (f : Domain → Domain) : (s.onDomain n f).appMem = s.appMem := rfl
@[simp] theorem State.onDomain_walks (n : Nat) (f : Domain → Domain) : (s.onDomain n f).walks = s.walks := rfl
@[simp] theorem State.onDomain_recBlocks (n : Nat) (f : Domain → Domain) : (s.onDomain n f).recBlocks = s.recBlocks := rfl
@[simp] theorem State.onDomain_refused (n : Nat) (f : Domain → Domain) : (s.onDomain n f).refused = s.refused := rfl
@[simp] theorem State.onDomain_records (n : Nat) (f : Domain → Domain) : (s.onDomain n f).records = s.records := rfl
@[simp] theorem State.onDomain_homeTags (n : Nat) (f : Domain → Domain) : (s.onDomain n f).homeTags = s.homeTags := rfl
@[simp] theorem State.onDomain_before (n : Nat) (f : Domain → Domain) : (s.onDomain n f).before = s.before := rfl
@[simp] theorem State.onDomain_translated (n : Nat) (f : Domain → Domain) : (s.onDomain n f).translated = s.translated := rfl
@[simp] theorem State.onDomain_poisoned (n : Nat) (f : Domain → Domain) : (s.onDomain n f).poisoned = s.poisoned := rfl
@[simp] theorem State.onDomain_pages (n : Nat) (f : Domain → Domain) : (s.onDomain n f).pages = s.pages := rfl
@[simp] theorem State.onDomain_queues (n : Nat) (f : Domain → Domain) : (s.onDomain n f).queues = s.queues := rfl
@[simp] theorem State.onDomain_parts (n : Nat) (f : Domain → Domain) : (s.onDomain n f).parts = s.parts := rfl
@[simp] theorem State.onDomain_deps (n : Nat) (f : Domain → Domain) : (s.onDomain n f).deps = s.deps := rfl
@[simp] theorem State.onDomain_versions (n : Nat) (f : Domain → Domain) : (s.onDomain n f).versions = s.versions := rfl
@[simp] theorem State.onDomain_lockets (n : Nat) (f : Domain → Domain) : (s.onDomain n f).lockets = s.lockets := rfl
@[simp] theorem State.onDomain_ix (n : Nat) (f : Domain → Domain) : (s.onDomain n f).ix = s.ix := rfl
@[simp] theorem State.onDomain_hot (n : Nat) (f : Domain → Domain) : (s.onDomain n f).hot = s.hot := rfl
@[simp] theorem State.onDomain_late (n : Nat) (f : Domain → Domain) : (s.onDomain n f).late = s.late := rfl
@[simp] theorem State.onDomain_barriers (n : Nat) (f : Domain → Domain) : (s.onDomain n f).barriers = s.barriers := rfl
@[simp] theorem State.onDomain_domains (n : Nat) (f : Domain → Domain) : (s.onDomain n f).domains = s.domains.setIfInBounds n (f (s.domain n)) := rfl
@[simp] theorem State.onDomain_arbiters (n : Nat) (f : Domain → Domain) : (s.onDomain n f).arbiters = s.arbiters := rfl
@[simp] theorem State.onDomain_fenced (n : Nat) (f : Domain → Domain) : (s.onDomain n f).fenced = s.fenced := rfl
@[simp] theorem State.onDomain_corrected (n : Nat) (f : Domain → Domain) : (s.onDomain n f).corrected = s.corrected := rfl
@[simp] theorem State.onDomain_mod (n : Nat) (f : Domain → Domain) : (s.onDomain n f).mod = s.mod := rfl
@[simp] theorem State.onDomain_inflight (n : Nat) (f : Domain → Domain) : (s.onDomain n f).inflight = s.inflight := rfl
@[simp] theorem State.onDomain_cycle (n : Nat) (f : Domain → Domain) : (s.onDomain n f).cycle = s.cycle := rfl
@[simp] theorem State.onDomain_cmd (n : Nat) (f : Domain → Domain) : (s.onDomain n f).cmd = s.cmd := rfl
@[simp] theorem State.onDomain_agenda (n : Nat) (f : Domain → Domain) : (s.onDomain n f).agenda = s.agenda := rfl
@[simp] theorem State.onDomain_free (n : Nat) (f : Domain → Domain) : (s.onDomain n f).free = s.free := rfl
@[simp] theorem State.onDomain_readAt (n : Nat) (f : Domain → Domain) : (s.onDomain n f).readAt = s.readAt := rfl
@[simp] theorem State.onDomain_names (n : Nat) (f : Domain → Domain) : (s.onDomain n f).names = s.names := rfl
@[simp] theorem State.onDomain_unitTurn (n : Nat) (f : Domain → Domain) : (s.onDomain n f).unitTurn = s.unitTurn := rfl
@[simp] theorem State.onDomain_moduleTurn (n : Nat) (f : Domain → Domain) : (s.onDomain n f).moduleTurn = s.moduleTurn := rfl
@[simp] theorem State.onDomain_kindTurn (n : Nat) (f : Domain → Domain) : (s.onDomain n f).kindTurn = s.kindTurn := rfl

@[simp] theorem State.setIx_coreNo (c : Nat) (q : List IxReq) : (s.setIx c q).coreNo = s.coreNo := rfl
@[simp] theorem State.setIx_ctx (c : Nat) (q : List IxReq) : (s.setIx c q).ctx = s.ctx := rfl
@[simp] theorem State.setIx_k (c : Nat) (q : List IxReq) : (s.setIx c q).k = s.k := rfl
@[simp] theorem State.setIx_hw (c : Nat) (q : List IxReq) : (s.setIx c q).hw = s.hw := rfl
@[simp] theorem State.setIx_others (c : Nat) (q : List IxReq) : (s.setIx c q).others = s.others := rfl
@[simp] theorem State.setIx_mem (c : Nat) (q : List IxReq) : (s.setIx c q).mem = s.mem := rfl
@[simp] theorem State.setIx_clusterMem (c : Nat) (q : List IxReq) : (s.setIx c q).clusterMem = s.clusterMem := rfl
@[simp] theorem State.setIx_appMem (c : Nat) (q : List IxReq) : (s.setIx c q).appMem = s.appMem := rfl
@[simp] theorem State.setIx_walks (c : Nat) (q : List IxReq) : (s.setIx c q).walks = s.walks := rfl
@[simp] theorem State.setIx_recBlocks (c : Nat) (q : List IxReq) : (s.setIx c q).recBlocks = s.recBlocks := rfl
@[simp] theorem State.setIx_refused (c : Nat) (q : List IxReq) : (s.setIx c q).refused = s.refused := rfl
@[simp] theorem State.setIx_records (c : Nat) (q : List IxReq) : (s.setIx c q).records = s.records := rfl
@[simp] theorem State.setIx_homeTags (c : Nat) (q : List IxReq) : (s.setIx c q).homeTags = s.homeTags := rfl
@[simp] theorem State.setIx_before (c : Nat) (q : List IxReq) : (s.setIx c q).before = s.before := rfl
@[simp] theorem State.setIx_translated (c : Nat) (q : List IxReq) : (s.setIx c q).translated = s.translated := rfl
@[simp] theorem State.setIx_poisoned (c : Nat) (q : List IxReq) : (s.setIx c q).poisoned = s.poisoned := rfl
@[simp] theorem State.setIx_pages (c : Nat) (q : List IxReq) : (s.setIx c q).pages = s.pages := rfl
@[simp] theorem State.setIx_queues (c : Nat) (q : List IxReq) : (s.setIx c q).queues = s.queues := rfl
@[simp] theorem State.setIx_parts (c : Nat) (q : List IxReq) : (s.setIx c q).parts = s.parts := rfl
@[simp] theorem State.setIx_deps (c : Nat) (q : List IxReq) : (s.setIx c q).deps = s.deps := rfl
@[simp] theorem State.setIx_versions (c : Nat) (q : List IxReq) : (s.setIx c q).versions = s.versions := rfl
@[simp] theorem State.setIx_lockets (c : Nat) (q : List IxReq) : (s.setIx c q).lockets = s.lockets := rfl
@[simp] theorem State.setIx_ix (c : Nat) (q : List IxReq) : (s.setIx c q).ix = Tbl.put s.ix c q := rfl
@[simp] theorem State.setIx_hot (c : Nat) (q : List IxReq) : (s.setIx c q).hot = s.hot := rfl
@[simp] theorem State.setIx_late (c : Nat) (q : List IxReq) : (s.setIx c q).late = s.late := rfl
@[simp] theorem State.setIx_barriers (c : Nat) (q : List IxReq) : (s.setIx c q).barriers = s.barriers := rfl
@[simp] theorem State.setIx_domains (c : Nat) (q : List IxReq) : (s.setIx c q).domains = s.domains := rfl
@[simp] theorem State.setIx_arbiters (c : Nat) (q : List IxReq) : (s.setIx c q).arbiters = s.arbiters := rfl
@[simp] theorem State.setIx_fenced (c : Nat) (q : List IxReq) : (s.setIx c q).fenced = s.fenced := rfl
@[simp] theorem State.setIx_corrected (c : Nat) (q : List IxReq) : (s.setIx c q).corrected = s.corrected := rfl
@[simp] theorem State.setIx_mod (c : Nat) (q : List IxReq) : (s.setIx c q).mod = s.mod := rfl
@[simp] theorem State.setIx_inflight (c : Nat) (q : List IxReq) : (s.setIx c q).inflight = s.inflight := rfl
@[simp] theorem State.setIx_cycle (c : Nat) (q : List IxReq) : (s.setIx c q).cycle = s.cycle := rfl
@[simp] theorem State.setIx_cmd (c : Nat) (q : List IxReq) : (s.setIx c q).cmd = s.cmd := rfl
@[simp] theorem State.setIx_agenda (c : Nat) (q : List IxReq) : (s.setIx c q).agenda = s.agenda := rfl
@[simp] theorem State.setIx_free (c : Nat) (q : List IxReq) : (s.setIx c q).free = s.free := rfl
@[simp] theorem State.setIx_readAt (c : Nat) (q : List IxReq) : (s.setIx c q).readAt = s.readAt := rfl
@[simp] theorem State.setIx_names (c : Nat) (q : List IxReq) : (s.setIx c q).names = s.names := rfl
@[simp] theorem State.setIx_unitTurn (c : Nat) (q : List IxReq) : (s.setIx c q).unitTurn = s.unitTurn := rfl
@[simp] theorem State.setIx_moduleTurn (c : Nat) (q : List IxReq) : (s.setIx c q).moduleTurn = s.moduleTurn := rfl
@[simp] theorem State.setIx_kindTurn (c : Nat) (q : List IxReq) : (s.setIx c q).kindTurn = s.kindTurn := rfl

@[simp] theorem State.setArbiter_coreNo (i : Nat) (a : Arbiter) : (s.setArbiter i a).coreNo = s.coreNo := rfl
@[simp] theorem State.setArbiter_ctx (i : Nat) (a : Arbiter) : (s.setArbiter i a).ctx = s.ctx := rfl
@[simp] theorem State.setArbiter_k (i : Nat) (a : Arbiter) : (s.setArbiter i a).k = s.k := rfl
@[simp] theorem State.setArbiter_hw (i : Nat) (a : Arbiter) : (s.setArbiter i a).hw = s.hw := rfl
@[simp] theorem State.setArbiter_others (i : Nat) (a : Arbiter) : (s.setArbiter i a).others = s.others := rfl
@[simp] theorem State.setArbiter_mem (i : Nat) (a : Arbiter) : (s.setArbiter i a).mem = s.mem := rfl
@[simp] theorem State.setArbiter_clusterMem (i : Nat) (a : Arbiter) : (s.setArbiter i a).clusterMem = s.clusterMem := rfl
@[simp] theorem State.setArbiter_appMem (i : Nat) (a : Arbiter) : (s.setArbiter i a).appMem = s.appMem := rfl
@[simp] theorem State.setArbiter_walks (i : Nat) (a : Arbiter) : (s.setArbiter i a).walks = s.walks := rfl
@[simp] theorem State.setArbiter_recBlocks (i : Nat) (a : Arbiter) : (s.setArbiter i a).recBlocks = s.recBlocks := rfl
@[simp] theorem State.setArbiter_refused (i : Nat) (a : Arbiter) : (s.setArbiter i a).refused = s.refused := rfl
@[simp] theorem State.setArbiter_records (i : Nat) (a : Arbiter) : (s.setArbiter i a).records = s.records := rfl
@[simp] theorem State.setArbiter_homeTags (i : Nat) (a : Arbiter) : (s.setArbiter i a).homeTags = s.homeTags := rfl
@[simp] theorem State.setArbiter_before (i : Nat) (a : Arbiter) : (s.setArbiter i a).before = s.before := rfl
@[simp] theorem State.setArbiter_translated (i : Nat) (a : Arbiter) : (s.setArbiter i a).translated = s.translated := rfl
@[simp] theorem State.setArbiter_poisoned (i : Nat) (a : Arbiter) : (s.setArbiter i a).poisoned = s.poisoned := rfl
@[simp] theorem State.setArbiter_pages (i : Nat) (a : Arbiter) : (s.setArbiter i a).pages = s.pages := rfl
@[simp] theorem State.setArbiter_queues (i : Nat) (a : Arbiter) : (s.setArbiter i a).queues = s.queues := rfl
@[simp] theorem State.setArbiter_parts (i : Nat) (a : Arbiter) : (s.setArbiter i a).parts = s.parts := rfl
@[simp] theorem State.setArbiter_deps (i : Nat) (a : Arbiter) : (s.setArbiter i a).deps = s.deps := rfl
@[simp] theorem State.setArbiter_versions (i : Nat) (a : Arbiter) : (s.setArbiter i a).versions = s.versions := rfl
@[simp] theorem State.setArbiter_lockets (i : Nat) (a : Arbiter) : (s.setArbiter i a).lockets = s.lockets := rfl
@[simp] theorem State.setArbiter_ix (i : Nat) (a : Arbiter) : (s.setArbiter i a).ix = s.ix := rfl
@[simp] theorem State.setArbiter_hot (i : Nat) (a : Arbiter) : (s.setArbiter i a).hot = s.hot := rfl
@[simp] theorem State.setArbiter_late (i : Nat) (a : Arbiter) : (s.setArbiter i a).late = s.late := rfl
@[simp] theorem State.setArbiter_barriers (i : Nat) (a : Arbiter) : (s.setArbiter i a).barriers = s.barriers := rfl
@[simp] theorem State.setArbiter_domains (i : Nat) (a : Arbiter) : (s.setArbiter i a).domains = s.domains := rfl
@[simp] theorem State.setArbiter_arbiters (i : Nat) (a : Arbiter) : (s.setArbiter i a).arbiters = Tbl.put s.arbiters i a := rfl
@[simp] theorem State.setArbiter_fenced (i : Nat) (a : Arbiter) : (s.setArbiter i a).fenced = s.fenced := rfl
@[simp] theorem State.setArbiter_corrected (i : Nat) (a : Arbiter) : (s.setArbiter i a).corrected = s.corrected := rfl
@[simp] theorem State.setArbiter_mod (i : Nat) (a : Arbiter) : (s.setArbiter i a).mod = s.mod := rfl
@[simp] theorem State.setArbiter_inflight (i : Nat) (a : Arbiter) : (s.setArbiter i a).inflight = s.inflight := rfl
@[simp] theorem State.setArbiter_cycle (i : Nat) (a : Arbiter) : (s.setArbiter i a).cycle = s.cycle := rfl
@[simp] theorem State.setArbiter_cmd (i : Nat) (a : Arbiter) : (s.setArbiter i a).cmd = s.cmd := rfl
@[simp] theorem State.setArbiter_agenda (i : Nat) (a : Arbiter) : (s.setArbiter i a).agenda = s.agenda := rfl
@[simp] theorem State.setArbiter_free (i : Nat) (a : Arbiter) : (s.setArbiter i a).free = s.free := rfl
@[simp] theorem State.setArbiter_readAt (i : Nat) (a : Arbiter) : (s.setArbiter i a).readAt = s.readAt := rfl
@[simp] theorem State.setArbiter_names (i : Nat) (a : Arbiter) : (s.setArbiter i a).names = s.names := rfl
@[simp] theorem State.setArbiter_unitTurn (i : Nat) (a : Arbiter) : (s.setArbiter i a).unitTurn = s.unitTurn := rfl
@[simp] theorem State.setArbiter_moduleTurn (i : Nat) (a : Arbiter) : (s.setArbiter i a).moduleTurn = s.moduleTurn := rfl
@[simp] theorem State.setArbiter_kindTurn (i : Nat) (a : Arbiter) : (s.setArbiter i a).kindTurn = s.kindTurn := rfl

@[simp] theorem State.markIssue_coreNo : (s.markIssue).coreNo = s.coreNo := by
  unfold State.markIssue; split <;> rfl
@[simp] theorem State.markIssue_ctx : (s.markIssue).ctx = s.ctx := by
  unfold State.markIssue; split <;> rfl
@[simp] theorem State.markIssue_k : (s.markIssue).k = s.k := by
  unfold State.markIssue; split <;> rfl
@[simp] theorem State.markIssue_others : (s.markIssue).others = s.others := by
  unfold State.markIssue; split <;> rfl
@[simp] theorem State.markIssue_mem : (s.markIssue).mem = s.mem := by
  unfold State.markIssue; split <;> rfl
@[simp] theorem State.markIssue_clusterMem : (s.markIssue).clusterMem = s.clusterMem := by
  unfold State.markIssue; split <;> rfl
@[simp] theorem State.markIssue_appMem : (s.markIssue).appMem = s.appMem := by
  unfold State.markIssue; split <;> rfl
@[simp] theorem State.markIssue_walks : (s.markIssue).walks = s.walks := by
  unfold State.markIssue; split <;> rfl
@[simp] theorem State.markIssue_recBlocks : (s.markIssue).recBlocks = s.recBlocks := by
  unfold State.markIssue; split <;> rfl
@[simp] theorem State.markIssue_refused : (s.markIssue).refused = s.refused := by
  unfold State.markIssue; split <;> rfl
@[simp] theorem State.markIssue_records : (s.markIssue).records = s.records := by
  unfold State.markIssue; split <;> rfl
@[simp] theorem State.markIssue_homeTags : (s.markIssue).homeTags = s.homeTags := by
  unfold State.markIssue; split <;> rfl
@[simp] theorem State.markIssue_before : (s.markIssue).before = s.before := by
  unfold State.markIssue; split <;> rfl
@[simp] theorem State.markIssue_translated : (s.markIssue).translated = s.translated := by
  unfold State.markIssue; split <;> rfl
@[simp] theorem State.markIssue_poisoned : (s.markIssue).poisoned = s.poisoned := by
  unfold State.markIssue; split <;> rfl
@[simp] theorem State.markIssue_pages : (s.markIssue).pages = s.pages := by
  unfold State.markIssue; split <;> rfl
@[simp] theorem State.markIssue_queues : (s.markIssue).queues = s.queues := by
  unfold State.markIssue; split <;> rfl
@[simp] theorem State.markIssue_parts : (s.markIssue).parts = s.parts := by
  unfold State.markIssue; split <;> rfl
@[simp] theorem State.markIssue_deps : (s.markIssue).deps = s.deps := by
  unfold State.markIssue; split <;> rfl
@[simp] theorem State.markIssue_versions : (s.markIssue).versions = s.versions := by
  unfold State.markIssue; split <;> rfl
@[simp] theorem State.markIssue_lockets : (s.markIssue).lockets = s.lockets := by
  unfold State.markIssue; split <;> rfl
@[simp] theorem State.markIssue_ix : (s.markIssue).ix = s.ix := by
  unfold State.markIssue; split <;> rfl
@[simp] theorem State.markIssue_hot : (s.markIssue).hot = s.hot := by
  unfold State.markIssue; split <;> rfl
@[simp] theorem State.markIssue_late : (s.markIssue).late = s.late := by
  unfold State.markIssue; split <;> rfl
@[simp] theorem State.markIssue_barriers : (s.markIssue).barriers = s.barriers := by
  unfold State.markIssue; split <;> rfl
@[simp] theorem State.markIssue_domains : (s.markIssue).domains = s.domains := by
  unfold State.markIssue; split <;> rfl
@[simp] theorem State.markIssue_arbiters : (s.markIssue).arbiters = s.arbiters := by
  unfold State.markIssue; split <;> rfl
@[simp] theorem State.markIssue_fenced : (s.markIssue).fenced = s.fenced := by
  unfold State.markIssue; split <;> rfl
@[simp] theorem State.markIssue_corrected : (s.markIssue).corrected = s.corrected := by
  unfold State.markIssue; split <;> rfl
@[simp] theorem State.markIssue_mod : (s.markIssue).mod = s.mod := by
  unfold State.markIssue; split <;> rfl
@[simp] theorem State.markIssue_inflight : (s.markIssue).inflight = s.inflight := by
  unfold State.markIssue; split <;> rfl
@[simp] theorem State.markIssue_cycle : (s.markIssue).cycle = s.cycle := by
  unfold State.markIssue; split <;> rfl
@[simp] theorem State.markIssue_cmd : (s.markIssue).cmd = s.cmd := by
  unfold State.markIssue; split <;> rfl
@[simp] theorem State.markIssue_agenda : (s.markIssue).agenda = s.agenda := by
  unfold State.markIssue; split <;> rfl
@[simp] theorem State.markIssue_free : (s.markIssue).free = s.free := by
  unfold State.markIssue; split <;> rfl
@[simp] theorem State.markIssue_readAt : (s.markIssue).readAt = s.readAt := by
  unfold State.markIssue; split <;> rfl
@[simp] theorem State.markIssue_names : (s.markIssue).names = s.names := by
  unfold State.markIssue; split <;> rfl
@[simp] theorem State.markIssue_unitTurn : (s.markIssue).unitTurn = s.unitTurn := by
  unfold State.markIssue; split <;> rfl
@[simp] theorem State.markIssue_moduleTurn : (s.markIssue).moduleTurn = s.moduleTurn := by
  unfold State.markIssue; split <;> rfl
@[simp] theorem State.markIssue_kindTurn : (s.markIssue).kindTurn = s.kindTurn := by
  unfold State.markIssue; split <;> rfl

@[simp] theorem State.elapse_coreNo (d : Nat) : (s.elapse d).coreNo = s.coreNo := by
  unfold State.elapse; split <;> rfl
@[simp] theorem State.elapse_ctx (d : Nat) : (s.elapse d).ctx = s.ctx := by
  unfold State.elapse; split <;> rfl
@[simp] theorem State.elapse_k (d : Nat) : (s.elapse d).k = s.k := by
  unfold State.elapse; split <;> rfl
@[simp] theorem State.elapse_mem (d : Nat) : (s.elapse d).mem = s.mem := by
  unfold State.elapse; split <;> rfl
@[simp] theorem State.elapse_clusterMem (d : Nat) : (s.elapse d).clusterMem = s.clusterMem := by
  unfold State.elapse; split <;> rfl
@[simp] theorem State.elapse_appMem (d : Nat) : (s.elapse d).appMem = s.appMem := by
  unfold State.elapse; split <;> rfl
@[simp] theorem State.elapse_walks (d : Nat) : (s.elapse d).walks = s.walks := by
  unfold State.elapse; split <;> rfl
@[simp] theorem State.elapse_recBlocks (d : Nat) : (s.elapse d).recBlocks = s.recBlocks := by
  unfold State.elapse; split <;> rfl
@[simp] theorem State.elapse_refused (d : Nat) : (s.elapse d).refused = s.refused := by
  unfold State.elapse; split <;> rfl
@[simp] theorem State.elapse_records (d : Nat) : (s.elapse d).records = s.records := by
  unfold State.elapse; split <;> rfl
@[simp] theorem State.elapse_homeTags (d : Nat) : (s.elapse d).homeTags = s.homeTags := by
  unfold State.elapse; split <;> rfl
@[simp] theorem State.elapse_before (d : Nat) : (s.elapse d).before = s.before := by
  unfold State.elapse; split <;> rfl
@[simp] theorem State.elapse_translated (d : Nat) : (s.elapse d).translated = s.translated := by
  unfold State.elapse; split <;> rfl
@[simp] theorem State.elapse_poisoned (d : Nat) : (s.elapse d).poisoned = s.poisoned := by
  unfold State.elapse; split <;> rfl
@[simp] theorem State.elapse_pages (d : Nat) : (s.elapse d).pages = s.pages := by
  unfold State.elapse; split <;> rfl
@[simp] theorem State.elapse_queues (d : Nat) : (s.elapse d).queues = s.queues := by
  unfold State.elapse; split <;> rfl
@[simp] theorem State.elapse_parts (d : Nat) : (s.elapse d).parts = s.parts := by
  unfold State.elapse; split <;> rfl
@[simp] theorem State.elapse_deps (d : Nat) : (s.elapse d).deps = s.deps := by
  unfold State.elapse; split <;> rfl
@[simp] theorem State.elapse_versions (d : Nat) : (s.elapse d).versions = s.versions := by
  unfold State.elapse; split <;> rfl
@[simp] theorem State.elapse_lockets (d : Nat) : (s.elapse d).lockets = s.lockets := by
  unfold State.elapse; split <;> rfl
@[simp] theorem State.elapse_ix (d : Nat) : (s.elapse d).ix = s.ix := by
  unfold State.elapse; split <;> rfl
@[simp] theorem State.elapse_hot (d : Nat) : (s.elapse d).hot = s.hot := by
  unfold State.elapse; split <;> rfl
@[simp] theorem State.elapse_late (d : Nat) : (s.elapse d).late = s.late := by
  unfold State.elapse; split <;> rfl
@[simp] theorem State.elapse_barriers (d : Nat) : (s.elapse d).barriers = s.barriers := by
  unfold State.elapse; split <;> rfl
@[simp] theorem State.elapse_domains (d : Nat) : (s.elapse d).domains = s.domains := by
  unfold State.elapse; split <;> rfl
@[simp] theorem State.elapse_arbiters (d : Nat) : (s.elapse d).arbiters = s.arbiters := by
  unfold State.elapse; split <;> rfl
@[simp] theorem State.elapse_fenced (d : Nat) : (s.elapse d).fenced = s.fenced := by
  unfold State.elapse; split <;> rfl
@[simp] theorem State.elapse_corrected (d : Nat) : (s.elapse d).corrected = s.corrected := by
  unfold State.elapse; split <;> rfl
@[simp] theorem State.elapse_inflight (d : Nat) : (s.elapse d).inflight = s.inflight := by
  unfold State.elapse; split <;> rfl
@[simp] theorem State.elapse_cycle (d : Nat) : (s.elapse d).cycle = s.cycle + BitVec.ofNat 64 d := by
  unfold State.elapse; split <;> rfl
@[simp] theorem State.elapse_cmd (d : Nat) : (s.elapse d).cmd = s.cmd := by
  unfold State.elapse; split <;> rfl
@[simp] theorem State.elapse_agenda (d : Nat) : (s.elapse d).agenda = s.agenda := by
  unfold State.elapse; split <;> rfl
@[simp] theorem State.elapse_free (d : Nat) : (s.elapse d).free = s.free := by
  unfold State.elapse; split <;> rfl
@[simp] theorem State.elapse_readAt (d : Nat) : (s.elapse d).readAt = s.readAt := by
  unfold State.elapse; split <;> rfl
@[simp] theorem State.elapse_names (d : Nat) : (s.elapse d).names = s.names := by
  unfold State.elapse; split <;> rfl
@[simp] theorem State.elapse_unitTurn (d : Nat) : (s.elapse d).unitTurn = s.unitTurn := by
  unfold State.elapse; split <;> rfl
@[simp] theorem State.elapse_moduleTurn (d : Nat) : (s.elapse d).moduleTurn = s.moduleTurn := by
  unfold State.elapse; split <;> rfl
@[simp] theorem State.elapse_kindTurn (d : Nat) : (s.elapse d).kindTurn = s.kindTurn := by
  unfold State.elapse; split <;> rfl

@[simp] theorem State.pass_coreNo : (s.pass).coreNo = s.flushLate.coreNo := by
  simp [State.pass]
@[simp] theorem State.pass_ctx : (s.pass).ctx = s.flushLate.ctx := by
  simp [State.pass]
@[simp] theorem State.pass_k : (s.pass).k = s.flushLate.k := by
  simp [State.pass]
@[simp] theorem State.pass_mem : (s.pass).mem = s.flushLate.mem := by
  simp [State.pass]
@[simp] theorem State.pass_clusterMem : (s.pass).clusterMem = s.flushLate.clusterMem := by
  simp [State.pass]
@[simp] theorem State.pass_appMem : (s.pass).appMem = s.flushLate.appMem := by
  simp [State.pass]
@[simp] theorem State.pass_walks : (s.pass).walks = s.flushLate.walks := by
  simp [State.pass]
@[simp] theorem State.pass_recBlocks : (s.pass).recBlocks = s.flushLate.recBlocks := by
  simp [State.pass]
@[simp] theorem State.pass_refused : (s.pass).refused = s.flushLate.refused := by
  simp [State.pass]
@[simp] theorem State.pass_records : (s.pass).records = s.flushLate.records := by
  simp [State.pass]
@[simp] theorem State.pass_homeTags : (s.pass).homeTags = s.flushLate.homeTags := by
  simp [State.pass]
@[simp] theorem State.pass_before : (s.pass).before = s.flushLate.before := by
  simp [State.pass]
@[simp] theorem State.pass_translated : (s.pass).translated = s.flushLate.translated := by
  simp [State.pass]
@[simp] theorem State.pass_poisoned : (s.pass).poisoned = s.flushLate.poisoned := by
  simp [State.pass]
@[simp] theorem State.pass_pages : (s.pass).pages = s.flushLate.pages := by
  simp [State.pass]
@[simp] theorem State.pass_queues : (s.pass).queues = s.flushLate.queues := by
  simp [State.pass]
@[simp] theorem State.pass_parts : (s.pass).parts = s.flushLate.parts := by
  simp [State.pass]
@[simp] theorem State.pass_deps : (s.pass).deps = s.flushLate.deps := by
  simp [State.pass]
@[simp] theorem State.pass_versions : (s.pass).versions = s.flushLate.versions := by
  simp [State.pass]
@[simp] theorem State.pass_lockets : (s.pass).lockets = s.flushLate.lockets := by
  simp [State.pass]
@[simp] theorem State.pass_ix : (s.pass).ix = s.flushLate.ix := by
  simp [State.pass]
@[simp] theorem State.pass_hot : (s.pass).hot = s.flushLate.hot := by
  simp [State.pass]
@[simp] theorem State.pass_late : (s.pass).late = s.flushLate.late := by
  simp [State.pass]
@[simp] theorem State.pass_barriers : (s.pass).barriers = s.flushLate.barriers := by
  simp [State.pass]
@[simp] theorem State.pass_domains : (s.pass).domains = s.flushLate.domains := by
  simp [State.pass]
@[simp] theorem State.pass_arbiters : (s.pass).arbiters = s.flushLate.arbiters := by
  simp [State.pass]
@[simp] theorem State.pass_fenced : (s.pass).fenced = s.flushLate.fenced := by
  simp [State.pass]
@[simp] theorem State.pass_corrected : (s.pass).corrected = s.flushLate.corrected := by
  simp [State.pass]
@[simp] theorem State.pass_inflight : (s.pass).inflight = s.flushLate.inflight := by
  simp [State.pass]
@[simp] theorem State.pass_cycle : (s.pass).cycle = s.flushLate.cycle + BitVec.ofNat 64 s.stepLength := by
  simp [State.pass]
@[simp] theorem State.pass_cmd : (s.pass).cmd = s.flushLate.cmd := by
  simp [State.pass]
@[simp] theorem State.pass_agenda : (s.pass).agenda = s.flushLate.agenda := by
  simp [State.pass]
@[simp] theorem State.pass_free : (s.pass).free = s.free + 1 := rfl
@[simp] theorem State.pass_readAt : (s.pass).readAt = s.flushLate.readAt := by
  simp [State.pass]
@[simp] theorem State.pass_names : (s.pass).names = s.flushLate.names := by
  simp [State.pass]
@[simp] theorem State.pass_unitTurn : (s.pass).unitTurn = s.flushLate.unitTurn := by
  simp [State.pass]
@[simp] theorem State.pass_moduleTurn : (s.pass).moduleTurn = s.flushLate.moduleTurn := by
  simp [State.pass]
@[simp] theorem State.pass_kindTurn : (s.pass).kindTurn = s.flushLate.kindTurn := by
  simp [State.pass]

end Sys2Proof.Machine
end

