-- ==== Sys2Proof/Laws/Issue.lean ====
section
/-! SUPPORT. Laws of the shared operations: what the issue of an instruction can do, reading and writing a table, bringing a
core into focus and back, and the step around an instruction. -/

namespace Sys2Proof.Machine

/-! Issue. -/

/-- Where an instruction may issue: a window admits it or is not there, and a helper's code may hold it or it is no helper. -/
theorem State.mayIssue_ok {s : State} {m : Meta} (hw : m.window = true ∨ (s.ctx.slot = 15 → s.k.window = none))
    (hh : m.helper = true ∨ s.ctx.slot = 15) : s.mayIssue m = .ok () := by
  unfold State.mayIssue
  by_cases hs : s.ctx.slot = 15 <;> rcases hw with h1 | h1 <;> rcases hh with h2 | h2 <;> simp_all

/-- Issued with its guard true, an instruction does what its body does, after its number is counted. -/
theorem State.issueRaw_runs {s : State} {m : Meta} {b : State → Except Stop State} (hi : s.mayIssue m = .ok ())
    (hg : s.guard m.p m.n = true) :
    s.issueRaw m b = match b (s.countEngine m) with
      | .ok t => t
      | .error r => s.stoppedAs m.engine r := by
  cases hb : b (s.countEngine m) <;> simp [State.issueRaw, hi, hg, hb]

/-- The same for an instruction that goes on in the stream: it retires where its body goes through. -/
theorem State.issue_runs {s : State} {m : Meta} {b : State → Except Stop State} (hi : s.mayIssue m = .ok ())
    (hg : s.guard m.p m.n = true) :
    s.issue m b = match b (s.countEngine m) with
      | .ok t => t.retire m.len
      | .error r => s.stoppedAs m.engine r := by
  rw [State.issue, State.issueRaw_runs hi hg]
  cases b (s.countEngine m) <;> rfl

/-- Guarded off, an instruction does nothing but what R42 leaves. -/
theorem State.issueRaw_off {s : State} {m : Meta} {b : State → Except Stop State} (hi : s.mayIssue m = .ok ())
    (hg : s.guard m.p m.n = false) : s.issueRaw m b = s.guardedOff m := by
  simp [State.issueRaw, hi, hg]

/-- An instruction that may not issue stops. -/
theorem State.issueRaw_refused {s : State} {m : Meta} {b : State → Except Stop State} {r : Stop} (hi : s.mayIssue m = .error r) :
    s.issueRaw m b = s.stoppedAs m.engine r := by
  simp [State.issueRaw, hi]

theorem State.countEngine_off {s : State} {m : Meta} (h : m.engine = false) : s.countEngine m = s := by
  simp [State.countEngine, h]

/-! Retirement and waiting: what they leave alone. -/

@[simp] theorem State.retire_regs (s : State) (n : Nat) : (s.retire n).ctx.regs = s.ctx.regs := rfl
@[simp] theorem State.wait_hold (s : State) (w : Wait) : (s.wait w).ctx.hold = some w := rfl

/-! Tables. -/

theorem Tbl.find_put_same {α : Type} (t : Tbl α) (k : Nat) (v : α) : Tbl.find (Tbl.put t k v) k = some v := by
  induction t with
  | nil => simp [Tbl.put, Tbl.find]
  | cons e rest ih =>
    obtain ⟨x, y⟩ := e
    unfold Tbl.put
    split
    · simp [Tbl.find]
    · split
      · simp [Tbl.find]
      · rename_i h
        simp [Tbl.find, h, ih]

theorem Tbl.find_put_other {α : Type} (t : Tbl α) {k k' : Nat} (v : α) (h : k' ≠ k) :
    Tbl.find (Tbl.put t k v) k' = Tbl.find t k' := by
  induction t with
  | nil => simp [Tbl.put, Tbl.find, h]
  | cons e rest ih =>
    obtain ⟨x, y⟩ := e
    unfold Tbl.put
    split
    · simp [Tbl.find, h]
    · split
      · rename_i h1
        subst h1
        simp [Tbl.find, h]
      · by_cases h2 : k' = x
        · simp [Tbl.find, h2]
        · simp [Tbl.find, h2, ih]

@[simp] theorem Tbl.getD_put_same {α : Type} (t : Tbl α) (k : Nat) (v d : α) : Tbl.getD (Tbl.put t k v) k d = v := by
  simp [Tbl.getD, Tbl.find_put_same]

theorem Tbl.getD_put_other {α : Type} (t : Tbl α) {k k' : Nat} (v d : α) (h : k' ≠ k) :
    Tbl.getD (Tbl.put t k v) k' d = Tbl.getD t k' d := by
  simp [Tbl.getD, Tbl.find_put_other t v h]

@[simp] theorem Tbl.find_del_same {α : Type} (t : Tbl α) (k : Nat) : Tbl.find (Tbl.del t k) k = none := by
  induction t with
  | nil => rfl
  | cons e rest ih =>
    obtain ⟨x, y⟩ := e
    by_cases h : x = k
    · simpa [Tbl.del, h] using ih
    · have h' : ¬ k = x := fun hk => h hk.symm
      have e : Tbl.del ((x, y) :: rest) k = (x, y) :: Tbl.del rest k := by simp [Tbl.del, h]
      simp [e, Tbl.find, h', ih]

theorem Tbl.find_del_other {α : Type} (t : Tbl α) {k k' : Nat} (h : k' ≠ k) : Tbl.find (Tbl.del t k) k' = Tbl.find t k' := by
  induction t with
  | nil => rfl
  | cons e rest ih =>
    obtain ⟨x, y⟩ := e
    by_cases hx : x = k
    · have h2 : ¬ k' = x := fun hk => h (hk.trans hx)
      have e : Tbl.del ((x, y) :: rest) k = Tbl.del rest k := by simp [Tbl.del, hx]
      simp [e, Tbl.find, h2, ih]
    · have e : Tbl.del ((x, y) :: rest) k = (x, y) :: Tbl.del rest k := by simp [Tbl.del, hx]
      by_cases h2 : k' = x
      · simp [e, Tbl.find, h2]
      · simp [e, Tbl.find, h2, ih]

/-! Cores in and out of focus. -/

@[simp] theorem State.focusCore_self (s : State) : s.focusCore s.coreNo = s := by simp [State.focusCore]
@[simp] theorem State.focusCore_coreNo (s : State) (c : Nat) : (s.focusCore c).coreNo = c := by
  unfold State.focusCore
  split <;> simp_all
@[simp] theorem State.focusCore_mem (s : State) (c : Nat) : (s.focusCore c).mem = s.mem := by
  unfold State.focusCore
  split <;> rfl
@[simp] theorem State.focusCore_parts (s : State) (c : Nat) : (s.focusCore c).parts = s.parts := by
  unfold State.focusCore
  split <;> rfl
@[simp] theorem State.focusCore_mod (s : State) (c : Nat) : (s.focusCore c).mod = s.mod := by
  unfold State.focusCore
  split <;> rfl

@[simp] theorem State.atCore_self (s : State) (f : State → State) : s.atCore s.coreNo f = f s := by simp [State.atCore]

/-- A change made at another core leaves the focus where it was, if the change itself does. -/
theorem State.atCore_coreNo {s : State} {f : State → State} (h : ∀ x, (f x).coreNo = x.coreNo) (c : Nat) :
    (s.atCore c f).coreNo = s.coreNo := by
  unfold State.atCore
  split
  · rename_i e; rw [h]
  · split
    · rfl
    · simp

/-! The step. -/

/-- A step of a core of the module is a run, after which cycles pass. -/
theorem step_of_run {s t : State} (hc : s.coreNo < Config.cores) (h : s.run = .next t) : step s = .next t.pass := by
  simp [step, Nat.not_le.mpr hc, h]

/-- With nothing due, no act to perform and no unit's turn, the context in focus has the turn, which then passes on. -/
theorem State.run_turn {s : State} (hk : s.due = none) (ha : s.agenda = []) (hu : s.unitTurn = false)
    (hl : s.ctx.live = true) (hs : s.stopsHere = false) : s.run = turnAfter s.proceed := by
  simp [State.run, State.turnOf, State.runContext, hk, ha, hu, hl, hs]

/-- A context with no fault to take, nothing to wait for and no phase of a loop to perform goes on with its next
instruction. -/
theorem State.proceed_issues {s : State} (hp : s.takesFault = false ∨ s.k.pending = []) (hh : s.ctx.hold = none)
    (h1 : s.loopAt .starting = false) (h2 : s.loopAt .complete = false) : s.proceed = s.issueNext := by
  have hq : ¬ (s.takesFault = true ∧ s.k.pending ≠ []) := by
    rintro ⟨a, b⟩
    rcases hp with h | h
    · simp [h] at a
    · exact b h
  simp [State.proceed, hq, hh, h1, h2]

end Sys2Proof.Machine
end

