-- ==== Sys2Proof/Laws/Claims.lean ====
section
/-! SUPPORT. The words of the statements and the operations of the model they speak of: a guard that holds, an operand
written, an address that no transfer may reach, a trap that finds a handler. -/

namespace Sys2Proof.Claims

open Machine

theorem guard_of_runs {s : State} {p : BitVec 3} {n : Bool} (h : runs s p n) : s.guard p n = true := by
  unfold runs at h
  unfold State.guard State.pred
  by_cases hp : p = 0
  · subst hp
    simp_all
  · have : (p.toNat == 0) = false := by simpa using (fun h0 => hp (BitVec.eq_of_toNat_eq h0) : ¬ p.toNat = 0)
    rw [this, Bool.false_or]
    rw [if_neg hp] at h
    simpa using h

theorem runs_of_guard {s : State} {p : BitVec 3} {n : Bool} (h : s.guard p n = true) : runs s p n := by
  unfold State.guard at h
  unfold runs
  by_cases hp : p = 0
  · subst hp
    simpa [State.pred] using h
  · have h1 : ¬ p.toNat = 0 := fun h' => hp (by apply BitVec.eq_of_toNat_eq; simpa using h')
    have h2 : (p.toNat == 0) = false := by simpa using h1
    have h3 : (s.pred p.toNat != n) = true := h
    unfold State.pred at h3
    rw [h2, Bool.false_or] at h3
    rw [if_neg hp]
    simpa using h3

theorem pred_eq_pr (s : State) (i : Nat) : s.pred i = pr s i := by
  unfold State.pred pr
  by_cases h : i = 0 <;> simp [h]

theorem writeOp_eq_put (s : State) (d : BitVec 6) (v : Word) : s.writeOp d v = put s d v := by
  unfold State.writeOp put
  split
  · rfl
  · unfold State.writeBead State.setStrand
    split <;> rename_i h <;> simp [h, State.strand, Strand.push]

theorem badPc_iff (a : Word) : badPc a = true ↔ badAddress a := by
  unfold badPc badAddress apertureOf
  split <;> rename_i h <;> simp [h]
  by_cases h2 : bits a 56 8 = 129 <;> simp [h2]
  try tauto

theorem badPc_false {a : Word} (h : ¬ badAddress a) : badPc a = false := by
  cases hh : badPc a
  · rfl
  · exact absurd ((badPc_iff a).1 hh) h

/-- A trap of a cause that ends no task, where it finds a handler (R416). -/
theorem trapFrom_of_handler {s : State} (h : hasHandler s) (e : Bool) (c : Nat) (a d : Word) (hc : c < 22) (pc : Word) :
    s.trapFrom e c a d pc = trapped s c a pc := by
  obtain ⟨h1, h2, h3, h4, ⟨r, h5⟩, h6, h7⟩ := h
  have hb := badPc_false h4
  unfold State.trapFrom State.takeTrap
  have hf : s.focusSlot 15 = s := by simp [State.focusSlot, h1]
  simp only [h1, if_true, hf, h2, h3, h5, h6, hb, Bool.false_eq_true, if_false, Bool.or_false]
  have hn : ¬ (c = 22 ∨ c = 24 ∨ c = 25 ∨ c = 26) := by omega
  simp only [hn, if_false]
  have ht : ∀ x n, s.trace 3 x n = s := by
    intro x n
    unfold State.trace
    rw [h7]
    rfl
  rw [ht]
  simp [trapped]

theorem trapAt_of_handler {s : State} (h : hasHandler s) (c : Nat) (a d : Word) (hc : c < 22) (pc : Word) :
    s.trapAt c a d pc = trapped s c a pc :=
  trapFrom_of_handler h false c a d hc pc

/-- An instruction, an engine's or not, that stops with such a trap takes it at its own PC. -/
theorem stoppedAs_of_handler {s : State} (h : hasHandler s) (e : Bool) (c : Nat) (a d : Word) (hc : c < 22) :
    s.stoppedAs e (.trap c a d) = trapped s c a s.ctx.pc :=
  trapFrom_of_handler h e c a d hc s.ctx.pc

theorem stopped_of_handler {s : State} (h : hasHandler s) (c : Nat) (a d : Word) (hc : c < 22) :
    s.stopped (.trap c a d) = trapped s c a s.ctx.pc :=
  stoppedAs_of_handler h false c a d hc

/-- Issued and guarded on, no engine's instruction: its body, then its retirement. -/
theorem issue_of_runs {s : State} {m : Meta} {b : State → Except Stop State}
    (hw : m.window = true ∨ (s.ctx.slot = 15 → s.k.window = none)) (hh : m.helper = true ∨ s.ctx.slot = 15)
    (hr : runs s m.p m.n) (he : m.engine = false) :
    s.issue m b = match b s with
      | .ok t => t.retire m.len
      | .error r => s.stopped r := by
  have h := State.issue_runs (b := b) (State.mayIssue_ok hw hh) (guard_of_runs hr)
  rw [State.countEngine_off he, he] at h
  cases hb : b s <;> simpa [hb, State.stopped] using h

theorem issueRaw_of_runs {s : State} {m : Meta} {b : State → Except Stop State}
    (hw : m.window = true ∨ (s.ctx.slot = 15 → s.k.window = none)) (hh : m.helper = true ∨ s.ctx.slot = 15)
    (hr : runs s m.p m.n) (he : m.engine = false) :
    s.issueRaw m b = match b s with
      | .ok t => t
      | .error r => s.stopped r := by
  have h := State.issueRaw_runs (b := b) (State.mayIssue_ok hw hh) (guard_of_runs hr)
  rw [State.countEngine_off he, he] at h
  cases hb : b s <;> simpa [hb, State.stopped] using h

/-- An engine's instruction has its number when its body runs, and a trap of it at its point (R441). -/
theorem issue_engine {s : State} {m : Meta} {b : State → Except Stop State}
    (hw : m.window = true ∨ (s.ctx.slot = 15 → s.k.window = none)) (hh : m.helper = true ∨ s.ctx.slot = 15)
    (hr : runs s m.p m.n) (he : m.engine = true) :
    s.issue m b = match b (numbered s) with
      | .ok t => t.retire m.len
      | .error r => s.stoppedAs true r := by
  have h := State.issue_runs (b := b) (State.mayIssue_ok hw hh) (guard_of_runs hr)
  rw [he] at h
  have hc : s.countEngine m = numbered s := by simp only [State.countEngine, he, if_true]; rfl
  rw [hc] at h
  cases hb : b (numbered s) <;> simpa [hb] using h

end Sys2Proof.Claims
end

