-- ==== Sys2Proof/Laws/Encoding.lean ====
section
/-! SUPPORT. The fields of an encoded instruction read back (R44 to R46), and what the decoder answers on the words of
each format. -/

namespace Sys2Proof.Laws

set_option maxRecDepth 8000

@[simp] theorem flagOf_bitOf (b : Bool) : flagOf (bitOf b) = b := by cases b <;> rfl

section Head
variable (long : Bool) (m : BitVec 8) (p : BitVec 3) (n : Bool) (d a : BitVec 6) (da opt : BitVec 3)

theorem head64_opt : (head64 long m p n d a da opt).extractLsb' 0 3 = opt := by
  simp (disch := decide) only [head64, BitVec.extractLsb'_cast, BitVec.extractLsb'_append_eq_of_add_le]
  exact BitVec.extractLsb'_eq_self

theorem head64_da : (head64 long m p n d a da opt).extractLsb' 3 3 = da := by
  simp (disch := decide) only [head64, BitVec.extractLsb'_cast, BitVec.extractLsb'_append_eq_of_le,
    BitVec.extractLsb'_append_eq_of_add_le]
  exact BitVec.extractLsb'_eq_self

theorem head64_a : (head64 long m p n d a da opt).extractLsb' 6 6 = a := by
  simp (disch := decide) only [head64, BitVec.extractLsb'_cast, BitVec.extractLsb'_append_eq_of_le,
    BitVec.extractLsb'_append_eq_of_add_le]
  exact BitVec.extractLsb'_eq_self

theorem head64_d : (head64 long m p n d a da opt).extractLsb' 12 6 = d := by
  simp (disch := decide) only [head64, BitVec.extractLsb'_cast, BitVec.extractLsb'_append_eq_of_le,
    BitVec.extractLsb'_append_eq_of_add_le]
  exact BitVec.extractLsb'_eq_self

theorem head64_n : (head64 long m p n d a da opt).extractLsb' 18 1 = bitOf n := by
  simp (disch := decide) only [head64, BitVec.extractLsb'_cast, BitVec.extractLsb'_append_eq_of_le,
    BitVec.extractLsb'_append_eq_of_add_le]
  exact BitVec.extractLsb'_eq_self

theorem head64_p : (head64 long m p n d a da opt).extractLsb' 19 3 = p := by
  simp (disch := decide) only [head64, BitVec.extractLsb'_cast, BitVec.extractLsb'_append_eq_of_le,
    BitVec.extractLsb'_append_eq_of_add_le]
  exact BitVec.extractLsb'_eq_self

theorem head64_major : major64 (head64 long m p n d a da opt) = m.toNat := by
  simp (disch := decide) only [major64, head64, BitVec.extractLsb'_cast, BitVec.extractLsb'_append_eq_of_le,
    BitVec.extractLsb'_append_eq_of_add_le]
  exact congrArg BitVec.toNat BitVec.extractLsb'_eq_self

theorem head64_len : (head64 long m p n d a da opt).extractLsb' 30 2 = 1#1 ++ bitOf long := by
  simp (disch := decide) only [head64, BitVec.extractLsb'_cast, BitVec.extractLsb'_append_eq_of_le]
  exact BitVec.extractLsb'_eq_self

theorem head64_count : parcelCount (head64 long m p n d a da opt) = if long then 3 else 2 := by
  have h := head64_len long m p n d a da opt
  have h0 := congrArg (fun x => x.getLsbD 0) h
  have h1 := congrArg (fun x => x.getLsbD 1) h
  simp only [BitVec.getLsbD_extractLsb', Nat.reduceAdd, Nat.reduceLT, decide_true, Bool.true_and] at h0 h1
  unfold parcelCount
  rw [h0, h1]
  cases long <;> rfl

end Head

section Imm
variable (imm : BitVec 24) (ty : BitVec 4) (md : BitVec 3) (sat : Bool)

theorem immParcel_imm : (immParcel imm ty md sat).extractLsb' 8 24 = imm := by
  simp (disch := decide) only [immParcel, BitVec.extractLsb'_cast, BitVec.extractLsb'_append_eq_of_le]
  exact BitVec.extractLsb'_eq_self

theorem immParcel_ty : (immParcel imm ty md sat).extractLsb' 4 4 = ty := by
  simp (disch := decide) only [immParcel, BitVec.extractLsb'_cast, BitVec.extractLsb'_append_eq_of_le,
    BitVec.extractLsb'_append_eq_of_add_le]
  exact BitVec.extractLsb'_eq_self

theorem immParcel_md : (immParcel imm ty md sat).extractLsb' 1 3 = md := by
  simp (disch := decide) only [immParcel, BitVec.extractLsb'_cast, BitVec.extractLsb'_append_eq_of_le,
    BitVec.extractLsb'_append_eq_of_add_le]
  exact BitVec.extractLsb'_eq_self

theorem immParcel_sat : (immParcel imm ty md sat).extractLsb' 0 1 = bitOf sat := by
  simp (disch := decide) only [immParcel, BitVec.extractLsb'_cast, BitVec.extractLsb'_append_eq_of_add_le]
  exact BitVec.extractLsb'_eq_self

end Imm

theorem G64_tail (m : BitVec 8) (fn : BitVec 6) (f : G64) :
    ∃ q, G64.words m fn f = [head64 false m f.p f.n f.d f.a f.da f.opt, q] ∧ fn64 q = fn ∧
      G64.read (head64 false m f.p f.n f.d f.a f.da f.opt) q = f := by
  refine ⟨_, rfl, ?_, ?_⟩
  · simp (disch := decide) only [fn64, BitVec.extractLsb'_cast, BitVec.extractLsb'_append_eq_of_le,
      BitVec.extractLsb'_append_eq_of_add_le]
    exact BitVec.extractLsb'_eq_self
  · simp only [G64.read, head64_p, head64_n, head64_d, head64_a, head64_da, head64_opt, flagOf_bitOf]
    simp (disch := decide) only [BitVec.extractLsb'_cast, BitVec.extractLsb'_append_eq_of_le,
      BitVec.extractLsb'_append_eq_of_add_le]
    simp only [Nat.reduceAdd, Nat.reduceSub, BitVec.extractLsb'_eq_self, flagOf_bitOf]

theorem I64_read_words (m : BitVec 8) (f : I64) :
    I64.read (head64 false m f.p f.n f.d f.a f.da f.opt) (immParcel f.imm f.ty f.md f.sat) = f := by
  simp only [I64.read, head64_p, head64_n, head64_d, head64_a, head64_da, head64_opt, flagOf_bitOf, immParcel_imm,
    immParcel_ty, immParcel_md, immParcel_sat]

theorem W96_read_words (m : BitVec 8) (f : W96) :
    W96.read (head64 true m f.p f.n f.d f.a f.da f.opt) (immParcel 0 f.ty f.md f.sat) f.lit = f := by
  simp only [W96.read, head64_p, head64_n, head64_d, head64_a, head64_da, head64_opt, flagOf_bitOf,
    immParcel_ty, immParcel_md, immParcel_sat]

/-- The fields of a register parcel (R44). -/
theorem A32_parcel (m : BitVec 7) (fn : BitVec 6) (f : A32) :
    ∃ q, A32.words m fn f = [q] ∧ parcelCount q = 1 ∧ major32 q = m.toNat ∧ fn32 q = fn ∧ A32.read q = f := by
  refine ⟨_, rfl, ?_, ?_, ?_, ?_⟩
  · unfold parcelCount
    simp only [BitVec.getLsbD_cast, BitVec.getLsbD_append]
    rfl
  · simp (disch := decide) only [major32, BitVec.extractLsb'_cast, BitVec.extractLsb'_append_eq_of_le,
      BitVec.extractLsb'_append_eq_of_add_le]
    exact congrArg BitVec.toNat BitVec.extractLsb'_eq_self
  · simp (disch := decide) only [fn32, BitVec.extractLsb'_cast, BitVec.extractLsb'_append_eq_of_add_le]
    exact BitVec.extractLsb'_eq_self
  · simp (disch := decide) only [A32.read, BitVec.extractLsb'_cast, BitVec.extractLsb'_append_eq_of_le,
      BitVec.extractLsb'_append_eq_of_add_le]
    simp only [Nat.reduceAdd, Nat.reduceSub, BitVec.extractLsb'_eq_self]

/-- The fields of a 32-bit immediate parcel (R44). -/
theorem I32_parcel (m : BitVec 7) (f : I32) :
    ∃ q, I32.words m f = [q] ∧ parcelCount q = 1 ∧ major32 q = m.toNat ∧ I32.read q = f := by
  refine ⟨_, rfl, ?_, ?_, ?_⟩
  · unfold parcelCount
    simp only [BitVec.getLsbD_cast, BitVec.getLsbD_append]
    rfl
  · simp (disch := decide) only [major32, BitVec.extractLsb'_cast, BitVec.extractLsb'_append_eq_of_le,
      BitVec.extractLsb'_append_eq_of_add_le]
    exact congrArg BitVec.toNat BitVec.extractLsb'_eq_self
  · simp (disch := decide) only [I32.read, BitVec.extractLsb'_cast, BitVec.extractLsb'_append_eq_of_le,
      BitVec.extractLsb'_append_eq_of_add_le]
    simp only [Nat.reduceSub, BitVec.extractLsb'_eq_self]

/-- The fields of a 32-bit transfer (R44). -/
theorem J32_parcel (m : BitVec 7) (f : J32) :
    ∃ q, J32.words m f = [q] ∧ parcelCount q = 1 ∧ major32 q = m.toNat ∧ J32.read q = f := by
  refine ⟨_, rfl, ?_, ?_, ?_⟩
  · unfold parcelCount
    simp only [BitVec.getLsbD_cast, BitVec.getLsbD_append]
    rfl
  · simp (disch := decide) only [major32, BitVec.extractLsb'_cast, BitVec.extractLsb'_append_eq_of_le,
      BitVec.extractLsb'_append_eq_of_add_le]
    exact congrArg BitVec.toNat BitVec.extractLsb'_eq_self
  · simp (disch := decide) only [J32.read, BitVec.extractLsb'_cast, BitVec.extractLsb'_append_eq_of_le,
      BitVec.extractLsb'_append_eq_of_add_le]
    simp only [Nat.reduceSub, BitVec.extractLsb'_eq_self, flagOf_bitOf]

/-- Decoding of the words of a register row. -/
theorem decode_G64 {m : BitVec 8} {fn : BitVec 6} {k : G64 → Instr} {f : G64} (rest : List Parcel)
    (hm : m.toNat < 0xD0) (h2 : m.toNat ≠ 0x02) (h6 : m.toNat ≠ 0x06) (h26 : ¬(m.toNat = 0x26 ∧ fn = 0))
    (h41 : ¬(m.toNat = 0x41 ∧ fn = 1)) (hi : findRow m.toNat rowsI64 = none) (hs : findRow m.toNat rowsSys = none)
    (hk : findRow (m.toNat * 64 + fn.toNat) rowsG64 = some k) (hw : (k f).wellFormed = true) :
    decode (f.words m fn ++ rest) = .ok (k f) := by
  obtain ⟨q, e, hfn, hr⟩ := G64_tail m fn f
  rw [e]
  simp only [List.cons_append, List.nil_append, decode, head64_count, Bool.false_eq_true, if_false, OfNat.ofNat_ne_one,
    if_true]
  simp only [decode64, head64_major, hfn, hr, hi, hs, hk, checked, hw, if_true]
  rw [if_neg (by omega), if_neg (by omega), if_neg h2, if_neg h6, if_neg h26, if_neg h41]

/-- Decoding of the words of an immediate row. -/
theorem decode_I64 {m : BitVec 8} {k : I64 → Instr} {f : I64} (rest : List Parcel)
    (hm : m.toNat < 0xD0) (h2 : m.toNat ≠ 0x02) (h6 : m.toNat ≠ 0x06) (h26 : m.toNat ≠ 0x26)
    (h41 : m.toNat ≠ 0x41) (hk : findRow m.toNat rowsI64 = some k) (hw : (k f).wellFormed = true) :
    decode (f.words m ++ rest) = .ok (k f) := by
  simp only [I64.words, List.cons_append, List.nil_append, decode, head64_count, Bool.false_eq_true, if_false,
    OfNat.ofNat_ne_one, if_true]
  simp only [decode64, head64_major, I64_read_words, hk, checked, hw, if_true, h26, h41, false_and, if_false]
  rw [if_neg (by omega), if_neg (by omega), if_neg h2, if_neg h6]

/-- Decoding of the words of a 96-bit row. -/
theorem decode_W96 {m : BitVec 8} {k : W96 → Instr} {f : W96} (rest : List Parcel)
    (hm : m.toNat < 0xD0) (hk : findRow m.toNat rowsW96 = some k) (hw : (k f).wellFormed = true) :
    decode (f.words m ++ rest) = .ok (k f) := by
  simp only [W96.words, List.cons_append, List.nil_append, decode, head64_count, if_true, OfNat.ofNat_ne_one,
    if_false, Nat.reduceEqDiff]
  simp only [decode96, head64_major, W96_read_words, hk, checked, hw, if_true]
  rw [if_neg (by omega), if_neg (by omega)]

/-- Decoding of the words of SYSRD and SYSWR. -/
theorem decode_sys {m : BitVec 8} {k : SysForm → Instr} {f : SysForm} (rest : List Parcel)
    (hm : m.toNat < 0xD0) (h2 : m.toNat ≠ 0x02) (h6 : m.toNat ≠ 0x06) (h26 : m.toNat ≠ 0x26)
    (h41 : m.toNat ≠ 0x41) (hi : findRow m.toNat rowsI64 = none) (hx : findRow m.toNat rowsW96 = none)
    (hk : findRow m.toNat rowsSys = some k) (hl : f.wide || decide (f.imm.toNat < 2 ^ 24)) (hw : (k f).wellFormed = true) :
    decode (f.words m ++ rest) = .ok (k f) := by
  unfold SysForm.words
  cases hf : f.wide
  · have hr : SysForm.read false (head64 false m f.p f.n f.d f.a f.da f.opt)
        (immParcel (f.imm.setWidth 24) f.ty f.md f.sat) 0 = f := by
      rw [hf] at hl
      simp only [SysForm.read, head64_p, head64_n, head64_d, head64_a, head64_da, head64_opt, flagOf_bitOf,
        immParcel_imm, immParcel_ty, immParcel_md, immParcel_sat, Bool.false_eq_true, if_false]
      have : (f.imm.setWidth 24).setWidth 32 = f.imm := by
        apply BitVec.eq_of_toNat_eq
        simp only [BitVec.toNat_setWidth]
        simp only [Bool.false_or, decide_eq_true_eq] at hl
        rw [Nat.mod_eq_of_lt hl, Nat.mod_eq_of_lt f.imm.isLt]
      rw [this, ← hf]
    simp only [Bool.false_eq_true, if_false, List.cons_append, List.nil_append, decode, head64_count,
      OfNat.ofNat_ne_one, if_true]
    simp only [decode64, head64_major, hr, hi, hk, checked, hw, if_true, h26, h41, false_and, if_false]
    rw [if_neg (by omega), if_neg (by omega), if_neg h2, if_neg h6]
  · have hr : SysForm.read true (head64 true m f.p f.n f.d f.a f.da f.opt)
        (immParcel 0 f.ty f.md f.sat) f.imm = f := by
      simp only [SysForm.read, head64_p, head64_n, head64_d, head64_a, head64_da, head64_opt, flagOf_bitOf,
        immParcel_ty, immParcel_md, immParcel_sat, if_true]
      rw [← hf]
    simp only [if_true, List.cons_append, List.nil_append, decode, head64_count, OfNat.ofNat_ne_one,
      if_false, Nat.reduceEqDiff]
    simp only [decode96, head64_major, hr, hx, hk, checked, hw, if_true]
    rw [if_neg (by omega), if_neg (by omega)]

theorem decode_cmpG64 {cond : BitVec 6} {f : G64} (rest : List Parcel) (hw : (Instr.cmpG64 cond f).wellFormed = true) :
    decode (encode (.cmpG64 cond f) ++ rest) = .ok (.cmpG64 cond f) := by
  obtain ⟨q, e, hfn, hr⟩ := G64_tail 0x02 cond f
  have hm : (2 : BitVec 8).toNat = 2 := rfl
  simp only [encode, e, List.cons_append, List.nil_append, decode, head64_count, Bool.false_eq_true, if_false,
    OfNat.ofNat_ne_one, if_true]
  simp only [decode64, head64_major, hfn, hr, checked, hw, if_true, hm]
  rfl

theorem decode_sfcmp {cond : BitVec 6} {f : G64} (rest : List Parcel) (hw : (Instr.sfcmp cond f).wellFormed = true) :
    decode (encode (.sfcmp cond f) ++ rest) = .ok (.sfcmp cond f) := by
  obtain ⟨q, e, hfn, hr⟩ := G64_tail 0x06 cond f
  have hm : (6 : BitVec 8).toNat = 6 := rfl
  simp only [encode, e, List.cons_append, List.nil_append, decode, head64_count, Bool.false_eq_true, if_false,
    OfNat.ofNat_ne_one, if_true]
  simp only [decode64, head64_major, hfn, hr, checked, hw, if_true, hm]
  rfl

/-- A row of one FN that stands for two instructions (R233, R391). -/
theorem decode_split {m : BitVec 8} {fn : BitVec 6} {k : G64 → Instr} {i : Instr} {f : G64} (rest : List Parcel)
    (e : k f = i) (hw : i.wellFormed = true) (hm : m.toNat < 0xD0) (h2 : m.toNat ≠ 0x02) (h6 : m.toNat ≠ 0x06)
    (h26 : ¬(m.toNat = 0x26 ∧ fn = 0)) (h41 : ¬(m.toNat = 0x41 ∧ fn = 1)) (hi : findRow m.toNat rowsI64 = none)
    (hs : findRow m.toNat rowsSys = none) (hk : findRow (m.toNat * 64 + fn.toNat) rowsG64 = some k) :
    decode (f.words m fn ++ rest) = .ok i := by
  subst e
  exact decode_G64 rest hm h2 h6 h26 h41 hi hs hk hw

theorem G64_fits_md {f : G64} {sh : Shape} (h : f.fits false sh = true) : f.md ∈ sh.mds := by
  simp only [G64.fits, Bool.and_eq_true] at h
  simpa using h.1.1.2

theorem G64_fits_c {f : G64} {sh : Shape} (h : f.fits false sh = true) : Kind.ok false sh.c f.c f.dc = true := by
  simp only [G64.fits, Bool.and_eq_true] at h
  exact h.1.1.1.1.2

theorem decode_tcancelScope {f : G64} (rest : List Parcel) (hw : (Instr.tcancelScope f).wellFormed = true) :
    decode (encode (.tcancelScope f) ++ rest) = .ok (.tcancelScope f) := by
  refine decode_split (k := fun f => if f.md = 1 then .tcancelTask f else .tcancelScope f) rest ?_ hw (by decide)
    (by decide) (by decide) (by decide) (by decide) rfl rfl rfl
  have h := G64_fits_md (sh := { d := .srcS, a := .srcS }) hw
  simp only [List.mem_singleton] at h
  simp [h]

theorem decode_tcancelTask {f : G64} (rest : List Parcel) (hw : (Instr.tcancelTask f).wellFormed = true) :
    decode (encode (.tcancelTask f) ++ rest) = .ok (.tcancelTask f) := by
  refine decode_split (k := fun f => if f.md = 1 then .tcancelTask f else .tcancelScope f) rest ?_ hw (by decide)
    (by decide) (by decide) (by decide) (by decide) rfl rfl rfl
  have h := G64_fits_md (sh := { d := .srcS, a := .srcS, mds := [1] }) hw
  simp only [List.mem_singleton] at h
  simp [h]

theorem decode_barmJoin {f : G64} (rest : List Parcel) (hw : (Instr.barmJoin f).wellFormed = true) :
    decode (encode (.barmJoin f) ++ rest) = .ok (.barmJoin f) := by
  refine decode_split (k := fun f => if f.c = 1 then .barmLeave f else .barmJoin f) rest ?_ hw (by decide)
    (by decide) (by decide) (by decide) (by decide) rfl rfl rfl
  have h := G64_fits_c (sh := { a := .lit 0 63, c := .lit 0 0, mds := [2, 4] }) (Bool.and_eq_true_iff.mp hw).1
  simp only [Kind.ok, Bool.and_eq_true, decide_eq_true_eq] at h
  have : f.c ≠ 1 := by rintro e; rw [e] at h; exact absurd h.1.2 (by decide)
  exact if_neg this

theorem decode_barmLeave {f : G64} (rest : List Parcel) (hw : (Instr.barmLeave f).wellFormed = true) :
    decode (encode (.barmLeave f) ++ rest) = .ok (.barmLeave f) := by
  refine decode_split (k := fun f => if f.c = 1 then .barmLeave f else .barmJoin f) rest ?_ hw (by decide)
    (by decide) (by decide) (by decide) (by decide) rfl rfl rfl
  have h := G64_fits_c (sh := { a := .lit 0 63, c := .lit 1 1, mds := [2, 4] }) (Bool.and_eq_true_iff.mp hw).1
  simp only [Kind.ok, Bool.and_eq_true, decide_eq_true_eq] at h
  have : f.c = 1 := BitVec.eq_of_toNat_eq (Nat.le_antisymm h.1.2 h.1.1)
  exact if_pos this

theorem sysrd_fits {f : SysForm} (hw : (Instr.sysrd f).wellFormed = true) :
    f.wide || decide (f.imm.toNat < 2 ^ 24) := by
  have h := (Bool.and_eq_true_iff.mp hw).1
  simp only [SysForm.fits, Bool.and_eq_true] at h
  exact h.2

theorem syswr_fits {f : SysForm} (hw : (Instr.syswr f).wellFormed = true) :
    f.wide || decide (f.imm.toNat < 2 ^ 24) := by
  have h := (Bool.and_eq_true_iff.mp hw).1
  simp only [SysForm.fits, Bool.and_eq_true] at h
  exact h.2

/-- Decoding of the parcel of a 32-bit register row. -/
theorem decode_A32 {m : BitVec 7} {fn : BitVec 6} {k : A32 → Instr} {f : A32} (rest : List Parcel)
    (hm : m.toNat < 0x70) (h0 : m.toNat ≠ 0) (h13 : m.toNat ≠ 0x13) (h3 : m.toNat ≠ 3)
    (hi : findRow m.toNat rowsI32 = none) (hj : findRow m.toNat rowsJ32 = none)
    (hk : findRow (m.toNat * 64 + fn.toNat) rowsA32 = some k) (hw : (k f).wellFormed = true) :
    decode (f.words m fn ++ rest) = .ok (k f) := by
  obtain ⟨q, e, hc, hq, hfn, hr⟩ := A32_parcel m fn f
  rw [e]
  simp only [List.cons_append, List.nil_append, decode, hc, if_true]
  simp only [decode32, hq, hfn, hr, hi, hj, hk, checked, hw, if_true]
  rw [if_neg (by omega), if_neg h0, if_neg h13, if_neg h3]

/-- Decoding of the parcel of a 32-bit immediate row. -/
theorem decode_I32 {m : BitVec 7} {k : I32 → Instr} {f : I32} (rest : List Parcel)
    (hm : m.toNat < 0x70) (h0 : m.toNat ≠ 0) (h13 : m.toNat ≠ 0x13) (h3 : m.toNat ≠ 3)
    (hk : findRow m.toNat rowsI32 = some k) (hw : (k f).wellFormed = true) :
    decode (f.words m ++ rest) = .ok (k f) := by
  obtain ⟨q, e, hc, hq, hr⟩ := I32_parcel m f
  rw [e]
  simp only [List.cons_append, List.nil_append, decode, hc, if_true]
  simp only [decode32, hq, hr, hk, checked, hw, if_true]
  rw [if_neg (by omega), if_neg h0, if_neg h13, if_neg h3]

/-- Decoding of the parcel of a 32-bit transfer. -/
theorem decode_J32 {m : BitVec 7} {k : J32 → Instr} {f : J32} (rest : List Parcel)
    (hm : m.toNat < 0x70) (h0 : m.toNat ≠ 0) (h13 : m.toNat ≠ 0x13) (h3 : m.toNat ≠ 3)
    (hi : findRow m.toNat rowsI32 = none)
    (hk : findRow m.toNat rowsJ32 = some k) (hw : (k f).wellFormed = true) :
    decode (f.words m ++ rest) = .ok (k f) := by
  obtain ⟨q, e, hc, hq, hr⟩ := J32_parcel m f
  rw [e]
  simp only [List.cons_append, List.nil_append, decode, hc, if_true]
  simp only [decode32, hq, hr, hi, hk, checked, hw, if_true]
  rw [if_neg (by omega), if_neg h0, if_neg h13, if_neg h3]

theorem decode_cmpA32 {cond : BitVec 6} {f : A32} (rest : List Parcel) (hw : (Instr.cmpA32 cond f).wellFormed = true) :
    decode (encode (.cmpA32 cond f) ++ rest) = .ok (.cmpA32 cond f) := by
  obtain ⟨q, e, hc, hq, hfn, hr⟩ := A32_parcel 0x03 cond f
  have hm : (3 : BitVec 7).toNat = 3 := rfl
  simp only [encode, e, List.cons_append, List.nil_append, decode, hc, if_true]
  simp only [decode32, hq, hfn, hr, checked, hw, if_true, hm]
  rfl

end Sys2Proof.Laws
end

