-- ==== Sys2Proof/Laws/Mem.lean ====
section
/-! SUPPORT. Laws of memory: read after write, and the canonical form kept by every memory operation. -/

namespace Sys2Proof.Machine

/-- What a range of numbers holds. -/
theorem mem_upFrom {lo n x : Nat} : x ∈ upFrom lo n ↔ lo ≤ x ∧ x < lo + n := by
  induction n generalizing lo with
  | zero => simp [upFrom]
  | succ n ih => simp only [upFrom, List.mem_cons, ih]; omega

theorem Mem.wfFrom_mono {lo lo' : Nat} {m : Mem} (h : Mem.wfFrom lo' m = true) (hl : lo ≤ lo') :
    Mem.wfFrom lo m = true := by
  cases m with
  | nil => rfl
  | cons c rest =>
    simp only [Mem.wfFrom, Bool.and_eq_true, decide_eq_true_eq] at h ⊢
    exact ⟨⟨Nat.le_trans hl h.1.1, h.1.2⟩, h.2⟩

/-- An address below every listed one reads as unlisted. -/
theorem Mem.get_low {lo a : Nat} {m : Mem} (h : Mem.wfFrom lo m = true) (ha : a < lo) : Mem.get m a = Mem.empty := by
  cases m with
  | nil => rfl
  | cons c rest =>
    simp only [Mem.wfFrom, Bool.and_eq_true, decide_eq_true_eq] at h
    have : a < c.1 := by omega
    simp [Mem.get, this, Nat.ne_of_lt this]

theorem Mem.wfFrom_set {lo a : Nat} {b : Byte} {m : Mem} (h : Mem.wfFrom lo m = true) (ha : lo ≤ a) :
    Mem.wfFrom lo (Mem.set m a b) = true := by
  induction m generalizing lo with
  | nil => unfold Mem.set; split <;> simp_all [Mem.wfFrom]
  | cons c rest ih =>
    obtain ⟨x, y⟩ := c
    have h0 := h
    simp only [Mem.wfFrom, Bool.and_eq_true, decide_eq_true_eq] at h
    unfold Mem.set
    split
    · split
      · exact h0
      · simp only [Mem.wfFrom, Bool.and_eq_true, decide_eq_true_eq]
        exact ⟨⟨ha, ‹_›⟩, ⟨by omega, h.1.2⟩, h.2⟩
    · split
      · split
        · exact Mem.wfFrom_mono h.2 (by omega)
        · subst a
          simp only [Mem.wfFrom, Bool.and_eq_true, decide_eq_true_eq]
          exact ⟨⟨h.1.1, ‹_›⟩, h.2⟩
      · simp only [Mem.wfFrom, Bool.and_eq_true, decide_eq_true_eq]
        exact ⟨h.1, ih h.2 (by omega)⟩

theorem Mem.wf_set {m : Mem} (h : m.wf = true) (a : Nat) (b : Byte) : (Mem.set m a b).wf = true :=
  Mem.wfFrom_set h (Nat.zero_le a)

theorem Mem.get_set_same {lo a : Nat} {b : Byte} {m : Mem} (h : Mem.wfFrom lo m = true) :
    Mem.get (Mem.set m a b) a = b := by
  induction m generalizing lo with
  | nil => unfold Mem.set; split <;> simp_all [Mem.get]
  | cons c rest ih =>
    obtain ⟨x, y⟩ := c
    simp only [Mem.wfFrom, Bool.and_eq_true, decide_eq_true_eq] at h
    unfold Mem.set
    split
    · rename_i hx
      split
      · simp_all [Mem.get, Nat.ne_of_lt hx]
      · simp [Mem.get]
    · split
      · split
        · subst a; simp_all [Mem.get_low h.2 (Nat.lt_succ_self x)]
        · simp [Mem.get]
      · simp only [Mem.get]
        rw [if_neg ‹_›, if_neg ‹_›]
        exact ih h.2

theorem Mem.get_set_other {lo a a' : Nat} {b : Byte} {m : Mem} (h : Mem.wfFrom lo m = true) (hne : a' ≠ a) :
    Mem.get (Mem.set m a b) a' = Mem.get m a' := by
  induction m generalizing lo with
  | nil =>
    unfold Mem.set
    split
    · rfl
    · simp [Mem.get, hne]
  | cons c rest ih =>
    obtain ⟨x, y⟩ := c
    simp only [Mem.wfFrom, Bool.and_eq_true, decide_eq_true_eq] at h
    unfold Mem.set
    split
    · split
      · rfl
      · rename_i hx _
        show (if a' = a then b else if a' < a then Mem.empty else Mem.get ((x, y) :: rest) a') = _
        rw [if_neg hne]
        split
        · simp only [Mem.get]; rw [if_neg (by omega), if_pos (by omega)]
        · rfl
    · split
      · subst a
        split
        · simp only [Mem.get]
          rw [if_neg hne]
          split
          · exact Mem.get_low h.2 (by omega)
          · rfl
        · simp only [Mem.get]; rw [if_neg hne, if_neg hne]
      · simp only [Mem.get]
        rw [ih h.2]

/-- A read after a write of one byte. -/
theorem Mem.get_set {m : Mem} (h : m.wf = true) (a a' : Nat) (b : Byte) :
    Mem.get (Mem.set m a b) a' = if a' = a then b else Mem.get m a' := by
  split
  · subst a'; exact Mem.get_set_same h
  · exact Mem.get_set_other h ‹_›

theorem Mem.wf_writeLE {m : Mem} (h : m.wf = true) (a n v : Nat) : (Mem.writeLE m a n v).wf = true := by
  induction n generalizing m a v with
  | zero => exact h
  | succ n ih => exact ih (Mem.wf_set h a _) (a + 1) (v / 256)

/-- A wide write leaves every byte outside it alone. -/
theorem Mem.get_writeLE_other {m : Mem} (h : m.wf = true) (a n v a' : Nat) (ho : a' < a ∨ a + n ≤ a') :
    Mem.get (Mem.writeLE m a n v) a' = Mem.get m a' := by
  induction n generalizing m a v with
  | zero => rfl
  | succ n ih =>
    simp only [Mem.writeLE]
    rw [ih (Mem.wf_set h a _) (a + 1) (v / 256) (by omega)]
    exact Mem.get_set_other h (by omega)

/-- Byte `i` of a wide write is byte `i` of its value (R10). -/
theorem Mem.get_writeLE {m : Mem} (h : m.wf = true) (a n v i : Nat) (hi : i < n) :
    Mem.get (Mem.writeLE m a n v) (a + i) = BitVec.ofNat 8 (v / 256 ^ i) := by
  induction n generalizing m a v i with
  | zero => omega
  | succ n ih =>
    simp only [Mem.writeLE]
    cases i with
    | zero =>
      rw [Mem.get_writeLE_other (Mem.wf_set h a _) _ _ _ _ (by omega), Nat.add_zero, Mem.get_set_same h]
      simp
    | succ i =>
      have := ih (Mem.wf_set h a (BitVec.ofNat 8 v)) (a + 1) (v / 256) i (by omega)
      rw [show a + (i + 1) = a + 1 + i by omega, this, Nat.div_div_eq_div_mul, Nat.pow_succ, Nat.mul_comm]

theorem Mem.readLE_congr {m m' : Mem} {a n : Nat} (h : ∀ i, i < n → Mem.get m (a + i) = Mem.get m' (a + i)) :
    Mem.readLE m a n = Mem.readLE m' a n := by
  induction n generalizing a with
  | zero => rfl
  | succ n ih =>
    simp only [Mem.readLE]
    rw [show Mem.get m a = Mem.get m' a from h 0 (by omega),
      ih (a := a + 1) (fun i hi => by have := h (i + 1) (by omega); rwa [show a + 1 + i = a + (i + 1) by omega])]

/-- A wide read after the same wide write gives the value, modulo its width (R10). -/
theorem Mem.readLE_writeLE {m : Mem} (h : m.wf = true) (a n v : Nat) :
    Mem.readLE (Mem.writeLE m a n v) a n = v % 256 ^ n := by
  induction n generalizing m a v with
  | zero => simp [Mem.readLE, Nat.mod_one]
  | succ n ih =>
    simp only [Mem.readLE, Mem.writeLE]
    rw [ih (Mem.wf_set h a _) (a + 1) (v / 256),
      Mem.get_writeLE_other (Mem.wf_set h a _) _ _ _ _ (by omega), Mem.get_set_same h, BitVec.toNat_ofNat,
      Nat.pow_succ 256 n, Nat.mul_comm (256 ^ n), Nat.mod_mul]

theorem Mem.wf_putBytes {m : Mem} (h : m.wf = true) (a : Nat) (bs : List Byte) : (Mem.putBytes m a bs).wf = true := by
  induction bs generalizing m a with
  | nil => exact h
  | cons b bs ih => exact ih (Mem.wf_set h a b) (a + 1)

theorem Mem.wfFrom_filter {lo : Nat} {m : Mem} (h : Mem.wfFrom lo m = true) (p : Host.Cell → Bool) :
    Mem.wfFrom lo (m.filter p) = true := by
  induction m generalizing lo with
  | nil => rfl
  | cons c rest ih =>
    simp only [Mem.wfFrom, Bool.and_eq_true, decide_eq_true_eq] at h
    rw [List.filter_cons]
    split
    · simp only [Mem.wfFrom, Bool.and_eq_true, decide_eq_true_eq]
      exact ⟨h.1, ih h.2⟩
    · exact ih (Mem.wfFrom_mono h.2 (by omega))

theorem Mem.wf_zero {m : Mem} (h : m.wf = true) (a n : Nat) : (Mem.zero m a n).wf = true := Mem.wfFrom_filter h _

theorem Mem.wf_foldl_set {α : Type} (l : List α) (g : α → Nat) (v : α → Byte) {m : Mem} (h : m.wf = true) :
    (l.foldl (fun acc c => Mem.set acc (g c) (v c)) m).wf = true := by
  induction l generalizing m with
  | nil => exact h
  | cons c rest ih => exact ih (Mem.wf_set h _ _)

theorem Mem.wf_copyFrom {m : Mem} (h : m.wf = true) (dst : Nat) (m' : Mem) (src n : Nat) :
    (Mem.copyFrom m dst m' src n).wf = true :=
  Mem.wf_foldl_set (m'.filter (fun c => src ≤ c.1 && c.1 < src + n)) (fun c => dst + (c.1 - src)) (fun c => c.2)
    (Mem.wf_zero h dst n)

theorem Mem.wf_nil : Mem.wf [] = true := rfl

end Sys2Proof.Machine
end

