-- ==== Sys2Proof/Laws/PerInstr.lean ====
section
/-! SUPPORT. Statements for every instruction, one lemma each. `RoundTrip`: the decoder reads an instruction back from
its words, whatever parcels follow. -/

namespace Sys2Proof.Laws.RoundTrip

set_option maxRecDepth 8000

/-- A well-formed instruction, not an event, is what the decoder reads from its words (R43 to R46, R65). -/
def Statement (i : Instr) : Prop :=
  i.wellFormed = true → encode i ≠ [] → ∀ rest, decode (encode i ++ rest) = .ok i

theorem addA32 (f : A32) : Statement (.addA32 f) := 
  fun h _ r => decode_A32 (k := .addA32) r (by decide) (by decide) (by decide) (by decide) rfl rfl rfl h
theorem addI32 (f : I32) : Statement (.addI32 f) := 
  fun h _ r => decode_I32 (k := .addI32) r (by decide) (by decide) (by decide) (by decide) rfl h
theorem addG64 (f : G64) : Statement (.addG64 f) := 
  fun h _ r => decode_G64 (k := .addG64) r (by decide) (by decide) (by decide) (by decide) (by decide) rfl rfl rfl h
theorem addI64 (f : I64) : Statement (.addI64 f) := 
  fun h _ r => decode_I64 (k := .addI64) r (by decide) (by decide) (by decide) (by decide) (by decide) rfl h
theorem addW96 (f : W96) : Statement (.addW96 f) := 
  fun h _ r => decode_W96 (k := .addW96) r (by decide) rfl h
theorem subA32 (f : A32) : Statement (.subA32 f) := 
  fun h _ r => decode_A32 (k := .subA32) r (by decide) (by decide) (by decide) (by decide) rfl rfl rfl h
theorem subG64 (f : G64) : Statement (.subG64 f) := 
  fun h _ r => decode_G64 (k := .subG64) r (by decide) (by decide) (by decide) (by decide) (by decide) rfl rfl rfl h
theorem mulA32 (f : A32) : Statement (.mulA32 f) := 
  fun h _ r => decode_A32 (k := .mulA32) r (by decide) (by decide) (by decide) (by decide) rfl rfl rfl h
theorem mulG64 (f : G64) : Statement (.mulG64 f) := 
  fun h _ r => decode_G64 (k := .mulG64) r (by decide) (by decide) (by decide) (by decide) (by decide) rfl rfl rfl h
theorem mulI64 (f : I64) : Statement (.mulI64 f) := 
  fun h _ r => decode_I64 (k := .mulI64) r (by decide) (by decide) (by decide) (by decide) (by decide) rfl h
theorem mulW96 (f : W96) : Statement (.mulW96 f) := 
  fun h _ r => decode_W96 (k := .mulW96) r (by decide) rfl h
theorem mulhA32 (f : A32) : Statement (.mulhA32 f) := 
  fun h _ r => decode_A32 (k := .mulhA32) r (by decide) (by decide) (by decide) (by decide) rfl rfl rfl h
theorem mulhG64 (f : G64) : Statement (.mulhG64 f) := 
  fun h _ r => decode_G64 (k := .mulhG64) r (by decide) (by decide) (by decide) (by decide) (by decide) rfl rfl rfl h
theorem mulhzA32 (f : A32) : Statement (.mulhzA32 f) := 
  fun h _ r => decode_A32 (k := .mulhzA32) r (by decide) (by decide) (by decide) (by decide) rfl rfl rfl h
theorem mulhzG64 (f : G64) : Statement (.mulhzG64 f) := 
  fun h _ r => decode_G64 (k := .mulhzG64) r (by decide) (by decide) (by decide) (by decide) (by decide) rfl rfl rfl h
theorem divA32 (f : A32) : Statement (.divA32 f) := 
  fun h _ r => decode_A32 (k := .divA32) r (by decide) (by decide) (by decide) (by decide) rfl rfl rfl h
theorem divG64 (f : G64) : Statement (.divG64 f) := 
  fun h _ r => decode_G64 (k := .divG64) r (by decide) (by decide) (by decide) (by decide) (by decide) rfl rfl rfl h
theorem divzA32 (f : A32) : Statement (.divzA32 f) := 
  fun h _ r => decode_A32 (k := .divzA32) r (by decide) (by decide) (by decide) (by decide) rfl rfl rfl h
theorem divzG64 (f : G64) : Statement (.divzG64 f) := 
  fun h _ r => decode_G64 (k := .divzG64) r (by decide) (by decide) (by decide) (by decide) (by decide) rfl rfl rfl h
theorem remA32 (f : A32) : Statement (.remA32 f) := 
  fun h _ r => decode_A32 (k := .remA32) r (by decide) (by decide) (by decide) (by decide) rfl rfl rfl h
theorem remG64 (f : G64) : Statement (.remG64 f) := 
  fun h _ r => decode_G64 (k := .remG64) r (by decide) (by decide) (by decide) (by decide) (by decide) rfl rfl rfl h
theorem remzA32 (f : A32) : Statement (.remzA32 f) := 
  fun h _ r => decode_A32 (k := .remzA32) r (by decide) (by decide) (by decide) (by decide) rfl rfl rfl h
theorem remzG64 (f : G64) : Statement (.remzG64 f) := 
  fun h _ r => decode_G64 (k := .remzG64) r (by decide) (by decide) (by decide) (by decide) (by decide) rfl rfl rfl h
theorem andA32 (f : A32) : Statement (.andA32 f) := 
  fun h _ r => decode_A32 (k := .andA32) r (by decide) (by decide) (by decide) (by decide) rfl rfl rfl h
theorem andI32 (f : I32) : Statement (.andI32 f) := 
  fun h _ r => decode_I32 (k := .andI32) r (by decide) (by decide) (by decide) (by decide) rfl h
theorem andG64 (f : G64) : Statement (.andG64 f) := 
  fun h _ r => decode_G64 (k := .andG64) r (by decide) (by decide) (by decide) (by decide) (by decide) rfl rfl rfl h
theorem andI64 (f : I64) : Statement (.andI64 f) := 
  fun h _ r => decode_I64 (k := .andI64) r (by decide) (by decide) (by decide) (by decide) (by decide) rfl h
theorem andW96 (f : W96) : Statement (.andW96 f) := 
  fun h _ r => decode_W96 (k := .andW96) r (by decide) rfl h
theorem orA32 (f : A32) : Statement (.orA32 f) := 
  fun h _ r => decode_A32 (k := .orA32) r (by decide) (by decide) (by decide) (by decide) rfl rfl rfl h
theorem orG64 (f : G64) : Statement (.orG64 f) := 
  fun h _ r => decode_G64 (k := .orG64) r (by decide) (by decide) (by decide) (by decide) (by decide) rfl rfl rfl h
theorem orI64 (f : I64) : Statement (.orI64 f) := 
  fun h _ r => decode_I64 (k := .orI64) r (by decide) (by decide) (by decide) (by decide) (by decide) rfl h
theorem orW96 (f : W96) : Statement (.orW96 f) := 
  fun h _ r => decode_W96 (k := .orW96) r (by decide) rfl h
theorem xorA32 (f : A32) : Statement (.xorA32 f) := 
  fun h _ r => decode_A32 (k := .xorA32) r (by decide) (by decide) (by decide) (by decide) rfl rfl rfl h
theorem xorG64 (f : G64) : Statement (.xorG64 f) := 
  fun h _ r => decode_G64 (k := .xorG64) r (by decide) (by decide) (by decide) (by decide) (by decide) rfl rfl rfl h
theorem xorI64 (f : I64) : Statement (.xorI64 f) := 
  fun h _ r => decode_I64 (k := .xorI64) r (by decide) (by decide) (by decide) (by decide) (by decide) rfl h
theorem xorW96 (f : W96) : Statement (.xorW96 f) := 
  fun h _ r => decode_W96 (k := .xorW96) r (by decide) rfl h
theorem andnA32 (f : A32) : Statement (.andnA32 f) := 
  fun h _ r => decode_A32 (k := .andnA32) r (by decide) (by decide) (by decide) (by decide) rfl rfl rfl h
theorem andnG64 (f : G64) : Statement (.andnG64 f) := 
  fun h _ r => decode_G64 (k := .andnG64) r (by decide) (by decide) (by decide) (by decide) (by decide) rfl rfl rfl h
theorem shlA32 (f : A32) : Statement (.shlA32 f) := 
  fun h _ r => decode_A32 (k := .shlA32) r (by decide) (by decide) (by decide) (by decide) rfl rfl rfl h
theorem shlI32 (f : I32) : Statement (.shlI32 f) := 
  fun h _ r => decode_I32 (k := .shlI32) r (by decide) (by decide) (by decide) (by decide) rfl h
theorem shlG64 (f : G64) : Statement (.shlG64 f) := 
  fun h _ r => decode_G64 (k := .shlG64) r (by decide) (by decide) (by decide) (by decide) (by decide) rfl rfl rfl h
theorem shlI64 (f : I64) : Statement (.shlI64 f) := 
  fun h _ r => decode_I64 (k := .shlI64) r (by decide) (by decide) (by decide) (by decide) (by decide) rfl h
theorem shlW96 (f : W96) : Statement (.shlW96 f) := 
  fun h _ r => decode_W96 (k := .shlW96) r (by decide) rfl h
theorem shrA32 (f : A32) : Statement (.shrA32 f) := 
  fun h _ r => decode_A32 (k := .shrA32) r (by decide) (by decide) (by decide) (by decide) rfl rfl rfl h
theorem shrI32 (f : I32) : Statement (.shrI32 f) := 
  fun h _ r => decode_I32 (k := .shrI32) r (by decide) (by decide) (by decide) (by decide) rfl h
theorem shrG64 (f : G64) : Statement (.shrG64 f) := 
  fun h _ r => decode_G64 (k := .shrG64) r (by decide) (by decide) (by decide) (by decide) (by decide) rfl rfl rfl h
theorem shrI64 (f : I64) : Statement (.shrI64 f) := 
  fun h _ r => decode_I64 (k := .shrI64) r (by decide) (by decide) (by decide) (by decide) (by decide) rfl h
theorem shrW96 (f : W96) : Statement (.shrW96 f) := 
  fun h _ r => decode_W96 (k := .shrW96) r (by decide) rfl h
theorem sraA32 (f : A32) : Statement (.sraA32 f) := 
  fun h _ r => decode_A32 (k := .sraA32) r (by decide) (by decide) (by decide) (by decide) rfl rfl rfl h
theorem sraI32 (f : I32) : Statement (.sraI32 f) := 
  fun h _ r => decode_I32 (k := .sraI32) r (by decide) (by decide) (by decide) (by decide) rfl h
theorem sraG64 (f : G64) : Statement (.sraG64 f) := 
  fun h _ r => decode_G64 (k := .sraG64) r (by decide) (by decide) (by decide) (by decide) (by decide) rfl rfl rfl h
theorem sraI64 (f : I64) : Statement (.sraI64 f) := 
  fun h _ r => decode_I64 (k := .sraI64) r (by decide) (by decide) (by decide) (by decide) (by decide) rfl h
theorem sraW96 (f : W96) : Statement (.sraW96 f) := 
  fun h _ r => decode_W96 (k := .sraW96) r (by decide) rfl h
theorem rolA32 (f : A32) : Statement (.rolA32 f) := 
  fun h _ r => decode_A32 (k := .rolA32) r (by decide) (by decide) (by decide) (by decide) rfl rfl rfl h
theorem rolG64 (f : G64) : Statement (.rolG64 f) := 
  fun h _ r => decode_G64 (k := .rolG64) r (by decide) (by decide) (by decide) (by decide) (by decide) rfl rfl rfl h
theorem rolI64 (f : I64) : Statement (.rolI64 f) := 
  fun h _ r => decode_I64 (k := .rolI64) r (by decide) (by decide) (by decide) (by decide) (by decide) rfl h
theorem rolW96 (f : W96) : Statement (.rolW96 f) := 
  fun h _ r => decode_W96 (k := .rolW96) r (by decide) rfl h
theorem minA32 (f : A32) : Statement (.minA32 f) := 
  fun h _ r => decode_A32 (k := .minA32) r (by decide) (by decide) (by decide) (by decide) rfl rfl rfl h
theorem minG64 (f : G64) : Statement (.minG64 f) := 
  fun h _ r => decode_G64 (k := .minG64) r (by decide) (by decide) (by decide) (by decide) (by decide) rfl rfl rfl h
theorem minI64 (f : I64) : Statement (.minI64 f) := 
  fun h _ r => decode_I64 (k := .minI64) r (by decide) (by decide) (by decide) (by decide) (by decide) rfl h
theorem minW96 (f : W96) : Statement (.minW96 f) := 
  fun h _ r => decode_W96 (k := .minW96) r (by decide) rfl h
theorem maxA32 (f : A32) : Statement (.maxA32 f) := 
  fun h _ r => decode_A32 (k := .maxA32) r (by decide) (by decide) (by decide) (by decide) rfl rfl rfl h
theorem maxG64 (f : G64) : Statement (.maxG64 f) := 
  fun h _ r => decode_G64 (k := .maxG64) r (by decide) (by decide) (by decide) (by decide) (by decide) rfl rfl rfl h
theorem maxI64 (f : I64) : Statement (.maxI64 f) := 
  fun h _ r => decode_I64 (k := .maxI64) r (by decide) (by decide) (by decide) (by decide) (by decide) rfl h
theorem maxW96 (f : W96) : Statement (.maxW96 f) := 
  fun h _ r => decode_W96 (k := .maxW96) r (by decide) rfl h
theorem minzA32 (f : A32) : Statement (.minzA32 f) := 
  fun h _ r => decode_A32 (k := .minzA32) r (by decide) (by decide) (by decide) (by decide) rfl rfl rfl h
theorem minzG64 (f : G64) : Statement (.minzG64 f) := 
  fun h _ r => decode_G64 (k := .minzG64) r (by decide) (by decide) (by decide) (by decide) (by decide) rfl rfl rfl h
theorem minzI64 (f : I64) : Statement (.minzI64 f) := 
  fun h _ r => decode_I64 (k := .minzI64) r (by decide) (by decide) (by decide) (by decide) (by decide) rfl h
theorem minzW96 (f : W96) : Statement (.minzW96 f) := 
  fun h _ r => decode_W96 (k := .minzW96) r (by decide) rfl h
theorem maxzA32 (f : A32) : Statement (.maxzA32 f) := 
  fun h _ r => decode_A32 (k := .maxzA32) r (by decide) (by decide) (by decide) (by decide) rfl rfl rfl h
theorem maxzG64 (f : G64) : Statement (.maxzG64 f) := 
  fun h _ r => decode_G64 (k := .maxzG64) r (by decide) (by decide) (by decide) (by decide) (by decide) rfl rfl rfl h
theorem maxzI64 (f : I64) : Statement (.maxzI64 f) := 
  fun h _ r => decode_I64 (k := .maxzI64) r (by decide) (by decide) (by decide) (by decide) (by decide) rfl h
theorem maxzW96 (f : W96) : Statement (.maxzW96 f) := 
  fun h _ r => decode_W96 (k := .maxzW96) r (by decide) rfl h
theorem clzA32 (f : A32) : Statement (.clzA32 f) := 
  fun h _ r => decode_A32 (k := .clzA32) r (by decide) (by decide) (by decide) (by decide) rfl rfl rfl h
theorem clzG64 (f : G64) : Statement (.clzG64 f) := 
  fun h _ r => decode_G64 (k := .clzG64) r (by decide) (by decide) (by decide) (by decide) (by decide) rfl rfl rfl h
theorem ctzA32 (f : A32) : Statement (.ctzA32 f) := 
  fun h _ r => decode_A32 (k := .ctzA32) r (by decide) (by decide) (by decide) (by decide) rfl rfl rfl h
theorem ctzG64 (f : G64) : Statement (.ctzG64 f) := 
  fun h _ r => decode_G64 (k := .ctzG64) r (by decide) (by decide) (by decide) (by decide) (by decide) rfl rfl rfl h
theorem popcA32 (f : A32) : Statement (.popcA32 f) := 
  fun h _ r => decode_A32 (k := .popcA32) r (by decide) (by decide) (by decide) (by decide) rfl rfl rfl h
theorem popcG64 (f : G64) : Statement (.popcG64 f) := 
  fun h _ r => decode_G64 (k := .popcG64) r (by decide) (by decide) (by decide) (by decide) (by decide) rfl rfl rfl h
theorem absA32 (f : A32) : Statement (.absA32 f) := 
  fun h _ r => decode_A32 (k := .absA32) r (by decide) (by decide) (by decide) (by decide) rfl rfl rfl h
theorem absG64 (f : G64) : Statement (.absG64 f) := 
  fun h _ r => decode_G64 (k := .absG64) r (by decide) (by decide) (by decide) (by decide) (by decide) rfl rfl rfl h
theorem movA32 (f : A32) : Statement (.movA32 f) := 
  fun h _ r => decode_A32 (k := .movA32) r (by decide) (by decide) (by decide) (by decide) rfl rfl rfl h
theorem movG64 (f : G64) : Statement (.movG64 f) := 
  fun h _ r => decode_G64 (k := .movG64) r (by decide) (by decide) (by decide) (by decide) (by decide) rfl rfl rfl h
theorem sext (f : G64) : Statement (.sext f) := 
  fun h _ r => decode_G64 (k := .sext) r (by decide) (by decide) (by decide) (by decide) (by decide) rfl rfl rfl h
theorem zext (f : G64) : Statement (.zext f) := 
  fun h _ r => decode_G64 (k := .zext) r (by decide) (by decide) (by decide) (by decide) (by decide) rfl rfl rfl h
theorem movlI32 (f : I32) : Statement (.movlI32 f) := 
  fun h _ r => decode_I32 (k := .movlI32) r (by decide) (by decide) (by decide) (by decide) rfl h
theorem movlI64 (f : I64) : Statement (.movlI64 f) := 
  fun h _ r => decode_I64 (k := .movlI64) r (by decide) (by decide) (by decide) (by decide) (by decide) rfl h
theorem movlW96 (f : W96) : Statement (.movlW96 f) := 
  fun h _ r => decode_W96 (k := .movlW96) r (by decide) rfl h
theorem leaI64 (f : I64) : Statement (.leaI64 f) := 
  fun h _ r => decode_I64 (k := .leaI64) r (by decide) (by decide) (by decide) (by decide) (by decide) rfl h
theorem leaW96 (f : W96) : Statement (.leaW96 f) := 
  fun h _ r => decode_W96 (k := .leaW96) r (by decide) rfl h
theorem bfx (f : G64) : Statement (.bfx f) := 
  fun h _ r => decode_G64 (k := .bfx) r (by decide) (by decide) (by decide) (by decide) (by decide) rfl rfl rfl h
theorem bfi (f : G64) : Statement (.bfi f) := 
  fun h _ r => decode_G64 (k := .bfi) r (by decide) (by decide) (by decide) (by decide) (by decide) rfl rfl rfl h
theorem cmpA32 (cond : BitVec 6) (f : A32) : Statement (.cmpA32 cond f) := fun h _ r => decode_cmpA32 r h
theorem cmpG64 (cond : BitVec 6) (f : G64) : Statement (.cmpG64 cond f) := fun h _ r => decode_cmpG64 r h
theorem sel (f : G64) : Statement (.sel f) := 
  fun h _ r => decode_G64 (k := .sel) r (by decide) (by decide) (by decide) (by decide) (by decide) rfl rfl rfl h
theorem pandA32 (f : A32) : Statement (.pandA32 f) := 
  fun h _ r => decode_A32 (k := .pandA32) r (by decide) (by decide) (by decide) (by decide) rfl rfl rfl h
theorem pandG64 (f : G64) : Statement (.pandG64 f) := 
  fun h _ r => decode_G64 (k := .pandG64) r (by decide) (by decide) (by decide) (by decide) (by decide) rfl rfl rfl h
theorem porA32 (f : A32) : Statement (.porA32 f) := 
  fun h _ r => decode_A32 (k := .porA32) r (by decide) (by decide) (by decide) (by decide) rfl rfl rfl h
theorem porG64 (f : G64) : Statement (.porG64 f) := 
  fun h _ r => decode_G64 (k := .porG64) r (by decide) (by decide) (by decide) (by decide) (by decide) rfl rfl rfl h
theorem pxorA32 (f : A32) : Statement (.pxorA32 f) := 
  fun h _ r => decode_A32 (k := .pxorA32) r (by decide) (by decide) (by decide) (by decide) rfl rfl rfl h
theorem pxorG64 (f : G64) : Statement (.pxorG64 f) := 
  fun h _ r => decode_G64 (k := .pxorG64) r (by decide) (by decide) (by decide) (by decide) (by decide) rfl rfl rfl h
theorem pnotA32 (f : A32) : Statement (.pnotA32 f) := 
  fun h _ r => decode_A32 (k := .pnotA32) r (by decide) (by decide) (by decide) (by decide) rfl rfl rfl h
theorem pnotG64 (f : G64) : Statement (.pnotG64 f) := 
  fun h _ r => decode_G64 (k := .pnotG64) r (by decide) (by decide) (by decide) (by decide) (by decide) rfl rfl rfl h
theorem sfadd (f : G64) : Statement (.sfadd f) := 
  fun h _ r => decode_G64 (k := .sfadd) r (by decide) (by decide) (by decide) (by decide) (by decide) rfl rfl rfl h
theorem sfmul (f : G64) : Statement (.sfmul f) := 
  fun h _ r => decode_G64 (k := .sfmul) r (by decide) (by decide) (by decide) (by decide) (by decide) rfl rfl rfl h
theorem sfma (f : G64) : Statement (.sfma f) := 
  fun h _ r => decode_G64 (k := .sfma) r (by decide) (by decide) (by decide) (by decide) (by decide) rfl rfl rfl h
theorem sfcmp (cond : BitVec 6) (f : G64) : Statement (.sfcmp cond f) := fun h _ r => decode_sfcmp r h
theorem sfcvt (f : G64) : Statement (.sfcvt f) := 
  fun h _ r => decode_G64 (k := .sfcvt) r (by decide) (by decide) (by decide) (by decide) (by decide) rfl rfl rfl h
theorem tdef (f : G64) : Statement (.tdef f) := 
  fun h _ r => decode_G64 (k := .tdef) r (by decide) (by decide) (by decide) (by decide) (by decide) rfl rfl rfl h
theorem tset (f : G64) : Statement (.tset f) := 
  fun h _ r => decode_G64 (k := .tset) r (by decide) (by decide) (by decide) (by decide) (by decide) rfl rfl rfl h
theorem tget (f : G64) : Statement (.tget f) := 
  fun h _ r => decode_G64 (k := .tget) r (by decide) (by decide) (by decide) (by decide) (by decide) rfl rfl rfl h
theorem beadq (f : G64) : Statement (.beadq f) := 
  fun h _ r => decode_G64 (k := .beadq) r (by decide) (by decide) (by decide) (by decide) (by decide) rfl rfl rfl h
theorem brJ32 (f : J32) : Statement (.brJ32 f) := 
  fun h _ r => decode_J32 (k := .brJ32) r (by decide) (by decide) (by decide) (by decide) rfl rfl h
theorem brI64 (f : I64) : Statement (.brI64 f) := 
  fun h _ r => decode_I64 (k := .brI64) r (by decide) (by decide) (by decide) (by decide) (by decide) rfl h
theorem brW96 (f : W96) : Statement (.brW96 f) := 
  fun h _ r => decode_W96 (k := .brW96) r (by decide) rfl h
theorem brcJ32 (f : J32) : Statement (.brcJ32 f) := 
  fun h _ r => decode_J32 (k := .brcJ32) r (by decide) (by decide) (by decide) (by decide) rfl rfl h
theorem brcI64 (f : I64) : Statement (.brcI64 f) := 
  fun h _ r => decode_I64 (k := .brcI64) r (by decide) (by decide) (by decide) (by decide) (by decide) rfl h
theorem brcW96 (f : W96) : Statement (.brcW96 f) := 
  fun h _ r => decode_W96 (k := .brcW96) r (by decide) rfl h
theorem callJ32 (f : J32) : Statement (.callJ32 f) := 
  fun h _ r => decode_J32 (k := .callJ32) r (by decide) (by decide) (by decide) (by decide) rfl rfl h
theorem callI64 (f : I64) : Statement (.callI64 f) := 
  fun h _ r => decode_I64 (k := .callI64) r (by decide) (by decide) (by decide) (by decide) (by decide) rfl h
theorem callW96 (f : W96) : Statement (.callW96 f) := 
  fun h _ r => decode_W96 (k := .callW96) r (by decide) rfl h
theorem bri (f : G64) : Statement (.bri f) := 
  fun h _ r => decode_G64 (k := .bri) r (by decide) (by decide) (by decide) (by decide) (by decide) rfl rfl rfl h
theorem calli (f : G64) : Statement (.calli f) := 
  fun h _ r => decode_G64 (k := .calli) r (by decide) (by decide) (by decide) (by decide) (by decide) rfl rfl rfl h
theorem retG64 (f : G64) : Statement (.retG64 f) := 
  fun h _ r => decode_G64 (k := .retG64) r (by decide) (by decide) (by decide) (by decide) (by decide) rfl rfl rfl h
theorem loopI64 (f : I64) : Statement (.loopI64 f) := 
  fun h _ r => decode_I64 (k := .loopI64) r (by decide) (by decide) (by decide) (by decide) (by decide) rfl h
theorem loopW96 (f : W96) : Statement (.loopW96 f) := 
  fun h _ r => decode_W96 (k := .loopW96) r (by decide) rfl h
theorem loopoI64 (f : I64) : Statement (.loopoI64 f) := 
  fun h _ r => decode_I64 (k := .loopoI64) r (by decide) (by decide) (by decide) (by decide) (by decide) rfl h
theorem loopoW96 (f : W96) : Statement (.loopoW96 f) := 
  fun h _ r => decode_W96 (k := .loopoW96) r (by decide) rfl h
theorem breakc (f : G64) : Statement (.breakc f) := 
  fun h _ r => decode_G64 (k := .breakc) r (by decide) (by decide) (by decide) (by decide) (by decide) rfl rfl rfl h
theorem ldI32 (f : I32) : Statement (.ldI32 f) := 
  fun h _ r => decode_I32 (k := .ldI32) r (by decide) (by decide) (by decide) (by decide) rfl h
theorem ldI64 (f : I64) : Statement (.ldI64 f) := 
  fun h _ r => decode_I64 (k := .ldI64) r (by decide) (by decide) (by decide) (by decide) (by decide) rfl h
theorem ldW96 (f : W96) : Statement (.ldW96 f) := 
  fun h _ r => decode_W96 (k := .ldW96) r (by decide) rfl h
theorem stI32 (f : I32) : Statement (.stI32 f) := 
  fun h _ r => decode_I32 (k := .stI32) r (by decide) (by decide) (by decide) (by decide) rfl h
theorem stI64 (f : I64) : Statement (.stI64 f) := 
  fun h _ r => decode_I64 (k := .stI64) r (by decide) (by decide) (by decide) (by decide) (by decide) rfl h
theorem stW96 (f : W96) : Statement (.stW96 f) := 
  fun h _ r => decode_W96 (k := .stW96) r (by decide) rfl h
theorem ldx (f : G64) : Statement (.ldx f) := 
  fun h _ r => decode_G64 (k := .ldx) r (by decide) (by decide) (by decide) (by decide) (by decide) rfl rfl rfl h
theorem stx (f : G64) : Statement (.stx f) := 
  fun h _ r => decode_G64 (k := .stx) r (by decide) (by decide) (by decide) (by decide) (by decide) rfl rfl rfl h
theorem stntI64 (f : I64) : Statement (.stntI64 f) := 
  fun h _ r => decode_I64 (k := .stntI64) r (by decide) (by decide) (by decide) (by decide) (by decide) rfl h
theorem stntW96 (f : W96) : Statement (.stntW96 f) := 
  fun h _ r => decode_W96 (k := .stntW96) r (by decide) rfl h
theorem ldacqI64 (f : I64) : Statement (.ldacqI64 f) := 
  fun h _ r => decode_I64 (k := .ldacqI64) r (by decide) (by decide) (by decide) (by decide) (by decide) rfl h
theorem ldacqW96 (f : W96) : Statement (.ldacqW96 f) := 
  fun h _ r => decode_W96 (k := .ldacqW96) r (by decide) rfl h
theorem strelI64 (f : I64) : Statement (.strelI64 f) := 
  fun h _ r => decode_I64 (k := .strelI64) r (by decide) (by decide) (by decide) (by decide) (by decide) rfl h
theorem strelW96 (f : W96) : Statement (.strelW96 f) := 
  fun h _ r => decode_W96 (k := .strelW96) r (by decide) rfl h
theorem ldvI64 (f : I64) : Statement (.ldvI64 f) := 
  fun h _ r => decode_I64 (k := .ldvI64) r (by decide) (by decide) (by decide) (by decide) (by decide) rfl h
theorem ldvW96 (f : W96) : Statement (.ldvW96 f) := 
  fun h _ r => decode_W96 (k := .ldvW96) r (by decide) rfl h
theorem vred4 (f : G64) : Statement (.vred4 f) := 
  fun h _ r => decode_G64 (k := .vred4) r (by decide) (by decide) (by decide) (by decide) (by decide) rfl rfl rfl h
theorem hstart (f : I64) : Statement (.hstart f) := 
  fun h _ r => decode_I64 (k := .hstart) r (by decide) (by decide) (by decide) (by decide) (by decide) rfl h
theorem hwait (f : G64) : Statement (.hwait f) := 
  fun h _ r => decode_G64 (k := .hwait) r (by decide) (by decide) (by decide) (by decide) (by decide) rfl rfl rfl h
theorem launch (f : G64) : Statement (.launch f) := 
  fun h _ r => decode_G64 (k := .launch) r (by decide) (by decide) (by decide) (by decide) (by decide) rfl rfl rfl h
theorem tspawn (f : G64) : Statement (.tspawn f) := 
  fun h _ r => decode_G64 (k := .tspawn) r (by decide) (by decide) (by decide) (by decide) (by decide) rfl rfl rfl h
theorem tspawnw (f : G64) : Statement (.tspawnw f) := 
  fun h _ r => decode_G64 (k := .tspawnw) r (by decide) (by decide) (by decide) (by decide) (by decide) rfl rfl rfl h
theorem tjoin (f : G64) : Statement (.tjoin f) := 
  fun h _ r => decode_G64 (k := .tjoin) r (by decide) (by decide) (by decide) (by decide) (by decide) rfl rfl rfl h
theorem tdoneG64 (f : G64) : Statement (.tdoneG64 f) := 
  fun h _ r => decode_G64 (k := .tdoneG64) r (by decide) (by decide) (by decide) (by decide) (by decide) rfl rfl rfl h
theorem tcancelScope (f : G64) : Statement (.tcancelScope f) := fun h _ r => decode_tcancelScope r h
theorem tcancelTask (f : G64) : Statement (.tcancelTask f) := fun h _ r => decode_tcancelTask r h
theorem wdq (f : G64) : Statement (.wdq f) := 
  fun h _ r => decode_G64 (k := .wdq) r (by decide) (by decide) (by decide) (by decide) (by decide) rfl rfl rfl h
theorem fsopen (f : G64) : Statement (.fsopen f) := 
  fun h _ r => decode_G64 (k := .fsopen) r (by decide) (by decide) (by decide) (by decide) (by decide) rfl rfl rfl h
theorem fsclose (f : G64) : Statement (.fsclose f) := 
  fun h _ r => decode_G64 (k := .fsclose) r (by decide) (by decide) (by decide) (by decide) (by decide) rfl rfl rfl h
theorem fswait (f : G64) : Statement (.fswait f) := 
  fun h _ r => decode_G64 (k := .fswait) r (by decide) (by decide) (by decide) (by decide) (by decide) rfl rfl rfl h
theorem pfh (f : G64) : Statement (.pfh f) := 
  fun h _ r => decode_G64 (k := .pfh) r (by decide) (by decide) (by decide) (by decide) (by decide) rfl rfl rfl h
theorem place (f : G64) : Statement (.place f) := 
  fun h _ r => decode_G64 (k := .place) r (by decide) (by decide) (by decide) (by decide) (by decide) rfl rfl rfl h
theorem tierq (f : G64) : Statement (.tierq f) := 
  fun h _ r => decode_G64 (k := .tierq) r (by decide) (by decide) (by decide) (by decide) (by decide) rfl rfl rfl h
theorem cpy (f : G64) : Statement (.cpy f) := 
  fun h _ r => decode_G64 (k := .cpy) r (by decide) (by decide) (by decide) (by decide) (by decide) rfl rfl rfl h
theorem wpwait (f : G64) : Statement (.wpwait f) := 
  fun h _ r => decode_G64 (k := .wpwait) r (by decide) (by decide) (by decide) (by decide) (by decide) rfl rfl rfl h
theorem wprd (f : G64) : Statement (.wprd f) := 
  fun h _ r => decode_G64 (k := .wprd) r (by decide) (by decide) (by decide) (by decide) (by decide) rfl rfl rfl h
theorem gather (f : G64) : Statement (.gather f) := 
  fun h _ r => decode_G64 (k := .gather) r (by decide) (by decide) (by decide) (by decide) (by decide) rfl rfl rfl h
theorem scatter (f : G64) : Statement (.scatter f) := 
  fun h _ r => decode_G64 (k := .scatter) r (by decide) (by decide) (by decide) (by decide) (by decide) rfl rfl rfl h
theorem evwait (f : G64) : Statement (.evwait f) := 
  fun h _ r => decode_G64 (k := .evwait) r (by decide) (by decide) (by decide) (by decide) (by decide) rfl rfl rfl h
theorem tierin (f : G64) : Statement (.tierin f) := 
  fun h _ r => decode_G64 (k := .tierin) r (by decide) (by decide) (by decide) (by decide) (by decide) rfl rfl rfl h
theorem fence (f : G64) : Statement (.fence f) := 
  fun h _ r => decode_G64 (k := .fence) r (by decide) (by decide) (by decide) (by decide) (by decide) rfl rfl rfl h
theorem xfence (f : G64) : Statement (.xfence f) := 
  fun h _ r => decode_G64 (k := .xfence) r (by decide) (by decide) (by decide) (by decide) (by decide) rfl rfl rfl h
theorem ntdrain (f : G64) : Statement (.ntdrain f) := 
  fun h _ r => decode_G64 (k := .ntdrain) r (by decide) (by decide) (by decide) (by decide) (by decide) rfl rfl rfl h
theorem aadd (f : G64) : Statement (.aadd f) := 
  fun h _ r => decode_G64 (k := .aadd) r (by decide) (by decide) (by decide) (by decide) (by decide) rfl rfl rfl h
theorem afadd (f : G64) : Statement (.afadd f) := 
  fun h _ r => decode_G64 (k := .afadd) r (by decide) (by decide) (by decide) (by decide) (by decide) rfl rfl rfl h
theorem amin (f : G64) : Statement (.amin f) := 
  fun h _ r => decode_G64 (k := .amin) r (by decide) (by decide) (by decide) (by decide) (by decide) rfl rfl rfl h
theorem amax (f : G64) : Statement (.amax f) := 
  fun h _ r => decode_G64 (k := .amax) r (by decide) (by decide) (by decide) (by decide) (by decide) rfl rfl rfl h
theorem aand (f : G64) : Statement (.aand f) := 
  fun h _ r => decode_G64 (k := .aand) r (by decide) (by decide) (by decide) (by decide) (by decide) rfl rfl rfl h
theorem aor (f : G64) : Statement (.aor f) := 
  fun h _ r => decode_G64 (k := .aor) r (by decide) (by decide) (by decide) (by decide) (by decide) rfl rfl rfl h
theorem axor (f : G64) : Statement (.axor f) := 
  fun h _ r => decode_G64 (k := .axor) r (by decide) (by decide) (by decide) (by decide) (by decide) rfl rfl rfl h
theorem axchg (f : G64) : Statement (.axchg f) := 
  fun h _ r => decode_G64 (k := .axchg) r (by decide) (by decide) (by decide) (by decide) (by decide) rfl rfl rfl h
theorem acas (f : G64) : Statement (.acas f) := 
  fun h _ r => decode_G64 (k := .acas) r (by decide) (by decide) (by decide) (by decide) (by decide) rfl rfl rfl h
theorem barmJoin (f : G64) : Statement (.barmJoin f) := fun h _ r => decode_barmJoin r h
theorem barmLeave (f : G64) : Statement (.barmLeave f) := fun h _ r => decode_barmLeave r h
theorem bwait (f : G64) : Statement (.bwait f) := 
  fun h _ r => decode_G64 (k := .bwait) r (by decide) (by decide) (by decide) (by decide) (by decide) rfl rfl rfl h
theorem bsig (f : G64) : Statement (.bsig f) := 
  fun h _ r => decode_G64 (k := .bsig) r (by decide) (by decide) (by decide) (by decide) (by decide) rfl rfl rfl h
theorem bqry (f : G64) : Statement (.bqry f) := 
  fun h _ r => decode_G64 (k := .bqry) r (by decide) (by decide) (by decide) (by decide) (by decide) rfl rfl rfl h
theorem xopen (f : G64) : Statement (.xopen f) := 
  fun h _ r => decode_G64 (k := .xopen) r (by decide) (by decide) (by decide) (by decide) (by decide) rfl rfl rfl h
theorem xsend (f : G64) : Statement (.xsend f) := 
  fun h _ r => decode_G64 (k := .xsend) r (by decide) (by decide) (by decide) (by decide) (by decide) rfl rfl rfl h
theorem xrecv (f : G64) : Statement (.xrecv f) := 
  fun h _ r => decode_G64 (k := .xrecv) r (by decide) (by decide) (by decide) (by decide) (by decide) rfl rfl rfl h
theorem xclose (f : G64) : Statement (.xclose f) := 
  fun h _ r => decode_G64 (k := .xclose) r (by decide) (by decide) (by decide) (by decide) (by decide) rfl rfl rfl h
theorem vadd (f : G64) : Statement (.vadd f) := 
  fun h _ r => decode_G64 (k := .vadd) r (by decide) (by decide) (by decide) (by decide) (by decide) rfl rfl rfl h
theorem vsub (f : G64) : Statement (.vsub f) := 
  fun h _ r => decode_G64 (k := .vsub) r (by decide) (by decide) (by decide) (by decide) (by decide) rfl rfl rfl h
theorem vmul (f : G64) : Statement (.vmul f) := 
  fun h _ r => decode_G64 (k := .vmul) r (by decide) (by decide) (by decide) (by decide) (by decide) rfl rfl rfl h
theorem vfma (f : G64) : Statement (.vfma f) := 
  fun h _ r => decode_G64 (k := .vfma) r (by decide) (by decide) (by decide) (by decide) (by decide) rfl rfl rfl h
theorem vmin (f : G64) : Statement (.vmin f) := 
  fun h _ r => decode_G64 (k := .vmin) r (by decide) (by decide) (by decide) (by decide) (by decide) rfl rfl rfl h
theorem vmax (f : G64) : Statement (.vmax f) := 
  fun h _ r => decode_G64 (k := .vmax) r (by decide) (by decide) (by decide) (by decide) (by decide) rfl rfl rfl h
theorem vabs (f : G64) : Statement (.vabs f) := 
  fun h _ r => decode_G64 (k := .vabs) r (by decide) (by decide) (by decide) (by decide) (by decide) rfl rfl rfl h
theorem vneg (f : G64) : Statement (.vneg f) := 
  fun h _ r => decode_G64 (k := .vneg) r (by decide) (by decide) (by decide) (by decide) (by decide) rfl rfl rfl h
theorem vcpy (f : G64) : Statement (.vcpy f) := 
  fun h _ r => decode_G64 (k := .vcpy) r (by decide) (by decide) (by decide) (by decide) (by decide) rfl rfl rfl h
theorem vcvt (f : G64) : Statement (.vcvt f) := 
  fun h _ r => decode_G64 (k := .vcvt) r (by decide) (by decide) (by decide) (by decide) (by decide) rfl rfl rfl h
theorem vsrnd (f : G64) : Statement (.vsrnd f) := 
  fun h _ r => decode_G64 (k := .vsrnd) r (by decide) (by decide) (by decide) (by decide) (by decide) rfl rfl rfl h
theorem vrcp (f : G64) : Statement (.vrcp f) := 
  fun h _ r => decode_G64 (k := .vrcp) r (by decide) (by decide) (by decide) (by decide) (by decide) rfl rfl rfl h
theorem vrsq (f : G64) : Statement (.vrsq f) := 
  fun h _ r => decode_G64 (k := .vrsq) r (by decide) (by decide) (by decide) (by decide) (by decide) rfl rfl rfl h
theorem vsqrt (f : G64) : Statement (.vsqrt f) := 
  fun h _ r => decode_G64 (k := .vsqrt) r (by decide) (by decide) (by decide) (by decide) (by decide) rfl rfl rfl h
theorem vexp2 (f : G64) : Statement (.vexp2 f) := 
  fun h _ r => decode_G64 (k := .vexp2) r (by decide) (by decide) (by decide) (by decide) (by decide) rfl rfl rfl h
theorem vlog2 (f : G64) : Statement (.vlog2 f) := 
  fun h _ r => decode_G64 (k := .vlog2) r (by decide) (by decide) (by decide) (by decide) (by decide) rfl rfl rfl h
theorem vpwl (f : G64) : Statement (.vpwl f) := 
  fun h _ r => decode_G64 (k := .vpwl) r (by decide) (by decide) (by decide) (by decide) (by decide) rfl rfl rfl h
theorem vcmp (f : G64) : Statement (.vcmp f) := 
  fun h _ r => decode_G64 (k := .vcmp) r (by decide) (by decide) (by decide) (by decide) (by decide) rfl rfl rfl h
theorem vsel (f : G64) : Statement (.vsel f) := 
  fun h _ r => decode_G64 (k := .vsel) r (by decide) (by decide) (by decide) (by decide) (by decide) rfl rfl rfl h
theorem vand (f : G64) : Statement (.vand f) := 
  fun h _ r => decode_G64 (k := .vand) r (by decide) (by decide) (by decide) (by decide) (by decide) rfl rfl rfl h
theorem vor (f : G64) : Statement (.vor f) := 
  fun h _ r => decode_G64 (k := .vor) r (by decide) (by decide) (by decide) (by decide) (by decide) rfl rfl rfl h
theorem vxor (f : G64) : Statement (.vxor f) := 
  fun h _ r => decode_G64 (k := .vxor) r (by decide) (by decide) (by decide) (by decide) (by decide) rfl rfl rfl h
theorem vshl (f : G64) : Statement (.vshl f) := 
  fun h _ r => decode_G64 (k := .vshl) r (by decide) (by decide) (by decide) (by decide) (by decide) rfl rfl rfl h
theorem vshr (f : G64) : Statement (.vshr f) := 
  fun h _ r => decode_G64 (k := .vshr) r (by decide) (by decide) (by decide) (by decide) (by decide) rfl rfl rfl h
theorem vclamp (f : G64) : Statement (.vclamp f) := 
  fun h _ r => decode_G64 (k := .vclamp) r (by decide) (by decide) (by decide) (by decide) (by decide) rfl rfl rfl h
theorem vreds (f : G64) : Statement (.vreds f) := 
  fun h _ r => decode_G64 (k := .vreds) r (by decide) (by decide) (by decide) (by decide) (by decide) rfl rfl rfl h
theorem vredm (f : G64) : Statement (.vredm f) := 
  fun h _ r => decode_G64 (k := .vredm) r (by decide) (by decide) (by decide) (by decide) (by decide) rfl rfl rfl h
theorem vscan (f : G64) : Statement (.vscan f) := 
  fun h _ r => decode_G64 (k := .vscan) r (by decide) (by decide) (by decide) (by decide) (by decide) rfl rfl rfl h
theorem vbcast (f : G64) : Statement (.vbcast f) := 
  fun h _ r => decode_G64 (k := .vbcast) r (by decide) (by decide) (by decide) (by decide) (by decide) rfl rfl rfl h
theorem viota (f : G64) : Statement (.viota f) := 
  fun h _ r => decode_G64 (k := .viota) r (by decide) (by decide) (by decide) (by decide) (by decide) rfl rfl rfl h
theorem vdot (f : G64) : Statement (.vdot f) := 
  fun h _ r => decode_G64 (k := .vdot) r (by decide) (by decide) (by decide) (by decide) (by decide) rfl rfl rfl h
theorem vscale (f : G64) : Statement (.vscale f) := 
  fun h _ r => decode_G64 (k := .vscale) r (by decide) (by decide) (by decide) (by decide) (by decide) rfl rfl rfl h
theorem mfill (f : G64) : Statement (.mfill f) := 
  fun h _ r => decode_G64 (k := .mfill) r (by decide) (by decide) (by decide) (by decide) (by decide) rfl rfl rfl h
theorem mpat (f : G64) : Statement (.mpat f) := 
  fun h _ r => decode_G64 (k := .mpat) r (by decide) (by decide) (by decide) (by decide) (by decide) rfl rfl rfl h
theorem mzero (f : G64) : Statement (.mzero f) := 
  fun h _ r => decode_G64 (k := .mzero) r (by decide) (by decide) (by decide) (by decide) (by decide) rfl rfl rfl h
theorem mma (f : G64) : Statement (.mma f) := 
  fun h _ r => decode_G64 (k := .mma) r (by decide) (by decide) (by decide) (by decide) (by decide) rfl rfl rfl h
theorem mdrain (f : G64) : Statement (.mdrain f) := 
  fun h _ r => decode_G64 (k := .mdrain) r (by decide) (by decide) (by decide) (by decide) (by decide) rfl rfl rfl h
theorem mloadb (f : G64) : Statement (.mloadb f) := 
  fun h _ r => decode_G64 (k := .mloadb) r (by decide) (by decide) (by decide) (by decide) (by decide) rfl rfl rfl h
theorem mscl (f : G64) : Statement (.mscl f) := 
  fun h _ r => decode_G64 (k := .mscl) r (by decide) (by decide) (by decide) (by decide) (by decide) rfl rfl rfl h
theorem mwait (f : G64) : Statement (.mwait f) := 
  fun h _ r => decode_G64 (k := .mwait) r (by decide) (by decide) (by decide) (by decide) (by decide) rfl rfl rfl h
theorem scout (f : G64) : Statement (.scout f) := 
  fun h _ r => decode_G64 (k := .scout) r (by decide) (by decide) (by decide) (by decide) (by decide) rfl rfl rfl h
theorem ksel (f : G64) : Statement (.ksel f) := 
  fun h _ r => decode_G64 (k := .ksel) r (by decide) (by decide) (by decide) (by decide) (by decide) rfl rfl rfl h
theorem kand (f : G64) : Statement (.kand f) := 
  fun h _ r => decode_G64 (k := .kand) r (by decide) (by decide) (by decide) (by decide) (by decide) rfl rfl rfl h
theorem kor (f : G64) : Statement (.kor f) := 
  fun h _ r => decode_G64 (k := .kor) r (by decide) (by decide) (by decide) (by decide) (by decide) rfl rfl rfl h
theorem knot (f : G64) : Statement (.knot f) := 
  fun h _ r => decode_G64 (k := .knot) r (by decide) (by decide) (by decide) (by decide) (by decide) rfl rfl rfl h
theorem kpop (f : G64) : Statement (.kpop f) := 
  fun h _ r => decode_G64 (k := .kpop) r (by decide) (by decide) (by decide) (by decide) (by decide) rfl rfl rfl h
theorem mmak (f : G64) : Statement (.mmak f) := 
  fun h _ r => decode_G64 (k := .mmak) r (by decide) (by decide) (by decide) (by decide) (by decide) rfl rfl rfl h
theorem trapI64 (f : I64) : Statement (.trapI64 f) := 
  fun h _ r => decode_I64 (k := .trapI64) r (by decide) (by decide) (by decide) (by decide) (by decide) rfl h
theorem trapW96 (f : W96) : Statement (.trapW96 f) := 
  fun h _ r => decode_W96 (k := .trapW96) r (by decide) rfl h
theorem bkpt (f : G64) : Statement (.bkpt f) := 
  fun h _ r => decode_G64 (k := .bkpt) r (by decide) (by decide) (by decide) (by decide) (by decide) rfl rfl rfl h
theorem eret (f : G64) : Statement (.eret f) := 
  fun h _ r => decode_G64 (k := .eret) r (by decide) (by decide) (by decide) (by decide) (by decide) rfl rfl rfl h
theorem halt (f : G64) : Statement (.halt f) := 
  fun h _ r => decode_G64 (k := .halt) r (by decide) (by decide) (by decide) (by decide) (by decide) rfl rfl rfl h
theorem sysrd (f : SysForm) : Statement (.sysrd f) := 
  fun h _ r => decode_sys (k := .sysrd) r (by decide) (by decide) (by decide) (by decide) (by decide) rfl rfl rfl (sysrd_fits h) h
theorem syswr (f : SysForm) : Statement (.syswr f) := 
  fun h _ r => decode_sys (k := .syswr) r (by decide) (by decide) (by decide) (by decide) (by decide) rfl rfl rfl (syswr_fits h) h
theorem nop : Statement (.nop) := fun _ _ _ => rfl
theorem hint64 : Statement (.hint64) := fun _ _ _ => rfl
theorem hint96 : Statement (.hint96) := fun _ _ _ => rfl
theorem retA32 : Statement (.retA32) := fun _ _ _ => rfl
theorem iretA32 : Statement (.iretA32) := fun _ _ _ => rfl
theorem iretG64 : Statement (.iretG64) := fun _ _ _ => rfl
theorem hexitA32 : Statement (.hexitA32) := fun _ _ _ => rfl
theorem hexitG64 : Statement (.hexitG64) := fun _ _ _ => rfl
theorem tdoneA32 : Statement (.tdoneA32) := fun _ _ _ => rfl
theorem reservedOpcodeTrap : Statement (.reservedOpcodeTrap) := fun _ _ _ => rfl
theorem asyncFaultTaken : Statement (.asyncFaultTaken) := fun _ h => absurd rfl h
theorem taskRetire : Statement (.taskRetire) := fun _ h => absurd rfl h
theorem launchdoor : Statement (.launchdoor) := fun _ h => absurd rfl h
theorem dispatch : Statement (.dispatch) := fun _ h => absurd rfl h
theorem phasedDispatch : Statement (.phasedDispatch) := fun _ h => absurd rfl h
theorem arrival : Statement (.arrival) := fun _ h => absurd rfl h
theorem withdrawal : Statement (.withdrawal) := fun _ h => absurd rfl h
theorem memberLeave : Statement (.memberLeave) := fun _ h => absurd rfl h
theorem pagedone : Statement (.pagedone) := fun _ h => absurd rfl h
theorem pageInComplete : Statement (.pageInComplete) := fun _ h => absurd rfl h
theorem pageOutStart : Statement (.pageOutStart) := fun _ h => absurd rfl h
theorem pageOutCopyDone : Statement (.pageOutCopyDone) := fun _ h => absurd rfl h
theorem migrationRequest : Statement (.migrationRequest) := fun _ h => absurd rfl h
theorem migrationDrained : Statement (.migrationDrained) := fun _ h => absurd rfl h
theorem migrationStreamDone : Statement (.migrationStreamDone) := fun _ h => absurd rfl h
theorem migrationShootdownDone : Statement (.migrationShootdownDone) := fun _ h => absurd rfl h
theorem settleEnd : Statement (.settleEnd) := fun _ h => absurd rfl h
theorem forwardedRequest : Statement (.forwardedRequest) := fun _ h => absurd rfl h
theorem redirectNotice : Statement (.redirectNotice) := fun _ h => absurd rfl h
theorem homeAccess : Statement (.homeAccess) := fun _ h => absurd rfl h
theorem atomicEngineRequest : Statement (.atomicEngineRequest) := fun _ h => absurd rfl h
theorem regionNotice : Statement (.regionNotice) := fun _ h => absurd rfl h
theorem recordClear : Statement (.recordClear) := fun _ h => absurd rfl h
theorem shootdown : Statement (.shootdown) := fun _ h => absurd rfl h
theorem shootdownComplete : Statement (.shootdownComplete) := fun _ h => absurd rfl h
theorem preempt : Statement (.preempt) := fun _ h => absurd rfl h
theorem preemptSaveComplete : Statement (.preemptSaveComplete) := fun _ h => absurd rfl h
theorem mvuEntryStart : Statement (.mvuEntryStart) := fun _ h => absurd rfl h
theorem arbiterDecision : Statement (.arbiterDecision) := fun _ h => absurd rfl h
theorem mmaDecisionPoint : Statement (.mmaDecisionPoint) := fun _ h => absurd rfl h
theorem chunkPromotion : Statement (.chunkPromotion) := fun _ h => absurd rfl h
theorem mvuEntryRetire : Statement (.mvuEntryRetire) := fun _ h => absurd rfl h
theorem copyStart : Statement (.copyStart) := fun _ h => absurd rfl h
theorem copyElementDelivered : Statement (.copyElementDelivered) := fun _ h => absurd rfl h
theorem indirectChunk : Statement (.indirectChunk) := fun _ h => absurd rfl h
theorem iterationStart : Statement (.iterationStart) := fun _ h => absurd rfl h
theorem iterationRetire : Statement (.iterationRetire) := fun _ h => absurd rfl h
theorem barrierRelease : Statement (.barrierRelease) := fun _ h => absurd rfl h
theorem xopenArrive : Statement (.xopenArrive) := fun _ h => absurd rfl h
theorem xsendTransmit : Statement (.xsendTransmit) := fun _ h => absurd rfl h
theorem exchangeArrival : Statement (.exchangeArrival) := fun _ h => absurd rfl h
theorem xrecvDeliver : Statement (.xrecvDeliver) := fun _ h => absurd rfl h
theorem xcloseComplete : Statement (.xcloseComplete) := fun _ h => absurd rfl h
theorem windowEndDiscard : Statement (.windowEndDiscard) := fun _ h => absurd rfl h
theorem sampleTick : Statement (.sampleTick) := fun _ h => absurd rfl h
theorem scrub : Statement (.scrub) := fun _ h => absurd rfl h
theorem eccError : Statement (.eccError) := fun _ h => absurd rfl h
theorem healthUpdate : Statement (.healthUpdate) := fun _ h => absurd rfl h
theorem powerStepDown : Statement (.powerStepDown) := fun _ h => absurd rfl h
theorem powerStepUp : Statement (.powerStepUp) := fun _ h => absurd rfl h
theorem powerGood : Statement (.powerGood) := fun _ h => absurd rfl h
theorem romImageCheck : Statement (.romImageCheck) := fun _ h => absurd rfl h
theorem firmwareBringUp : Statement (.firmwareBringUp) := fun _ h => absurd rfl h
theorem moduleReset : Statement (.moduleReset) := fun _ h => absurd rfl h
theorem attest : Statement (.attest) := fun _ h => absurd rfl h
theorem attestComplete : Statement (.attestComplete) := fun _ h => absurd rfl h
theorem scopefree : Statement (.scopefree) := fun _ h => absurd rfl h
theorem recfree : Statement (.recfree) := fun _ h => absurd rfl h
theorem queueEnable : Statement (.queueEnable) := fun _ h => absurd rfl h
theorem queueDisable : Statement (.queueDisable) := fun _ h => absurd rfl h
theorem partitionEnable : Statement (.partitionEnable) := fun _ h => absurd rfl h
theorem partitionDisable : Statement (.partitionDisable) := fun _ h => absurd rfl h
theorem partitionDrained : Statement (.partitionDrained) := fun _ h => absurd rfl h
theorem domainValidSet : Statement (.domainValidSet) := fun _ h => absurd rfl h
theorem domainValidClear : Statement (.domainValidClear) := fun _ h => absurd rfl h
theorem sampleEnable : Statement (.sampleEnable) := fun _ h => absurd rfl h
theorem rpheadWrite : Statement (.rpheadWrite) := fun _ h => absurd rfl h
theorem errheadWrite : Statement (.errheadWrite) := fun _ h => absurd rfl h
theorem modidWrite : Statement (.modidWrite) := fun _ h => absurd rfl h
theorem registerWrite : Statement (.registerWrite) := fun _ h => absurd rfl h
theorem remoteRequest : Statement (.remoteRequest) := fun _ h => absurd rfl h
theorem flitResend : Statement (.flitResend) := fun _ h => absurd rfl h
theorem linkFail : Statement (.linkFail) := fun _ h => absurd rfl h
theorem dmaRequest : Statement (.dmaRequest) := fun _ h => absurd rfl h
theorem cxlPortFail : Statement (.cxlPortFail) := fun _ h => absurd rfl h
theorem thaquetTranslation : Statement (.thaquetTranslation) := fun _ h => absurd rfl h
theorem bypass : Statement (.bypass) := fun _ h => absurd rfl h
theorem idcode : Statement (.idcode) := fun _ h => absurd rfl h
theorem samplePreload : Statement (.samplePreload) := fun _ h => absurd rfl h
theorem extest : Statement (.extest) := fun _ h => absurd rfl h
theorem bootstat : Statement (.bootstat) := fun _ h => absurd rfl h
theorem powerOff : Statement (.powerOff) := fun _ h => absurd rfl h
theorem dynamicCapacity : Statement (.dynamicCapacity) := fun _ h => absurd rfl h
theorem epochEnd : Statement (.epochEnd) := fun _ h => absurd rfl h

end Sys2Proof.Laws.RoundTrip
end

