-- ==== Sys2Proof/Laws/Shared.lean ====
section
/-! SUPPORT. What shared operations can do, each said once: marks in the hot-line stores, what contexts learn of each other, the
memory that a quantum reads, and error records. -/

namespace Sys2Proof.Machine

/-! Operations that change the hot-line stores and nothing else (R383, R455). -/

theorem State.touchLine_frame (s : State) (line : Nat) : ∃ h, s.touchLine line = { s with hot := h } := ⟨_, rfl⟩
theorem State.soil_frame (s : State) (addr : Nat) : ∃ h, s.soil addr = { s with hot := h } := ⟨_, rfl⟩
theorem State.claimLine_frame (s : State) (home line : Nat) : ∃ h, s.claimLine home line = { s with hot := h } := ⟨_, rfl⟩
theorem State.useLine_frame (s : State) (home line : Nat) (via : Option Nat) : ∃ h, s.useLine home line via = { s with hot := h } := by
  obtain ⟨h, e⟩ := s.claimLine_frame home line
  unfold State.useLine
  rw [e]
  exact ⟨_, rfl⟩

/-! Operations that change what is known of a parent's accesses and nothing else (R361). -/

theorem State.unlearn_frame (s : State) (hit : Knower → Bool) : ∃ b, s.unlearn hit = { s with before := b } := by
  unfold State.unlearn
  split
  · exact ⟨s.before, rfl⟩
  · exact ⟨_, rfl⟩
theorem State.overwrite_frame (s : State) (sp : Space) (a n : Nat) : ∃ b, s.overwrite sp a n = { s with before := b } :=
  s.unlearn_frame _
theorem State.teach_frame (s : State) (src : Earlier → Bool) (dst : List Knower) : ∃ b, s.teach src dst = { s with before := b } := by
  unfold State.teach
  split
  · exact ⟨s.before, rfl⟩
  · exact ⟨_, rfl⟩
theorem State.tell_frame (s : State) (dst : List Knower) : ∃ b, s.tell dst = { s with before := b } := s.teach_frame _ _
theorem State.learn_frame (s : State) (src : List Knower) : ∃ b, s.learn src = { s with before := b } := s.teach_frame _ _

/-! The memory that a quantum of an entry reads (R299). -/

theorem overlay_wf {m : Mem} (h : m.wf = true) (bs : List (Nat × Byte)) : (overlay m bs).wf = true := Mem.wf_foldl_set bs _ _ h

theorem Entry.viewOf_frame (e : Entry) (at' : Nat → Bool) (i done : Nat) (s : State) (h : s.k.localMem.wf = true) :
    ∃ m, m.wf = true ∧ e.viewOf at' i done s = { s with k := { s.k with localMem := m } } := by
  unfold Entry.viewOf
  split
  · exact ⟨s.k.localMem, h, rfl⟩
  · exact ⟨_, overlay_wf h _, rfl⟩
theorem Entry.view_frame (e : Entry) (i done : Nat) (s : State) (h : s.k.localMem.wf = true) :
    ∃ m, m.wf = true ∧ e.view i done s = { s with k := { s.k with localMem := m } } := e.viewOf_frame _ i done s h
theorem Entry.viewAt_frame (e : Entry) (n done : Nat) (s : State) (h : s.k.localMem.wf = true) :
    ∃ m, m.wf = true ∧ e.viewAt n done s = { s with k := { s.k with localMem := m } } := e.viewOf_frame _ _ done s h

/-! Error records (R456). -/

/-- A record of the error ring changes its tail and its bytes, and nothing else. -/
theorem State.putErrorRecord_frame {s t : State} {r : BitVec 256} (h : s.putErrorRecord r = some t) :
    ∃ a, t = { s with
      mem := Mem.writeLE s.mem a 32 r.toNat
      mod := { s.mod with errtail := BitVec.ofNat 64 ((s.mod.errtail.toNat + 1) % 2 ^ 32) } } := by
  unfold State.putErrorRecord State.putMem at h
  extract_lets log at h
  split at h
  · cases h
  · split at h
    · cases h
    · simp only [Option.some.injEq] at h
      exact ⟨_, h.symm⟩

/-- A record that is written, counted or left waiting changes memory, module and counts, and nothing else. -/
theorem State.errorRecord_frame (s : State) (kind : Nat) (c : UnitClass) (n : Nat) (part : Option Nat) (addr : Nat) :
    ∃ m md co, s.errorRecord kind c n part addr = { s with mem := m, mod := md, corrected := co } := by
  unfold State.errorRecord
  generalize s.errorImage kind c n part addr = r
  dsimp only
  split
  · rename_i t h
    split at h
    · obtain ⟨a, e⟩ := State.putErrorRecord_frame h
      generalize Mem.writeLE s.mem a 32 r.toNat = x at e
      exact ⟨x, _, s.corrected, e⟩
    · cases h
  · split
    · exact ⟨s.mem, s.mod, _, rfl⟩
    · exact ⟨s.mem, _, s.corrected, rfl⟩

/-- An error of a unit without a class of its own: a free value is used, and a record made. -/
theorem State.plainError_frame (s : State) (n : Nat) (part : Option Nat) (addr : Nat) :
    ∃ m md co, s.plainError n part addr = { s with free := s.free + 1, mem := m, mod := md, corrected := co } :=
  State.errorRecord_frame s.freeValue.2 _ _ _ _ _

end Sys2Proof.Machine
end

