-- ==== Sys2Proof/Tests/Slice0.lean ====
section
/-! SUPPORT. Tests. Words that the manual writes out decode to their instructions; the well-formedness checks refuse; single
instructions do what the manual's examples say; and for each statement a state meets its hypotheses. -/

namespace Sys2Proof.Tests

open Machine Claims

set_option maxRecDepth 16000

/-! States. A task runs in the control context of core 0, at a page that may be executed; the next page may be written. -/

def page0 : TlbEntry := { base := 0, size := 65536, leaf := 0x82, leafAt := 0x500000, checked := false, part := 0 }
def page1 : TlbEntry := { base := 65536, size := 65536, leaf := 0x10102, leafAt := 0x500008, checked := false, part := 0 }
def base : State :=
  { State.reset with
    ctx := { live := true, pc := 0x1000 }
    k := { task := some {}, trapvec := 0x2000 }
    hw := { tlb := [page0, page1] } }
def reg (s : State) (n : Nat) (v : Word) : State := { s with ctx := { s.ctx with regs := s.ctx.regs.setIfInBounds n v } }
/-- A command stands before the module. -/
def told (c : Cmd) : State := { base with cmd := c }
/-- The module's own registers changed. -/
def modl (f : Module → Module) : State := { base with mod := f base.mod }
/-- A text line at an address of the first page: its parcels, with the target bit of the first. -/
def lined (s : State) (at' : Nat) (ps : List Parcel) : State :=
  { s with hw := { s.hw with icache := { va := at', pa := at', text := placedLine ps } :: s.hw.icache } }
/-- The next state. -/
def after (i : Instr) (s : State) : State := match exec i s with | .next t => t | _ => s
/-- A register after an instruction. -/
def got (i : Instr) (s : State) (n : Nat) : Word := (after i s).ctx.regs.getD n 0
/-- Cause in TRAPCAUSE after an instruction. -/
def causeOf (i : Instr) (s : State) : Nat := bits (after i s).k.trapcause 0 8

/-! Words of the manual, one or more of every family. -/

theorem test_decode_sysreg : decode [0xAC405000#32, 0x00001000#32] = .ok (.sysrd { d := 5, imm := 16 }) := by decide
theorem test_decode_addi : decode [0x040C3FFF#32] = .ok (.addI32 { d := 3, a := 3, imm := 0xFFF }) := by decide
theorem test_decode_strand : decode [0x80021848#32, 0x88000030#32] = .ok (.addG64 { d := 33, a := 33, da := 1, b := 34, ty := 3 }) := by
  decide
theorem test_decode_branch : decode [0x112FFFEE#32] = .ok (.brcJ32 { p := 1, off := 0xFFFEE }) := by decide
theorem test_decode_float : decode [0x81409380#32, 0x3C120280#32] = .ok (.sfma { d := 9, a := 14, b := 15, c := 9, ty := 8 }) := by
  decide
theorem test_decode_load : decode [0x8C00A100#32, 0x000000A0#32] = .ok (.ldI64 { d := 10, a := 4, ty := 10 }) := by decide
theorem test_decode_ldv : decode [0xB0004140#32, 0x01000000#32] = .ok (.ldvI64 { d := 4, a := 5, imm := 0x10000 }) := by decide
theorem test_decode_loop : decode [0x89003100#32, 0x00000D00#32] = .ok (.loopI64 { d := 3, a := 4, imm := 13 }) := by decide
theorem test_decode_join : decode [0x90400140#32, 0x00020502#32] = .ok (.tjoin { a := 5, c := 1, md := 1 }) := by decide
theorem test_decode_tier : decode [0x94009100#32, 0x00000200#32] = .ok (.tierq { d := 9, a := 4 }) := by decide
theorem test_decode_copy : decode [0x9450C2C0#32, 0x381A0008#32] = .ok (.cpy { p := 2, d := 12, a := 11, b := 14, c := 13, md := 4 }) := by
  decide
theorem test_decode_fence : decode [0x94800000#32, 0x0000000A#32] = .ok (.fence { md := 5 }) := by decide
theorem test_decode_atomic : decode [0x98004280#32, 0x30020038#32] = .ok (.aadd { d := 4, a := 10, b := 12, c := 1, ty := 3, md := 4 }) := by
  decide
theorem test_decode_barrier : decode [0x984050C0#32, 0x00000104#32] = .ok (.bwait { d := 5, a := 3, md := 2 }) := by decide
theorem test_decode_exchange : decode [0x988141C0#32, 0x440E0008#32] = .ok (.xopen { d := 20, a := 7, b := 17, c := 7, md := 4 }) := by
  decide
theorem test_decode_vector : decode [0x9C005103#32, 0x180E1B00#32] = .ok (.vscan { d := 5, a := 4, b := 6, c := 7, opt := 3 }) := by
  decide
theorem test_decode_array : decode [0xA4000000#32, 0x04140300#32] = .ok (.mma { b := 1, c := 10 }) := by decide
theorem test_decode_mask : decode [0xA8003180#32, 0x24000100#32] = .ok (.ksel { d := 3, a := 6, b := 9 }) := by decide
theorem test_decode_trap : decode [0xACC00000#32, 0x00000700#32] = .ok (.trapI64 { imm := 7 }) := by decide
theorem test_decode_reserved : decode [0x70000000#32] = .ok .reservedOpcodeTrap := by decide
/-- R43, R52: no instruction crosses the end of its slot. -/
theorem test_decode_short : decode [0xAC405000#32] = .error .crossesSlot := by decide
/-- R69: a function number that no row has. -/
theorem test_decode_function : decode [0x80000000#32, 0x00003F00#32] = .error .unassignedFunction := by decide
/-- R46: no 96-bit form of the general format. -/
theorem test_decode_long : decode [0xC0000000#32, 0#32, 0#32] = .error .noLongForm := by decide

/-! Each check of well-formedness refuses a term. -/

theorem test_refuse_distance : (Instr.addG64 { a := 3, da := 1, ty := 3 }).wellFormed = false := by decide
theorem test_refuse_type : (Instr.addG64 { ty := 8 }).wellFormed = false := by decide
theorem test_refuse_mode : (Instr.addG64 { ty := 3, md := 1 }).wellFormed = false := by decide
theorem test_refuse_option : (Instr.ldI64 { ty := 3, opt := 6 }).wellFormed = false := by decide
theorem test_refuse_saturation : (Instr.sext { ty := 0, sat := true }).wellFormed = false := by decide
theorem test_refuse_zero_field : (Instr.sext { ty := 0, b := 1 }).wellFormed = false := by decide
theorem test_refuse_predicate : (Instr.pandG64 { d := 8 }).wellFormed = false := by decide
theorem test_refuse_strand : (Instr.beadq { a := 3 }).wellFormed = false := by decide
theorem test_refuse_literal : (Instr.mwait { c := 17 }).wellFormed = false := by decide
theorem test_refuse_sysreg : (Instr.sysrd { imm := 0x005 }).wellFormed = false := by decide
theorem test_refuse_readonly : (Instr.syswr { imm := 0x000 }).wellFormed = false := by decide
theorem test_refuse_helper_register : (Instr.addA32 { d := 16 }).legal true = false := by decide
theorem test_refuse_helper_strand : (Instr.addG64 { d := 32, ty := 3 }).legal true = false := by decide
theorem test_refuse_helper_group : (Instr.mma {}).helperAllowed = false := by decide

/-! Scalar arithmetic (R86, R140 to R150): results by hand from the rules. -/

theorem test_add_wraps : got (.addI32 { d := 3, a := 3, imm := 0xFFF }) base 3 = 0xFFFFFFFFFFFFFFFF := by decide
theorem test_add_narrow_extends : got (.addG64 { d := 3, a := 4, b := 4, ty := 0 }) (reg base 4 0x40) 3 = 0xFFFFFFFFFFFFFF80 := by decide
theorem test_add_saturates : got (.addG64 { d := 3, a := 4, b := 4, ty := 0, sat := true }) (reg base 4 0x40) 3 = 0x7F := by decide
theorem test_add_sets_satf :
    (after (.addG64 { d := 3, a := 4, b := 4, ty := 0, sat := true }) (reg base 4 0x40)).ctx.fpflags = 0x40 := by decide
theorem test_sub_operand_order : got (.subA32 { d := 3, a := 4, b := 5 }) (reg (reg base 4 7) 5 9) 3 = 0xFFFFFFFFFFFFFFFE := by decide
theorem test_mul_low : got (.mulG64 { d := 3, a := 4, b := 5, ty := 7 }) (reg (reg base 4 0x8000000000000001) 5 3) 3 = 0x8000000000000003 := by
  decide
theorem test_mulh_signed : got (.mulhA32 { d := 3, a := 4, b := 4 }) (reg base 4 0xFFFFFFFFFFFFFFFF) 3 = 0 := by decide
theorem test_mulhz : got (.mulhzA32 { d := 3, a := 4, b := 4 }) (reg base 4 0xFFFFFFFFFFFFFFFF) 3 = 0xFFFFFFFFFFFFFFFE := by decide
theorem test_div_by_zero : got (.divA32 { d := 3, a := 4, b := 5 }) (reg base 4 7) 3 = 0xFFFFFFFFFFFFFFFF := by decide
theorem test_div_truncates : got (.divA32 { d := 3, a := 4, b := 5 }) (reg (reg base 4 0xFFFFFFFFFFFFFFF9) 5 2) 3 = 0xFFFFFFFFFFFFFFFD := by
  decide
theorem test_rem_by_zero : got (.remA32 { d := 3, a := 4, b := 5 }) (reg base 4 7) 3 = 7 := by decide
theorem test_remz : got (.remzA32 { d := 3, a := 4, b := 5 }) (reg (reg base 4 0xFFFFFFFFFFFFFFFF) 5 10) 3 = 5 := by decide
theorem test_divz : got (.divzA32 { d := 3, a := 4, b := 5 }) (reg (reg base 4 0xFFFFFFFFFFFFFFFF) 5 2) 3 = 0x7FFFFFFFFFFFFFFF := by decide
theorem test_andn : got (.andnA32 { d := 3, a := 4, b := 5 }) (reg (reg base 4 0xFF) 5 0x0F) 3 = 0xF0 := by decide
theorem test_shift_by_64 : got (.shlG64 { d := 3, a := 4, b := 5, ty := 3 }) (reg (reg base 4 1) 5 64) 3 = 0 := by decide
theorem test_sra_far : got (.sraA32 { d := 3, a := 4, b := 5 }) (reg (reg base 4 0x8000000000000000) 5 70) 3 = 0xFFFFFFFFFFFFFFFF := by
  decide
theorem test_shr_narrow : got (.shrG64 { d := 3, a := 4, b := 5, ty := 4 }) (reg (reg base 4 0x180) 5 7) 3 = 1 := by decide
theorem test_rol_modulo_width : got (.rolI64 { d := 3, a := 4, ty := 4, imm := 9 }) (reg base 4 0x81) 3 = 3 := by decide
theorem test_min_signed : got (.minA32 { d := 3, a := 4, b := 5 }) (reg base 4 0xFFFFFFFFFFFFFFFF) 3 = 0xFFFFFFFFFFFFFFFF := by decide
theorem test_maxz : got (.maxzA32 { d := 3, a := 4, b := 5 }) (reg base 4 0xFFFFFFFFFFFFFFFF) 3 = 0xFFFFFFFFFFFFFFFF := by decide
theorem test_abs_least : got (.absG64 { d := 3, a := 4, ty := 0 }) (reg base 4 0x80) 3 = 0xFFFFFFFFFFFFFF80 := by decide
theorem test_clz : got (.clzG64 { d := 3, a := 4, ty := 4 }) (reg base 4 0x101) 3 = 7 := by decide
theorem test_ctz_of_zero : got (.ctzA32 { d := 3, a := 4 }) base 3 = 64 := by decide
theorem test_popc : got (.popcA32 { d := 3, a := 4 }) (reg base 4 0xF1) 3 = 5 := by decide
theorem test_sext : got (.sext { d := 3, a := 4, ty := 1 }) (reg base 4 0x18000) 3 = 0xFFFFFFFFFFFF8000 := by decide
theorem test_zext : got (.zext { d := 3, a := 4, ty := 1 }) (reg base 4 0x18000) 3 = 0x8000 := by decide
theorem test_bfx : got (.bfx { d := 3, a := 4, b := 4, c := 3, ty := 7 }) (reg base 4 0xABC) 3 = 0xB := by decide
theorem test_bfi : got (.bfi { d := 3, a := 4, b := 4, c := 3, ty := 7 }) (reg (reg base 4 0xFF) 3 0x1000) 3 = 0x10F0 := by decide
theorem test_lea_scales : got (.leaI64 { d := 3, a := 4, ty := 2, imm := 0xFFFFFF }) (reg base 4 0x100) 3 = 0xFC := by decide
theorem test_sel : got (.sel { d := 3, a := 4, b := 5, c := 1, ty := 3 }) (reg (reg base 4 1) 5 2) 3 = 2 := by decide
theorem test_movl : got (.movlI32 { d := 3, imm := 0x800 }) base 3 = 0xFFFFFFFFFFFFF800 := by decide
theorem test_cmp_signed : (after (.cmpA32 2 { d := 2, a := 4, b := 5 }) (reg base 4 0xFFFFFFFFFFFFFFFF)).ctx.preds = 4 := by decide
theorem test_cmp_p0_discarded : (after (.cmpA32 2 { d := 0, a := 4, b := 5 }) (reg base 4 0xFFFFFFFFFFFFFFFF)).ctx.preds = 0 := by decide
theorem test_pnot : (after (.pnotA32 { d := 1, a := 2 }) base).ctx.preds = 2 := by decide
theorem test_guard_off : got (.addI64 { p := 1, d := 3, imm := 5, ty := 3 }) base 3 = 0 := by decide
theorem test_guard_off_strand :
    ((after (.addI64 { p := 1, d := 33, imm := 5, ty := 3 }) base).k.strands.getD 1 {}).hist.getD 0 {} = { value := 0 } := by decide
theorem test_retire : (after .nop base).ctx.pc = 0x1004 ∧ (after .nop base).ctx.retired = 1 := by decide
/-- R50, R51: the stream skips the line word. -/
theorem test_retire_over_line : (after .nop { base with ctx := { base.ctx with pc := 0x1038 } }).ctx.pc = 0x1040 := by decide

/-! Scalar floating point (R151 to R153): 2 times 0.5 plus 0 is 1; a NaN is unordered. -/

theorem test_sfma : got (.sfma { d := 9, a := 14, b := 15, c := 9, ty := 8 }) (reg (reg base 14 0x40000000) 15 0x3F000000) 9 = 0x3F800000 := by
  decide
theorem test_sfadd_nan : got (.sfadd { d := 3, a := 4, b := 5, ty := 8 }) (reg base 4 0xFF800001) 3 = 0x7FC00000 := by decide
theorem test_sfmul_sign : got (.sfmul { d := 3, a := 4, b := 5, ty := 8 }) (reg (reg base 4 0xBF800000) 5 0) 3 = 0x80000000 := by decide
theorem test_sfcmp_unordered : (after (.sfcmp 6 { d := 1, a := 4, b := 5, ty := 8 }) (reg base 4 0x7FC00000)).ctx.preds = 2 := by decide
theorem test_sfcmp_zeros : (after (.sfcmp 0 { d := 1, a := 4, b := 5, ty := 8 }) (reg base 4 0x80000000)).ctx.preds = 2 := by decide

/-! Control, traps and system registers (R54, R155 to R158, R413 to R416, R434). -/

theorem test_br_bad_target : causeOf (.bri { a := 4 }) (reg base 4 0x1002) = 3 := by decide
theorem test_br_target : (after (.bri { a := 4 }) (lined (reg base 4 0x3000) 0x3000 [0])).ctx.pc = 0x3000 := by decide
theorem test_br_no_target : (after (.bri { a := 4 }) (lined (reg base 4 0x3004) 0x3000 [0])).k.trapaddr = 0x3004 := by decide
theorem test_call_links : got (.calli { a := 4 }) (lined (reg base 4 0x3000) 0x3000 [0]) 31 = 0x1008 := by decide
theorem test_brc_not_taken : (after (.brcJ32 { p := 1, off := 0xFFFEE }) base).ctx.pc = 0x1004 := by decide
theorem test_trap_entry : (after (.trapI64 { imm := 7 }) base).k.trapcause = 0x8000000000000014 := by decide
theorem test_trap_return_address : (after (.trapI64 { imm := 7 }) base).k.trappc = 0x1008 := by decide
theorem test_eret : (after (.eret {}) (after (.trapI64 { imm := 7 }) base)).ctx.pc = 0x1008 := by decide
theorem test_eret_outside : causeOf (.eret {}) base = 1 := by decide
theorem test_bkpt : causeOf (.bkpt { a := 5 }) base = 21 := by decide
theorem test_reserved_opcode : causeOf .reservedOpcodeTrap base = 2 := by decide
theorem test_halt : (after (.halt {}) base).k.task = none := by decide
theorem test_sysrd_ident : got (.sysrd { d := 3, imm := 0 }) base 3 = 0xF0000000 := by decide
theorem test_syswr_heap : (after (.syswr { a := 4, imm := 8 }) (reg base 4 0x70000)).k.heapbase = 0x70000 := by decide
theorem test_syswr_heap_refused : causeOf (.syswr { a := 4, imm := 8 }) (reg base 4 1) = 1 := by decide

/-! Memory (R128, R133 to R139, R387). -/

def loc (n : Nat) : State := reg base 4 (BitVec.ofNat 64 (0x8000000000000000 + n))
theorem test_store_load : got (.ldI64 { d := 6, a := 4, ty := 0 }) (after (.stI64 { d := 4, a := 5, ty := 3 }) (reg (loc 16) 5 0x80)) 6 =
    0xFFFFFFFFFFFFFF80 := by decide
theorem test_byte_order : Mem.get (after (.stI64 { d := 4, a := 5, ty := 3 }) (reg (loc 16) 5 0x0102)).k.localMem 16 = 2 := by decide
theorem test_ldx_scales : got (.ldx { d := 6, a := 4, b := 7, ty := 2 })
    (reg { loc 0 with k := { base.k with localMem := [(12, 9)] } } 7 3) 6 = 9 := by decide
theorem test_misaligned : causeOf (.ldI64 { d := 6, a := 4, ty := 3 }) (loc 4) = 4 := by decide
theorem test_past_local : causeOf (.ldI64 { d := 6, a := 4, ty := 3 }) (loc 0xC0000) = 5 := by decide
theorem test_store_refused : causeOf (.stI64 { d := 4, a := 5, ty := 3 }) (reg base 4 0x100) = 8 := by decide
theorem test_store_global : Mem.get (after (.stI64 { d := 4, a := 5, ty := 0 }) (reg (reg base 4 0x10100) 5 7)).mem 0x10100 = 7 := by decide
theorem test_stnt_waits : (after (.stntI64 { d := 4, a := 5, ty := 0 }) (reg (reg base 4 0x10100) 5 7)).mem = [] := by decide
theorem test_ntdrain : (after (.ntdrain {}) (after (.stntI64 { d := 4, a := 5, ty := 0 }) (reg (reg base 4 0x10100) 5 7))).mem =
    [(0x10100, 7)] := by decide
theorem test_release_ends_region : (after (.strelI64 { d := 4, a := 5, ty := 0, md := 3 }) (loc 0)).ctx.region = 1 := by decide
theorem test_tset_tget : got (.tget { d := 6, a := 1, c := 5 })
    (after (.tset { d := 1, a := 4, c := 5 }) (reg base 4 0xFFFFFFFFFFFFFFFE)) 6 = 0xFFFFFFFFFFFFFFFE := by decide
theorem test_tset_refused : causeOf (.tset { d := 1, a := 4, c := 7 }) base = 11 := by decide
theorem test_aadd_old : got (.aadd { d := 6, a := 4, b := 5, ty := 0, md := 3 })
    (reg { loc 8 with k := { base.k with localMem := [(8, 0xFF)] } } 5 2) 6 = 0xFFFFFFFFFFFFFFFF := by decide
theorem test_aadd_new : Mem.get (after (.aadd { d := 6, a := 4, b := 5, ty := 0, md := 3 })
    (reg { loc 8 with k := { base.k with localMem := [(8, 0xFF)] } } 5 2)).k.localMem 8 = 1 := by decide
theorem test_acas_fails : (after (.acas { d := 6, a := 4, b := 5, ty := 0, md := 3 }) (reg (reg (loc 8) 5 2) 6 9)).k.localMem = [] := by decide
theorem test_fence_region : (after (.fence { md := 5 }) base).ctx.region = 1 := by decide
theorem test_fence_ctx : (after (.fence { md := 0 }) base).ctx.region = 0 := by decide

/-! Loops, queues, copies, barriers, tasks and events. -/

theorem test_beadq_history : got (.beadq { d := 3, a := 32, da := 1 }) base 3 = 0xFFFFFFFE00000002 := by decide
theorem test_break_outside : causeOf (.breakc { a := 1 }) base ≠ 25 := by decide
theorem test_mzero_queued : ((after (.mzero { a := 4, b := 5 }) (reg base 5 16)).k.mvuq.length) = 1 := by decide
theorem test_mwait_waits : (after (.mwait { c := 0 }) (after (.mzero { a := 4, b := 5 }) (reg base 5 16))).ctx.hold = some .condition := by decide
theorem test_bqry_unnamed : causeOf (.bqry { d := 3, a := 0x3F, md := 0 }) base ≠ 25 := by decide
theorem test_mzero_shape : causeOf (.mzero { a := 4, b := 5 }) (reg base 5 257) = 13 := by decide
theorem test_wprd : got (.wprd { d := 3, a := 2 }) base 3 = 0 := by decide
theorem test_idcode : (after .idcode base).mod.tapData = 0x0D960A2B := by decide
theorem test_power_good : (after .powerGood base).mod.boot = .rom := by decide
theorem test_modid_locked : (after .modidWrite { modl (fun m => { m with linkEnabled := true }) with cmd := { value := 5 } }).mod.modid = 0 := by
  decide
theorem test_power_step : (after .powerStepUp base).mod.clock = 0 := by decide
/-- A step fetches, decodes and runs the word, from the state after reset. -/
theorem test_step_runs : (match step (State.reset.withFetchWord 32 0x040C3FFF) with
    | .next t => t.ctx.regs.getD 3 0
    | _ => 0) = 0xFFFFFFFFFFFFFFFF := by decide

/-! For each statement with hypotheses, states and operands that meet them: one for each clause. -/

theorem ok_of {ε α : Type} {x : Except ε α} (h : x.isOk = true) : ∃ r, x = .ok r := by
  cases x with
  | ok r => exact ⟨r, rfl⟩
  | error e => cases h

/-- A trap finds a handler. -/
def handles (s : State) : Bool :=
  s.ctx.slot == 15 && !(s.k.trapcause.getLsbD 63) && s.k.trapvec == 0x2000 && (s.translateFetch s.myPart true 0x2000).isOk &&
  !s.k.loop.running && !(s.hw.tracectl.getLsbD 0)

theorem handler_of {s : State} (h : handles s = true) : hasHandler s := by
  simp only [handles, Bool.and_eq_true, beq_iff_eq, Bool.not_eq_true'] at h
  obtain ⟨⟨⟨⟨⟨h1, h2⟩, h3⟩, h4⟩, h5⟩, h6⟩ := h
  refine ⟨h1, h2, ?_, ?_, ?_, h5, h6⟩
  · rw [h3]; decide
  · rw [h3]; unfold badAddress; decide
  · rw [h3]; exact ok_of h4

/-- O1 to O4: an operation at full width, one at a narrow width with SAT, and one of every family. -/
theorem witness_arithmetic : ∃ o, arithmetic (.addG64 { d := 63, a := 63, da := 7, b := 31, ty := 0, sat := true }) = some o ∧
    (Instr.addG64 { d := 63, a := 63, da := 7, b := 31, ty := 0, sat := true }).wellFormed = true ∧ runs base o.form.p o.form.n :=
  ⟨_, rfl, by decide, by unfold runs; decide⟩
theorem witness_division : ∃ o, division (.remG64 { d := 3, a := 4, b := 5, ty := 7 }) = some o ∧
    (Instr.remG64 { d := 3, a := 4, b := 5, ty := 7 }).wellFormed = true ∧ runs base o.form.p o.form.n :=
  ⟨_, rfl, by decide, by unfold runs; decide⟩
theorem witness_bitwise : ∃ o, bitwise (.andW96 { d := 3, a := 4, ty := 3, lit := 0xFFFFFFFF }) = some o ∧
    (Instr.andW96 { d := 3, a := 4, ty := 3, lit := 0xFFFFFFFF }).wellFormed = true ∧ runs base o.form.p o.form.n :=
  ⟨_, rfl, by decide, by unfold runs; decide⟩
theorem witness_shifting : ∃ o, shifting (.shlI64 { p := 1, n := true, d := 3, a := 4, ty := 3, imm := 64 }) = some o ∧
    (Instr.shlI64 { p := 1, n := true, d := 3, a := 4, ty := 3, imm := 64 }).wellFormed = true ∧ runs base o.form.p o.form.n :=
  ⟨_, rfl, by decide, by unfold runs; decide⟩

/-- FieldResults: both clauses. -/
theorem witness_fields : ∃ f is g v, counting (.clzG64 { d := 3, a := 4, ty := 4 }) = some (f, is) ∧ runs base f.p f.n ∧
    (Instr.clzG64 { d := 3, a := 4, ty := 4 }).wellFormed = true ∧ fieldValue base (.bfx { d := 3, a := 4, b := 63, ty := 7 }) = some (g, v) ∧
    (Instr.bfx { d := 3, a := 4, b := 63, ty := 7 }).wellFormed = true ∧ runs base g.p g.n :=
  ⟨_, _, _, _, rfl, by unfold runs; decide, by decide, rfl, by decide, by unfold runs; decide⟩

/-- PredicateResults: both clauses, and p0 as a destination. -/
theorem witness_predicates : ∃ f b, predicateValue base (.cmpG64 11 { d := 0, a := 4, b := 5, c := 7, ty := 3 }) = some (f, b) ∧
    (Instr.cmpG64 11 { d := 0, a := 4, b := 5, c := 7, ty := 3 }).wellFormed = true ∧ runs base f.p f.n ∧
    (Instr.sfcmp 7 { d := 7, a := 4, b := 5, ty := 8 }).wellFormed = true :=
  ⟨_, _, rfl, by decide, by unfold runs; decide, by decide⟩

/-- FloatResults: sources that are no NaN, and a NaN. -/
theorem witness_floats : ∃ f g, floating base (.sfma { d := 3, a := 4, b := 5, c := 6, ty := 8, md := 4 }) = some (f, false) ∧
    (Instr.sfma { d := 3, a := 4, b := 5, c := 6, ty := 8, md := 4 }).wellFormed = true ∧ runs base f.p f.n ∧
    floating (reg base 4 0x7F800001) (.sfadd { d := 3, a := 4, b := 5, ty := 8 }) = some (g, true) ∧
    (Instr.sfadd { d := 3, a := 4, b := 5, ty := 8 }).wellFormed = true :=
  ⟨_, _, rfl, by decide, by unfold runs; decide, rfl, by decide⟩

/-- HintResults: a hint other than number 0, and hint 0 in a helper. -/
theorem witness_hints : bits ((base.latch [0xB4400000#32, 0]).ctx.ir.getD 0 0) 22 8 > 0xD0 ∧
    ({ base with ctx := { base.ctx with slot := 0 } } : State).ctx.slot ≠ 15 := by decide

/-- GuardedOff: a false guard, and (!p0). -/
theorem witness_guards : ∃ o o', guarded (.tierin { p := 1, d := 33, a := 1, b := 2 }) = some o ∧ ¬ runs base o.p o.n ∧
    guarded (.addI64 { n := true, d := 3, a := 3, ty := 3 }) = some o' ∧ ¬ runs base o'.p o'.n ∧
    (Instr.addI64 { n := true, d := 3, a := 3, ty := 3 }).wellFormed = true ∧ base.ctx.slot = 15 ∧ base.k.window = none :=
  ⟨_, _, rfl, by unfold runs; decide, rfl, by unfold runs; decide, by decide, rfl, rfl⟩

def go : State := lined (reg base 4 0x3000) 0x3000 [0]
theorem witness_transfers : ∃ j s1, jump go (.calli { a := 4 }) = some j ∧ runs go j.p j.n ∧ mayJump go (.calli { a := 4 }) ∧
    legalTarget go j.target s1 :=
  ⟨_, go, rfl, by unfold runs; decide, ⟨fun _ => rfl, fun _ _ => rfl⟩, by unfold badAddress; decide, _, rfl, by decide⟩

/-- ConditionalTransfers: taken and not taken. -/
theorem witness_conditions : ∃ j j' s1, condJump go (.brcJ32 { off := 0x780 }) = some (j, true) ∧ runs go j.p j.n ∧
    legalTarget go j.target s1 ∧ condJump go (.brcJ32 { p := 1, off := 1 }) = some (j', false) ∧ mayJump go (.brcJ32 {}) :=
  ⟨_, _, go, rfl, by unfold runs; decide, ⟨by unfold badAddress; decide, _, rfl, by decide⟩, rfl, fun _ => rfl,
    fun _ h => by contradiction⟩

/-- BadTargets: an address in an aperture, a parcel with no target bit, and a page that may not be executed. -/
theorem witness_bad_targets : ∃ j text s1 a d, jump (reg base 4 0x8000000000000000) (.bri { a := 4 }) = some j ∧ badAddress j.target ∧
    (lined (reg base 4 0x3004) 0x3000 [0]).lineAt 0x3004 = .ok (text, s1) ∧ targetOk text (0x3004 % 64 / 4) = false ∧
    base.lineAt 0x10000 = .error (.trap 9 a d) ∧ ¬ badAddress 0x10000 :=
  ⟨_, _, _, _, _, rfl, by unfold badAddress; decide, rfl, by decide, rfl, by unfold badAddress; decide⟩

theorem witness_traps : hasHandler (counted base) ∧ base.k.window = none ∧ runs base 0 false :=
  ⟨handler_of (by decide), rfl, by unfold runs; decide⟩

/-- TrapReturn: in a handler, and outside one. -/
theorem witness_trap_return : let s := after (.trapI64 { imm := 7 }) base
    s.ctx.slot = 15 ∧ s.k.window = none ∧ s.k.trapcause.getLsbD 63 = true ∧ ¬ badAddress s.k.trappc ∧ s.k.loop.inner = none ∧
    s.k.loop.outer = none ∧ runs s 0 false ∧ hasHandler base :=
  ⟨by decide, by decide, by decide, by unfold badAddress; decide, by decide, by decide, by unfold runs; decide, handler_of (by decide)⟩

/-- TaskEnds: HACT set, and no handler. -/
theorem witness_ends : (after (.trapI64 { imm := 7 }) base).k.trapcause.getLsbD 63 = true ∧
    (told {}).k.trapcause.getLsbD 63 = false ∧ ({ base with k := { base.k with trapvec := 0 } } : State).k.trapvec = 0 := by decide

theorem witness_system : (Instr.sysrd { d := 3, imm := 0x027 }).wellFormed = true ∧ (Instr.syswr { a := 4, imm := 0x00A }).wellFormed = true ∧
    bits ((reg base 4 0xFFFF).readOp 4 0) 0 16 ≠ 0 ∧ bits (base.readOp 4 0) 0 16 = 0 := by decide

/-- Apertures: the last bytes of each aperture, one byte beyond, and an address that is not canonical. -/
theorem witness_apertures : base.mvuBusy 0xBFFF8 8 = false ∧ bits (0x80000000000BFFF8 : Word) 56 8 = 0x80 ∧
    0xC0000 < (0x80000000000BFFF8 : Word).toNat % 2 ^ 56 + 9 ∧ (0x81000000007FFFF8 : Word).toNat % 2 ^ 56 + 8 ≤ 0x800000 ∧
    bits (0x0100000000000000 : Word) 56 8 ≠ 0 := by decide

theorem witness_access_frame : (base.lsTarget .ls 0x10100 8 true true false).isOk = true ∧ base.recBlocks.length < 294912 := by decide

/-- Loads and Stores: in local memory, and of each kind. -/
theorem witness_loads : ∃ f ea t s2, loading (loc 8) (.ldacqI64 { d := 6, a := 4, ty := 3, md := 3 }) = some (f, ea, true) ∧
    (Instr.ldacqI64 { d := 6, a := 4, ty := 3, md := 3 }).wellFormed = true ∧ ea.toNat % size f.ty = 0 ∧
    (loc 8).lsTarget .ls ea (size f.ty) false false true = .ok (t, loc 8) ∧ (loc 8).logRead t ea = .ok s2 ∧
    mayAccess (loc 8) (.ldacqI64 { d := 6, a := 4, ty := 3, md := 3 }) ea ∧ (loc 8).k.loop.running = false :=
  ⟨_, _, _, _, rfl, by decide, by decide, rfl, rfl, Or.inl (fun _ => rfl), rfl⟩
theorem witness_stores : ∃ f ea v t, storing (loc 8) (.strelI64 { d := 4, a := 5, ty := 3, md := 5 }) = some (f, ea, v, .release) ∧
    (Instr.strelI64 { d := 4, a := 5, ty := 3, md := 5 }).wellFormed = true ∧ released (loc 8) ∧ ea.toNat % size f.ty = 0 ∧
    (loc 8).lsTarget .ls ea (size f.ty) true true true = .ok (t, loc 8) ∧ tidy (loc 8) ∧ (loc 8).k.loop.susp = false :=
  ⟨_, _, _, _, rfl, by decide, ⟨by decide, by decide⟩, by decide, rfl, ⟨by decide, by decide, by decide⟩, rfl⟩
theorem witness_stores_plain : ∃ f ea v t, storing (loc 8) (.stI32 { d := 4, a := 5 }) = some (f, ea, v, .plain) ∧
    ea.toNat % size f.ty = 0 ∧ (loc 8).lsTarget .ls ea (size f.ty) true true false = .ok (t, loc 8) :=
  ⟨_, _, _, _, rfl, by decide, rfl⟩

/-- Misaligned: a load, a store and an atomic one byte off. -/
theorem witness_misaligned : ∃ f ea acq g eb v k h fn, loading (loc 1) (.ldI64 { d := 6, a := 4, ty := 1 }) = some (f, ea, acq) ∧
    ea.toNat % size f.ty ≠ 0 ∧ storing (loc 1) (.stI64 { d := 4, a := 5, ty := 1 }) = some (g, eb, v, k) ∧ eb.toNat % size g.ty ≠ 0 ∧
    atomicFn (.aadd { d := 6, a := 4, b := 5, ty := 1, md := 3 }) = some (h, fn) ∧ ((loc 1).readOp h.a h.da).toNat % size h.ty ≠ 0 ∧
    (Instr.aadd { d := 6, a := 4, b := 5, ty := 1, md := 3 }).wellFormed = true ∧ plain (loc 1) ∧ hasHandler (loc 1) :=
  ⟨_, _, _, _, _, _, _, _, _, rfl, by decide, rfl, by decide, rfl, by decide, by decide, ⟨rfl, rfl⟩, handler_of (by decide)⟩

/-- A read that answers and leaves the state as it was. -/
def answers (e : Except Stop (Nat × State)) (s : State) : Bool := match e with | .ok r => decide (r.2 = s) | .error _ => false
theorem of_answers {e : Except Stop (Nat × State)} {s : State} (h : answers e s = true) : ∃ x, e = .ok (x, s) := by
  cases e with
  | error _ => cases h
  | ok r => exact ⟨r.1, by rw [← of_decide_eq_true (show decide (r.2 = s) = true from h)]⟩

/-- VectorLoads: the last place in local memory, a misaligned source, and a destination past the end. -/
theorem witness_vector_loads : let s := reg (reg base 5 0x10000) 4 0xBFF00
    (∃ x, s.lsWords 0x10000 0 32 = .ok (x, s)) ∧ s.mvuBusy 0xBFF00 256 = false ∧ 0xBFF00 + 256 ≤ 0xC0000 ∧
    ((reg base 5 4).readOp 5 0).toNat % 8 ≠ 0 ∧ 0xC0000 < 0xBFF08 + 256 :=
  ⟨of_answers (by decide), by decide, by decide, by decide, by decide⟩

/-- TensorTable: a value that a field takes and one that it does not, an image accepted and one refused. -/
theorem witness_tensors : (Instr.tget { d := 3, a := 1, c := 16 }).wellFormed = true ∧ base.updateOwed 1 = false ∧ base.zsOwed 1 = false ∧
    fieldTakes 7 1 ∧ ¬ fieldTakes 7 0 ∧ (∃ x, (reg base 4 0x10000).lsWords 0x10000 0 8 = .ok (x, reg base 4 0x10000)) ∧
    entryRefused 0 = false ∧ entryRefused (BitVec.ofNat 512 (3 * 2 ^ 116)) = true :=
  ⟨by decide, by decide, by decide, by unfold fieldTakes; decide, by unfold fieldTakes; decide, of_answers (by decide), by decide, by decide⟩

theorem witness_atomics : ∃ t, atomicFn (.acas { d := 6, a := 4, b := 5, c := 1, ty := 3, md := 5 }) =
      some ({ d := 6, a := 4, b := 5, c := 1, ty := 3, md := 5 }, 8) ∧
    (Instr.acas { d := 6, a := 4, b := 5, c := 1, ty := 3, md := 5 }).wellFormed = true ∧
    (loc 8).lsTarget .at 0x8000000000000008 8 true true true = .ok (t, loc 8) ∧
    spells 0 8 (fun k => (loc 8).seenByte t.space (t.addr + k)) ∧ tidy (loc 8) ∧ noLoop (loc 8) :=
  ⟨_, rfl, by decide, rfl, by unfold spells; decide, ⟨by decide, by decide, by decide⟩, fun _ => ⟨rfl, rfl⟩⟩

theorem witness_fences : runs base 0 false ∧ calm base ∧ base.k.loop.running = false ∧ released base ∧ tidy base :=
  ⟨by unfold runs; decide, fun _ => rfl, rfl, ⟨by decide, by decide⟩, by decide, by decide, by decide⟩

/-! Loops. -/

/-- A line with every parcel a target. -/
def openLine (s : State) (at' : Nat) (ps : List Parcel) : State :=
  let text := (ps ++ List.replicate (15 - ps.length) 0) ++ [0x7FFF#32]
  { s with hw := { s.hw with icache := { va := at', pa := at', text := text } :: s.hw.icache } }
def oneLoop : State := openLine (reg base 4 5) 0x1000 (encode (.loopI64 { d := 1, a := 4, imm := 3 }) ++ [0, 0x13000001])
def twoLoops : State := openLine (reg base 4 5) 0x1000
  (encode (.loopoI64 { d := 1, a := 4, imm := 7 }) ++ [0] ++ encode (.loopI64 { d := 1, a := 4, imm := 3 }) ++
    [0, 0x13000001, 0x13000001])
def lvl (ph : LoopPhase) : LoopLevel :=
  { bodyPc := 0x1008, iretPc := 0x100C, exitPc := 0x1010, count := 2, depth := 1, reach := 0, set := 1, entryPreds := 0, lastPreds := 0,
    phase := ph }
def inLoop (ph : LoopPhase) : State := { base with k := { base.k with loop := { inner := some (lvl ph) } } }
def inOuter : State := { base with k := { base.k with loop := { outer := some (lvl .running) } } }

/-- LoopHeaders: a one-level body, a two-level body, and an inner header of a captured body. -/
theorem witness_one_loop : ∃ f, heading (.loopI64 { d := 1, a := 4, imm := 3 }) = some (f, false, 3) ∧
    (match oneLoop.capture (headerOf oneLoop f 3) 3 false with
      | .ok (b, s1) => (checkSingle b f.d.toNat).isSome && s1.k.loop.inner.isNone && s1.k.loop.outer.isNone
      | .error _ => false) = true :=
  ⟨_, rfl, by decide⟩
theorem witness_two_loops : ∃ f, heading (.loopoI64 { d := 1, a := 4, imm := 7 }) = some (f, true, 7) ∧
    (match twoLoops.capture (headerOf twoLoops f 7) 7 true with
      | .ok (b, s1) => (splitBody b).any (fun sp => (checkDouble b sp f.d.toNat).isSome) && s1.k.loop.inner.isNone
      | .error _ => false) = true :=
  ⟨_, rfl, by decide⟩
/-- The state that stands at the inner LOOP of a body. -/
def atInner (b : List BodyInstr) : State :=
  let s := reg base 4 5
  { s with ctx := { s.ctx with pc := 0x100C }, k := { s.k with loop := { outer := some (lvl .running), text := textOf b } } }
theorem witness_inner_loop : inOuter.k.loop.running = true ∧ inOuter.k.loop.inner = none ∧ plain (atInner []) ∧
    ∃ o f, heading (.loopoI64 { d := 1, a := 4, imm := 7 }) = some (o, true, 7) ∧
      heading (.loopI64 { d := 1, a := 4, imm := 3 }) = some (f, false, 3) ∧
      (match twoLoops.capture (headerOf twoLoops o 7) 7 true with
        | .ok (b, _) => (atInner b).k.loop.running && (splitBody b).any (fun sp =>
            (checkDouble b sp (headerOf twoLoops o 7).depth).isSome && sp.inner == headerOf (atInner b) f 3)
        | .error _ => false) = true := ⟨by decide, by decide, ⟨rfl, rfl⟩, _, _, rfl, rfl, by decide⟩

/-- LoopInstructions and Iterations: in a body, outside one, an iteration to start, one to count on and a last one. -/
theorem witness_loop_instructions : (inLoop .running).k.loop.running = true ∧ plain (inLoop .running) ∧ hasHandler base ∧
    (Instr.beadq { d := 3, a := 63, da := 7 }).wellFormed = true := ⟨by decide, ⟨rfl, rfl⟩, handler_of (by decide), by decide⟩
theorem witness_iterations : (inLoop .complete).commitHeld [] = ([], inLoop .complete) ∧ owed (inLoop .complete) 0 = false ∧
    (lvl .complete).iter + 1 < (lvl .complete).count ∧ ({ lvl .complete with iter := 1 } : LoopLevel).count ≤ 1 + 1 ∧
    (inLoop .starting).k.loop.inner = some (lvl .starting) := ⟨rfl, by decide, by decide, by decide, rfl⟩

/-! Helpers and tasks. -/

/-- Helper text whose first parcel is a target. -/
def withText (s : State) : State := { s with k := { s.k with task := some { helpAddr := 64 } }, hw := { s.hw with helperText := Mem.writeLE [] 60 4 1 } }
def helping : State :=
  { base with ctx := { live := true, slot := 9, pc := 0 }, k := { base.k with peers := [{ live := true }] } }
theorem witness_helpers : (withText base).k.peers = [] ∧ ¬ badAddress ((0 : BitVec 24).signExtend 64) ∧
    parityOk ((withText base).helperLine 0) = true ∧ targetOk ((withText base).helperLine 0) 0 = true ∧ helping.ctx.slot ≠ 15 ∧
    helping.k.peers.find? (fun x => x.slot == 15) = some { live := true } ∧ runs helping helping.latchedGuard.1 helping.latchedGuard.2 :=
  ⟨rfl, by unfold badAddress; decide, by decide, by decide, by decide, by decide, by unfold runs; decide⟩

/-- A partition that owns the first queue engine and cluster, with its root job open and queue 0 enabled. -/
def team : State :=
  { reg base 4 0x10000 with
    parts := (Vector.replicate 16 {}).setIfInBounds 0 { ctl := 0x101, clusters := 1, scopes := [(0, { state := .opened, kind := 4 })] }
    queues := [(0, { ctl := 0x3000000000001 })] }

/-- Spawns: accepted, and refused by a queue that is not enabled. -/
theorem witness_spawns : (∃ x, (numbered team).lsWords 0x10000 0 16 = .ok (x, numbered team)) ∧
    ((numbered team).acceptLaunch 0 0x10000 0).isOk = true ∧ (numbered base).acceptLaunch 0 0x10000 0 = .error 7 ∧
    (∃ x, (numbered team).lsWords 0x10000 0 8 = .ok (x, numbered team)) ∧ ((numbered team).pushTask 0 0 none).isOk = true ∧
    (numbered base).pushTask 0 0 none = .error 7 :=
  ⟨of_answers (by decide), by decide, by decide, of_answers (by decide), by decide, by decide⟩
/-- A task with a slot of queue 0, and a Locket to save it in. -/
def slotted : State :=
  { team with
    k := { team.k with task := some { tag := some 0 } }
    queues := [(0, { ctl := 0x3000000000001, slots := [(0, { img := 0, state := .running, core := some 0 })] })]
    parts := team.parts.setIfInBounds 0 { (team.part 0) with locketpool := 0x400001 } }
theorem witness_spawn_wait : ((numbered slotted).spawnWait (formG { d := 3, a := 4, b := 5 }) 0 0).isOk = true ∧
    ((numbered base).spawnWait (formG { d := 3, a := 4, b := 5 }) 0 0).isOk = false := by decide

/-- TaskInstructions: a task of another partition's queue, a tag that names nothing, and a record that waits. -/
theorem witness_cancel :
    ({ team with parts := team.parts.setIfInBounds 0 { ctl := 1 }, queues := [] } : State).queueForeign 0 0 = false ∧
    ({ team with parts := (team.parts.setIfInBounds 0 {}).setIfInBounds 1 { ctl := 0x101 } } : State).queueForeign 0 0 = true ∧
    team.byTag 0 = none ∧ team.queueForeign 0 0 = false ∧
    (after (.tspawn { d := 3, a := 4, b := 5 }) team).byTag 0 ≠ none ∧ base.updateOwed 63 = false := by decide

/-- ScopeInstructions: a misaligned map, a parent that is not open, a type that does not descend, a free entry, and none. -/
theorem witness_scopes : (reg base 5 8).readOp 5 0 = 8 ∧ (base.scope 0 0).refuses false = some 8 ∧ (team.scope 0 0).refuses false = none ∧
    (team.scope 0 0).kind ≤ 4 ∧ 3 < (team.scope 0 0).kind ∧ team.freeScope 0 = some 1 ∧
    ({ team with parts := team.parts.setIfInBounds 0 { scopes := (List.range 256).map (fun i => (i, { state := .opened, kind := 4 })) } } :
      State).freeScope 0 = none := by decide

/-! Placement, copies, barriers, exchanges. -/

/-- A page table of partition 0 in the first frame: one leaf for the page at address 0, at home in cluster 0. -/
def paged : State :=
  { base with
    parts := (Vector.replicate 16 {}).setIfInBounds 0 { ctl := 0x101, clusters := 3, sets0 := 1, ptroot := 0x1000 }
    mem := Mem.writeLE (Mem.writeLE (Mem.writeLE (Mem.writeLE (Mem.writeLE [] 0x1000 8 0x2001) 0x2000 8 0x3001) 0x3000 8 0x4001)
      0x4000 8 0x5001) 0x5000 8 0x20102 }
theorem witness_placement :
    (match paged.walk 0 0 0x40 with | (.leaf e at' level, _) => e == 0x20102 && at' == 0x5000 && level == 0 && !(leafPin e) | _ => false) = true ∧
    canonical 0x40 = true ∧ inWindow paged.agent 0x40 = false ∧ paged.ownsCluster 0 1 = true ∧ paged.ownsCluster 0 2 = false ∧
    canonical 0x100000000000000 = false ∧ (paged.page 0x5000).stage = .none := by decide +kernel

/-- A tensor entry in local memory: one dimension, `n` elements of a format. -/
def ten (at' bytes fmt n : Nat) : Word512 :=
  BitVec.ofNat 512 (at' + bytes * 2 ^ 64 + fmt * 2 ^ 112 + n * 2 ^ 256 + 2 ^ 280 + 2 ^ 304 + 2 ^ 328 + 2 ^ 352)
def tensors (s : State) (l : List (Nat × Word512)) : State :=
  { s with k := { s.k with tens := l.foldl (fun v e => v.setIfInBounds e.1 e.2) s.k.tens } }
def pair : State := tensors base [(1, ten 0 16 0 2), (2, ten 64 16 0 2), (3, ten 128 16 0 2), (4, ten 192 16 2 2)]

/-- CopyInstructions: a full channel, a copy accepted and one refused; a pointer passed, to come, and of a stopped channel. -/
theorem witness_copies : copyChecks (copyOf pair { d := 1, a := 2 }).dst (copyOf pair { d := 1, a := 2 }).src [] = .ok () ∧
    (∃ c, copyChecks (copyOf pair { d := 1, a := 0 }).dst (copyOf pair { d := 1, a := 0 }).src [] = .error (.trap c 0 0) ∧ c < 22) ∧
    (onChan pair 7 (fun c => { c with queue := List.replicate 4 (copyOf pair { d := 1, a := 2 }) })).k.chans.getD 7 {} ≠ {} ∧
    (base.k.chans.getD 7 {}).wp.toNat < (reg base 5 1 |>.readOp 5 0).toNat ∧
    ((onChan base 7 (fun c => { c with stopped := true })).k.chans.getD 7 {}).stopped = true := by
  refine ⟨by decide, ⟨11, by decide, by decide⟩, by decide, by decide, by decide⟩

/-- A tensor entry of cluster memory: two dimensions. -/
def ten2 (at' bytes fmt n m : Nat) : Word512 :=
  BitVec.ofNat 512 (at' + bytes * 2 ^ 64 + fmt * 2 ^ 112 + 2 ^ 116 + n * 2 ^ 256 + m * 2 ^ 280 + 2 ^ 304 + 2 ^ 328 + 2 * 2 ^ 352)

/-- IndirectInstructions: a gather accepted and one refused; an event there, absent, and polled; a range with no page to come. -/
theorem witness_indirect : indirectChecks false (ten2 0 16 0 4 2) (ten 256 16 2 2) (ten2 64 64 0 4 9) = .ok () ∧
    (∃ c, indirectChecks false 0 0 0 = .error (.trap c 0 0) ∧ c < 22) ∧
    ({ base with k := { base.k with events := 0x8000 } } : State).k.events.getLsbD 15 = true ∧ base.ctx.hold ≠ some .signalled := by
  refine ⟨by decide, ⟨11, by decide, by decide⟩, by decide, by decide⟩
theorem witness_tierin : ((numbered base).tierPages base.agent false 64 16385 0).1 = [] := by decide +kernel
/-- The page has gone to the second tier. -/
def away : State :=
  { paged with
    mem := Mem.writeLE paged.mem 0x5000 8 0x0800100000000002
    parts := paged.parts.setIfInBounds 0 { (paged.part 0) with tierSets0 := 1 }
    hw := { tlb := [] } }
theorem witness_tierin_away : ((numbered away).tierPages away.agent false 64 16385 0).1 ≠ [] := by decide +kernel

/-- Domain 1 holds core 0 in partition 0 and is valid; its barrier has the task as a member. -/
def party : State :=
  openLine { reg (reg base 5 0) 6 (BitVec.ofNat 64 (1 + 16 * 2 ^ 16 + 16 * 2 ^ 32)) with
    domains := base.domains.setIfInBounds 1
      { mask := #v[1, 0], part := #v[0, 0], valid := #v[true, true], bar := { members := [(0, 0)] } }
    barriers := [(0, { members := [(0, 0), (7, 1)] })] } 0x1000 []

/-- Barriers: a member of b0 and of a domain, no member, a full domain, an arrival before, and waits of each kind. -/
theorem witness_barriers : mayName party { md := 4, a := 1 } ∧ ¬ mayName party { md := 4, a := 2 } ∧ mayName party { a := 31 } ∧
    (party.barrier (barrierNo party { a := 0 })).members.any (fun m => m.1 == 0) = true ∧
    (party.barrier (barrierNo party { a := 31 })).members.any (fun m => m.1 == 0) = false ∧
    (party.domain 1).admits 0 = true ∧ (party.domain 1).admits 1 = false ∧
    (afterArrival (party.barrier 0) 0 0 false).1.arrived.any (fun m => m.1 == 0) = true ∧
    (afterArrival (party.barrier 2049) 0 0 false).2 = true ∧ party.k.loop.running = false ∧
    (party.barrier 0).members.length < 1024 ∧ ¬ (0 ∈ (party.barrier 0).releasing) ∧ (party.barrier 0).phase ≠ 1 :=
  ⟨by unfold mayName; decide, by unfold mayName; decide, by unfold mayName; decide, by decide, by decide, by decide, by decide, by decide,
    by decide, by decide, by decide, by decide, by decide⟩

/-- An open window of core 0 with a send and a receive slot, at a cycle. -/
def win : Window :=
  { domain := 1, phase := 1, lead := 16, slen := 16, nslot := 2, opened := true, sched := [0x401, 0x04010000] }
def inWin (now : Word) : State := { party with k := { party.k with window := some win }, cycle := now }

/-- Exchanges: an XOPEN that may enter, in a window, and open; slots before, in and after their time; the window's end. -/
theorem witness_exchanges : (party.enterExchange { d := 3, a := 1, b := 5, c := 6, md := 4 }).isOk = true ∧ party.ctx.hold = none ∧
    (slotWord win 0).getLsbD 10 = true ∧ bits (slotWord win 0) 0 10 = 1 ∧ ¬ (0 ∈ win.sent) ∧
    win.t0 + win.lead + 0 * win.slen ≤ (inWin 16).cycle.toNat ∧ (inWin 16).cycle.toNat < win.t0 + win.lead + 1 * win.slen ∧
    (inWin 15).cycle.toNat < win.t0 + win.lead + 0 * win.slen ∧ (slotWord win 0).getLsbD 26 = false ∧
    (slotWord win 1).getLsbD 26 = true ∧ win.t0 + win.lead + 2 * win.slen ≤ (inWin 48).cycle.toNat ∧ (inWin 48).arrivalDue 1 = false ∧
    (inWin 47).cycle.toNat < win.t0 + win.lead + win.nslot * win.slen ∧ (inWin 48).anyArrivalDue win = false ∧
    handles (inWin 15) = true := by decide

/-! The dispatch queue. -/

/-- DispatchQueue: each check refuses, all pass, and the queue is full. -/
theorem witness_dispatch : (posting pair (.vadd { d := 1, a := 2, b := 3 })).any (fun p => p.record && p.format && p.shape) = true ∧
    (posting pair (.vadd { d := 1, a := 2, b := 9 })).any (fun p => !p.record) = true ∧
    (posting pair (.vand { d := 1, a := 2, b := 3 })).any (fun p => p.record && p.format) = true ∧
    (posting (tensors pair [(3, ten 128 16 8 2)]) (.vand { d := 1, a := 2, b := 3 })).any (fun p => p.record && !p.format) = true ∧
    (posting (tensors pair [(3, ten 128 16 0 3)]) (.vadd { d := 1, a := 2, b := 3 })).any (fun p => p.record && p.format && !p.shape) = true ∧
    reduces4 (.vred4 {}) = true ∧ pair.k.mvuq.length < 16 ∧ handles pair = true := by decide

/-- A core asked to stop. -/
def asked (s : State) : State := { s with hw := { s.hw with preempting := some { part := 0 } } }

/-- A queue whose only entry is an instruction with its captured tensors, served by every arbiter of the quad. -/
def entryOf (i : Instr) (stage : EntryStage) : Entry :=
  { instr := i, guard := true, pc := 0x1000, seq := 1, stage := stage,
    tens := [(1, ten 0 16 0 2), (2, ten 64 16 0 2), (3, ten 128 16 0 2)] }
def filled (e : Entry) : State :=
  { base with
    k := { base.k with mvuq := [e] }
    arbiters := [(0, { grant := some 0 }), (1, { grant := some 0 }), (2, { grant := some 0 })] }
theorem filled_here (e : Entry) : here (filled e) ∧ queued (filled e) e [] :=
  ⟨⟨rfl, rfl, by simp [filled, base, State.reset]⟩, rfl, fun _ h => by cases h⟩
theorem filled_served (e : Entry) (r : Nat) (h : r < 3) : served (filled e) (some r) := by
  intro q hq
  cases hq
  match r, h with
  | 0, _ | 1, _ | 2, _ => simp [filled, base, State.reset, Tbl.getD, Tbl.find]

theorem ten_no_overlap : noOverlap (ten 0 16 0 2) := by
  intro m n hm hn hne
  have h2 : tCount (ten 0 16 0 2) = 2 := by decide
  rw [h2] at hm hn
  interval_cases m <;> interval_cases n <;> first | exact absurd rfl hne | decide

/-- VectorIntegers: two elements, source and destination apart. -/
theorem witness_vectors : let e := entryOf (.vadd { d := 1, a := 2, b := 3, sat := true }) .waiting
    ready e ∧ e.cycles ≤ 128 ∧ Claims.free (filled e) ∧ (tFmt (ten 0 16 0 2)).toNat < 8 ∧ Claims.inBounds (ten 0 16 0 2) ∧ Claims.inBounds (ten 64 16 0 2) ∧
    noOverlap (ten 0 16 0 2) ∧ fitsShape (ten 0 16 0 2) (ten 64 16 0 2) = true ∧ apart (ten 0 16 0 2) (ten 64 16 0 2) ∧
    apart (ten 0 16 0 2) (ten 128 16 0 2) ∧ (filled e).k.localMem.wf = true :=
  ⟨⟨rfl, rfl, fun h => by cases h⟩, by decide, by unfold Claims.free; decide, by decide, by unfold Claims.inBounds; decide, by unfold Claims.inBounds; decide, ten_no_overlap,
    by decide, by unfold apart; decide, by unfold apart; decide, rfl⟩

/-- EntryStarts: an entry of each resource, one that is not served, one of more than a quantum, and a core that is to stop. -/
theorem witness_entries : 128 < ({ entryOf (.mzero { a := 4, b := 5 }) .waiting with y := 200 } : Entry).cycles ∧
    (entryOf (.mzero {}) .started).product = none ∧ ¬ Claims.free (asked (filled (entryOf (.mzero {}) .waiting))) ∧
    ready (entryOf (.mzero { a := 4, b := 5 }) .waiting) ∧ ready (entryOf (.kpop { d := 3, a := 15 }) .waiting) ∧
    ready { entryOf (.mma { a := 1, b := 2 }) .waiting with decided := true } ∧
    (∃ d v, maskResult base (.knot { d := 15, a := 15 }) = some (d, v)) ∧
    ¬ served { filled (entryOf (.mma {}) .waiting) with arbiters := [] } (some 0) :=
  ⟨by decide, rfl, by unfold Claims.free; decide, ⟨rfl, rfl, fun h => by cases h⟩, ⟨rfl, rfl, fun h => by cases h⟩,
    ⟨rfl, rfl, fun _ => rfl⟩, ⟨_, _, rfl⟩, fun h => by have := h 0 rfl; revert this; decide⟩

/-- QuadEvents: a core that wants its grant, one that is next in turn, a decision, a chunk, and entries to retire. -/
theorem witness_quad : let s := filled (entryOf (.vadd { d := 1, a := 2, b := 3 }) .waiting)
    s.wants 0 1 = true ∧ s.wants 3 1 = false ∧ s.stopping 3 = false ∧ (s.kernOf 0).quantumDue 1 = false ∧
    (entryOf (.mma { a := 1, b := 2 }) .waiting).decided = false ∧
    ({ entryOf (.mma { a := 1, b := 2 }) .started with todo := [0] } : Entry).todo = 0 :: [] ∧
    (filled { entryOf (.mma { a := 1, b := 2 }) .started with todo := [0] }).k.quantumDue 0 = false ∧
    (({ entryOf (.mma { a := 3, b := 2 }) .started with todo := [0], tens := [(3, ten 0 16 9 2)] } : Entry).product.any
      (fun p => size (tFmt p.1.a) == 2)) = true ∧
    (filled { entryOf (.mma { a := 3, b := 2 }) .started with todo := [0], tens := [(3, ten 0 16 9 2)] }).k.quantumDue 0 = true ∧
    (entryOf (.kpop { d := 33 }) .finished).result.fault = none ∧
    ({ entryOf (.mma {}) .finished with result := { fault := some (14, 0) } } : Entry).result.fault = some (14, 0) := by decide

/-! Faults, tasks and queues as events. -/

def pendingFault : Pending := { source := 1, cause := 14, sub := 0, addr := 0x1000, seq := 1, record := 0 }
/-- AsyncFaults: a fault to take, and a context that waits. -/
theorem witness_async : let s : State := { base with k := { base.k with pending := [pendingFault] } }
    handles s = true ∧ s.ctx.live = true ∧ s.ctx.hold = none ∧ pendingFault.source ≠ 9 ∧
    (s.wait .condition).ctx.hold ≠ none := by decide

/-- TaskEvents: a drained task and one that is not; PREEMPT taken and ignored; a save, a refusal for want of a Locket, and of a
window that is open; a window at its end; a member that is not the last, and the last. -/
theorem witness_tasks : (slotted.wait .done).drained = true ∧ (slotted.wait .done).k.window = none ∧
    ({ slotted with k := { slotted.k with peers := [{ live := true, slot := 0 }] } } : State).k.peers ≠ [] ∧
    (slotted.parts.getD 0 {}).preempt.getLsbD 63 = false ∧ (slotted.parts.getD 0 {}).clusters.getLsbD 0 = true ∧
    (base.parts.getD 0 {}).clusters.getLsbD 0 = false ∧ (asked slotted).hw.preempting = some { part := 0 } ∧
    (slotted.parts.getD 0 {}).freeLocket = some 0 ∧ (team.parts.getD 0 {}).freeLocket = none ∧
    win.t0 + win.lead + win.nslot * win.slen ≤ (inWin 48).cycle.toNat ∧ (asked (inWin 47)).hw.preempting ≠ none ∧
    (Tbl.getD (team.parts.getD 0 {}).scopes 0 {}).state = .opened ∧ (Tbl.getD (base.parts.getD 0 {}).scopes 0 {}).state = .free ∧
    (Tbl.getD ({ scopes := [(1, { state := .closed, kind := 4, count := 1 })] } : Part).scopes 1 {}).count ≤ 1 := by decide

/-- A record of a serving queue, Ready; core 0 is idle and serves queue 0. -/
def idle : State :=
  { team with
    ctx := {}
    k := {}
    hw := { serveq := 0x1000000000 }
    mod := { team.mod with boot := .running }
    queues := [(0, { ctl := 0x3000000000001, slots := [(3, { img := 0, state := .ready })] })] }
/-- QueueEvents: a doorbell read and answered, and refused; a core with a record to take and one with none; arrivals at a record
with one and with two to come; a withdrawal from a waiting record. -/
theorem witness_queues : team.engineOwner 0 = some 0 ∧ base.engineOwner 0 = none ∧ team.replayOn 0 = false ∧ idle.isIdle 0 = true ∧
    idle.hw.reservation = none ∧ base.isIdle 0 = false ∧ (idle.popOf 0 idle.hw.serveq).isSome = true ∧
    ({ idle with queues := [] } : State).popOf 0 0 = none ∧ idle.phasedChoice 0 = none ∧
    idle.byTag (tagOf 0 3 0) = some { img := 0, state := .ready } ∧ idle.queueForeign 0 0 = false ∧
    bits (BitVec.ofNat 512 (2 * 2 ^ 256) : Word512) 256 16 = 2 ∧ bits (idle.genOf 0 3) 0 3 = bits (3 : Word) 29 3 ∧
    idle.record? 0 3 ≠ none ∧ idle.record? 0 4 = none := by decide
/-- QueueEvents: a doorbell's packet is read where the partition's pages are there. -/
def door : State := { paged with queues := team.queues, cmd := { value := 0x40 } }
theorem witness_doorbell : (door.engineRead 0 0x40 16).isOk = true ∧ (door.engineWrite 0 (0x40 + 120) (failure 9)).isOk = true ∧
    (door.engineRead 0 0x200000 16).isOk = false := by decide +kernel

/-! Pages, homes and engines. -/

def paging (st : MoveStage) : State :=
  { paged with pages := [(0x5000, { stage := st, oldLeaf := 0x20102, newFrame := 0x30000, target := 1, settle := some 5 })], cmd := { addr := 0x5000 } }
/-- PageEvents and MoveEvents: a request answered and an unknown one; a page at each stage; a walk whose leaf may move; settles. -/
theorem witness_pages : (paging .pageIn).mod.portsDown = [] ∧ noTierins (paging .pageIn) ∧
    bits (entryAt { paging .pageIn with mem := away.mem } 0x5000) 0 2 = 2 ∧
    leafTier (entryAt { paging .pageIn with mem := away.mem } 0x5000) = 1 ∧ (paging .pageIn).poolAsked 0 0 = false ∧
    (paging .pageIn).takeFrame 0 (fun _ => true) = none ∧
    (paging .pageOut).storesHeld (inFrame 0x20000) = false ∧ ((paging .streaming).page 0x5000).oldLeaf = entryAt (paging .streaming) 0x5000 ∧
    leafChk 0x20102 = false ∧ (paging .streaming).mem.wf = true ∧ 0x5000 + 8 ≤ 0x30000 ∧
    (paging .forwarding).ownsCluster 0 0 = true ∧ (paging .none).cycle.toNat < 5 ∧
    5 ≤ ({ paging .none with cycle := 5 } : State).cycle.toNat ∧
    ({ shootdown := 0x8000000000000001 } : Part).shootdown.getLsbD 63 = true ∧
    ({ requests := [{ seq := 7, image := 0, written := true, parked := some 0 }] } : Part).requests.find? (fun r => r.seq == 7) =
      some { seq := 7, image := 0, written := true, parked := some 0 } := by
  refine ⟨by decide, ⟨rfl, fun _ h => by cases h⟩, by decide, by decide, by decide, by decide, by decide, by decide, by decide, by decide,
    by decide, by decide, by decide, by decide, by decide, by decide⟩
/-- A pool whose first entry holds a frame of this module. -/
def pooled (st : MoveStage) : State :=
  { paging st with
    mem := Mem.writeLE (paging st).mem 0x8000 8 0x30001
    parts := paged.parts.setIfInBounds 0 { (paged.part 0) with freepool := 0x8000 } }
theorem witness_pool : ((pooled .holding).takeFrame 0 (fun f => (pooled .holding).hbmOwned 0 f)).isSome = true ∧
    movablePage 0x20102 0 ∧ leafTier 0x20102 = 0 ∧ ¬ movablePage 0x20102 1 :=
  ⟨by decide +kernel, ⟨rfl, by decide⟩, by decide, fun h => by cases h.1⟩

/-- HomeEvents: an STNT of eight bytes, a write at a home and one that has none, a request that is owned, a held line, a block to release,
and a scope to free. -/
theorem witness_homes : (let nt := (after (.stntI64 { d := 4, a := 5, ty := 3 }) (reg base 4 0x10100)).ctx.nt
      nt.length = 8 ∧ nt.all (fun b => b.space == .globalMem && b.order == (nt.headD { space := .localMem, addr := 0, byte := 0 }).order)) ∧
    mapAt (modl (fun m => { m with homemap := 0x4000 })) = 0x4000 ∧ base.fenced = [] ∧ base.waiters 2 = [] ∧
    bits (entryAt (paging .holding) 0x5000) 0 2 = 2 ∧ leafTier (entryAt (paging .holding) 0x5000) = 0 ∧
    staysOpen base (BitVec.ofNat 64 (14 * 2 ^ 44)) 32 ∧
    modOf 0x40 = base.modNo ∧ inHbm 0x40 = true ∧ ¬ (2 ^ 52 ≤ 0x40) ∧ paged.hbmOwned 0 0x40 = true ∧ (told { core := 2 ^ 14 }).cmd.core / 2 ^ 14 ≠ base.modNo ∧
    ({ base with recBlocks := [0] } : State).recBlocks.contains (bits (0 : Word) 21 31) = true ∧
    base.recBlocks.contains 0 = false ∧ team.scopeEngine 0 = some 0 ∧
    Tbl.getD ({ base with hot := [(0, [{ addr := 1 }])] } : State).hot 0 [] = { addr := 1 } :: [] ∧
    (Tbl.getD ({ scopes := [(1, { state := .complete, kind := 4 })] } : Part).scopes 1 {}).state = .complete := by
  refine ⟨by decide, by decide, rfl, rfl, by decide, by decide, Or.inl (by decide), ?_⟩
  decide

def cpy (dst src : Word512) : Copy :=
  { pc := 0x1000, seq := 1, dstId := 1, dst := dst, src := src, links := [], displaced := false, agent := {} }
def chanOf (x : Copy) (stopped : Bool) : State := onChan base 7 (fun c => { c with queue := [x], stopped := stopped })
/-- EngineEvents: a copy to start, one that leaves its buffer, an element to deliver; a request of the indirect engine. -/
theorem witness_engines : (chanOf (cpy (ten 0 16 0 2) (ten 64 16 0 2)) false).canStart (cpy (ten 0 16 0 2) (ten 64 16 0 2)) = true ∧
    (cpy (ten 0 16 0 2) (ten 64 16 0 2)).boundsFault = none ∧ ((cpy (ten 0 1 0 2) (ten 64 16 0 2)).boundsFault).isSome = true ∧
    elemIn (ten 0 16 0 2) (tupleOf (ten 0 16 0 2) 1) = true ∧ elemAddr (ten 0 16 0 2) (tupleOf (ten 0 16 0 2) 1) < 2 ^ 64 ∧
    tCount (ten 0 16 0 2) = 2 ∧ tSpace (ten 0 16 0 2) = 0 ∧ base.waiterOf 15 = none := by decide

/-- ExchangeEvents: a barrier to release, a domain to make and one to clear, and arrivals expected and not. -/
theorem witness_exchange_events : ({ party with barriers := [(0, { releasing := [0] })] } : State).barrier 0 = { releasing := [0] } ∧
    (party.barrier 2049).releasing = [] ∧ (party.domain 1).valid.getD 0 false = true ∧ (party.domain 2).valid.getD 1 false = false ∧
    (slotWord win 1).getLsbD 26 = true ∧ bits (slotWord win 1) 16 10 = 1 ∧ win.store = [] := by decide
theorem witness_stands : standsAt { (inWin 16).latch (encode (.xsend { a := 18, b := 15, c := 13 })) with cmd := {} }
    (.xsend { a := 18, b := 15, c := 13 }) := ⟨by decide, by decide, by decide, by decide, by decide⟩

/-! The control space and the module. -/

/-- RegisterWrites: an owner's write and another's; a partition to start, one that names no unit, one whose unit is taken, and
one that drains; sampling off and on; error records that wait; BUSY set and clear. -/
theorem witness_registers : team.engineOwner (0 / 64) = some (bits (0 : Word) 52 4) ∧ base.engineOwner 0 ≠ some 0 ∧
    bits (0x100 : Word) 8 8 ≠ 0 ∧ (team.parts.getD 0 {}).clusters ≠ 0 ∧
    (team.parts.getD 0 {}).scopes = [(0, { state := .opened, kind := 4 })] ∧ (team.parts.getD 0 {}).draining = false ∧
    base.mod.sampctl.getLsbD 0 = false ∧ bits (0x8000 : Word) 15 37 ≠ 0 ∧ base.mod.errWait = [] ∧ base.mod.attest.getLsbD 63 = false ∧
    (modl (fun m => { m with attest := 0x8000000000000200 })).mod.attest.getLsbD 63 = true ∧ base.appMem.wf = true ∧
    1000 ≤ bits (2400 : Word) 0 16 ∧ bits (2401 : Word) 0 16 > 2400 ∧ (0x11008 - 0x10000) / 0x1000 = 1 ∧ 0x11008 % 0x1000 = 0x08 ∧
    base.coreNo < 768 := by decide
theorem witness_units : elsewhereOwned team 1 (fun q => engines q.ctl) (engines 0x100) ∧ quiet base 0 ∧
    ¬ elsewhereOwned base 1 (fun q => q.clusters) 1 := by
  have none : ∀ o, o < 16 → (base.parts.getD o {}).clusters = 0 := by decide
  refine ⟨⟨0, 0, by decide, by decide, by decide, by decide, by decide⟩, ⟨?_, ?_⟩, ?_⟩
  · intro c hc _
    have h0 : c = 0 := by simpa [State.coreList, base, State.reset] using hc
    subst h0
    exact absurd ‹_› (by decide)
  · intro x hx
    simp [State.recordsOf, base, State.reset] at hx
  · rintro ⟨o, b, ho, _, _, h, _⟩
    have h1 : ((base.parts.getD o {}).clusters).getLsbD b = true := h
    rw [none o ho] at h1
    simp at h1

/-- A container of one function without a level. -/
def container : List Byte :=
  [0x54, 0x48, 0x41, 0x51, 1, 0, 1, 0] ++ bytesOfNat 8 64 ++ bytesOfNat 8 192 ++ List.replicate 40 0 ++ bytesOfNat 8 128 ++ List.replicate 120 0

/-- ModuleEvents: a ring that is full and one with room; a unit of each kind of error; boot at each state; a link and the last
link of a module; a port; a DMA that translates and one that does not; bytes that are no container. -/
theorem witness_module : (modl (fun m => { m with sampctl := 0x8101, samptail := 1 })).mod.sampctl.getLsbD 0 = true ∧
    base.mod.sampNext ≤ base.cycle.toNat ∧ 2 ^ bits (0x8101 : Word) 10 5 = ((1 : Word) - 0).toNat ∧
    ((0 : Word) - 0).toNat ≠ 2 ^ bits (0x8101 : Word) 10 5 ∧ containerBad container = false ∧ bits base.mod.homemap 12 40 = 0 ∧
    errorUnit (told { part := 5, unit := 1535, flag := true }) .pseudoChannel ∧ errorUnit (told { part := 1, unit := 767 }) .core ∧
    errorRoom (modl (fun m => { m with errring := 0x1000 })) ∧ base.isFenced .pseudoChannel 1535 = false ∧
    base.mod.boot = .reset ∧ (modl (fun m => { m with boot := .rom })).mod.boot = .rom ∧
    Tbl.find (modl (fun m => { m with links := [(0, 5), (17, 5)] })).mod.links 17 = some 5 ∧
    Tbl.find base.mod.links 0 = none ∧ base.pages = [] ∧ field [] 0 4 ≠ 0x51414854 ∧ base.mem.wf = true ∧ base.recBlocks = [] := by
  refine ⟨by decide, by decide, by decide, by decide, by decide, by decide, by unfold errorUnit; decide, by unfold errorUnit; decide, by unfold errorRoom; decide,
    by decide, by decide, by decide, by decide, by decide, by decide, by decide, by decide, by decide⟩
theorem witness_dma : paged.awaited 0x20040 = false ∧ (paged.engineXlate 0 0x40 true).isOk = true ∧ (base.engineXlate 0 0x40 true).isOk = false ∧
    (paged.dmaTargets 0 0x40 false 2).isOk = true := by decide +kernel

/-! The decoder, the step and the invariant. -/

theorem witness_round_trip : (Instr.ldacqW96 { d := 63, a := 63, da := 7, opt := 5, ty := 12, lit := 0x80000000 }).wellFormed = true ∧
    encode (.ldacqW96 { d := 63, a := 63, da := 7, opt := 5, ty := 12, lit := 0x80000000 }) ≠ [] := by decide
theorem witness_decoded : decode [0xAC000000#32, 0#32] = .ok (.eret {}) ∧ (encode (.eret {})).length ≤ 2 := by decide

/-- A context at a line whose first instruction is ADD s3, s3, -1. -/
def ready1 : State := openLine base 0x1000 [0x040C3FFF]
theorem witness_step : ready1.stopsHere = false ∧ ready1.unitTurn = false ∧ ready1.due = none ∧
    ready1.ctx.entry = false ∧ ready1.ctx.hold = none ∧ ready1.k.pending = [] ∧ ready1.loopAt .starting = false ∧ ready1.loopAt .complete = false ∧
    ready1.agenda = [] ∧ (match ready1.fetch with
      | .ok (ps, s1) => decode ps == .ok (.addI32 { d := 3, a := 3, imm := 0xFFF }) && s1.breakpoint false == none && s1.ctx.hold == none &&
          !(s1.awaitsMask (.addI32 { d := 3, a := 3, imm := 0xFFF }))
      | .error _ => false) = true := by decide
theorem witness_progress : base.coreNo < 768 ∧ 768 ≤ ({ base with coreNo := 768 } : State).coreNo := by decide
theorem witness_invariant : sound base ∧ ordinary base (.stI32 { d := 4, a := 5 }) ∧ ordinary base (.aadd {}) :=
  ⟨⟨by decide, ⟨by decide, by decide, by decide⟩, by decide, by decide, fun _ h => by cases h⟩, by simp [ordinary, storing],
    by simp [ordinary, atomicFn]⟩

/-! What has to wait, and what is on its way. -/

/-- A request of another module that waits at line 1025, where an STNT of the context lies. -/
def waitingLine : State :=
  let r : LineReq := { ident := 0, tag := none, addr := 65600, size := 8, ty := 3, sat := false, op := 1, value := 7, expect := 0 }
  { base with
    hot := [(0, [{ addr := 1025, waiting := [r] }])]
    ctx := { base.ctx with nt := [{ space := .globalMem, addr := 65600, byte := 1 }] } }

/-- Stores, Atomics, Fences, Helpers, TaskEvents and HomeEvents: no byte of an STNT waits, and one that does; a write at an awaited
line; a line with a place for one more request. -/
theorem witness_awaited : ntFree base ∧ ¬ ntFree waitingLine ∧ waitingLine.awaited 65600 = true ∧ waitingLine.linesWait 65536 = true ∧
    base.linesWait 65536 = false ∧ waitingLine.waitCount 1025 < 64 ∧ waitingLine.waiters (2 * 1025) = [] ∧
    ({ waitingLine with ctx := { waitingLine.ctx with slot := 9 }, k := { waitingLine.k with peers := [{ live := true }] } } :
      State).ntBlocked = true := by
  refine ⟨by decide, by decide, by decide, by decide, by decide, by decide, by decide, by decide⟩

/-- A one-level body runs, and an instruction of an earlier iteration is still on its way. -/
def heldBack (ph : LoopPhase) : State :=
  { inLoop ph with k := { (inLoop ph).k with unreleased := [{ work := .skipped, outer := false }] } }

/-- Iterations, CopyInstructions, IndirectInstructions, DispatchQueue and Fences: in a body, behind work that is on its way and
with none; a loop that has to wait for it. -/
theorem witness_unreleased : (heldBack .complete).k.unreleased ≠ [] ∧ (heldBack .running).inBody = true ∧ (inLoop .running).inBody = true ∧
    base.inBody = false ∧ (heldBack .complete).commitHeld [] = ([], heldBack .complete) ∧ base.k.unreleased = [] ∧
    base.k.mvuq.length + base.ownHeld ≤ 0 := by decide

/-- PlacementInstructions: an address of the window, one past its end, and one that has no page. -/
def windowed : State :=
  { paged with k := { paged.k with heaplim := 0x20000 }, mod := { paged.mod with homemap := 0x6000 } }
theorem witness_window : inWindow windowed.agent 0x40 = true ∧ (windowed.windowTarget windowed.agent 0x40 1).isOk = true ∧
    (windowed.windowTarget windowed.agent 0x20000 1).isOk = false ∧ inWindow paged.agent 0x40000 = false ∧
    (match paged.walk 0 0 0x100000000 with | (.leaf .., _) => false | _ => true) = true := by decide +kernel

/-- ScopeInstructions: a descriptor of the page that is there, good and bad, and one of the page that is away. -/
theorem witness_descriptor :
    (match paged.engineRead 0 0x40 8 with | .ok bs => descBad (BitVec.ofNat 512 (natOfBytes bs)) | .error _ => false) = true ∧
    descBad (BitVec.ofNat 512 (64 * 2 ^ 64 + 2 ^ 192)) = false ∧
    (match away.engineRead 0 0x40 8 with | .error (.tierMiss at' va) => at' == 0x5000 && va == 0x40 | _ => false) = true ∧
    (match away.engineXlate 0 0x40 true with | .error (.tierMiss at' _) => at' == 0x5000 | _ => false) = true ∧
    (away.page 0x5000).stage = .none := by decide +kernel

/-- TaskInstructions and TaskEvents: a record whose task runs; a task without a slot whose queue is full; a withdrawal counted. -/
theorem witness_running : (slotted.byTag 0).any (fun r => r.state == .running) = true ∧ slotted.queueForeign 0 0 = false ∧
    slotted.freeSlotOf 1 ≠ none ∧ mayEnd slotted ∧
    ({ team with queues := [(0, { ctl := 0x3000000000001, slots := (List.range 64).map (fun i => (i, { img := 0, state := .ready })) })] } :
      State).freeSlotOf 0 = none :=
  ⟨by decide, by decide, by decide, ⟨fun c hc => by simp [slotted, team, reg, base, State.reset] at hc; subst hc; decide, by decide, Or.inl rfl⟩,
    by decide⟩

/-- QueueEvents: at the last arrival, a record that needs no more producers; a dispatch whose lines are awaited, and one whose are not. -/
theorem witness_last_arrival :
    let img : BitVec 512 := BitVec.ofNat 512 (2 ^ 243 + 2 ^ 256 + 2 ^ 272)
    img.getLsbD 243 = true ∧ bits img 256 16 = 1 ∧ img.getLsbD (272 + 0) = true ∧ idle.headerWaits 0 { img := 0, state := .ready } = false ∧
    idle.headersWait 0 1 { img := 0, state := .ready } = false := by decide +kernel
theorem witness_header_waits :
    ({ door with hot := [(0, [{ addr := 0x20040 / 64, waiting := [(waitingLine.hot.headD (0, [])).2.headD { addr := 0 } |>.waiting.headD
      { ident := 0, tag := none, addr := 0, size := 8, ty := 0, sat := false, op := 0, value := 0, expect := 0 }] }])] } :
      State).headerWaits 0 { img := BitVec.ofNat 512 (0x40 * 2 ^ 64), state := .ready } = true := by decide +kernel

/-- PageEvents and MoveEvents: a page-in that has asked for frames and one that has not; a frame and an entry that meet nothing else;
a page that a loop's stores do not hold. -/
theorem witness_pagein : ({ stage := .pageIn, starved := some 0 } : Page).starved.any (base.poolAsked 0) = false ∧
    starving { base with parts := base.parts.setIfInBounds 0 { requests := [{ seq := 1, image := 0, written := true, pool := some 0 }] } }
      { stage := .pageIn, starved := some 0 } = true ∧
    alone (paging .pageIn) 0x5000 0x30000 ∧ (paging .pageIn).isStranded 0x5000 = false ∧
    entryAt (performed (paging .streaming) 0x20000) 0x5000 = 0x20102 ∧ (paging .forwarding).pagedHeld 0 0 65536 = false ∧
    (paging .pageOut).mem.wf = true := by
  have pools : ∀ p, bits ((paging .pageIn).part p).freepool 12 40 = 0 := by
    intro p
    by_cases h : p < 16
    · revert p; decide
    · simp [State.part, paging, paged, base, State.reset, h, Vector.getD, bits]
  have apart : ∀ a n, aside (paging .pageIn) a n := fun a n =>
    ⟨fun p i h => absurd (pools p) h, fun q slot r h => by
      simp [State.record?, State.queue, paging, paged, base, State.reset, Tbl.getD, Tbl.find] at h⟩
  exact ⟨by decide, by decide, ⟨Or.inl (by decide), apart _ _, apart _ _⟩, by decide, by decide, by decide, by decide⟩

/-- ExchangeEvents: a context that waits at a domain for the phase that runs, and one that waits for a phase long gone. -/
theorem witness_domain_wait : (party.domain 1).bar.phase = 0 ∧ ¬ ((party.domain 1).bar.phase = 5 ∨ 5 ∈ (party.domain 1).bar.releasing) ∧
    win.phase = 0 + 1 := by decide

/-- ModuleEvents: HEALTH is due, and is not; a mean that lies under a high cap, and, unless it is 0, over a cap of 0; an image to try. -/
theorem witness_power : ({ base with cycle := 0x40000000 } : State).healthDue = true ∧ base.healthDue = false ∧
    (∀ n : Nat, (base.meanAt n).toNat < 2 ^ 40) ∧
    (∀ n : Nat, base.meanAt n ≠ 0 → (modl (fun m => { m with powercap := 0 })).mod.powercap.toNat < (base.meanAt n).toNat) ∧
    10 ≤ ({ base with cycle := 0xFFFFFFFFFF } : State).sinceClock ∧ (told { bytes := [1] }).cmd.bytes ≠ [] := by
  refine ⟨by decide, by decide, fun n => ?_, fun n h => ?_, by decide, by decide⟩
  · have := (base.meanAt n).isLt
    omega
  · have : (base.meanAt n).toNat ≠ 0 := fun h0 => h (BitVec.eq_of_toNat_eq h0)
    simpa [modl] using Nat.pos_of_ne_zero this

/-- Apertures: local memory that a started entry of the dispatch queue holds, and a line of cluster memory with a request before. -/
def multiplying : State :=
  { base with k := { base.k with mvuq := [{ instr := .vadd {}, guard := true, pc := 0, seq := 1, tens := [(1, ten 0 64 0 2)] }] } }
def lineTaken : State :=
  let r : LineReq := { ident := 0, tag := none, addr := 2 ^ 52, size := 8, ty := 3, sat := false, op := 1, value := 7, expect := 0 }
  { base with cycle := 1, hot := [(0, [{ addr := 2 ^ 46, waiting := [r] }])] }
theorem witness_line_turns : multiplying.mvuBusy 0 8 = true ∧ lineTaken.lineBusy .ls 0 (2 ^ 46) = true ∧
    base.lineBusy .ls 0 (2 ^ 46) = false := by decide

/-- Helpers: HEXIT_G64 with a guard that fails, in a helper and in a control context. -/
theorem witness_guarded_exit : let s := helping.latch [0x41080000#32, 0]
    let t := base.latch [0x41040000#32, 0]
    ¬ runs s s.latchedGuard.1 s.latchedGuard.2 ∧ ¬ runs t t.latchedGuard.1 t.latchedGuard.2 := by unfold runs; decide

/-- Barriers, ExchangeEvents and DispatchQueue: a wait whose phase a cleared domain had ended, and one that it lost; a handler of a
suspended loop that posts. -/
theorem witness_released : (base.wait (.released 5)).ctx.hold = some (.released 5) ∧
    (party.wait (.barrier 2049 0)).ctx.hold = some (.barrier (2048 + 1) 0) ∧
    (let s := { heldBack .running with k := { (heldBack .running).k with loop := { (heldBack .running).k.loop with susp := true } } }
     s.k.mvuq.length < 16 ∧ (s.k.unreleased = [] ∨ s.k.loop.susp = true) ∧ s.k.loop.running = false) := by decide

/-- ModuleEvents: a root port with a partition and one without; a DMA that meets a tier miss and one that traps; a copy of each
kind that an error discards; power above its cap and below it; a last link. -/
def ported (s : State) : State := { s with mod := { s.mod with rootPorts := [(3, 0)] } }
theorem witness_root_ports : Tbl.find base.mod.rootPorts 3 = none ∧ Tbl.find (ported paged).mod.rootPorts 3 = some 0 ∧
    (match (ported away).engineXlate 0 0x40 true with | .error (.tierMiss leaf _) => ((ported away).page leaf).stage == .none | _ => false) = true ∧
    (match (ported base).engineXlate 0 0x40 true with | .error (.trap ..) => true | _ => false) = true := by decide +kernel
theorem witness_discards : errorUnit (told { part := 3, unit := 0 }) .cluster ∧ errorUnit (told { part := 6, unit := 16383 }) .shared ∧
    Tbl.getD ({ base with hot := [(0, [{ addr := 1 }])] } : State).hot 0 [] = [{ addr := 1 }] ∧
    (base.focusCore 0).outstandingTo 5 = none ∧ base.late = [] := by
  refine ⟨by unfold errorUnit; decide, by unfold errorUnit; decide, by decide, by decide, by decide⟩

end Sys2Proof.Tests
end

/-! Every step goes on (`Obligations.Progress`): no meaning of an instruction or event, and no turn, answers anything but a next
state. -/

namespace Sys2Proof.Machine

/-- The outcome is a next state. -/
def GoesOn (o : Host.Outcome State Fault Refusal) : Prop := ∃ t, o = .next t

theorem goesOn_next (t : State) : GoesOn (.next t) := ⟨t, rfl⟩

theorem GoesOn.ite {c : Prop} [Decidable c] {a b : Host.Outcome State Fault Refusal} (ha : GoesOn a) (hb : GoesOn b) :
    GoesOn (if c then a else b) := by
  split
  · exact ha
  · exact hb

theorem goesOn_turnAfter {o : Host.Outcome State Fault Refusal} (h : GoesOn o) : GoesOn (turnAfter o) := by
  obtain ⟨t, rfl⟩ := h
  exact goesOn_next _

theorem goesOn_rotateAfter {o : Host.Outcome State Fault Refusal} (h : GoesOn o) : GoesOn (rotateAfter o) := by
  obtain ⟨t, rfl⟩ := h
  exact goesOn_next _

/-! Meanings: those whose text chooses between several next states, then all of them. -/

theorem goesOn_pageOutStart (s : State) : GoesOn (execPageOutStart s) := by
  unfold execPageOutStart
  dsimp only
  split
  · exact .ite (goesOn_next _) (goesOn_next _)
  · exact goesOn_next _

theorem goesOn_migrationRequest (s : State) : GoesOn (execMigrationRequest s) := by
  unfold execMigrationRequest
  dsimp only
  split
  · exact .ite (goesOn_next _) (goesOn_next _)
  · exact goesOn_next _

theorem goesOn_indirectChunk (s : State) : GoesOn (execIndirectChunk s) := by
  unfold execIndirectChunk
  dsimp only
  split <;> exact goesOn_next _

theorem goesOn_asyncFaultTaken (s : State) : GoesOn (execAsyncFaultTaken s) := by
  unfold execAsyncFaultTaken
  split
  · exact goesOn_next _
  · exact .ite (goesOn_next _) (goesOn_next _)

theorem goesOn_linkFail (s : State) : GoesOn (execLinkFail s) := by
  unfold execLinkFail
  split
  · exact goesOn_next _
  · exact .ite (goesOn_next _) (goesOn_next _)

/-- Every instruction and event has a next state from every state: but for the five above, its meaning is written as one. -/
theorem goesOn_exec (i : Instr) (s : State) : GoesOn (exec i s) := by
  cases i with
  | pageOutStart => exact goesOn_pageOutStart s
  | migrationRequest => exact goesOn_migrationRequest s
  | indirectChunk => exact goesOn_indirectChunk s
  | asyncFaultTaken => exact goesOn_asyncFaultTaken s
  | linkFail => exact goesOn_linkFail s
  | _ => exact goesOn_next _

/-! The step around an instruction, from the inside out. -/

theorem State.goesOn_perform (s : State) (i : Instr) (c : Cmd) : GoesOn (s.perform i c) :=
  .ite (goesOn_exec _ _) (goesOn_next _)

theorem State.goesOn_issueParcels (s : State) (ps : List Parcel) : GoesOn (s.issueParcels ps) := by
  unfold State.issueParcels
  dsimp only
  split
  · exact goesOn_next _
  · split
    · exact goesOn_next _
    · exact .ite (goesOn_next _) (.ite (goesOn_next _) (goesOn_exec _ _))

theorem State.goesOn_issueNext (s : State) : GoesOn s.issueNext := by
  unfold State.issueNext
  split
  · exact goesOn_next _
  · split
    · exact goesOn_next _
    · exact State.goesOn_issueParcels _ _

theorem State.goesOn_holding (s : State) (w : Wait) : GoesOn (s.holding w) := by
  refine .ite (goesOn_next _) (.ite s.goesOn_issueNext ?_)
  split
  · exact goesOn_exec _ _
  · exact s.goesOn_issueNext

theorem State.goesOn_proceed (s : State) : GoesOn s.proceed := by
  refine .ite (goesOn_exec _ _) ?_
  split
  · exact s.goesOn_holding _
  · exact .ite (goesOn_exec _ _) (.ite (goesOn_exec _ _) s.goesOn_issueNext)

theorem State.goesOn_runContext (s : State) : GoesOn s.runContext :=
  .ite s.goesOn_proceed (.ite (s.goesOn_perform _ _) (.ite s.goesOn_proceed (goesOn_next _)))

theorem State.goesOn_turnOf (s : State) : GoesOn s.turnOf :=
  goesOn_turnAfter (.ite s.goesOn_runContext (goesOn_next _))

theorem State.goesOn_moduleTurnOf (s : State) : GoesOn s.moduleTurnOf := by
  unfold State.moduleTurnOf
  dsimp only
  split
  · exact State.goesOn_perform _ _ _
  · exact State.goesOn_turnOf _

theorem State.goesOn_turnBehind (s : State) : GoesOn s.turnBehind := .ite s.goesOn_moduleTurnOf s.goesOn_turnOf

theorem State.goesOn_engineTurnOf (s : State) : GoesOn s.engineTurnOf := by
  unfold State.engineTurnOf
  dsimp only
  split
  · exact goesOn_rotateAfter (State.goesOn_perform _ _ _)
  · exact State.goesOn_turnBehind _

theorem State.goesOn_unitTurnOf (s : State) : GoesOn s.unitTurnOf := .ite s.goesOn_moduleTurnOf s.goesOn_engineTurnOf

theorem State.goesOn_act (s : State) (a : Act) : GoesOn (s.act a) := by
  cases a with
  | event i c => exact s.goesOn_perform i c
  | run core slot => exact goesOn_next _
  | tick n => exact goesOn_next _

theorem State.goesOn_run (s : State) : GoesOn s.run := by
  unfold State.run
  split
  · exact s.goesOn_perform _ _
  · split
    · exact State.goesOn_act _ _
    · exact .ite s.goesOn_unitTurnOf s.goesOn_turnOf

/-- A step of a core of the module has a next state. -/
theorem goesOn_step {s : State} (h : s.coreNo < Config.cores) : GoesOn (step s) := by
  obtain ⟨t, ht⟩ := s.goesOn_run
  exact ⟨t.pass, step_of_run h ht⟩

/-- A core that does not exist has no step. -/
theorem step_noSuchCore {s : State} (h : Config.cores ≤ s.coreNo) : step s = .fault .noSuchCore := if_pos h

end Sys2Proof.Machine

namespace Sys2Proof.Claims

open Machine

/-- Settles O58: every meaning answers a next state, and so does every turn that a step can take. -/
theorem progress : Obligations.Progress := by
  unfold Obligations.Progress
  exact ⟨goesOn_exec, fun _ => ⟨goesOn_step, step_noSuchCore⟩⟩

end Sys2Proof.Claims

/-! The state after reset (`Obligations.ResetState`). -/

namespace Sys2Proof.Claims

open Machine

/-- The invariant holds at reset: no memory is listed, and no other core. -/
theorem sound_reset : sound State.reset :=
  ⟨by decide, ⟨Mem.wf_nil, Mem.wf_nil, Mem.wf_nil⟩, Mem.wf_nil, Mem.wf_nil, by simp [State.reset]⟩

/-- A vector of one value reads as that value, within its bounds and beyond. -/
theorem getD_replicate {α : Type} (n i : Nat) (a : α) : (Vector.replicate n a).getD i a = a := by
  by_cases h : i < n <;> simp [Vector.getD, h]

theorem queue_reset (q : Nat) : State.reset.queue q = {} := rfl

theorem parts_reset (p : Nat) : State.reset.parts.getD p {} = {} := getD_replicate 16 p _

theorem domains_reset (n : Nat) : State.reset.domains.getD n {} = {} := getD_replicate 64 n _

theorem bpctl_reset (n : Nat) : State.reset.hw.bpctl.getD n 0 = 0 := getD_replicate 4 n _

/-- Settles O59: each register's value is its default in the state, and the invariant is `sound_reset`. -/
theorem resetState : Obligations.ResetState := by
  unfold Obligations.ResetState
  refine ⟨sound_reset, rfl, rfl, rfl, rfl, rfl, fun q => ?_, fun p => ?_, fun n => ?_, rfl, bpctl_reset⟩
  · rw [queue_reset]
    decide
  · rw [parts_reset]
    exact ⟨rfl, rfl⟩
  · rw [domains_reset]
    rfl

end Sys2Proof.Claims

/-! Scalar code keeps the invariant (`Obligations.OrdinaryKeepsInvariant`). One lemma `sound.f` says of each shared operation `f` that it
keeps `sound`; an operation that touches neither a memory nor another core keeps it by definition. An operation that can stop is said to
keep it where it answers (`Answers`, `Finds`). The instructions follow from their shared meanings. -/

namespace Sys2Proof.Claims

open Machine

/-- What a computation answers, if it answers, has the property. -/
def Answers {ε α : Type} (P : α → Prop) (r : Except ε α) : Prop := ∀ a, r = .ok a → P a

/-- What a search finds comes with a state that meets the invariant. -/
abbrev Finds {ε α : Type} (r : Except ε (α × State)) : Prop := Answers (fun x => sound x.2) r

section
variable {ε α β : Type} {P : α → Prop} {Q : β → Prop}

theorem Answers.ok {a : α} (h : P a) : Answers P (.ok a : Except ε α) := by
  intro b e
  cases e
  exact h

theorem Answers.error (e : ε) : Answers P (.error e : Except ε α) := nofun

theorem Answers.ite {c : Prop} [Decidable c] {a b : Except ε α} (ha : Answers P a) (hb : Answers P b) :
    Answers P (if c then a else b) := by
  split
  · exact ha
  · exact hb

theorem Answers.bind {r : Except ε α} {f : α → Except ε β} (hr : Answers P r) (hf : ∀ a, P a → Answers Q (f a)) :
    Answers Q (r >>= f) := by
  cases r with
  | error e => exact .error e
  | ok a => exact hf a (hr a rfl)

/-- The same where nothing need be known of what the first answers. -/
theorem Answers.check {r : Except ε α} {f : α → Except ε β} (hf : ∀ a, Answers Q (f a)) : Answers Q (r >>= f) :=
  Answers.bind (P := fun _ => True) (fun _ _ => trivial) fun a _ => hf a

end

section
variable {s : State}

/-! A choice between two states. -/

theorem sound.ite {c : Prop} [Decidable c] {a b : State} (ha : sound a) (hb : sound b) : sound (if c then a else b) := by
  split
  · exact ha
  · exact hb

theorem sound.iteSnd {α : Type} {c : Prop} [Decidable c] {x y : α × State} (hx : sound x.2) (hy : sound y.2) :
    sound (if c then x else y).2 := by
  split
  · exact hx
  · exact hy

/-! What the invariant says of each memory, and what a change of one needs. -/

theorem sound.mem_wf (h : sound s) : s.mem.wf = true := by
  obtain ⟨_, ⟨hm, _, _⟩, _⟩ := h
  exact hm

theorem sound.clusterMem_wf (h : sound s) : s.clusterMem.wf = true := by
  obtain ⟨_, ⟨_, hc, _⟩, _⟩ := h
  exact hc

theorem sound.localMem_wf (h : sound s) : s.k.localMem.wf = true := by
  obtain ⟨_, ⟨_, _, hl⟩, _⟩ := h
  exact hl

theorem sound.crown_wf (h : sound s) : s.k.crown.wf = true := by
  obtain ⟨_, _, _, hk, _⟩ := h
  exact hk

theorem sound.withMem (h : sound s) {m : Mem} (hm : m.wf = true) : sound { s with mem := m } := by
  obtain ⟨hn, ⟨_, hc, hl⟩, hrest⟩ := h
  exact ⟨hn, ⟨hm, hc, hl⟩, hrest⟩

theorem sound.withClusterMem (h : sound s) {m : Mem} (hm : m.wf = true) : sound { s with clusterMem := m } := by
  obtain ⟨hn, ⟨hg, _, hl⟩, hrest⟩ := h
  exact ⟨hn, ⟨hg, hm, hl⟩, hrest⟩

theorem sound.withLocalMem (h : sound s) {m : Mem} (hm : m.wf = true) :
    sound { s with k := { s.k with localMem := m } } := by
  obtain ⟨hn, ⟨hg, hc, _⟩, hrest⟩ := h
  exact ⟨hn, ⟨hg, hc, hm⟩, hrest⟩

theorem sound.putMem (h : sound s) (a n v : Nat) : sound (s.putMem a n v) := h.withMem (Mem.wf_writeLE h.mem_wf a n v)

/-- An idle core's memories are empty. -/
theorem sound.idleCore (h : sound s) : sound s.idleCore := by
  obtain ⟨hn, ⟨hg, hc, _⟩, ha, _, ho⟩ := h
  exact ⟨hn, ⟨hg, hc, Mem.wf_nil⟩, ha, Mem.wf_nil, ho⟩

/-! Changes elsewhere keep the invariant. -/

theorem sound.withHw (h : sound s) (x : CoreHw) : sound { s with hw := x } := h

theorem sound.withFree (h : sound s) (n : Nat) : sound { s with free := n } := h

theorem sound.fresh (h : sound s) : sound s.fresh.2 := h

theorem sound.withIx (h : sound s) (x : Tbl (List IxReq)) : sound { s with ix := x } := h

theorem sound.withLockets (h : sound s) (x : Tbl Saved) : sound { s with lockets := x } := h

theorem sound.withRecords (h : sound s) (x : Tbl Word) : sound { s with records := x } := h

theorem sound.onQueue (h : sound s) (q : Nat) (f : Queue → Queue) : sound (s.onQueue q f) := h

theorem sound.withBefore (h : sound s) (b : List Earlier) : sound { s with before := b } := h

theorem sound.withTask (h : sound s) (t : Option Task) : sound { s with k := { s.k with task := t } } := h

theorem sound.withKern (h : sound s) {c : Ctx} {k : Kern} (hl : k.localMem.wf = true) (hk : k.crown.wf = true) :
    sound { s with ctx := c, k := k } := by
  obtain ⟨hn, ⟨hg, hc, _⟩, ha, _, ho⟩ := h
  exact ⟨hn, ⟨hg, hc, hl⟩, ha, hk, ho⟩

theorem sound.onPart (h : sound s) (p : Nat) (f : Part → Part) : sound (s.onPart p f) := h

/-! What the context knows of others, and what its core does in another context. -/

theorem sound.unlearn (h : sound s) (hit : Knower → Bool) : sound (s.unlearn hit) := by
  obtain ⟨b, e⟩ := s.unlearn_frame hit
  rw [e]
  exact h

theorem sound.overwrite (h : sound s) (sp : Space) (a n : Nat) : sound (s.overwrite sp a n) := h.unlearn _

theorem sound.teach (h : sound s) (src : Earlier → Bool) (dst : List Knower) : sound (s.teach src dst) := by
  obtain ⟨b, e⟩ := s.teach_frame src dst
  rw [e]
  exact h

theorem sound.tell (h : sound s) (dst : List Knower) : sound (s.tell dst) := h.teach _ _

theorem sound.learn (h : sound s) (src : List Knower) : sound (s.learn src) := h.teach _ _

theorem sound.forgetRegion (h : sound s) (ident : Nat) : sound (s.forgetRegion ident) := by
  unfold State.forgetRegion
  split <;> exact h

theorem sound.retireHelper (h : sound s) (byExit : Bool) : sound (s.retireHelper byExit) := by
  unfold State.retireHelper
  split
  · exact h
  · cases byExit
    · exact h
    · exact h.tell _

theorem sound.focusSlot (h : sound s) (slot : Nat) : sound (s.focusSlot slot) := by
  unfold State.focusSlot
  split
  · exact h
  · split <;> exact h

/-- A change made in each of several contexts of the core, after which the focus returns. -/
theorem sound.eachSlot (h : sound s) {f : State → State} (hf : ∀ t, sound t → sound (f t)) (slots : List Nat) (back : Nat) :
    sound ((slots.foldl (fun acc slot => f (acc.focusSlot slot)) s).focusSlot back) :=
  (List.foldlRecOn slots _ h fun _ ht slot _ => hf _ (ht.focusSlot slot)).focusSlot back

/-! Regions. -/

theorem sound.closeRegion (h : sound s) : sound s.closeRegion :=
  sound.forgetRegion (s := s.fresh.2) h _

theorem sound.closeRegions (h : sound s) : sound s.closeRegions := h.eachSlot (fun _ => sound.closeRegion) _ _

theorem sound.acquireAt (h : sound s) (ty : BitVec 4) (scope : BitVec 3) : sound (s.acquireAt ty scope) := by
  unfold State.acquireAt
  split
  · exact h.teach _ _
  · exact h

theorem sound.tellBarrier (h : sound s) (id : Nat) : sound (s.tellBarrier id) := (h.unlearn _).tell _

theorem sound.synchronise (h : sound s) : sound s.synchronise := by
  unfold State.synchronise
  split
  · exact h
  · split
    · exact h.acquireAt _ _
    · exact h.acquireAt _ _
    · exact h.learn _
    · split
      · exact h.tell _
      · exact h
    · exact h.tellBarrier _
    · exact h.tellBarrier _
    · exact h.learn _
    · exact h.learn _
    · exact h.tellBarrier _
    · exact h.learn _
    · exact h.tellBarrier _
    · exact h

theorem sound.endRegion (h : sound s) : sound s.endRegion := h.synchronise.closeRegion

theorem sound.takeTag (h : sound s) : sound s.takeTag := by
  unfold State.takeTag
  exact .ite h (.ite h h)

/-! Stores performed (R135, R381). -/

theorem sound.putByte (h : sound s) (b : HeldByte) : sound (s.putByte b) := by
  have ho : sound (s.overwrite b.space b.addr 1) := h.overwrite _ _ _
  unfold State.putByte
  dsimp only
  split
  · exact ho.withLocalMem (Mem.wf_set ho.localMem_wf _ _)
  · exact sound.withClusterMem (s := (s.overwrite b.space b.addr 1).soil _) ho (Mem.wf_set ho.clusterMem_wf _ _)
  · exact sound.withMem (s := (s.overwrite b.space b.addr 1).soil _) ho (Mem.wf_set ho.mem_wf _ _)

theorem sound.putBytes (h : sound s) (bs : List HeldByte) : sound (bs.foldl State.putByte s) :=
  List.foldlRecOn bs _ h fun _ ht b _ => ht.putByte b

theorem sound.drainNt (h : sound s) : sound s.drainNt := h.putBytes s.ctx.nt

theorem sound.drainAllNt (h : sound s) : sound s.drainAllNt := h.eachSlot (fun _ => sound.drainNt) _ _

theorem sound.flushLate (h : sound s) : sound s.flushLate := by
  unfold State.flushLate State.drainLate
  exact .ite h (h.putBytes _)

theorem sound.leaveNt (h : sound s) : sound s.leaveNt := by
  unfold State.leaveNt
  exact .ite (sound.flushLate h) h.drainNt

theorem sound.leaveAllNt (h : sound s) : sound s.leaveAllNt := h.eachSlot (fun _ => sound.leaveNt) _ _

theorem sound.settleNt (h : sound s) (sp : Space) (a n : Nat) : sound (s.settleNt sp a n) := by
  unfold State.settleNt
  split
  · exact h
  · exact h.putBytes _

/-! Rings and pools (R250, R443, R446, R450, R456). -/

theorem sound.putErrorRecord {t : State} (h : sound s) {r : BitVec 256} (e : s.putErrorRecord r = some t) : sound t := by
  obtain ⟨a, rfl⟩ := State.putErrorRecord_frame e
  exact h.withMem (Mem.wf_writeLE h.mem_wf _ _ _)

theorem sound.errorRecord (h : sound s) (kind : Nat) (c : UnitClass) (n : Nat) (part : Option Nat) (addr : Nat) :
    sound (s.errorRecord kind c n part addr) := by
  unfold State.errorRecord
  dsimp only
  split
  · rename_i t e
    split at e
    · exact h.putErrorRecord e
    · cases e
  · exact .ite h h

theorem sound.trace (h : sound s) (kind : Nat) (pc : Word) (seq : BitVec 32) : sound (s.trace kind pc seq) := by
  unfold State.trace
  refine .ite ?_ h
  dsimp only
  split
  · exact h
  · exact .ite h ((h.putMem _ _ _).withHw _)

theorem sound.replay (h : sound s) (p kind bytesMask ident : Nat) (stamp addr data : Word) :
    sound (s.replay p kind bytesMask ident stamp addr data) := by
  unfold State.replay
  dsimp only
  split
  · exact h
  · exact (h.putMem _ _ _).onPart _ _

theorem sound.flushRequests (h : sound s) (p : Nat) : sound (s.flushRequests p) := by
  unfold State.flushRequests
  extract_lets pt log go
  have hgo : sound go.1 := by
    refine List.foldlRecOn (motive := fun acc : State × List PageReq => sound acc.1) _ _ h fun acc hacc r _ => ?_
    dsimp only
    split
    · split
      · exact hacc
      · exact hacc.putMem _ _ _
    · exact hacc
  exact hgo

theorem sound.pageRequest (h : sound s) (p tag path level : Nat) (write : Bool) (va : Word) (pool : Option Nat)
    (parked : Option Word) : sound (s.pageRequest p tag path level write va pool parked).2 := by
  unfold State.pageRequest
  exact (h.onPart p _).flushRequests p

theorem sound.returnFrame (h : sound s) (p frame : Nat) : sound (s.returnFrame p frame) := by
  unfold State.returnFrame
  refine .ite h ?_
  split
  · exact h
  · exact h.putMem _ _ _

theorem sound.abandonPageOut (h : sound s) (leafAt : Nat) : sound (s.abandonPageOut leafAt) :=
  sound.returnFrame (.ite (h.putMem _ _ _) h) _ _

/-! The end of a task, of a helper, and trap entry (R234, R416, R423). -/

theorem sound.finishDep (h : sound s) (dep : Option Nat) (retired : Bool) : sound (s.finishDep dep retired) := by
  cases dep <;> exact h

theorem sound.setBarrier (h : sound s) (id : Nat) (b : Barrier) : sound (s.setBarrier id b) := by
  unfold State.setBarrier
  exact .ite h h

theorem sound.putBarrier (h : sound s) (id : Nat) (r : Barrier × Bool) : sound (s.putBarrier id r) :=
  .ite (h.setBarrier id r.1) (h.setBarrier id r.1)

theorem sound.leaveAll (h : sound s) (task core : Nat) : sound (s.leaveAll task core) :=
  List.foldlRecOn _ _ h fun _ ht id _ => ht.putBarrier id _

theorem sound.tellDone (h : sound s) (t : Task) : sound (s.tellDone t) := by
  unfold State.tellDone
  exact .ite h (h.tell _)

theorem sound.finishPreempt (h : sound s) (code : Nat) : sound (s.finishPreempt code) := by
  unfold State.finishPreempt
  split <;> exact h

theorem sound.finishTask (h : sound s) (retired : Bool) (fr : Option Word512) : sound (s.finishTask retired fr) := by
  have hl : sound (State.leaveAllNt { s with
      ix := s.ix.map (fun (e : Nat × List IxReq) => (e.1, e.2.filter (fun r => r.core != s.coreNo))) }) := sound.leaveAllNt h
  unfold State.finishTask
  extract_lets t s0 told s1 s2 s3
  have h1 : sound s1 := (sound.ite (hl.tellDone t) hl).closeRegions.finishDep _ _
  have h2 : sound s2 := h1.leaveAll _ _
  have h3 : sound s3 := by
    show sound (match t.tag with | some tag => _ | none => _)
    split <;> exact h2
  exact (sound.finishPreempt (s := s3.sendLeave t.part t.scope fr) h3 1).idleCore

theorem sound.retireStarted (h : sound s) : sound s.retireStarted :=
  List.foldlRecOn _ _ h fun _ ht e _ => ht.trace 5 e.pc e.seq

theorem sound.endFaulted (h : sound s) (fr : Word512) : sound (s.endFaulted fr) :=
  (h.focusSlot 15).retireStarted.finishTask _ _

theorem sound.endWith (h : sound s) (cause : Nat) (addr detail : Word) : sound (s.endWith cause addr detail) :=
  h.endFaulted _

theorem sound.takeTrap (h : sound s) (t : Trap) : sound (s.takeTrap t) := by
  have hf : sound (s.focusSlot 15) := h.focusSlot 15
  unfold State.takeTrap
  refine .ite (hf.endFaulted _) (.ite (hf.endFaulted _) (.ite (hf.endFaulted _) (.ite (hf.endFaulted _) ?_)))
  exact (hf.trace 3 t.point t.pointSeq).withKern hf.localMem_wf hf.crown_wf

theorem sound.pend (h : sound s) (p : Pending) : sound (s.pend p) := by
  unfold State.pend
  exact .ite h h

theorem sound.endHelper (h : sound s) (status : Nat) : sound (s.endHelper status) :=
  (h.leaveNt.retireHelper _).closeRegion.focusSlot 15

theorem sound.helperFault (h : sound s) (cause : Nat) (addr : Word) : sound (s.helperFault cause addr) :=
  (h.endHelper 2).pend _

theorem sound.trapFrom (h : sound s) (engine : Bool) (cause : Nat) (addr detail pc : Word) :
    sound (s.trapFrom engine cause addr detail pc) := by
  unfold State.trapFrom
  exact .ite (h.takeTrap _) (h.helperFault _ _)

/-! The save of a task (R426 to R432), parking (R250, R255), and what comes of an instruction that stops. -/

theorem sound.putWords (h : sound s) (a : Nat) (ws : List Word) : sound (s.putWords a ws) := by
  induction ws generalizing s a with
  | nil => exact h
  | cons w ws ih => exact ih (h.putMem a 8 w.toNat) (a + 8)

theorem sound.freeArea (h : sound s) (a n : Nat) : sound (s.freeArea a n) := by
  induction n generalizing s a with
  | zero => exact h
  | succ n ih => exact ih (sound.withFree (h.putMem a 8 (Config.freeWord s.free).toNat) (s.free + 1)) (a + 8)

theorem sound.writeLocket (h : sound s) (a reason : Nat) (held bound : Bool) (pc : Word) :
    sound (s.writeLocket a reason held bound pc) := by
  unfold State.writeLocket
  extract_lets c s0 s1 s2 s3 s4 s5 m6 m7 m8 s9 low mid high
  have h0 : sound s0 := h.withMem (Mem.wf_zero h.mem_wf _ _)
  have h5 : sound s5 := (((((h0.putMem _ _ _).putWords _ _).putWords _ _).putMem _ _ _).putMem _ _ _).freeArea _ _
  have h6 : m6.wf = true := Mem.wf_copyFrom h5.mem_wf _ _ _ _
  have h7 : m7.wf = true := List.foldlRecOn (motive := fun m => Mem.wf m = true) _ _ h6 fun _ hm _ _ => Mem.wf_writeLE hm _ _ _
  exact (h5.withMem (Mem.wf_copyFrom h7 _ _ _ _)).putMem _ _ _

theorem sound.putRec (h : sound s) (q slot : Nat) (r : Rec) : sound (s.putRec q slot r) := by
  unfold State.putRec
  exact .ite (h.onQueue _ _) ((h.onQueue _ _).putMem _ _ _)

theorem sound.takeSlot (h : sound s) {tag : Word} {t : State} (e : s.takeSlot = some (tag, t)) : sound t := by
  unfold State.takeSlot at e
  dsimp only at e
  split at e
  · cases e
    exact h
  · split at e
    · cases e
    · cases e
      exact (h.putRec _ _ _).withTask _

theorem sound.abandonRed4 (h : sound s) : sound s.abandonRed4 := by
  unfold State.abandonRed4
  split <;> exact h

theorem sound.catchMessages (h : sound s) : sound s.catchMessages := by
  unfold State.catchMessages
  split
  · exact h
  · split <;> exact h

theorem sound.save (h : sound s) {reason : Nat} {st : RecState} {held : Bool} {leaf : Option Nat} {tag : Word} {t : State}
    (e : s.save reason st held leaf = some (tag, t)) : sound t := by
  unfold State.save at e
  extract_lets s0 p at e
  have h0 : sound s0 := (h.focusSlot 15).drainAllNt.abandonRed4.catchMessages
  split at e
  · rename_i w s1 n e1 _
    have h1 : sound s1 := h0.takeSlot e1
    dsimp only at e
    cases e
    have h2 : sound s1.closeRegions := h1.closeRegions
    have h3 := (h2.writeLocket ((s0.part p).locketAddr n) reason held s1.isCoreBound s1.closeRegions.ctx.pc).fresh
    exact (((((h3.putRec _ _ _).onPart _ _).withIx _).trace _ _ _).withLockets _).idleCore
  · cases e

theorem sound.askPageIn (h : sound s) (p leafAt : Nat) (va : Word) : sound (s.askPageIn p leafAt va) := h

theorem sound.parkPage (h : sound s) (va : Word) (level : Nat) (write : Bool) (path : Path) :
    sound (s.parkPage va level write path) := by
  unfold State.parkPage
  dsimp only
  split
  · rename_i tag s1 e
    rw [Option.ite_none_left_eq_some] at e
    exact (h.save e.2).pageRequest _ _ _ _ _ _ _ _
  · exact h.pageRequest _ _ _ _ _ _ _ _

theorem sound.parkTier (h : sound s) (leafAt : Nat) (va : Word) : sound (s.parkTier leafAt va) := by
  unfold State.parkTier
  dsimp only
  split
  · rename_i tag s1 e
    rw [Option.ite_none_left_eq_some] at e
    exact (h.askPageIn _ _ _).save e.2
  · exact h

theorem sound.parityEnd (h : sound s) (line : Nat) : sound (s.parityEnd line) :=
  ((h.errorRecord _ _ _ _ _).errorRecord _ _ _ _ _).endWith _ _ _

theorem sound.stoppedAs (h : sound s) (engine : Bool) (r : Stop) : sound (s.stoppedAs engine r) := by
  cases r with
  | trap cause addr detail => exact h.trapFrom _ _ _ _ _
  | pageFault va level write path => exact .ite (h.parkPage _ _ _ _) h
  | tierMiss leafAt va => exact .ite (h.parkTier _ _) h
  | hold w => exact h
  | ends cause detail addr => exact h.endWith _ _ _
  | parity line => exact h.parityEnd _
  | abandon leafAt => exact h.abandonPageOut _

/-! The issue of an instruction: operands, the guard, retirement (R42, R54, R63). -/

theorem sound.retire (h : sound s) (len : Nat) : sound (s.retire len) := h

theorem sound.goto (h : sound s) (a : Word) : sound (s.goto a) := h

theorem sound.setFlags (h : sound s) (f : Word) : sound (s.setFlags f) := h

theorem sound.setPred (h : sound s) (i : Nat) (v : Bool) : sound (s.setPred i v) := by
  unfold State.setPred
  exact .ite h h

theorem sound.writeBead (h : sound s) (g : Nat) (v : Word) : sound (s.writeBead g v) := by
  unfold State.writeBead
  split <;> exact h

theorem sound.writeOp (h : sound s) (r : BitVec 6) (v : Word) : sound (s.writeOp r v) := by
  unfold State.writeOp
  exact .ite h (h.writeBead _ _)

theorem sound.passDest (h : sound s) (r : BitVec 6) : sound (s.passDest r) := by
  unfold State.passDest
  refine .ite h ?_
  dsimp only
  split <;> exact h.writeBead _ _

theorem sound.countEngine (h : sound s) (m : Meta) : sound (s.countEngine m) := by
  unfold State.countEngine
  exact .ite h h

theorem sound.countSkipped (h : sound s) (m : Meta) : sound (s.countSkipped m) := by
  unfold State.countSkipped
  exact .ite h (h.countEngine m)

theorem sound.guardedOff (h : sound s) (m : Meta) : sound (s.guardedOff m) := by
  unfold State.guardedOff
  dsimp only
  split
  · exact ((h.passDest _).countSkipped m).retire _
  · exact (h.countSkipped m).retire _

/-- However an instruction ends: it does what its body does, stops, or is guarded off. -/
theorem sound.issueRaw (h : sound s) {m : Meta} {body : State → Except Stop State}
    (hb : ∀ t, sound t → Answers sound (body t)) : sound (s.issueRaw m body) := by
  unfold State.issueRaw
  split
  · exact h.stoppedAs _ _
  · refine .ite ?_ (h.guardedOff m)
    split
    · exact hb _ (h.countEngine m) _ ‹_›
    · exact h.stoppedAs _ _

theorem sound.issue (h : sound s) {m : Meta} {body : State → Except Stop State}
    (hb : ∀ t, sound t → Answers sound (body t)) : sound (s.issue m body) := by
  refine h.issueRaw fun t ht => ?_
  split
  · exact .ok ((hb t ht _ ‹_›).retire _)
  · exact .error _

/-! Translation (R238 to R257). -/

theorem sound.touchLine (h : sound s) (line : Nat) : sound (s.touchLine line) := h

theorem sound.claimLine (h : sound s) (home line : Nat) : sound (s.claimLine home line) := h

theorem sound.soil (h : sound s) (addr : Nat) : sound (s.soil addr) := h

theorem sound.walkPut (h : sound s) (die a : Nat) (e : Word) : sound (s.walkPut die a e) := by
  unfold State.walkPut
  exact .ite h h

theorem sound.walkRead (h : sound s) {die level a : Nat} {e : Word} {t : State}
    (he : s.walkRead die level a = some (e, t)) : sound t := by
  unfold State.walkRead at he
  split at he
  · cases he
    exact h
  · split at he
    · cases he
    · obtain ⟨-, rfl⟩ := Prod.mk.inj (Option.some.inj he)
      exact .ite (h.walkPut _ _ _) h

theorem sound.walkFrom (h : sound s) (p die : Nat) (va : Word) (level table : Nat) :
    sound (s.walkFrom p die va level table).2 := by
  induction level generalizing s table with
  | zero =>
    unfold State.walkFrom
    refine .iteSnd h ?_
    dsimp only
    split
    · exact h
    · rename_i e s1 e1
      have h1 : sound s1 := h.walkRead e1
      split <;> exact h1
  | succ n ih =>
    unfold State.walkFrom
    refine .iteSnd h ?_
    dsimp only
    split
    · exact h
    · rename_i e s1 e1
      have h1 : sound s1 := h.walkRead e1
      split
      · exact h1
      · exact .iteSnd h1 (.iteSnd h1 (ih h1 _))
      · exact h1
      · exact h1

theorem sound.walk (h : sound s) (p die : Nat) (va : Word) : sound (s.walk p die va).2 := h.walkFrom _ _ _ _ _

theorem sound.needBlock (h : sound s) (p : Option Nat) (region : Nat) : sound (s.needBlock p region).2 := by
  unfold State.needBlock
  refine .iteSnd h (.iteSnd h (.iteSnd h ?_))
  exact sound.errorRecord (s := { s with refused := region :: s.refused }) h 6 .shared 0 p (region * 2 ^ 21)

theorem sound.noteTranslation (h : sound s) (part base size : Nat) (leaf : Word) :
    sound (s.noteTranslation part base size leaf) := by
  unfold State.noteTranslation
  exact .ite h h

theorem sound.tlbPut (h : sound s) (e : TlbEntry) : sound (s.tlbPut e) := by
  have hn := h.noteTranslation e.part e.base e.size e.leaf
  unfold State.tlbPut
  exact .ite hn hn

theorem sound.cacheLeaf (h : sound s) (p : Nat) (va e : Word) (a level : Nat) : sound (s.cacheLeaf p va e a level).2 := by
  unfold State.cacheLeaf
  exact sound.tlbPut (.iteSnd (h.needBlock _ _) h) _

theorem sound.noteAsked (h : sound s) (t : TlbEntry) (region : Nat) (given : Bool) : sound (s.noteAsked t region given) := h

theorem sound.throughTlb (h : sound s) (p : Nat) (t : TlbEntry) (va : Word) : sound (s.throughTlb p t va).2 := by
  unfold State.throughTlb
  exact .iteSnd h (.iteSnd h ((h.needBlock _ _).noteAsked _ _ _))

theorem sound.windowTarget (h : sound s) (ag : Agent) (va : Word) (n : Nat) : Finds (s.windowTarget ag va n) := by
  unfold State.windowTarget
  exact .ite (.error _) (.ite (.error _) (.ite (.error _) (.ok h)))

theorem finds_inTurn {r : Except Stop (TlbEntry × State)} (h : Finds r) (path : Machine.Path) (t : TlbEntry) :
    Finds (s.inTurn path t r) := by
  unfold State.inTurn
  exact .ite h (.error _)

theorem sound.movingPage (h : sound s) (p : Nat) (parking : Bool) (path : Machine.Path) (va : Word) (t : TlbEntry) :
    Finds (s.movingPage p parking path va t) := by
  unfold State.movingPage
  refine .ite (.error _) ?_
  split
  · exact .ite (finds_inTurn (.ok h) _ _) (finds_inTurn (.ok h) _ _)
  · exact .error _
  · exact .ok h
  · exact finds_inTurn (.ok h) _ _

theorem sound.findLeaf (h : sound s) (p : Nat) (parking write : Bool) (path : Machine.Path) (va : Word) :
    Finds (s.findLeaf p parking write path va) := by
  unfold State.findLeaf
  split
  · exact h.movingPage _ _ _ _ _
  · have hw := h.walk p (s.coreNo / 384) va
    split <;> rename_i e
    · exact .error _
    · exact .error _
    · exact .error _
    · exact .error _
    · rw [e] at hw
      refine .ite (.error _) (.ite (.error _) (.ite (.ok (hw.cacheLeaf _ _ _ _ _)) (finds_inTurn (.ok (hw.cacheLeaf _ _ _ _ _)) _ _)))

theorem sound.translate (h : sound s) (ag : Agent) (path : Machine.Path) (parking write : Bool) (va : Word) (n : Nat) :
    Finds (s.translate ag path parking write va n) := by
  unfold State.translate
  refine .ite (.error _) (.bind (P := fun x => sound x.2) ?_ ?_)
  · refine .ite (h.windowTarget _ _ _) (.bind (h.findLeaf _ _ _ _ _) ?_)
    rintro ⟨t, s1⟩ h1
    exact .ite (.error _) (.ok (sound.throughTlb h1 _ _ _))
  · rintro ⟨t, s1⟩ h1
    refine .ite (.error _) (.ite (.error _) (.ite (.error _) (.ok ?_)))
    have h2 := sound.ite (c := modOf t.addr = s1.modNo) (sound.claimLine h1 t.home (t.addr / 64)) h1
    exact .ite (h2.soil _) h2

theorem sound.translateFetch (h : sound s) (p : Nat) (parking : Bool) (va : Word) : Finds (s.translateFetch p parking va) := by
  unfold State.translateFetch
  refine .ite (.error _) (.bind (h.findLeaf _ _ _ _ _) ?_)
  rintro ⟨t, s1⟩ h1
  exact .ite (.error _) (.ite (.error _) (.ite (.ok (sound.throughTlb h1 _ _ _)) (.error _)))

/-! Checks of checked pages, and where an access goes (R137, R373). -/

theorem sound.unnote (h : sound s) (ident g : Nat) (write : Bool) : sound (s.unnote ident g write) := by
  unfold State.unnote
  exact .ite h h

theorem sound.checkGranule (h : sound s) (ag : Agent) (g : Nat) (writes recordsWrite atomic : Bool) (reads : Knower → Bool) :
    Answers sound (s.checkGranule ag g writes recordsWrite atomic reads) := by
  unfold State.checkGranule
  refine .ite (.error _) (.ite (.error _) ?_)
  split
  · exact .ok h
  · exact .ok ((h.withRecords _).unnote _ _ _)

theorem sound.checkAccess (h : sound s) (ag : Agent) (t : Target) (n : Nat) (writes recordsWrite atomic : Bool) :
    Answers sound (s.checkAccess ag t n writes recordsWrite atomic) := by
  unfold State.checkAccess
  refine .ite (.bind (h.checkGranule _ _ _ _ _ _) fun s1 h1 => ?_) (.ok h)
  exact .ite (.ok h1) (h1.checkGranule _ _ _ _ _ _)

theorem answers_conflictStop {va : Word} {r : Except Word State} (h : Answers sound r) :
    Answers sound (conflictStop va r) := by
  cases r with
  | ok t => exact .ok (h t rfl)
  | error w => exact .error _

theorem sound.lsTarget (h : sound s) (path : Machine.Path) (va : Word) (n : Nat) (write recordsWrite atomic : Bool) :
    Finds (s.lsTarget path va n write recordsWrite atomic) := by
  unfold State.lsTarget
  dsimp only
  split
  · exact .ite (.error _) (.ite (.error _) (.ok h))
  · exact .ite (.error _) (.ite (.error _) (.ok h))
  · refine .bind (h.translate _ _ _ _ _ _) ?_
    rintro ⟨t, s1⟩ h1
    have h2 : sound (if t.checked then s1.takeTag else s1) := .ite (sound.takeTag h1) h1
    exact .bind (answers_conflictStop (h2.checkAccess _ _ _ _ _ _)) fun s3 h3 => .ok h3

/-! Loads and stores (R134, R135, R258, R445). -/

theorem sound.logReadFrom (h : sound s) (source : Option Nat) (t : Target) (va : Word) :
    Answers sound (s.logReadFrom source t va) := by
  unfold State.logReadFrom
  refine .ite ?_ (.ok h)
  split
  · exact .ok h
  · exact .ite (.error _) (.ok (h.replay _ _ _ _ _ _ _))

theorem sound.noteRead (h : sound s) (t : Target) : sound (s.noteRead t) := by
  have ht := sound.ite (c := t.space = .clusterMem) (h.touchLine (clusterLine t.addr)) h
  unfold State.noteRead
  exact .ite ht ht

theorem sound.logRead (h : sound s) (t : Target) (va : Word) : Answers sound (s.logRead t va) :=
  (h.noteRead t).logReadFrom _ _ _

theorem sound.turnEpoch (h : sound s) : sound s.turnEpoch := by
  unfold State.turnEpoch
  exact .ite h h

theorem sound.noteNear (h : sound s) (opt : BitVec 3) (t : Target) : sound (s.noteNear opt t) := by
  unfold State.noteNear
  split
  · exact .ite h.turnEpoch h
  · exact h

theorem sound.lsLoad (h : sound s) (va : Word) (n : Nat) (opt : BitVec 3) (atomic : Bool) :
    Finds (s.lsLoad va n opt atomic) := by
  unfold State.lsLoad
  refine .ite (.error _) (.bind (h.lsTarget _ _ _ _ _ _) ?_)
  rintro ⟨t, s1⟩ h1
  exact .bind (sound.logRead h1 t va) fun s2 h2 => .ok (h2.noteNear opt t)

theorem sound.putStore (h : sound s) (t : Target) (va : Word) (n v : Nat) (nt : Bool) : sound (s.putStore t va n v nt) := by
  unfold State.putStore
  exact .ite h (.ite h ((h.fresh.settleNt _ _ _).putBytes _))

theorem sound.lsStore (h : sound s) (va : Word) (n v : Nat) (opt : BitVec 3) (atomic nt : Bool) :
    Answers sound (s.lsStore va n v opt atomic nt) := by
  unfold State.lsStore
  refine .ite (.error _) (.bind (h.lsTarget _ _ _ _ _ _) ?_)
  rintro ⟨t, s1⟩ h1
  exact .ok ((sound.putStore h1 t va n v nt).noteNear opt t)

theorem sound.loadAt (h : sound s) (f : Form) (ea : Word) : Answers sound (s.loadAt f ea) := by
  refine .bind (h.lsLoad _ _ _ _) ?_
  rintro ⟨x, s1⟩ h1
  exact .ok (sound.writeOp h1 _ _)

theorem sound.storeAt (h : sound s) (f : Form) (ea v : Word) (nt : Bool) : Answers sound (s.storeAt f ea v nt) :=
  h.lsStore _ _ _ _ _ _

theorem sound.load (h : sound s) (f : Form) : sound (s.load f) :=
  h.issue fun _ ht => .check fun _ => ht.loadAt f _

theorem sound.store (h : sound s) (f : Form) : sound (s.store f) :=
  h.issue fun _ ht => .check fun _ => ht.storeAt f _ _ _

theorem sound.storeNt (h : sound s) (f : Form) : sound (s.storeNt f) :=
  h.issue fun _ ht => ht.storeAt f _ _ _

theorem sound.loadAcquire (h : sound s) (f : Form) : sound (s.loadAcquire f) := by
  refine h.issue fun t ht => .ite (.error _) (.bind (ht.lsLoad _ _ _ _) ?_)
  rintro ⟨x, t1⟩ h1
  exact .ok (sound.writeOp h1 _ _).endRegion

theorem sound.storeRelease (h : sound s) (f : Form) : sound (s.storeRelease f) :=
  h.issue fun _ ht => .ite (.error _) (.check fun _ => .bind (ht.lsStore _ _ _ _ _ _) fun _ h1 =>
    .check fun _ => .ok (h1.tell _).endRegion)

/-! Atomics (R387, R388). -/

theorem sound.useLine (h : sound s) (home line : Nat) (via : Option Nat) : sound (s.useLine home line via) := by
  obtain ⟨x, e⟩ := s.useLine_frame home line via
  rw [e]
  exact h

theorem sound.useTarget (h : sound s) (t : Target) : sound (s.useTarget t) := by
  unfold State.useTarget
  split
  · exact h
  · exact h.useLine _ _ _
  · exact .ite (h.useLine _ _ _) h

theorem sound.putAtomic (h : sound s) (f : G64) (g : Target) (va : Word) (n v : Nat) : sound (s.putAtomic f g va n v) := by
  have h1 := (h.putStore g va n v false).withBefore s.before
  unfold State.putAtomic
  exact .ite (h1.tell _) h1

theorem sound.acquireAtomic (h : sound s) (f : G64) (g : Target) (n : Nat) : sound (s.acquireAtomic f g n) := by
  unfold State.acquireAtomic
  exact .ite (h.teach _ _) h

/-- The end of an atomic by its class. -/
theorem sound.endAtomic (h : sound s) (f : G64) (g : Target) (n : Nat) :
    sound (if f.c = 0 then s else (s.acquireAtomic f g n).endRegion) :=
  .ite h (h.acquireAtomic f g n).endRegion

theorem sound.atomic (h : sound s) (f : G64) (fn : Nat) : sound (s.atomic f fn) := by
  refine h.issue fun t ht => .check fun _ => .ite (.error _) ?_
  extract_lets jp
  have hjp : ∀ u, Answers sound (jp u) := by
    intro _
    refine .check ?_
    rintro ⟨g, _⟩
    refine .bind (ht.lsTarget _ _ _ _ _ _) ?_
    rintro ⟨_, t1⟩ h1
    refine .bind (sound.logReadFrom h1 _ _ _) ?_
    intro t2 h2
    have h3 := (h2.settleNt g.space g.addr (tyBytes f.ty)).useTarget g
    refine .ok (sound.endAtomic (sound.writeOp (sound.setFlags (sound.noteNear ?_ _ _) _) _ _) f g _)
    split
    · exact h3.putAtomic _ _ _ _ _
    · exact h3
  exact .ite (.check hjp) (hjp ())

/-! Transfers (R155 to R158). -/

theorem sound.cachedLine (h : sound s) (parking : Bool) (pc : Word) : Finds (s.cachedLine parking pc) := by
  unfold State.cachedLine
  split
  · exact .ok h
  · refine .bind (h.translateFetch _ _ _) ?_
    rintro ⟨t, s1⟩ h1
    exact .ite (.ok (sound.withHw h1 _)) (.error _)

theorem sound.lineAt (h : sound s) (pc : Word) : Finds (s.lineAt pc) := by
  unfold State.lineAt
  exact .ite (h.cachedLine _ _) (.ite (.ok h) (.error _))

theorem finds_atTarget {t : Word} {r : Except Stop (List Parcel × State)} (h : Finds r) : Finds (atTarget t r) := by
  unfold atTarget
  split
  · exact .error _
  · exact .error _
  · exact h

theorem sound.checkTarget (h : sound s) (t : Word) : Answers sound (s.checkTarget t) := by
  unfold State.checkTarget
  refine .ite (.error _) (.bind (finds_atTarget (h.lineAt t)) ?_)
  rintro ⟨text, s1⟩ h1
  exact .ite (.ok h1) (.error _)

theorem sound.setReg (h : sound s) (i : Nat) (v : Word) : sound (s.setReg i v) := h

theorem sound.transfer (h : sound s) (m : Meta) (link : Bool) (target : State → Word) : sound (s.transfer m link target) :=
  h.issueRaw fun _ ht => .bind (ht.checkTarget _) fun _ h1 => .ok (sound.goto (.ite (h1.setReg _ _) h1) _)

theorem sound.branch (h : sound s) (f : Form) (link : Bool) : sound (s.branch f link) := h.transfer _ _ _

theorem sound.branchIf (h : sound s) (f : Form) : sound (s.branchIf f) :=
  h.issueRaw fun _ ht => .ite (.bind (ht.checkTarget _) fun _ h1 => .ok (h1.goto _)) (.ok (ht.retire _))

/-! Scalar instructions (R140 to R154). -/

theorem sound.alu (h : sound s) (f : Form) (op : BitVec 4 → Word → Word → Int) (a b : Word) : sound (s.alu f op a b) :=
  .ite ((h.writeOp _ _).setFlags _) (h.writeOp _ _)

theorem sound.aluReg (h : sound s) (f : Form) (op : BitVec 4 → Word → Word → Int) : sound (s.aluReg f op) :=
  h.issue fun _ ht => .ok (ht.alu _ _ _ _)

theorem sound.aluOne (h : sound s) (f : Form) (op : BitVec 4 → Word → Word → Int) : sound (s.aluOne f op) :=
  h.issue fun _ ht => .ok (ht.alu _ _ _ _)

theorem sound.aluImm (h : sound s) (f : Form) (op : BitVec 4 → Word → Word → Int) : sound (s.aluImm f op) :=
  h.issue fun _ ht => .ok (ht.alu _ _ _ _)

theorem sound.opWrite (h : sound s) (f : Form) (v : State → Word) : sound (s.opWrite f v) :=
  h.issue fun _ ht => .ok (ht.writeOp _ _)

theorem sound.select (h : sound s) (f : Form) : sound (s.select f) := h.issue fun _ ht => .ok (ht.alu _ _ _ _)

theorem sound.opPred (h : sound s) (f : Form) (v : State → Bool) : sound (s.opPred f v) :=
  h.issue fun _ ht => .ok (ht.setPred _ _)

theorem sound.setFpu (h : sound s) (e : Fpu) : sound (s.setFpu e) := h

theorem sound.floatWrite (h : sound s) (f : Form) (v : Val × Word) : sound (s.floatWrite f v) := (h.writeOp _ _).setFpu _

end

/-- The instruction keeps the invariant, from every state. -/
def Keeps (i : Instr) : Prop := ∀ s t, sound s → exec i s = .next t → sound t

/-- An instruction keeps it whose meaning is the next state of an operation that does. -/
theorem keeps_of_next {i : Instr} {f : State → State} (e : ∀ s, exec i s = .next (f s)) (hf : ∀ {s}, sound s → sound (f s)) :
    Keeps i := by
  intro s t h he
  rw [e] at he
  cases he
  exact hf h

/-! The instructions of each table of the statements, by the shared meaning that each of them has. -/

theorem keeps_of_arithmetic {i : Instr} (h : (arithmetic i).isSome) : Keeps i := by
  cases i with
  | addA32 _ | addG64 _ | subA32 _ | subG64 _ | mulA32 _ | mulG64 _ | mulhA32 _ | mulhG64 _ | mulhzA32 _
  | mulhzG64 _ | minA32 _ | minG64 _ | maxA32 _ | maxG64 _ | minzA32 _ | minzG64 _ | maxzA32 _ | maxzG64 _ =>
    exact keeps_of_next (fun _ => rfl) fun h => h.aluReg _ _
  | addI32 _ | addI64 _ | addW96 _ | mulI64 _ | mulW96 _ | minI64 _ | minW96 _ | maxI64 _ | maxW96 _ | minzI64 _
  | minzW96 _ | maxzI64 _ | maxzW96 _ | movlI32 _ | movlI64 _ | movlW96 _ =>
    exact keeps_of_next (fun _ => rfl) fun h => h.aluImm _ _
  | absA32 _ | absG64 _ | movA32 _ | movG64 _ =>
    exact keeps_of_next (fun _ => rfl) fun h => h.aluOne _ _
  | _ => exact absurd h Bool.false_ne_true

theorem keeps_of_division {i : Instr} (h : (division i).isSome) : Keeps i := by
  cases i with
  | divA32 _ | divG64 _ | divzA32 _ | divzG64 _ | remA32 _ | remG64 _ | remzA32 _ | remzG64 _ =>
    exact keeps_of_next (fun _ => rfl) fun h => h.aluReg _ _
  | _ => exact absurd h Bool.false_ne_true

theorem keeps_of_bitwise {i : Instr} (h : (bitwise i).isSome) : Keeps i := by
  cases i with
  | andA32 _ | andG64 _ | orA32 _ | orG64 _ | xorA32 _ | xorG64 _ | andnA32 _ | andnG64 _ =>
    exact keeps_of_next (fun _ => rfl) fun h => h.aluReg _ _
  | andI32 _ | andI64 _ | andW96 _ | orI64 _ | orW96 _ | xorI64 _ | xorW96 _ =>
    exact keeps_of_next (fun _ => rfl) fun h => h.aluImm _ _
  | _ => exact absurd h Bool.false_ne_true

theorem keeps_of_shifting {i : Instr} (h : (shifting i).isSome) : Keeps i := by
  cases i with
  | shlA32 _ | shlG64 _ | shrA32 _ | shrG64 _ | sraA32 _ | sraG64 _ | rolA32 _ | rolG64 _ =>
    exact keeps_of_next (fun _ => rfl) fun h => h.aluReg _ _
  | shlI32 _ | shlI64 _ | shlW96 _ | shrI32 _ | shrI64 _ | shrW96 _ | sraI32 _ | sraI64 _ | sraW96 _ | rolI64 _
  | rolW96 _ =>
    exact keeps_of_next (fun _ => rfl) fun h => h.aluImm _ _
  | _ => exact absurd h Bool.false_ne_true

theorem keeps_of_counting {i : Instr} (h : (counting i).isSome) : Keeps i := by
  cases i with
  | clzA32 _ | clzG64 _ | ctzA32 _ | ctzG64 _ | popcA32 _ | popcG64 _ =>
    exact keeps_of_next (fun _ => rfl) fun h => h.aluOne _ _
  | _ => exact absurd h Bool.false_ne_true

theorem keeps_of_fieldValue {i : Instr} {s : State} (h : (fieldValue s i).isSome) : Keeps i := by
  cases i with
  | sext _ | zext _ | bfx _ | bfi _ | leaI64 _ | leaW96 _ =>
    exact keeps_of_next (fun _ => rfl) fun h => h.opWrite _ _
  | sel _ =>
    exact keeps_of_next (fun _ => rfl) fun h => h.select _
  | _ => exact absurd h Bool.false_ne_true

theorem keeps_of_predicateValue {i : Instr} {s : State} (h : (predicateValue s i).isSome) : Keeps i := by
  cases i with
  | cmpA32 _ _ | cmpG64 _ _ | pandA32 _ | pandG64 _ | porA32 _ | porG64 _ | pxorA32 _ | pxorG64 _ | pnotA32 _
  | pnotG64 _ =>
    exact keeps_of_next (fun _ => rfl) fun h => h.opPred _ _
  | _ => exact absurd h Bool.false_ne_true

theorem keeps_of_floating {i : Instr} {s : State} (h : (floating s i).isSome) : Keeps i := by
  cases i with
  | sfadd _ | sfmul _ | sfma _ =>
    exact keeps_of_next (fun _ => rfl) fun h => h.issue fun _ ht => .ok (ht.floatWrite _ _)
  | sfcvt _ =>
    exact keeps_of_next (fun _ => rfl) fun h => h.issue fun _ ht => .ok ((ht.writeOp _ _).setFpu _)
  | _ => exact absurd h Bool.false_ne_true

theorem keeps_of_jump {i : Instr} {s : State} (h : (jump s i).isSome) : Keeps i := by
  cases i with
  | brJ32 _ | brI64 _ | brW96 _ | callJ32 _ | callI64 _ | callW96 _ =>
    exact keeps_of_next (fun _ => rfl) fun h => h.branch _ _
  | retA32 | retG64 _ | bri _ | calli _ =>
    exact keeps_of_next (fun _ => rfl) fun h => h.transfer _ _ _
  | _ => exact absurd h Bool.false_ne_true

theorem keeps_of_condJump {i : Instr} {s : State} (h : (condJump s i).isSome) : Keeps i := by
  cases i with
  | brcJ32 _ | brcI64 _ | brcW96 _ =>
    exact keeps_of_next (fun _ => rfl) fun h => h.branchIf _
  | _ => exact absurd h Bool.false_ne_true

theorem keeps_of_loading {i : Instr} {s : State} (h : (loading s i).isSome) : Keeps i := by
  cases i with
  | ldI32 _ | ldI64 _ | ldW96 _ =>
    exact keeps_of_next (fun _ => rfl) fun h => h.load _
  | ldx _ =>
    exact keeps_of_next (fun _ => rfl) fun h => h.issue fun _ ht => .check fun _ => ht.loadAt _ _
  | ldacqI64 _ | ldacqW96 _ =>
    exact keeps_of_next (fun _ => rfl) fun h => h.loadAcquire _
  | _ => exact absurd h Bool.false_ne_true

theorem keeps_of_storing {i : Instr} {s : State} (h : (storing s i).isSome) : Keeps i := by
  cases i with
  | stI32 _ | stI64 _ | stW96 _ =>
    exact keeps_of_next (fun _ => rfl) fun h => h.store _
  | stx _ =>
    exact keeps_of_next (fun _ => rfl) fun h => h.issue fun _ ht => .check fun _ => ht.storeAt _ _ _ _
  | stntI64 _ | stntW96 _ =>
    exact keeps_of_next (fun _ => rfl) fun h => h.storeNt _
  | strelI64 _ | strelW96 _ =>
    exact keeps_of_next (fun _ => rfl) fun h => h.storeRelease _
  | _ => exact absurd h Bool.false_ne_true

theorem keeps_of_atomicFn {i : Instr} (h : (atomicFn i).isSome) : Keeps i := by
  cases i with
  | aadd _ | afadd _ | amin _ | amax _ | aand _ | aor _ | axor _ | axchg _ | acas _ =>
    exact keeps_of_next (fun _ => rfl) fun h => h.atomic _ _
  | _ => exact absurd h Bool.false_ne_true

/-- Settles O60: each table's instructions keep the invariant, whichever way the shared issue ends. -/
theorem ordinaryKeepsInvariant : Obligations.OrdinaryKeepsInvariant := by
  unfold Obligations.OrdinaryKeepsInvariant
  intro i s t ho h he
  have hk : Keeps i := by
    rcases ho with ho | ho | ho | ho | ho | ho | ho | ho | ho | ho | ho | ho | ho
    · exact keeps_of_arithmetic ho
    · exact keeps_of_division ho
    · exact keeps_of_bitwise ho
    · exact keeps_of_shifting ho
    · exact keeps_of_counting ho
    · exact keeps_of_fieldValue ho
    · exact keeps_of_predicateValue ho
    · exact keeps_of_floating ho
    · exact keeps_of_jump ho
    · exact keeps_of_condJump ho
    · exact keeps_of_loading ho
    · exact keeps_of_storing ho
    · exact keeps_of_atomicFn ho
  exact hk s t h he

end Sys2Proof.Claims

/-! A step that executes the instruction decoded at the PC (`Obligations.StepRunsDecoded`). -/

namespace Sys2Proof.Machine

/-- An instruction that decodes, that no breakpoint stops, that its context may hold and that waits for nothing executes, in the
state that has latched its parcels. -/
theorem State.issueParcels_executes {s : State} {ps : List Parcel} {i : Instr} (hd : decode ps = .ok i)
    (hb : s.breakpoint i.engineBound = none) (hl : s.ctx.slot = 15 ∨ i.legal true = true) (hm : s.awaitsMask i = false) :
    s.issueParcels ps = exec i (s.markIssue.latch ps) := by
  have legal : ¬ s.ctx.slot = 15 → i.legal true = true := hl.resolve_left
  simp +contextual [State.issueParcels, hd, hb, legal, hm]

/-- What a fetched instruction sees: the state after the fetch, counted by its core and with the parcels latched. -/
theorem State.latch_markIssue (s : State) (ps : List Parcel) : s.markIssue.latch ps = { s with
    ctx := { s.ctx with ir := #v[ps.getD 0 0, ps.getD 1 0, ps.getD 2 0] }
    hw := if s.ctx.slot = 15 then { s.hw with issued := true } else { s.hw with helped := true } } := by
  by_cases h : s.ctx.slot = 15 <;> simp [State.markIssue, State.latch, h]

/-- No target check stands before an instruction that is not the first of its task. -/
theorem State.issueNext_fetched {s s1 : State} {ps : List Parcel} (he : s.ctx.entry = false) (hf : s.fetch = .ok (ps, s1)) :
    s.issueNext = s1.issueParcels ps := by
  simp [State.issueNext, State.checkFirst, he, hf]

end Sys2Proof.Machine

namespace Sys2Proof.Claims

open Machine

/-- Settles O57: the step is the turn of the context in focus, which goes on with its next instruction, and that one executes. -/
theorem stepRunsDecoded : Obligations.StepRunsDecoded := by
  unfold Obligations.StepRunsDecoded
  intro s s1 t ps i hcore hagenda hunit hdue hlive hstops hhold hentry hstart hcomplete hfault hfetch _ hbreak hdecode hlegal hmask hexec
  have issues : s.proceed = exec i (s1.markIssue.latch ps) :=
    calc s.proceed = s.issueNext := State.proceed_issues hfault.symm hhold hstart hcomplete
      _ = s1.issueParcels ps := State.issueNext_fetched hentry hfetch
      _ = exec i (s1.markIssue.latch ps) := State.issueParcels_executes hdecode hbreak hlegal hmask
  have run : s.run = .next t.passTurn := by
    rw [State.run_turn hdue hagenda hunit hlive hstops, issues, State.latch_markIssue, hexec]
    rfl
  exact step_of_run hcore run

end Sys2Proof.Claims

/-! FSOPEN and what a context knows of the scope it opens (`Obligations.ScopeInstructions`). -/

namespace Sys2Proof.Claims

open Machine

/-- Scope 1 of partition 0 is free, and an access of an open region is still known to it from the scope that had its number
before. -/
def staleScope : State :=
  { State.reset with
    k := { task := some {} }
    before := [{ parent := 0, granule := 0, write := true, by' := .scope 0 1 }] }

/-- An FSOPEN of a job, without a descriptor. -/
def openJob : G64 := { c := 4 }

theorem freeScope_staleScope : staleScope.freeScope staleScope.myPart = some 1 := by decide

/-- The scope that opens under a number knows nothing of what the one before it knew (R361). -/
theorem fsopen_forgets : ∃ t, exec (.fsopen openJob) staleScope = .next t ∧ t.before = [] := ⟨_, rfl, by decide⟩

/-- Refutes O34: FSOPEN also forgets what was known to the scope that had the opened one's number (R361), where the statement
leaves every field but the scopes, the destination and the context as it was. In `staleScope` one access is known to the free
scope 1, which the FSOPEN of a job opens. -/
theorem not_scopeInstructions : ¬ Obligations.ScopeInstructions := by
  unfold Obligations.ScopeInstructions
  rintro ⟨-, -, opens, -, -⟩
  obtain ⟨-, -, job⟩ := opens openJob staleScope (by unfold runs; decide) ⟨rfl, rfl⟩ (by decide)
  have stated := (job (Or.inl rfl)).2 1 freeScope_staleScope
  obtain ⟨t, ht, forgotten⟩ := fsopen_forgets
  have same : t = retired (put (staleScope.onScope staleScope.myPart 1 (fun _ => { state := .opened, kind := 4 })) openJob.d
      (BitVec.ofNat 64 1)) 2 := by
    rw [ht] at stated
    injection stated
  have kept : t.before = staleScope.before := by rw [same]; rfl
  rw [forgotten] at kept
  cases kept

end Sys2Proof.Claims

/-! Task instructions (`Obligations.TaskInstructions`). -/

namespace Sys2Proof.Claims

open Machine

section
variable {s : State} {f : G64}

/-- An engine's instruction that a control context issues outside every window: its body runs with its number taken, and it
retires or stops. -/
theorem issue_metaE {f : Form} {b : State → Except Stop State} (hr : runs s f.p f.n) (hp : plain s) :
    s.issue (metaE f false false) b = match b (numbered s) with
      | .ok t => t.retire f.len
      | .error r => s.stoppedAs true r :=
  issue_engine (Or.inr fun _ => hp.2) (Or.inr hp.1) hr rfl

/-- The same for an instruction of a control context that is no engine's. -/
theorem issue_metaC {f : Form} {b : State → Except Stop State} (hr : runs s f.p f.n) (hp : plain s) :
    s.issue (metaC f false) b = match b s with
      | .ok t => t.retire f.len
      | .error r => s.stopped r :=
  issue_of_runs (Or.inr fun _ => hp.2) (Or.inr hp.1) hr rfl

theorem need_of_true {c : Bool} {cause : Nat} (h : c = true) : need c cause = .ok () := if_pos h
theorem need_of_false {c : Bool} {cause : Nat} (h : c = false) : need c cause = .error (.trap cause 0 0) := by simp [need, h]

/-- The check of TJOIN's tensor: only MD 2 names one (R126, R235). -/
theorem tjoin_check_iff : (f.md != 2 || usable ((numbered s).tensor f.b.toNat) (fun sp => decide (sp ≤ 2))) = true ↔
    (f.md = 2 → usable (s.k.tens.getD f.b.toNat 0) (fun sp => decide (sp ≤ 2)) = true) := by
  rw [Bool.or_eq_true, bne_iff_ne]
  exact (imp_iff_not_or (b := usable (s.k.tens.getD f.b.toNat 0) (fun sp => decide (sp ≤ 2)) = true)).symm

/-- TJOIN with no work of its own context owed at its tensor. -/
theorem exec_tjoin (hr : runs s f.p f.n) (hp : plain s) (ho : f.md = 2 → s.zsOwed f.b.toNat = false) :
    exec (.tjoin f) s = .next (match need (f.md != 2 || usable ((numbered s).tensor f.b.toNat) (fun sp => decide (sp ≤ 2)))
        causeRecord with
      | .ok _ => retired { numbered s with inflight := s.inflight ++ [(Instr.arrival, ({
            core := s.coreNo, part := s.myPart, unit := f.c.toNat, tag := s.readOp f.a f.da
            flag := f.md == 1 || (f.md == 2 && (s.k.tens.getD f.b.toNat 0).getLsbD 379) } : Cmd))] }.endRegion 2
      | .error r => s.stoppedAs true r) := by
  have free : ¬ (f.md = 2 ∧ (numbered s).zsOwed f.b.toNat = true) := fun ⟨h1, h2⟩ => by
    have owed : s.zsOwed f.b.toNat = true := h2
    rw [ho h1] at owed
    cases owed
  refine congrArg Host.Outcome.next ((issue_metaE hr hp).trans ?_)
  rw [if_neg free]
  cases need _ causeRecord <;> rfl

theorem exec_tdone {m : Meta} (hr : runs s m.p m.n) (hc : s.ctx.slot = 15) (hw : m.window = true) (he : m.engine = false) :
    s.tdone m = { s.dropLoop with ctx := { s.dropLoop.ctx with hold := some .done } } :=
  issueRaw_of_runs (Or.inl hw) (Or.inr hc) hr he

theorem exec_wdq (hr : runs s f.p f.n) (hp : plain s) :
    exec (.wdq f) s = .next (retired (put s f.d (s.task.wdq.setWidth 64 |||
      (if s.scopeCancelled s.myPart 5 s.task.scope then 1 else 0))) 2) := by
  refine congrArg Host.Outcome.next ((issue_metaC hr hp).trans ?_)
  dsimp only
  rw [writeOp_eq_put]
  cases s.scopeCancelled s.myPart 5 s.task.scope <;> rfl

theorem exec_tcancelScope (hr : runs s f.p f.n) (hp : plain s) :
    exec (.tcancelScope f) s = .next (retired (if (s.scope s.myPart (bits (s.readOp f.a f.da) 0 8)).state = .free
      then put (numbered s) f.d (failure 8)
      else put ((numbered s).cancelScope s.myPart (bits (s.readOp f.a f.da) 0 8)) f.d 0) 2) := by
  refine congrArg Host.Outcome.next ((issue_metaE hr hp).trans ?_)
  by_cases h : ((numbered s).scope (numbered s).myPart (bits ((numbered s).readOp f.a f.da) 0 8)).state = .free
  · have h' : (s.scope s.myPart (bits (s.readOp f.a f.da) 0 8)).state = .free := h
    rw [if_pos h, if_pos h', ← writeOp_eq_put]
    rfl
  · have h' : ¬ (s.scope s.myPart (bits (s.readOp f.a f.da) 0 8)).state = .free := h
    rw [if_neg h, if_neg h', ← writeOp_eq_put]
    rfl

theorem cancelTask_foreign {p : Nat} {tag : Word} (hq : s.queueForeign p (tagQueue tag) = true) :
    s.cancelTask p tag = (failure 5, s) := if_pos hq

theorem cancelTask_unknown {p : Nat} {tag : Word} (hq : s.queueForeign p (tagQueue tag) = false) (hn : s.byTag tag = none) :
    s.cancelTask p tag = (failure 8, s) := by
  simp [State.cancelTask, hq, hn, failWord, failure]

theorem cancelTask_known {p : Nat} {tag : Word} {r : Rec} (hq : s.queueForeign p (tagQueue tag) = false)
    (hn : s.byTag tag = some r) :
    s.cancelTask p tag = (0, if r.state = .running then s.onTask (r.core.getD 0) (fun t => { t with wdq := t.wdq ||| 1 })
      else s.cancelRec (tagQueue tag) (tagSlot tag) r) := by
  by_cases h : r.state = .running <;> simp [State.cancelTask, hq, hn, h]

theorem exec_tcancelTask (hr : runs s f.p f.n) (hp : plain s) :
    exec (.tcancelTask f) s = .next (retired (put ((numbered s).cancelTask s.myPart (s.readOp f.a f.da)).2 f.d
      ((numbered s).cancelTask s.myPart (s.readOp f.a f.da)).1) 2) := by
  refine congrArg Host.Outcome.next ((issue_metaE hr hp).trans ?_)
  dsimp only
  rw [writeOp_eq_put]
  rfl

end

/-- Settles O33, by the equation of each instruction: which of TJOIN's check, of the scope's state and of the record's decides. -/
theorem taskInstructions : Obligations.TaskInstructions := by
  unfold Obligations.TaskInstructions
  refine ⟨fun f s hr hp ho => ⟨fun hn => ?_, fun hn hh => ?_⟩, fun s hc => ⟨?_, fun f hr => ?_⟩, fun f s => exec_wdq,
    fun f s => exec_tcancelScope, fun f s hr hp => ⟨fun hq => ?_, fun hq hn => ?_, fun r hq hn hs => ?_, fun r hq hn hs => ?_⟩⟩
  · rw [exec_tjoin hr hp ho, need_of_true (tjoin_check_iff.2 hn)]
  · have refused := Bool.eq_false_iff.2 (mt tjoin_check_iff.1 hn)
    rw [exec_tjoin hr hp ho, need_of_false refused]
    exact congrArg _ (stoppedAs_of_handler hh true 11 0 0 (by decide))
  · exact congrArg _ (exec_tdone (by simp [runs]) hc rfl rfl)
  · exact congrArg _ (exec_tdone hr hc rfl rfl)
  · rw [exec_tcancelTask hr hp, cancelTask_foreign (s := numbered s) hq]
  · rw [exec_tcancelTask hr hp, cancelTask_unknown (s := numbered s) hq hn]
  · rw [exec_tcancelTask hr hp, cancelTask_known (s := numbered s) hq hn, if_neg hs]
  · rw [exec_tcancelTask hr hp, cancelTask_known (s := numbered s) hq hn, if_pos hs]

end Sys2Proof.Claims

/-! Stores that are performed, and what a helper's end leaves: frames of shared operations. -/

namespace Sys2Proof.Machine

/-- A byte of a store that is performed changes memories, hot-line stores and what is known of writes, and nothing else. -/
theorem State.putByte_frame (s : State) (b : HeldByte) : ∃ l c m h e,
    s.putByte b = { s with k := { s.k with localMem := l }, clusterMem := c, mem := m, hot := h, before := e } := by
  obtain ⟨e, he⟩ := s.overwrite_frame b.space b.addr 1
  unfold State.putByte
  rw [he]
  split <;> exact ⟨_, _, _, _, _, rfl⟩

theorem State.putBytes_frame (bs : List HeldByte) (s : State) : ∃ l c m h e,
    bs.foldl State.putByte s = { s with k := { s.k with localMem := l }, clusterMem := c, mem := m, hot := h, before := e } := by
  induction bs generalizing s with
  | nil => exact ⟨_, _, _, _, _, rfl⟩
  | cons b bs ih =>
    obtain ⟨l, c, m, h, e, hb⟩ := s.putByte_frame b
    obtain ⟨l', c', m', h', e', hs⟩ := ih (s.putByte b)
    exact ⟨l', c', m', h', e', by rw [List.foldl_cons, hs, hb]⟩

/-- Every STNT byte of the context in focus performed. -/
theorem State.drainNt_frame (s : State) : ∃ l c m h e, s.drainNt =
    { s with ctx := { s.ctx with nt := [] }, k := { s.k with localMem := l }, clusterMem := c, mem := m, hot := h, before := e } := by
  obtain ⟨l, c, m, h, e, hs⟩ := State.putBytes_frame s.ctx.nt s
  exact ⟨l, c, m, h, e, by unfold State.drainNt; rw [hs]⟩

theorem State.forgetRegion_frame (s : State) (ident : Nat) : ∃ e, s.forgetRegion ident = { s with before := e } := by
  unfold State.forgetRegion
  split
  · exact ⟨s.before, rfl⟩
  · exact ⟨_, rfl⟩

theorem State.retireHelper_frame (s : State) (byExit : Bool) : ∃ e, s.retireHelper byExit = { s with before := e } := by
  unfold State.retireHelper
  split
  · exact ⟨s.before, rfl⟩
  · cases byExit
    · exact ⟨_, rfl⟩
    · obtain ⟨e, he⟩ := s.tell_frame [.ended s.task.id s.ctx.slot]
      simp only [he, if_true]
      exact ⟨_, rfl⟩

/-- An operand that is written is a register or a bead, and nothing else changes. -/
theorem State.writeOp_frame (s : State) (d : BitVec 6) (v : Word) : ∃ r b,
    s.writeOp d v = { s with ctx := { s.ctx with regs := r }, k := { s.k with strands := b } } := by
  unfold State.writeOp
  split
  · exact ⟨_, _, rfl⟩
  · unfold State.writeBead
    split <;> exact ⟨_, _, rfl⟩

/-- A context of the core that is not in focus comes into it. -/
theorem State.focusSlot_of_find {s : State} {slot : Nat} {c : Ctx} (hs : s.ctx.slot ≠ slot)
    (hf : s.k.peers.find? (fun x => x.slot == slot) = some c) :
    s.focusSlot slot =
      { s with ctx := c, k := { s.k with peers := s.ctx :: s.k.peers.filter (fun x => x.slot != slot) } } := by
  simp [State.focusSlot, hs, hf]

theorem State.closeRegion_slot (s : State) : s.closeRegion.ctx.slot = s.ctx.slot := rfl

theorem State.closeRegion_k (s : State) : s.closeRegion.k = s.k := by
  obtain ⟨e, he⟩ := (s.fresh.2).forgetRegion_frame s.agent.ident
  show ((s.fresh.2).forgetRegion s.agent.ident).k = s.k
  rw [he]
  rfl

/-- The end of a helper that has performed its stores, before its control context comes back into focus. -/
theorem State.retired_helper_keeps (s : State) : ∃ x : State, ((s.drainNt.retireHelper true).closeRegion) = x ∧
    x.ctx.slot = s.ctx.slot ∧ x.k.peers = s.k.peers ∧ x.k.helperEnd = s.k.helperEnd := by
  obtain ⟨l, c, m, h, e, hd⟩ := s.drainNt_frame
  obtain ⟨e', hr⟩ := s.drainNt.retireHelper_frame true
  refine ⟨_, rfl, ?_, ?_, ?_⟩
  · rw [State.closeRegion_slot, hr, hd]
  · rw [State.closeRegion_k, hr, hd]
  · rw [State.closeRegion_k, hr, hd]

end Sys2Proof.Machine

/-! Helpers (`Obligations.Helpers`). -/

namespace Sys2Proof.Claims

open Machine

/-- A helper's end (R234): the control context is in focus, the helper is gone, and its end status stands. -/
theorem endHelper_spec {s : State} {c : Ctx} (h15 : s.ctx.slot ≠ 15)
    (hc : s.k.peers.find? (fun x => x.slot == 15) = some c) (hnt : ntFree s) :
    (s.endHelper 1).ctx = c ∧ (∀ x, x ∈ (s.endHelper 1).k.peers → x.slot ≠ s.ctx.slot) ∧
      (s.ctx.slot < 10 → (s.endHelper 1).k.helperEnd.getD s.ctx.slot 0 = 1) := by
  obtain ⟨x, hx, hslot, hpeers, hend⟩ := s.retired_helper_keeps
  have hleave : s.leaveNt = s.drainNt := by simp [State.leaveNt, show s.ntBlocked = false from hnt]
  have e : s.endHelper 1 = { x.focusSlot 15 with k := { (x.focusSlot 15).k with
      peers := (x.focusSlot 15).k.peers.filter (fun c => c.slot != s.ctx.slot)
      helperEnd := (x.focusSlot 15).k.helperEnd.setIfInBounds s.ctx.slot 1 } } := by
    rw [← hx, ← hleave]
    rfl
  rw [e, State.focusSlot_of_find (hslot ▸ h15) (hpeers ▸ hc)]
  refine ⟨rfl, fun y hy => ?_, fun hlt => ?_⟩
  · simpa using (List.mem_filter.1 hy).2
  · simp [Vector.getD, hlt]

/-- The lowest number that passes a test. -/
theorem find?_upFrom {p : Nat → Bool} {n : Nat} (hn : p n = true) (lo len : Nat) (hlo : lo ≤ n) (hlen : n < lo + len)
    (hp : ∀ m, m < n → p m = false) : (upFrom lo len).find? p = some n := by
  induction len generalizing lo with
  | zero => omega
  | succ len ih =>
    by_cases h : lo = n
    · simp [upFrom, h, hn]
    · rw [upFrom, List.find?_cons_of_neg (by rw [hp lo (by omega)]; decide)]
      exact ih (lo + 1) (by omega) (by omega)

/-- The lowest slot that no helper of the core has (R234). -/
theorem freeHelper_eq {s : State} {n : Nat} (hn : n < 10) (hfree : ∀ c, c ∈ s.k.peers → c.slot ≠ n)
    (hlow : ∀ m, m < n → ∃ c, c ∈ s.k.peers ∧ c.slot = m) : s.freeHelper = some n := by
  refine find?_upFrom ?_ 0 10 (Nat.zero_le n) (by omega) fun m hm => ?_
  · simpa using hfree
  · simpa using hlow m hm

/-- A legal target in the helper store. -/
theorem checkTarget_helper {s : State} {entry : Word} (hs : s.ctx.slot ≠ 15) (hbad : ¬ badAddress entry)
    (hpar : parityOk (s.helperLine (entry.toNat / 64 * 64)) = true)
    (htgt : targetOk (s.helperLine (entry.toNat / 64 * 64)) (entry.toNat % 64 / 4) = true) :
    s.checkTarget entry = .ok s := by
  have line : s.lineAt entry = .ok (s.helperLine (entry.toNat / 64 * 64), s) := by simp [State.lineAt, hs, hpar]
  unfold State.checkTarget
  rw [badPc_false hbad, line]
  exact if_pos htgt

/-- The entry check of a helper whose entry is a legal target in the helper store leaves everything as it is (R234, R17). -/
theorem checkEntry_legal {s : State} {c : Ctx} {ps : List Ctx} {entry : Word} (h15 : s.ctx.slot = 15)
    (hpeers : s.k.peers = c :: ps) (hc : c.slot ≠ 15) (hps : ∀ x, x ∈ ps → x.slot ≠ c.slot ∧ x.slot ≠ 15)
    (hbad : ¬ badAddress entry) (hpar : parityOk (s.helperLine (entry.toNat / 64 * 64)) = true)
    (htgt : targetOk (s.helperLine (entry.toNat / 64 * 64)) (entry.toNat % 64 / 4) = true) :
    s.checkEntry c.slot entry = .ok s := by
  have others : s.k.peers.filter (fun x => x.slot != c.slot) = ps := by
    rw [hpeers, List.filter_cons_of_neg (by simp)]
    exact List.filter_eq_self.2 fun x hx => by simpa using (hps x hx).1
  have there : s.focusSlot c.slot = { s with ctx := c, k := { s.k with peers := s.ctx :: ps } } := by
    rw [State.focusSlot_of_find (c := c) (by rw [h15]; exact hc.symm) (by simp [hpeers]), others]
  have back : ({ s with ctx := c, k := { s.k with peers := s.ctx :: ps } } : State).focusSlot 15 = s := by
    have rest : (s.ctx :: ps).filter (fun x => x.slot != 15) = ps := by
      rw [List.filter_cons_of_neg (by simp [h15])]
      exact List.filter_eq_self.2 fun x hx => by simpa using (hps x hx).2
    rw [State.focusSlot_of_find (c := s.ctx) hc (by simp [h15])]
    simp only [rest, ← hpeers]
  have legal : ({ s with ctx := c, k := { s.k with peers := s.ctx :: ps } } : State).checkTarget entry =
      .ok { s with ctx := c, k := { s.k with peers := s.ctx :: ps } } := checkTarget_helper hc hbad hpar htgt
  unfold State.checkEntry
  simp only [there, legal, back]

/-- What a helper that starts knows of its parent's accesses (R361). -/
theorem noteBefore_frame (s : State) (slot : Nat) : ∃ b, s.noteBefore slot = { s with before := b } ∧
    (s.ctx.tag = none → s.before = [] → b = []) := by
  obtain ⟨e, he, empty⟩ : ∃ e, (s.unlearn (fun k => k == .ended s.task.id slot)).tell [.ctx s.task.id slot] =
      { s with before := e } ∧ (s.before = [] → e = []) := by
    obtain ⟨e, he⟩ := s.unlearn_frame (fun k => k == .ended s.task.id slot)
    obtain ⟨e', he'⟩ := ({ s with before := e } : State).tell_frame [.ctx s.task.id slot]
    refine ⟨e', by rw [he, he'], fun h => ?_⟩
    have same : ({ s with before := e } : State) = s := he.symm.trans (by simp [State.unlearn, h])
    have told : s.tell [.ctx s.task.id slot] = s := by simp [State.tell, State.teach, h]
    rw [same, told] at he'
    exact (congrArg State.before he').symm.trans h
  refine ⟨(s.noteBefore slot).before, ?_, fun ht h => ?_⟩
  · cases ht : s.ctx.tag <;> simp only [State.noteBefore, ht, he]
  · simp only [State.noteBefore, ht, he, empty h]

/-- The core as HSTART leaves it before its destination is written and its entry is checked. -/
def withHelper (s : State) (n : Nat) (entry : Word) (known : List Earlier) : State :=
  { numbered s with
    k := { (numbered s).k with peers := helperBorn s n entry :: s.k.peers }
    before := known
    free := s.free + 1
    names := s.names + 1 }

theorem checkEntry_withHelper {s : State} {n : Nat} {entry : Word} (known : List Earlier) (d : BitVec 6) (h15 : s.ctx.slot = 15)
    (hn : n < 10) (hfree : ∀ c, c ∈ s.k.peers → c.slot ≠ n ∧ c.slot ≠ 15) (hbad : ¬ badAddress entry)
    (hpar : parityOk (s.helperLine (entry.toNat / 64 * 64)) = true)
    (htgt : targetOk (s.helperLine (entry.toNat / 64 * 64)) (entry.toNat % 64 / 4) = true) :
    ((withHelper s n entry known).writeOp d (BitVec.ofNat 64 n)).checkEntry n entry =
      .ok ((withHelper s n entry known).writeOp d (BitVec.ofNat 64 n)) := by
  obtain ⟨r, b, hw⟩ := (withHelper s n entry known).writeOp_frame d (BitVec.ofNat 64 n)
  rw [hw]
  exact checkEntry_legal (c := helperBorn s n entry) h15 rfl (show n ≠ 15 by omega) hfree hbad hpar htgt

/-- HSTART with a free helper slot and a legal entry (R234). -/
theorem exec_hstart {f : I64} {s : State} {n : Nat} (hr : runs s f.p f.n) (hp : plain s) (hn : n < 10)
    (hfree : ∀ c, c ∈ s.k.peers → c.slot ≠ n ∧ c.slot ≠ 15) (hlow : ∀ m, m < n → ∃ c, c ∈ s.k.peers ∧ c.slot = m)
    (hbad : ¬ badAddress (f.imm.signExtend 64))
    (hpar : parityOk (s.helperLine ((f.imm.signExtend 64).toNat / 64 * 64)) = true)
    (htgt : targetOk (s.helperLine ((f.imm.signExtend 64).toNat / 64 * 64)) ((f.imm.signExtend 64).toNat % 64 / 4) = true) :
    ∃ known, exec (.hstart f) s =
        .next (retired (put (withHelper s n (f.imm.signExtend 64) known) f.d (BitVec.ofNat 64 n)) 2) ∧
      (s.ctx.tag = none → s.before = [] → known = []) := by
  obtain ⟨known, hknown, empty⟩ := noteBefore_frame (numbered s) n
  refine ⟨known, ?_, empty⟩
  have slot : (numbered s).freeHelper = some n := freeHelper_eq hn (fun c hc => (hfree c hc).1) hlow
  have checked := checkEntry_withHelper known f.d hp.1 hn hfree hbad hpar htgt
  refine congrArg Host.Outcome.next ((issue_metaE hr hp).trans ?_)
  rw [← writeOp_eq_put]
  simp only [slot, hknown]
  exact congrArg (fun r : Except Stop State => match r with | .ok t => t.retire 2 | .error r => s.stoppedAs true r) checked

/-- HWAIT: while the helper is live it waits. -/
theorem exec_hwait {f : G64} {s : State} (hr : runs s f.p f.n) (hp : plain s) :
    exec (.hwait f) s = .next (if s.k.peers.any (fun c => c.slot == f.a.toNat) then waits s
      else retired (put s f.d ((s.k.helperEnd.getD f.a.toNat 0).setWidth 64)).endRegion 2) := by
  refine congrArg Host.Outcome.next ((issue_metaC hr hp).trans ?_)
  rw [← writeOp_eq_put]
  dsimp only [formG]
  cases s.k.peers.any (fun c => c.slot == f.a.toNat) <;> rfl

/-- HEXIT in a helper, whichever its length: it ends the helper, or waits for its STNT bytes. -/
theorem exitHelper_of_helper {s : State} {len : Nat} {p : BitVec 3} {n : Bool} (h15 : s.ctx.slot ≠ 15) (hr : runs s p n) :
    s.exitHelper { len := len, p := p, n := n } = if s.ntBlocked then waits s else s.endHelper 1 := by
  have here : ¬ (s.ctx.slot = 15 ∧ s.guard p n = true) := fun h => h15 h.1
  unfold State.exitHelper
  rw [if_neg here, issueRaw_of_runs (Or.inr fun h => absurd h h15) (Or.inl rfl) hr rfl]
  cases s.ntBlocked <;> rfl

/-- HEXIT in a control context is illegal (R234). -/
theorem exitHelper_of_control {s : State} {len : Nat} {p : BitVec 3} {n : Bool} (hh : hasHandler s) (hr : runs s p n) :
    s.exitHelper { len := len, p := p, n := n } = trapped s 1 0 s.ctx.pc := by
  have here : s.ctx.slot = 15 ∧ s.guard p n = true := ⟨hh.1, guard_of_runs hr⟩
  exact (if_pos here).trans (stopped_of_handler hh 1 0 0 (by decide))

/-- HEXIT whose guard fails does nothing, in either kind of context (R42). -/
theorem exitHelper_off {s : State} {len : Nat} {p : BitVec 3} {n : Bool} (hr : ¬ runs s p n) :
    s.exitHelper { len := len, p := p, n := n } = retired s len := by
  have off : s.guard p n = false := Bool.eq_false_iff.2 fun h => hr (runs_of_guard h)
  have allowed : s.mayIssue { len := len, p := p, n := n } = .ok () := by simp [State.mayIssue, off]
  unfold State.exitHelper
  rw [if_neg (by simp [off]), State.issueRaw_off allowed off]
  rfl

theorem runs_always (s : State) : runs s 0 false := by simp [runs]

/-- Settles O31: HSTART by the entry check that leaves everything as it is, HWAIT by its issue, HEXIT by the three ways that
`exitHelper` can go. -/
theorem helpers : Obligations.Helpers := by
  unfold Obligations.Helpers
  refine ⟨fun f s n hr hp hn hfree hlow => exec_hstart hr hp hn hfree hlow, fun f s => exec_hwait,
    fun s c h15 hc => ⟨fun hnt => ?_, fun hnt => ?_, fun hr => ?_⟩, fun s hh => ⟨?_, fun hr => ?_⟩, fun s hr => ?_⟩
  · have e : s.exitHelper { len := 1 } = s.endHelper 1 :=
      (exitHelper_of_helper h15 (runs_always s)).trans (by rw [show s.ntBlocked = false from hnt]; rfl)
    exact ⟨_, congrArg Host.Outcome.next e, endHelper_spec h15 hc hnt⟩
  · exact congrArg _ ((exitHelper_of_helper h15 (runs_always s)).trans (if_pos (Bool.of_not_eq_false hnt)))
  · exact congrArg _ ((exitHelper_of_helper h15 hr).trans (exitHelper_of_helper h15 (runs_always s)).symm)
  · exact congrArg _ (exitHelper_of_control hh (runs_always s))
  · exact congrArg _ (exitHelper_of_control hh hr)
  · exact congrArg _ (exitHelper_off hr)

end Sys2Proof.Claims

/-! Exchange windows and barrier domains (`Obligations.ExchangeEvents`). -/

namespace Sys2Proof.Machine

/-- The knowledge of accesses is all that a synchronising operation changes (R361). -/
def State.OnlyKnowledge (s t : State) : Prop := ∃ e, t = { s with before := e }

theorem State.OnlyKnowledge.trans {s t u : State} (h : s.OnlyKnowledge t) (h' : t.OnlyKnowledge u) : s.OnlyKnowledge u := by
  obtain ⟨e, rfl⟩ := h
  obtain ⟨e', rfl⟩ := h'
  exact ⟨e', rfl⟩

theorem State.onlyKnowledge_self (s : State) : s.OnlyKnowledge s := ⟨s.before, rfl⟩

theorem State.onlyKnowledge_acquireAt (s : State) (ty : BitVec 4) (scope : BitVec 3) : s.OnlyKnowledge (s.acquireAt ty scope) := by
  unfold State.acquireAt
  split
  · exact s.teach_frame _ _
  · exact s.onlyKnowledge_self

theorem State.onlyKnowledge_tellBarrier (s : State) (id : Nat) : s.OnlyKnowledge (s.tellBarrier id) :=
  State.OnlyKnowledge.trans (s.unlearn_frame _) (State.tell_frame _ _)

theorem State.onlyKnowledge_synchronise (s : State) : s.OnlyKnowledge s.synchronise := by
  unfold State.synchronise
  split
  · exact s.onlyKnowledge_self
  · split
    · exact s.onlyKnowledge_acquireAt _ _
    · exact s.onlyKnowledge_acquireAt _ _
    · exact s.learn_frame _
    · split
      · exact s.tell_frame _
      · exact s.onlyKnowledge_self
    · exact s.onlyKnowledge_tellBarrier _
    · exact s.onlyKnowledge_tellBarrier _
    · exact s.learn_frame _
    · exact s.learn_frame _
    · exact s.onlyKnowledge_tellBarrier _
    · exact s.learn_frame _
    · exact s.onlyKnowledge_tellBarrier _
    · exact s.onlyKnowledge_self

/-- The end of a region leaves the focus where it is. -/
theorem State.endRegion_slot (s : State) : s.endRegion.ctx.slot = s.ctx.slot := by
  obtain ⟨e, he⟩ := s.onlyKnowledge_synchronise
  show s.synchronise.ctx.slot = s.ctx.slot
  rw [he]

theorem State.writeOp_slot (s : State) (d : BitVec 6) (v : Word) : (s.writeOp d v).ctx.slot = s.ctx.slot := by
  unfold State.writeOp
  split
  · rfl
  · unfold State.writeBead
    split <;> rfl

theorem State.focusSlot_here {s : State} {slot : Nat} (h : s.ctx.slot = slot) : s.focusSlot slot = s := if_pos h

/-! The waiting instruction issues again. -/

/-- What the events of the exchange do at a core whose instruction waits. -/
theorem State.goOn_waiting {s t : State} {i : Instr} {go : Instr → State → State} (hc : s.ctx.slot = 15) (hl : s.ctx.live = true)
    (hh : s.ctx.hold.isSome = true) (hd : decode s.ctx.ir.toList = .ok i) (hgo : go i s = t) (ht : t.ctx.slot = 15) :
    s.goOn s.coreNo go = t := by
  have waiting : s.waitingAt = some i := by simp [State.waitingAt, hc, hl, hh, hd]
  simp only [State.goOn, State.atCore_self, State.focusSlot_here hc, waiting, hgo, hc]
  exact State.focusSlot_here ht

theorem State.goOn_idle {s : State} {go : Instr → State → State} (hc : s.ctx.slot = 15) (hh : s.ctx.hold = none) :
    s.goOn s.coreNo go = s := by
  have waiting : s.waitingAt = none := by simp [State.waitingAt, hh]
  simp only [State.goOn, State.atCore_self, State.focusSlot_here hc, waiting]

/-! Domains. -/

theorem State.domain_onDomain {s : State} {n : Nat} (h : n < 64) (f : Domain → Domain) :
    (s.onDomain n f).domain n = f (s.domain n) := by
  simp [State.domain, State.onDomain, Vector.getD, h]

theorem getD_of_lt {α : Type} {n i : Nat} (v : Vector α n) (h : i < n) (a b : α) : v.getD i a = v.getD i b := by
  simp [Vector.getD, h]

end Sys2Proof.Machine

namespace Sys2Proof.Claims

open Machine

section
variable {s : State}

/-- The issue of an exchange instruction of a control context that waits, which needs no window of its own (R408). -/
theorem issueRaw_exchange {f : G64} {dest : Bool} {b : State → Except Stop State} (hr : runs s f.p f.n) (hc : s.ctx.slot = 15) :
    s.issueRaw (metaX62 (formG f) dest) b = match b s with
      | .ok t => t
      | .error r => s.stopped r :=
  issueRaw_of_runs (Or.inl rfl) (Or.inr hc) hr rfl

theorem put_slot (s : State) (d : BitVec 6) (v : Word) : (put s d v).ctx.slot = s.ctx.slot := by
  rw [← writeOp_eq_put]
  exact s.writeOp_slot d v

theorem outsideLoop_ok (h : s.k.loop.running = false) : s.outsideLoop = .ok () := by simp [State.outsideLoop, h]

theorem openWindow_some {w : Window} (hw : s.k.window = some w) (ho : w.opened = true) : s.openWindow = some w := by
  simp [State.openWindow, hw, ho]

/-- An event of the exchange at the instruction that stands waiting. -/
theorem goOn_standing {t : State} {i : Instr} {go : Instr → State → State} (hs : standsAt s i) (hh : s.ctx.hold.isSome = true)
    (hgo : go i s = t) (ht : t.ctx.slot = 15) : s.goOn s.cmd.core go = t := by
  obtain ⟨hcore, hslot, hlive, hdec, -⟩ := hs
  rw [hcore]
  exact State.goOn_waiting hslot hlive hh hdec hgo ht

theorem xopen_opened {f : G64} {w : Window} {ph : BitVec 16} (hr : runs s f.p f.n) (hc : s.ctx.slot = 15)
    (hw : s.k.window = some w) (ho : w.opened = true) (hh : s.ctx.hold = some (.exchange ph)) :
    s.xopen f = retired (put s f.d (BitVec.ofNat 64 (w.t0 + w.lead))).endRegion 2 := by
  unfold State.xopen
  rw [issueRaw_exchange hr hc]
  simp only [hh, hw, ho, if_true, writeOp_eq_put]
  rfl

theorem xsend_due {f : G64} {w : Window} {slot dest : Nat} {v : Word} (hr : runs s f.p f.n) (hc : s.ctx.slot = 15)
    (hl : s.k.loop.running = false) (hw : s.k.window = some w) (ho : w.opened = true)
    (hh : s.ctx.hold = some (.send slot dest v)) (hdue : w.t0 + w.lead + slot * w.slen ≤ s.cycle.toNat) :
    s.xsend f = retired (sent s w slot dest v) 2 := by
  unfold State.xsend
  rw [issueRaw_exchange hr hc]
  have due : ¬ s.cycle.toNat < w.slotStart slot := Nat.not_lt.2 hdue
  simp only [outsideLoop_ok hl, hh, openWindow_some hw ho, due, if_false]
  rfl

theorem xrecv_due {f : G64} {w : Window} (hr : runs s f.p f.n) (hc : s.ctx.slot = 15)
    (hl : s.k.loop.running = false) (hw : s.k.window = some w) (ho : w.opened = true)
    (hslot : (s.readOp f.a f.da).toNat < w.nslot) (hrv : (slotWord w (s.readOp f.a f.da).toNat).getLsbD 26 = true)
    (harr : s.arrivalDue (s.readOp f.a f.da).toNat = false)
    (hdue : w.t0 + w.lead + ((s.readOp f.a f.da).toNat + 1) * w.slen ≤ s.cycle.toNat) :
    s.xrecv f = retired (put s f.d (Tbl.getD w.store (s.readOp f.a f.da).toNat 0)) 2 := by
  unfold State.xrecv
  rw [issueRaw_exchange hr hc]
  have receives : entryRv (w.entry (s.readOp f.a f.da).toNat) = true := hrv
  have listed : ¬ (w.nslot ≤ (s.readOp f.a f.da).toNat ∨ ¬ entryRv (w.entry (s.readOp f.a f.da).toNat) = true) := by
    simp [receives, hslot]
  have due : ¬ (s.cycle.toNat < w.slotEnd (s.readOp f.a f.da).toNat ∨ s.arrivalDue (s.readOp f.a f.da).toNat = true) := by
    rw [harr]
    exact not_or.2 ⟨Nat.not_lt.2 hdue, Bool.false_ne_true⟩
  simp only [outsideLoop_ok hl, openWindow_some hw ho, bind, Except.bind, listed, due, if_false, writeOp_eq_put]
  rfl

theorem xclose_over {f : G64} {w : Window} (hr : runs s f.p f.n) (hc : s.ctx.slot = 15) (hl : s.k.loop.running = false)
    (hw : s.k.window = some w) (ho : w.opened = true) (harr : s.anyArrivalDue w = false)
    (hdue : w.t0 + w.lead + w.nslot * w.slen ≤ s.cycle.toNat) :
    s.xclose f = retired (put s.dropWindow f.d w.status) 2 := by
  unfold State.xclose
  rw [issueRaw_exchange hr hc]
  have due : ¬ (s.cycle.toNat < w.ending ∨ s.anyArrivalDue w = true) := by
    rw [harr]
    exact not_or.2 ⟨Nat.not_lt.2 hdue, Bool.false_ne_true⟩
  simp only [outsideLoop_ok hl, openWindow_some hw ho, bind, Except.bind, due, if_false, writeOp_eq_put]
  rfl

/-- An arrival that the window's schedule expects in a slot (R403, R409). -/
def expects (w : Window) (sender domain slot : Nat) (phase : Word) : Prop :=
  w.domain = domain ∧ w.phase.setWidth 64 = phase ∧ slot < w.nslot ∧ (slotWord w slot).getLsbD 26 = true ∧
    bits (slotWord w slot) 16 10 = sender ∧ Tbl.find w.store slot = none

theorem fits_iff {w : Window} {sender domain slot : Nat} {phase : Word} :
    (w.domain == domain && w.phase.setWidth 64 == phase && decide (slot < w.nslot) && entryRv (w.entry slot) &&
      entryRsrc (w.entry slot) == sender && (Tbl.find w.store slot).isNone) = true ↔ expects w sender domain slot phase := by
  simp only [Bool.and_eq_true, beq_iff_eq, decide_eq_true_eq, Option.isNone_iff_eq_none, and_assoc]
  rfl

/-- An expected arrival is stored in its slot (R409). -/
theorem storeArrival_expected {w : Window} (hw : s.k.window = some w) (ho : w.opened = true) {sender domain slot : Nat}
    {phase : Word} (v : Word) (h : expects w sender domain slot phase) : s.storeArrival sender domain slot phase v =
      { s with k := { s.k with window := some { w with store := Tbl.put w.store slot v } } } := by
  simp only [State.storeArrival, openWindow_some hw ho, fits_iff.2 h, if_true]

/-- Any other is counted (R409). -/
theorem storeArrival_unexpected {w : Window} (hw : s.k.window = some w) (ho : w.opened = true) {sender domain slot : Nat}
    {phase : Word} (v : Word) (h : ¬ expects w sender domain slot phase) : s.storeArrival sender domain slot phase v =
      { s with k := { s.k with window := some { w with unexp := min 8191 (w.unexp + 1) } } } := by
  simp only [State.storeArrival, openWindow_some hw ho, mt fits_iff.1 h, Bool.false_eq_true, if_false]

/-- The release of a barrier's members: at a domain it opens windows (R36, R401). -/
theorem exec_barrierRelease (s : State) :
    exec .barrierRelease s = .next (if s.cmd.value.setWidth 16 ∈ (s.barrier s.cmd.unit).releasing
      then s.releaseBarrier s.cmd.unit (s.cmd.value.setWidth 16) else s) := by
  refine congrArg Host.Outcome.next ?_
  simp only [List.contains_iff_mem]

theorem releaseBarrier_number {id : Nat} (h : id < 2048) (ph : BitVec 16) :
    s.releaseBarrier id ph = s.setBarrier id { s.barrier id with releasing := (s.barrier id).releasing.erase ph } := if_pos h

theorem setBarrier_domain {id : Nat} (h : 2048 ≤ id) (b : Barrier) :
    s.setBarrier id b = s.onDomain (id - 2048) (fun d => { d with bar := b }) := if_neg (Nat.not_lt.2 h)

theorem releaseBarrier_domain {id : Nat} (h : 2048 ≤ id) (ph : BitVec 16) :
    s.releaseBarrier id ph =
      { s.setBarrier id { s.barrier id with releasing := (s.barrier id).releasing.erase ph } with
        k := opening s.k (id - 2048) ph s.cycle.toNat
        others := s.others.map (fun e => (e.1, { e.2 with k := opening e.2.k (id - 2048) ph s.cycle.toNat }))
        lockets := s.lockets.map (fun e => (e.1, { e.2 with k := opening e.2.k (id - 2048) ph s.cycle.toNat })) } := by
  unfold State.releaseBarrier
  rw [if_neg (Nat.not_lt.2 h), setBarrier_domain h]
  rfl

theorem exec_exchangeArrival (hc : s.cmd.core = s.coreNo) : exec .exchangeArrival s =
    .next (s.storeArrival s.cmd.addr s.cmd.part s.cmd.unit s.cmd.tag s.cmd.value) := by
  refine congrArg Host.Outcome.next ?_
  rw [hc, State.atCore_self]

/-! The entries of a domain (R390). -/

theorem exec_domainValidSet {n die : Nat} (hn : s.cmd.unit = n) (hdie : s.cmd.part = die) (hlt : die < 2) :
    exec .domainValidSet s = .next (if (s.domain n).valid.getD die false = true then s
      else s.onDomain n (fun x => { x with valid := x.valid.setIfInBounds die true, bar := {} })) := by
  subst hn hdie
  rw [getD_of_lt _ hlt false true]
  rfl

/-- The domain's entry without its validity on a die and without members, before those that wait at it are told. -/
def invalid (s : State) (n die : Nat) : State :=
  s.onDomain n (fun x => { x with valid := x.valid.setIfInBounds die false, bar := { phase := x.bar.phase } })

theorem clearDomain_valid {n die : Nat} (h : (s.domain n).valid.getD die false = true) :
    (s.clearDomain n die).domain n = (invalid s n die).domain n ∧
      (s.clearDomain n die).ctx = loseDomain n (s.domain n).bar s.ctx s.k := by
  have e : s.clearDomain n die = _ := if_neg (by rw [h]; decide)
  rw [e]
  exact ⟨rfl, rfl⟩

theorem clearDomain_invalid {n die : Nat} (h : (s.domain n).valid.getD die false = false) : s.clearDomain n die = s :=
  if_pos (by rw [h]; rfl)

/-- A BWAIT whose phase runs, or has ended and is not released, loses its domain. -/
theorem loseDomain_waits {n : Nat} {b : Barrier} {c : Ctx} {k : Kern} {ph : BitVec 16}
    (hh : c.hold = some (.barrier (2048 + n) ph)) (hb : b.phase = ph ∨ ph ∈ b.releasing) :
    loseDomain n b c k = { c with hold := some .domainLost } := by
  have w : waitsAt n b c k = true := by simpa [waitsAt, hh, domainId] using hb
  exact if_pos w

/-- Any other BWAIT at the domain returns (R396). -/
theorem loseDomain_returns {n : Nat} {b : Barrier} {c : Ctx} {k : Kern} {ph : BitVec 16}
    (hh : c.hold = some (.barrier (2048 + n) ph)) (hb : ¬ (b.phase = ph ∨ ph ∈ b.releasing)) :
    loseDomain n b c k = { c with hold := some (.released ph) } := by
  have w : ¬ waitsAt n b c k = true := by simpa [waitsAt, hh, domainId] using hb
  unfold loseDomain
  rw [if_neg w, hh]
  exact if_pos rfl

theorem loseDomain_exchange {n : Nat} {b : Barrier} {c : Ctx} {k : Kern} {w : Window} {ph : BitVec 16}
    (hh : c.hold = some (.exchange ph)) (hw : k.window = some w) (ho : w.opened = false) (hd : w.domain = n) :
    loseDomain n b c k = { c with hold := some .domainLost } := by
  have e : waitsAt n b c k = true := by simp [waitsAt, hh, hw, ho, hd]
  exact if_pos e

theorem loseDomain_none {n : Nat} {b : Barrier} {c : Ctx} {k : Kern} (hh : c.hold = none) : loseDomain n b c k = c := by
  simp [loseDomain, waitsAt, hh]

end

/-- Settles O51: the release by the barrier's number, VALID by the two operations on a domain's entry, the four instructions
by their second issue, and an arrival by whether the schedule expects it. -/
theorem exchangeEvents : Obligations.ExchangeEvents := by
  unfold Obligations.ExchangeEvents
  refine ⟨fun s => ⟨fun hr => ?_, fun hr hid => ?_, fun hr hid => ?_⟩, fun s hn hdie => ⟨fun hv => ?_, fun hv => ?_,
    fun hv => ?_, fun hv => ?_⟩, fun f w s hr hw ho => ⟨fun ph hs hh => ?_, fun slot dest v hs hh hdue => ?_,
    fun hs hh hslot hrv harr hdue => ?_, fun hs hh harr hdue => ?_⟩, fun s hc hh hslot => ?_, fun s hc => ⟨fun hw => ?_,
    fun w hw ho => ⟨fun he => ?_, fun he => ?_⟩⟩⟩
  · rw [exec_barrierRelease, if_neg hr]
  · rw [exec_barrierRelease, if_pos hr, releaseBarrier_number hid]
  · rw [exec_barrierRelease, if_pos hr, releaseBarrier_domain hid]
  · rw [exec_domainValidSet rfl rfl hdie, if_pos hv]
  · refine ⟨_, (exec_domainValidSet rfl rfl hdie).trans (congrArg _ (if_neg (by rw [hv]; decide))), ?_, rfl, rfl⟩
    exact State.domain_onDomain hn _
  · exact congrArg Host.Outcome.next (clearDomain_invalid hv)
  · obtain ⟨entry, ctx⟩ := clearDomain_valid hv
    refine ⟨_, rfl, entry.trans (State.domain_onDomain hn _), fun ph hh => ⟨fun hb => ?_, fun hb => ?_⟩,
      fun w ph hh hw ho hd => ?_, fun hh => ?_⟩
    · exact ctx.trans (loseDomain_waits hh hb)
    · exact ctx.trans (loseDomain_returns hh hb)
    · exact ctx.trans (loseDomain_exchange hh hw ho hd)
    · exact ctx.trans (loseDomain_none hh)
  · obtain ⟨-, hslot, -⟩ := id hs
    exact congrArg Host.Outcome.next (goOn_standing hs (by rw [hh]; rfl) (xopen_opened hr hslot hw ho hh)
      ((State.endRegion_slot _).trans ((put_slot s _ _).trans hslot)))
  · obtain ⟨-, hslot, -, -, hl⟩ := id hs
    exact congrArg Host.Outcome.next (goOn_standing hs (by rw [hh]; rfl) (xsend_due hr hslot hl hw ho hh hdue) hslot)
  · obtain ⟨-, hs15, -, -, hl⟩ := id hs
    exact congrArg Host.Outcome.next (goOn_standing hs (by rw [hh]; rfl) (xrecv_due hr hs15 hl hw ho hslot hrv harr hdue)
      ((put_slot s _ _).trans hs15))
  · obtain ⟨-, hslot, -, -, hl⟩ := id hs
    exact congrArg Host.Outcome.next (goOn_standing hs (by rw [hh]; rfl) (xclose_over hr hslot hl hw ho harr hdue)
      ((put_slot s.dropWindow _ _).trans hslot))
  · have idle : ∀ go, s.goOn s.cmd.core go = s := fun go => by rw [hc]; exact State.goOn_idle hslot hh
    exact ⟨congrArg _ (idle _), congrArg _ (idle _), congrArg _ (idle _), congrArg _ (idle _)⟩
  · refine (exec_exchangeArrival hc).trans (congrArg _ ?_)
    simp [State.storeArrival, State.openWindow, hw]
  · exact (exec_exchangeArrival hc).trans (congrArg _ (storeArrival_expected hw ho _ he))
  · exact (exec_exchangeArrival hc).trans (congrArg _ (storeArrival_unexpected hw ho _ he))

end Sys2Proof.Claims

/-! KSEL on a tensor outside local memory (`Obligations.DispatchQueue`). -/

namespace Sys2Proof.Claims

open Machine

/-- A record of one .bf16 element at the start of cluster memory: usable there (R121), and no local tensor. -/
def clusterRecord : Word512 :=
  BitVec.ofNat 512 (2 * 2 ^ 64 + 9 * 2 ^ 112 + 2 ^ 116 + 2 ^ 256 + 2 ^ 280 + 2 ^ 304 + 2 ^ 328 + 2 ^ 352)

/-- A control context with that record as tensor 0, and with a trap handler on a page that may be executed. -/
def clusterTensor : State :=
  { State.reset with
    ctx := { live := true, pc := 0x1000 }
    k := { task := some {}, trapvec := 0x2000, tens := Vector.replicate 64 clusterRecord }
    hw := { tlb := [{ base := 0, size := 65536, leaf := 0x82, leafAt := 0x500000, checked := false, part := 0 }] } }

theorem hasHandler_clusterTensor : hasHandler clusterTensor := by
  refine ⟨rfl, by decide, by decide, by unfold badAddress; decide, ?_, rfl, rfl⟩
  have found : (clusterTensor.translateFetch clusterTensor.myPart true clusterTensor.k.trapvec).isOk = true := by decide
  cases h : clusterTensor.translateFetch clusterTensor.myPart true clusterTensor.k.trapvec with
  | ok r => exact ⟨r, rfl⟩
  | error e => rw [h] at found; cases found

/-- The model counts the space of KSEL's tensor to its format: the record is usable, and cause 12 is raised. -/
theorem ksel_format_trap : ∃ t, exec (.ksel {}) clusterTensor = .next t ∧ bits t.k.trapcause 0 8 = 12 := ⟨_, rfl, by decide +kernel⟩

/-- Refutes O40: KSEL on a usable tensor of cluster memory raises the tensor-format fault (R332), where the statement, which counts
the space to the record check, has the tensor-record fault. In `clusterTensor` the tensor that KSEL names is such a one. -/
theorem not_dispatchQueue : ¬ Obligations.DispatchQueue := by
  unfold Obligations.DispatchQueue
  intro h
  obtain ⟨-, -, checked⟩ := h (.ksel {}) _ clusterTensor rfl ⟨rfl, rfl⟩ (by decide)
  have room : clusterTensor.k.mvuq.length < 16 ∧ (clusterTensor.k.unreleased = [] ∨ clusterTensor.k.loop.susp = true) :=
    ⟨by decide, Or.inl rfl⟩
  obtain ⟨-, faults⟩ := checked (Or.inl room) (by unfold runs; decide)
  obtain ⟨record, -, -⟩ := faults hasHandler_clusterTensor
  have stated := record (by decide +kernel)
  obtain ⟨t, ht, cause⟩ := ksel_format_trap
  have same : t = trapped clusterTensor 11 0 clusterTensor.ctx.pc := by
    rw [ht] at stated
    injection stated
  rw [same] at cause
  exact absurd cause (by decide)

end Sys2Proof.Claims

/-! A doorbell and what the context in focus knows (`Obligations.QueueEvents`). -/

namespace Sys2Proof.Claims

open Machine

/-- A launch packet of zeros stands at address 0x40 of partition 0, whose queue 0 and root job take it. The control context in focus
knows of an access of its open region. -/
def doorbellRung : State :=
  { State.reset with
    k := { task := some {} }
    parts := State.reset.parts.setIfInBounds 0
      { ctl := 0x101, clusters := 1, sets0 := 1, ptroot := 0x1000, scopes := [(0, { state := .opened, kind := 4 })] }
    queues := [(0, { ctl := 0x3000000000001 })]
    mem := Mem.writeLE (Mem.writeLE (Mem.writeLE (Mem.writeLE (Mem.writeLE [] 0x1000 8 0x2001) 0x2000 8 0x3001) 0x3000 8 0x4001)
      0x4000 8 0x5001) 0x5000 8 0x20102
    before := [{ parent := 15, granule := 0, write := true, by' := .ctx 0 15 }]
    cmd := { value := 0x40 } }

/-- The record with the first name has been told of an access. -/
def toldRecord (t : State) : Bool := t.before.any (fun x => x.by' == .task 1)

theorem read_doorbellRung : doorbellRung.engineRead 0 0x40 16 = .ok (List.replicate 128 0) := by decide +kernel

theorem packet_doorbellRung : (BitVec.ofNat 1024 (natOfBytes (List.replicate 128 0))) = 0 := by decide +kernel

/-- Acceptance by the context in focus tells the new record, and its STATUS can be written. -/
theorem accept_doorbellRung : (match doorbellRung.acceptLaunch 0 0x40 0 with
    | .ok (n, s1) => (match s1.engineWrite 0 (0x40 + 120) (BitVec.ofNat 64 n) with
      | .ok t => toldRecord t
      | .error _ => false)
    | .error _ => false) = true := by decide +kernel

/-- What an application core launches is told by no context (R359). -/
theorem launchdoor_tells_nothing : ∃ t, exec .launchdoor doorbellRung = .next t ∧ toldRecord t = false :=
  ⟨_, rfl, by decide +kernel⟩

/-- Refutes O46: the doorbell of an accepted packet leaves its record untold, as no context has launched it (R359), where the
statement takes the state as `acceptLaunch` leaves it, in which the context in focus has told the record what it knows. In
`doorbellRung` a context in focus knows of an access when a packet of zeros is accepted. -/
theorem not_queueEvents : ¬ Obligations.QueueEvents := by
  unfold Obligations.QueueEvents
  rintro ⟨doorbell, -⟩
  obtain ⟨-, owned⟩ := doorbell doorbellRung (by decide)
  obtain ⟨-, goes⟩ := owned 0 (by decide) (by decide)
  obtain ⟨-, -, read⟩ := goes (by decide +kernel)
  obtain ⟨-, accepted⟩ := read _ read_doorbellRung
  simp only [packet_doorbellRung] at accepted
  have tells := accept_doorbellRung
  split at tells
  case h_2 => cases tells
  case h_1 n s1 ha =>
    split at tells
    case h_2 => cases tells
    case h_1 t hw =>
      obtain ⟨written, -⟩ := accepted n s1 ha
      obtain ⟨u, hu, untold⟩ := launchdoor_tells_nothing
      have same : u = t := by
        have stated := written t hw
        rw [hu] at stated
        injection stated
      rw [same, tells] at untold
      cases untold

end Sys2Proof.Claims

/-! The PC that a pre-emption saves (`Obligations.TaskEvents`). -/

namespace Sys2Proof.Claims

open Machine

/-- A core is asked to be pre-empted while the VRED4 before its PC has started to expand; Locket 0 of its partition is free. -/
def expanding : State :=
  { State.reset with
    ctx := { live := true, pc := 0x1008 }
    k := { task := some { tag := some 0 }, mvuq := [{ instr := .vred4 {}, guard := true, pc := 0x1000, seq := 1, stage := .started }] }
    hw := { preempting := some { part := 0 } }
    parts := State.reset.parts.setIfInBounds 0 { ctl := 0x101, clusters := 1, locketpool := 0x400001 } }

/-- The state that `State.save` writes to a Locket: no byte waits at a line, and no VRED4 is half done. -/
def prepared (s : State) : State := (((s.focusSlot 15).drainAllNt).abandonRed4).catchMessages

theorem prepared_expanding_pc : (prepared expanding).closeRegions.ctx.pc = 0x1000 := by decide +kernel

theorem prepared_expanding_slot : (prepared expanding).takeSlot = some (0, prepared expanding) := rfl

theorem prepared_expanding_part : (prepared expanding).part (prepared expanding).myPart = expanding.parts.getD 0 {} := rfl

theorem freeLocket_expanding : (expanding.parts.getD 0 {}).freeLocket = some 0 := by decide +kernel

/-- A save puts the context into the free Locket at the PC of the state that it has prepared. -/
theorem State.save_locket {s s1 : State} {n : Nat} {tag : Word} (reason : Nat) (st : RecState) (held : Bool) (leaf : Option Nat)
    (hs : (prepared s).takeSlot = some (tag, s1)) (hn : ((prepared s).part (prepared s).myPart).freeLocket = some n) :
    ∃ t sv, s.save reason st held leaf = some (tag, t) ∧
      Tbl.find t.lockets (((prepared s).part (prepared s).myPart).locketAddr n) = some sv ∧
      sv.ctx.pc = s1.closeRegions.ctx.pc := by
  have hsave : s.save reason st held leaf = (match (prepared s).takeSlot, ((prepared s).part (prepared s).myPart).freeLocket with
    | some (tag, s1), some n => _
    | _, _ => none) := rfl
  rw [hs, hn] at hsave
  exact ⟨_, _, hsave, Tbl.find_put_same .., rfl⟩

theorem State.finishPreempt_lockets (s : State) (code : Nat) : (s.finishPreempt code).lockets = s.lockets := by
  unfold State.finishPreempt
  split <;> rfl

/-- A pre-emption that may end, of a task that has a slot where a Locket is free, leaves there the PC of the prepared state. -/
theorem State.endPreempt_locket {s s1 : State} {k : Task} {n : Nat} {tag : Word} (he : s.canEndPreempt = true)
    (hk : s.k.task = some k) (hs : (prepared s).takeSlot = some (tag, s1))
    (hn : ((prepared s).part (prepared s).myPart).freeLocket = some n) :
    ∃ sv, Tbl.find s.endPreempt.lockets (((prepared s).part (prepared s).myPart).locketAddr n) = some sv ∧
      sv.ctx.pc = s1.closeRegions.ctx.pc := by
  obtain ⟨t, sv, hsave, hfind, hpc⟩ := State.save_locket 1 .ready (s.control.hold.any Wait.holding) none hs hn
  refine ⟨sv, ?_, hpc⟩
  simpa only [State.endPreempt, he, hk, hsave, if_true, State.finishPreempt_lockets] using hfind

theorem exec_preemptSaveComplete {s : State} (hc : s.cmd.core = s.coreNo) :
    exec .preemptSaveComplete s = .next s.endPreempt := by
  change Host.Outcome.next (s.atCore s.cmd.core State.endPreempt) = _
  rw [hc, State.atCore_self]

/-- Refutes O45: a save abandons a VRED4 that has started its expansion too, and records its PC (R77), where the statement's
`savedPc` takes a waiting one alone. In `expanding` the Locket holds PC 0x1000, and the statement says 0x1008. -/
theorem not_taskEvents : ¬ Obligations.TaskEvents := by
  unfold Obligations.TaskEvents
  rintro ⟨-, -, saves, -⟩
  obtain ⟨-, -, ends⟩ := saves expanding 0 (by unfold here; decide +kernel) rfl (by decide)
  obtain ⟨-, -, tagged⟩ := ends rfl (by unfold mayEnd; decide +kernel)
  obtain ⟨-, saved⟩ := tagged _ 0 rfl rfl
  obtain ⟨t, r, sv, ht, -, -, -, -, -, -, -, hsv, hpc, -⟩ := saved 0 freeLocket_expanding
  have left := State.endPreempt_locket (s := expanding) (by decide +kernel) rfl prepared_expanding_slot
    (prepared_expanding_part ▸ freeLocket_expanding)
  rw [prepared_expanding_part] at left
  obtain ⟨sv', hsv', hpc'⟩ := left
  rw [exec_preemptSaveComplete rfl] at ht
  obtain rfl := Host.Outcome.next.inj ht
  obtain rfl : sv' = sv := Option.some.inj (hsv'.symm.trans hsv)
  rw [prepared_expanding_pc, hpc] at hpc'
  exact absurd hpc' (by decide +kernel)

end Sys2Proof.Claims

/-! Decoding what the encoder writes (`Obligations.RoundTrip`, `Obligations.DecodeWords`). -/

namespace Sys2Proof.Laws.RoundTrip

/-- Every instruction that has words is read back from them, whatever follows; an act has no words. -/
theorem statement_holds (i : Instr) : Statement i := by
  cases i with
  | addA32 f => exact addA32 f | addI32 f => exact addI32 f | addG64 f => exact addG64 f | addI64 f => exact addI64 f
  | addW96 f => exact addW96 f | subA32 f => exact subA32 f | subG64 f => exact subG64 f | mulA32 f => exact mulA32 f
  | mulG64 f => exact mulG64 f | mulI64 f => exact mulI64 f | mulW96 f => exact mulW96 f
  | mulhA32 f => exact mulhA32 f | mulhG64 f => exact mulhG64 f | mulhzA32 f => exact mulhzA32 f
  | mulhzG64 f => exact mulhzG64 f | divA32 f => exact divA32 f | divG64 f => exact divG64 f
  | divzA32 f => exact divzA32 f | divzG64 f => exact divzG64 f | remA32 f => exact remA32 f
  | remG64 f => exact remG64 f | remzA32 f => exact remzA32 f | remzG64 f => exact remzG64 f
  | andA32 f => exact andA32 f | andI32 f => exact andI32 f | andG64 f => exact andG64 f | andI64 f => exact andI64 f
  | andW96 f => exact andW96 f | orA32 f => exact orA32 f | orG64 f => exact orG64 f | orI64 f => exact orI64 f
  | orW96 f => exact orW96 f | xorA32 f => exact xorA32 f | xorG64 f => exact xorG64 f | xorI64 f => exact xorI64 f
  | xorW96 f => exact xorW96 f | andnA32 f => exact andnA32 f | andnG64 f => exact andnG64 f
  | shlA32 f => exact shlA32 f | shlI32 f => exact shlI32 f | shlG64 f => exact shlG64 f | shlI64 f => exact shlI64 f
  | shlW96 f => exact shlW96 f | shrA32 f => exact shrA32 f | shrI32 f => exact shrI32 f | shrG64 f => exact shrG64 f
  | shrI64 f => exact shrI64 f | shrW96 f => exact shrW96 f | sraA32 f => exact sraA32 f | sraI32 f => exact sraI32 f
  | sraG64 f => exact sraG64 f | sraI64 f => exact sraI64 f | sraW96 f => exact sraW96 f | rolA32 f => exact rolA32 f
  | rolG64 f => exact rolG64 f | rolI64 f => exact rolI64 f | rolW96 f => exact rolW96 f | minA32 f => exact minA32 f
  | minG64 f => exact minG64 f | minI64 f => exact minI64 f | minW96 f => exact minW96 f | maxA32 f => exact maxA32 f
  | maxG64 f => exact maxG64 f | maxI64 f => exact maxI64 f | maxW96 f => exact maxW96 f
  | minzA32 f => exact minzA32 f | minzG64 f => exact minzG64 f | minzI64 f => exact minzI64 f
  | minzW96 f => exact minzW96 f | maxzA32 f => exact maxzA32 f | maxzG64 f => exact maxzG64 f
  | maxzI64 f => exact maxzI64 f | maxzW96 f => exact maxzW96 f | clzA32 f => exact clzA32 f
  | clzG64 f => exact clzG64 f | ctzA32 f => exact ctzA32 f | ctzG64 f => exact ctzG64 f
  | popcA32 f => exact popcA32 f | popcG64 f => exact popcG64 f | absA32 f => exact absA32 f
  | absG64 f => exact absG64 f | movA32 f => exact movA32 f | movG64 f => exact movG64 f | sext f => exact sext f
  | zext f => exact zext f | movlI32 f => exact movlI32 f | movlI64 f => exact movlI64 f
  | movlW96 f => exact movlW96 f | leaI64 f => exact leaI64 f | leaW96 f => exact leaW96 f | bfx f => exact bfx f
  | bfi f => exact bfi f | cmpA32 cond f => exact cmpA32 cond f | cmpG64 cond f => exact cmpG64 cond f
  | sel f => exact sel f | pandA32 f => exact pandA32 f | pandG64 f => exact pandG64 f | porA32 f => exact porA32 f
  | porG64 f => exact porG64 f | pxorA32 f => exact pxorA32 f | pxorG64 f => exact pxorG64 f
  | pnotA32 f => exact pnotA32 f | pnotG64 f => exact pnotG64 f | sfadd f => exact sfadd f | sfmul f => exact sfmul f
  | sfma f => exact sfma f | sfcmp cond f => exact sfcmp cond f | sfcvt f => exact sfcvt f | tdef f => exact tdef f
  | tset f => exact tset f | tget f => exact tget f | beadq f => exact beadq f | brJ32 f => exact brJ32 f
  | brI64 f => exact brI64 f | brW96 f => exact brW96 f | brcJ32 f => exact brcJ32 f | brcI64 f => exact brcI64 f
  | brcW96 f => exact brcW96 f | callJ32 f => exact callJ32 f | callI64 f => exact callI64 f
  | callW96 f => exact callW96 f | bri f => exact bri f | calli f => exact calli f | retG64 f => exact retG64 f
  | loopI64 f => exact loopI64 f | loopW96 f => exact loopW96 f | loopoI64 f => exact loopoI64 f
  | loopoW96 f => exact loopoW96 f | breakc f => exact breakc f | ldI32 f => exact ldI32 f | ldI64 f => exact ldI64 f
  | ldW96 f => exact ldW96 f | stI32 f => exact stI32 f | stI64 f => exact stI64 f | stW96 f => exact stW96 f
  | ldx f => exact ldx f | stx f => exact stx f | stntI64 f => exact stntI64 f | stntW96 f => exact stntW96 f
  | ldacqI64 f => exact ldacqI64 f | ldacqW96 f => exact ldacqW96 f | strelI64 f => exact strelI64 f
  | strelW96 f => exact strelW96 f | ldvI64 f => exact ldvI64 f | ldvW96 f => exact ldvW96 f
  | vred4 f => exact vred4 f | hstart f => exact hstart f | hwait f => exact hwait f | launch f => exact launch f
  | tspawn f => exact tspawn f | tspawnw f => exact tspawnw f | tjoin f => exact tjoin f
  | tdoneG64 f => exact tdoneG64 f | tcancelScope f => exact tcancelScope f | tcancelTask f => exact tcancelTask f
  | wdq f => exact wdq f | fsopen f => exact fsopen f | fsclose f => exact fsclose f | fswait f => exact fswait f
  | pfh f => exact pfh f | place f => exact place f | tierq f => exact tierq f | cpy f => exact cpy f
  | wpwait f => exact wpwait f | wprd f => exact wprd f | gather f => exact gather f | scatter f => exact scatter f
  | evwait f => exact evwait f | tierin f => exact tierin f | fence f => exact fence f | xfence f => exact xfence f
  | ntdrain f => exact ntdrain f | aadd f => exact aadd f | afadd f => exact afadd f | amin f => exact amin f
  | amax f => exact amax f | aand f => exact aand f | aor f => exact aor f | axor f => exact axor f
  | axchg f => exact axchg f | acas f => exact acas f | barmJoin f => exact barmJoin f
  | barmLeave f => exact barmLeave f | bwait f => exact bwait f | bsig f => exact bsig f | bqry f => exact bqry f
  | xopen f => exact xopen f | xsend f => exact xsend f | xrecv f => exact xrecv f | xclose f => exact xclose f
  | vadd f => exact vadd f | vsub f => exact vsub f | vmul f => exact vmul f | vfma f => exact vfma f
  | vmin f => exact vmin f | vmax f => exact vmax f | vabs f => exact vabs f | vneg f => exact vneg f
  | vcpy f => exact vcpy f | vcvt f => exact vcvt f | vsrnd f => exact vsrnd f | vrcp f => exact vrcp f
  | vrsq f => exact vrsq f | vsqrt f => exact vsqrt f | vexp2 f => exact vexp2 f | vlog2 f => exact vlog2 f
  | vpwl f => exact vpwl f | vcmp f => exact vcmp f | vsel f => exact vsel f | vand f => exact vand f
  | vor f => exact vor f | vxor f => exact vxor f | vshl f => exact vshl f | vshr f => exact vshr f
  | vclamp f => exact vclamp f | vreds f => exact vreds f | vredm f => exact vredm f | vscan f => exact vscan f
  | vbcast f => exact vbcast f | viota f => exact viota f | vdot f => exact vdot f | vscale f => exact vscale f
  | mfill f => exact mfill f | mpat f => exact mpat f | mzero f => exact mzero f | mma f => exact mma f
  | mdrain f => exact mdrain f | mloadb f => exact mloadb f | mscl f => exact mscl f | mwait f => exact mwait f
  | scout f => exact scout f | ksel f => exact ksel f | kand f => exact kand f | kor f => exact kor f
  | knot f => exact knot f | kpop f => exact kpop f | mmak f => exact mmak f | trapI64 f => exact trapI64 f
  | trapW96 f => exact trapW96 f | bkpt f => exact bkpt f | eret f => exact eret f | halt f => exact halt f
  | sysrd f => exact sysrd f | syswr f => exact syswr f | nop => exact nop | hint64 => exact hint64
  | hint96 => exact hint96 | retA32 => exact retA32 | iretA32 => exact iretA32 | iretG64 => exact iretG64
  | hexitA32 => exact hexitA32 | hexitG64 => exact hexitG64 | tdoneA32 => exact tdoneA32
  | reservedOpcodeTrap => exact reservedOpcodeTrap
  | _ => exact fun _ h => absurd rfl h

end Sys2Proof.Laws.RoundTrip

namespace Sys2Proof.Laws

/-- Words decode to the well-formed instruction that the encoder writes them for. -/
theorem decode_of_encode {i : Instr} {p : Parcel} {ps : List Parcel} (he : encode i = p :: ps) (hw : i.wellFormed = true) :
    decode (p :: ps) = .ok i := by
  have h := RoundTrip.statement_holds i hw (he ▸ List.cons_ne_nil p ps) []
  rwa [List.append_nil, he] at h

end Sys2Proof.Laws

/-! The other direction (`Obligations.DecodedWellFormed`): an instruction is put together again from the fields that the decoder has
read, parcel by parcel. -/

namespace Sys2Proof.Laws

/-! Fields put together again (R44, R45): adjacent fields are one, and the field of all bits is the parcel. -/

@[simp] theorem bitOf_flagOf : ∀ b : BitVec 1, bitOf (flagOf b) = b := by decide

/-- What the length says of bits 31 and 30 (R43). -/
theorem lengthBits_of_count_one {p : Parcel} (h : parcelCount p = 1) : p.getLsbD 31 = false := by
  cases h31 : p.getLsbD 31 with
  | false => rfl
  | true => rw [parcelCount, if_pos h31] at h; split at h <;> cases h

theorem lengthBits_of_count_two {p : Parcel} (h : parcelCount p = 2) : p.getLsbD 31 = true ∧ p.getLsbD 30 = false := by
  unfold parcelCount at h
  split at h
  · split at h
    · cases h
    · exact ⟨‹_›, Bool.eq_false_iff.mpr ‹_›⟩
  · cases h

theorem top_of_count_one {p : Parcel} (h : parcelCount p = 1) : p.extractLsb' 31 1 = 0#1 := by
  refine BitVec.eq_of_getLsbD_eq fun i hi => ?_
  obtain rfl : i = 0 := by omega
  exact (BitVec.getLsbD_extractLsb' ..).trans (lengthBits_of_count_one h)

theorem top_of_count_two {p : Parcel} (h : parcelCount p = 2) : p.extractLsb' 30 2 = 1#1 ++ bitOf false := by
  obtain ⟨h31, h30⟩ := lengthBits_of_count_two h
  refine BitVec.eq_of_getLsbD_eq fun i hi => ?_
  obtain rfl | rfl : i = 0 ∨ i = 1 := by omega
  · exact (BitVec.getLsbD_extractLsb' ..).trans h30
  · exact (BitVec.getLsbD_extractLsb' ..).trans h31

theorem A32_words_read {p : Parcel} (h : parcelCount p = 1) : (A32.read p).words (p.extractLsb' 24 7) (fn32 p) = [p] := by
  simp only [A32.words, A32.read, fn32, ← top_of_count_one h]
  simp (disch := rfl) only [BitVec.extractLsb'_append_extractLsb'_eq_extractLsb']
  exact congrArg (fun x => [x]) BitVec.extractLsb'_eq_self

theorem I32_words_read {p : Parcel} (h : parcelCount p = 1) : (I32.read p).words (p.extractLsb' 24 7) = [p] := by
  simp only [I32.words, I32.read, ← top_of_count_one h]
  simp (disch := rfl) only [BitVec.extractLsb'_append_extractLsb'_eq_extractLsb']
  exact congrArg (fun x => [x]) BitVec.extractLsb'_eq_self

theorem J32_words_read {p : Parcel} (h : parcelCount p = 1) : (J32.read p).words (p.extractLsb' 24 7) = [p] := by
  simp only [J32.words, J32.read, ← top_of_count_one h, bitOf_flagOf]
  simp (disch := rfl) only [BitVec.extractLsb'_append_extractLsb'_eq_extractLsb']
  exact congrArg (fun x => [x]) BitVec.extractLsb'_eq_self

theorem head64_fields {p : Parcel} (h : parcelCount p = 2) :
    head64 false (p.extractLsb' 22 8) (p.extractLsb' 19 3) (flagOf (p.extractLsb' 18 1)) (p.extractLsb' 12 6) (p.extractLsb' 6 6)
      (p.extractLsb' 3 3) (p.extractLsb' 0 3) = p := by
  simp only [head64, ← top_of_count_two h, bitOf_flagOf]
  simp (disch := rfl) only [BitVec.extractLsb'_append_extractLsb'_eq_extractLsb']
  exact BitVec.extractLsb'_eq_self

theorem immParcel_fields (q : Parcel) :
    immParcel (q.extractLsb' 8 24) (q.extractLsb' 4 4) (q.extractLsb' 1 3) (flagOf (q.extractLsb' 0 1)) = q := by
  simp only [immParcel, bitOf_flagOf]
  simp (disch := rfl) only [BitVec.extractLsb'_append_extractLsb'_eq_extractLsb']
  exact BitVec.extractLsb'_eq_self

theorem G64_words_read {p : Parcel} (h : parcelCount p = 2) (q : Parcel) :
    (G64.read p q).words (p.extractLsb' 22 8) (fn64 q) = [p, q] := by
  simp only [G64.words, G64.read, fn64, head64_fields h, bitOf_flagOf]
  simp (disch := rfl) only [BitVec.extractLsb'_append_extractLsb'_eq_extractLsb']
  exact congrArg (fun x => [p, x]) BitVec.extractLsb'_eq_self

theorem I64_words_read {p : Parcel} (h : parcelCount p = 2) (q : Parcel) :
    (I64.read p q).words (p.extractLsb' 22 8) = [p, q] := by
  simp only [I64.words, I64.read, head64_fields h, immParcel_fields]

theorem SysForm_words_read {p : Parcel} (h : parcelCount p = 2) (q : Parcel) :
    (SysForm.read false p q 0).words (p.extractLsb' 22 8) = [p, q] := by
  have imm : ((q.extractLsb' 8 24).setWidth 32).setWidth 24 = q.extractLsb' 8 24 :=
    BitVec.setWidth_setWidth_of_le _ (by decide) |>.trans (BitVec.setWidth_eq _)
  simp only [SysForm.words, SysForm.read, Bool.false_eq_true, if_false, imm, head64_fields h, immParcel_fields]

/-! Rows of the opcode maps (R67, R69). -/

theorem mem_of_findRow {α : Type} {key : Nat} {k : α} {rows : List (Nat × α)} (h : findRow key rows = some k) :
    (key, k) ∈ rows := by
  induction rows with
  | nil => cases h
  | cons r rest ih =>
    unfold findRow at h
    split at h
    case isTrue e =>
      cases h
      exact e ▸ List.mem_cons_self
    · exact List.mem_cons_of_mem _ (ih h)

/-- The encoder writes the instructions of a map's rows as `words` says of the row's key. -/
def RowsEncode {α : Type} (words : Nat → α → List Parcel) (rows : List (Nat × (α → Instr))) : Prop :=
  ∀ r ∈ rows, ∀ f, encode (r.2 f) = words r.1 f

theorem RowsEncode.of_map {α : Type} {words : Nat → α → List Parcel} {rows : List (Nat × (α → Instr))}
    (h : rows.map (fun r f => encode (r.2 f)) = rows.map (fun r => words r.1)) : RowsEncode words rows :=
  fun r hr => congrFun (List.map_inj_left.mp h r hr)

theorem RowsEncode.append {α : Type} {words : Nat → α → List Parcel} {rows rows' : List (Nat × (α → Instr))}
    (h : RowsEncode words rows) (h' : RowsEncode words rows') : RowsEncode words (rows ++ rows') :=
  fun r hr => (List.mem_append.mp hr).elim (h r) (h' r)

theorem RowsEncode.of_findRow {α : Type} {words : Nat → α → List Parcel} {rows : List (Nat × (α → Instr))} {key : Nat}
    {k : α → Instr} (h : RowsEncode words rows) (hk : findRow key rows = some k) (f : α) : encode (k f) = words key f :=
  h _ (mem_of_findRow hk) f

theorem encode_rowsA32 : RowsEncode (fun key f => A32.words (.ofNat 7 (key / 64)) (.ofNat 6 key) f) rowsA32 := .of_map rfl
theorem encode_rowsI32 : RowsEncode (fun key f => I32.words (.ofNat 7 key) f) rowsI32 := .of_map rfl
theorem encode_rowsJ32 : RowsEncode (fun key f => J32.words (.ofNat 7 key) f) rowsJ32 := .of_map rfl
theorem encode_rowsI64 : RowsEncode (fun key f => I64.words (.ofNat 8 key) f) rowsI64 := .of_map rfl
theorem encode_rowsW96 : RowsEncode (fun key f => W96.words (.ofNat 8 key) f) rowsW96 := .of_map rfl
theorem encode_rowsSys : RowsEncode (fun key f => SysForm.words (.ofNat 8 key) f) rowsSys := .of_map rfl

theorem encode_rowsG64 : RowsEncode (fun key f => G64.words (.ofNat 8 (key / 64)) (.ofNat 6 key) f) rowsG64 := by
  refine .append (.append (.append (.append (.of_map rfl) (.of_map rfl)) (.of_map rfl)) (.of_map rfl)) ?_
  intro r hr f
  simp only [List.mem_cons, List.not_mem_nil, or_false] at hr
  rcases hr with rfl | rfl <;> dsimp only <;> split <;> rfl

/-! What each decoder answers. -/

theorem checked_ok {i j : Instr} (h : checked i = .ok j) : j.wellFormed = true ∧ i = j := by
  unfold checked at h
  split at h
  · cases h
    exact ⟨‹_›, rfl⟩
  · cases h

/-- A row's instruction that passes the check is well-formed, and its words are those of its fields. -/
theorem RowsEncode.checked {α : Type} {words : Nat → α → List Parcel} {rows : List (Nat × (α → Instr))} {key : Nat}
    {k : α → Instr} {f : α} {i : Instr} (h : RowsEncode words rows) (hk : findRow key rows = some k)
    (hi : checked (k f) = .ok i) : i.wellFormed = true ∧ encode i = words key f := by
  obtain ⟨hw, rfl⟩ := checked_ok hi
  exact ⟨hw, h.of_findRow hk f⟩

/-- A field of bits 23 to 6 is zero where they are. -/
theorem field_zero {p : Parcel} (h0 : p.extractLsb' 6 18 = 0) (lo : Nat) (hlo : 6 ≤ lo) (hhi : lo + 6 ≤ 24) :
    p.extractLsb' lo 6 = 0 := by
  have outer : p.extractLsb' lo 6 = (p.extractLsb' 6 18).extractLsb' (lo - 6) 6 := by
    refine BitVec.eq_of_getLsbD_eq fun i hi => ?_
    simp only [BitVec.getLsbD_extractLsb', hi, show lo - 6 + i < 18 by omega, show 6 + (lo - 6 + i) = lo + i by omega,
      decide_true, Bool.true_and]
  rw [outer, h0]
  exact BitVec.extractLsb'_zero

/-- The parcel of an instruction without operands (R44). -/
theorem encode_bare32 {p : Parcel} {i : Instr} {k : Nat} (hc : parcelCount p = 1) (hm : major32 p = 0x13)
    (h0 : p.extractLsb' 6 18 = 0) (hk : (fn32 p).toNat = k) (he : encode i = A32.words 0x13 (.ofNat 6 k) {}) : encode i = [p] := by
  have read : A32.read p = {} := by
    simp (disch := decide) only [A32.read, field_zero h0]
  have major : p.extractLsb' 24 7 = 0x13 := BitVec.eq_of_toNat_eq hm
  rw [he, ← hk, BitVec.ofNat_toNat, BitVec.setWidth_eq, ← major, ← read, A32_words_read hc]

theorem ofNat_major32 (p : Parcel) : BitVec.ofNat 7 (major32 p) = p.extractLsb' 24 7 := BitVec.ofNat_toNat ..
theorem ofNat_major64 (p : Parcel) : BitVec.ofNat 8 (major64 p) = p.extractLsb' 22 8 := BitVec.ofNat_toNat ..

/-- The key of a register row gives back the major and FN. -/
theorem div_key (m : Nat) (fn : BitVec 6) : (m * 64 + fn.toNat) / 64 = m := by omega
theorem ofNat_key (m : Nat) (fn : BitVec 6) : BitVec.ofNat 6 (m * 64 + fn.toNat) = fn := by
  apply BitVec.eq_of_toNat_eq
  rw [BitVec.toNat_ofNat]
  omega

/-- R44, R67: but for NOP and the reserved majors, a 32-bit instruction is its parcel. -/
theorem decode32_ok {p : Parcel} {i : Instr} (hc : parcelCount p = 1) (h : decode32 p = .ok i) :
    i.wellFormed = true ∧ (i ≠ .nop → i ≠ .reservedOpcodeTrap → encode i = [p]) := by
  unfold decode32 at h
  extract_lets m at h
  split at h
  · cases h
    exact ⟨rfl, fun _ hr => absurd rfl hr⟩
  split at h
  · cases h
    exact ⟨rfl, fun hn => absurd rfl hn⟩
  split at h
  case isTrue hm =>
    split at h
    · split at h <;> cases h
      all_goals exact ⟨rfl, fun _ _ => encode_bare32 hc hm ‹_› ‹_› rfl⟩
    · split at h <;> cases h
  split at h
  case isTrue hm =>
    obtain ⟨hw, rfl⟩ := checked_ok h
    have major : p.extractLsb' 24 7 = 0x03 := BitVec.eq_of_toNat_eq hm
    exact ⟨hw, fun _ _ => by rw [encode, ← major, A32_words_read hc]⟩
  split at h
  · obtain ⟨hw, he⟩ := encode_rowsI32.checked ‹_› h
    exact ⟨hw, fun _ _ => by rw [he, ofNat_major32, I32_words_read hc]⟩
  · obtain ⟨hw, he⟩ := encode_rowsJ32.checked ‹_› h
    exact ⟨hw, fun _ _ => by rw [he, ofNat_major32, J32_words_read hc]⟩
  split at h
  · obtain ⟨hw, he⟩ := encode_rowsA32.checked ‹_› h
    exact ⟨hw, fun _ _ => by rw [he, div_key, ofNat_key, ofNat_major32, A32_words_read hc]⟩
  · cases h

/-- R45, R69, R73: but for hints, the reserved majors and HEXIT, a 64-bit instruction is its two parcels. -/
theorem decode64_ok {p q : Parcel} {i : Instr} (hc : parcelCount p = 2) (h : decode64 p q = .ok i) :
    i.wellFormed = true ∧ (i ≠ .hint64 → i ≠ .reservedOpcodeTrap → i ≠ .hexitG64 → encode i = [p, q]) := by
  unfold decode64 at h
  extract_lets m f at h
  split at h
  · cases h
    exact ⟨rfl, fun _ hr => absurd rfl hr⟩
  split at h
  · cases h
    exact ⟨rfl, fun hh => absurd rfl hh⟩
  split at h
  case isTrue hm =>
    obtain ⟨hw, rfl⟩ := checked_ok h
    have major : p.extractLsb' 22 8 = 0x02 := BitVec.eq_of_toNat_eq hm
    exact ⟨hw, fun _ _ _ => by rw [encode, ← major, G64_words_read hc]⟩
  split at h
  case isTrue hm =>
    obtain ⟨hw, rfl⟩ := checked_ok h
    have major : p.extractLsb' 22 8 = 0x06 := BitVec.eq_of_toNat_eq hm
    exact ⟨hw, fun _ _ _ => by rw [encode, ← major, G64_words_read hc]⟩
  split at h
  case isTrue hm =>
    obtain ⟨hm, hfn⟩ := hm
    split at h
    case isTrue hf =>
      cases h
      have major : p.extractLsb' 22 8 = 0x26 := BitVec.eq_of_toNat_eq hm
      exact ⟨rfl, fun _ _ _ => by rw [encode, ← major, ← hf, ← hfn, G64_words_read hc]⟩
    · cases h
  split at h
  · split at h
    · cases h
      exact ⟨rfl, fun _ _ hx => absurd rfl hx⟩
    · cases h
  split at h
  · obtain ⟨hw, he⟩ := encode_rowsI64.checked ‹_› h
    exact ⟨hw, fun _ _ _ => by rw [he, ofNat_major64, I64_words_read hc]⟩
  · obtain ⟨hw, he⟩ := encode_rowsSys.checked ‹_› h
    exact ⟨hw, fun _ _ _ => by rw [he, ofNat_major64, SysForm_words_read hc]⟩
  split at h
  · obtain ⟨hw, he⟩ := encode_rowsG64.checked ‹_› h
    exact ⟨hw, fun _ _ _ => by rw [he, div_key, ofNat_key, ofNat_major64, G64_words_read hc]⟩
  · cases h

/-- R46: but for hints and the reserved majors, a 96-bit instruction has three parcels. -/
theorem decode96_ok {p q r : Parcel} {i : Instr} (h : decode96 p q r = .ok i) :
    i.wellFormed = true ∧ (i ≠ .hint96 → i ≠ .reservedOpcodeTrap → (encode i).length = 3) := by
  unfold decode96 at h
  extract_lets m at h
  split at h
  · cases h
    exact ⟨rfl, fun _ hr => absurd rfl hr⟩
  split at h
  · cases h
    exact ⟨rfl, fun hh => absurd rfl hh⟩
  split at h
  · obtain ⟨hw, he⟩ := encode_rowsW96.checked ‹_› h
    exact ⟨hw, fun _ _ => by rw [he]; rfl⟩
  · obtain ⟨hw, he⟩ := encode_rowsSys.checked ‹_› h
    exact ⟨hw, fun _ _ => by rw [he]; rfl⟩
  · split at h <;> cases h

end Sys2Proof.Laws

namespace Sys2Proof.Claims

open Laws

/-- Settles O55: each instruction is read back from its own words. -/
theorem roundTrip : Obligations.RoundTrip := by
  unfold Obligations.RoundTrip
  exact RoundTrip.statement_holds

/-- Settles O54: each pair of words is what the encoder writes for the instruction that stands beside it. -/
theorem decodeWords : Obligations.DecodeWords := by
  unfold Obligations.DecodeWords
  and_intros <;> exact decode_of_encode rfl rfl

/-- Settles O56, by the length that the first parcel gives: a map's row has its fields' words, and the fields are all that the
parcels hold. -/
theorem decodedWellFormed : Obligations.DecodedWellFormed := by
  unfold Obligations.DecodedWellFormed
  intro ps i h
  cases ps with
  | nil => cases h
  | cons p rest =>
    simp only [decode] at h
    split at h
    case isTrue hc =>
      obtain ⟨hw, he⟩ := decode32_ok hc h
      exact ⟨hw, fun hnop _ _ hres _ _ => by rw [he hnop hres]; rfl⟩
    split at h
    case isTrue hc =>
      split at h
      · obtain ⟨hw, he⟩ := decode64_ok hc h
        exact ⟨hw, fun _ hhint _ hres hexit _ => by rw [he hhint hres hexit]; rfl⟩
      · cases h
    split at h
    · obtain ⟨hw, hlen⟩ := decode96_ok h
      exact ⟨hw, fun _ _ hhint hres _ hle => absurd (hlen hhint hres ▸ hle) (by decide)⟩
    · cases h

end Sys2Proof.Claims

/-! System registers (`Obligations.SystemReads`, `Obligations.SystemWrites`). -/

namespace Sys2Proof.Claims

open Machine

/-- The numbers of the registers that hold a heap bound (R54). -/
def heapReg (n : Nat) : Prop := n = 0x008 ∨ n = 0x009 ∨ n = 0x00A

/-- A listed number has no bits above the register field, bits 11 to 0 (R54). -/
theorem listed_lt : ∀ n ∈ SysReg.readOnly ++ SysReg.readWrite, n < 4096 := by decide

/-- Every listed register reads in a control context as R54, R55 and R289 say. -/
theorem sysReg_listed {s : State} (hs : s.ctx.slot = 15) {n : Nat} (hn : n ∈ SysReg.readOnly ++ SysReg.readWrite) :
    s.sysReg n = sysValue s n := by
  have control : s.control = s.ctx := if_pos hs
  fin_cases hn
  all_goals simp [State.sysReg, sysValue, State.ctxId, State.chan, control, hs]

theorem bits_low16 (v : Word) : bits v 0 16 = v.toNat % 65536 := by simp [bits]

/-- A writable register takes its defined bits; a heap bound takes a value whose low bits are zero. -/
theorem setSysReg_writable (s : State) {n : Nat} {v : Word} (hn : n ∈ SysReg.readWrite) (hv : heapReg n → bits v 0 16 = 0) :
    s.setSysReg n v = .ok (sysWrite s n v) := by
  rw [bits_low16] at hv
  simp only [SysReg.readWrite, List.mem_cons, List.not_mem_nil, or_false] at hn
  obtain rfl | rfl | rfl | hn := hn
  · exact if_pos (hv (.inl rfl))
  · exact if_pos (hv (.inr (.inl rfl)))
  · exact if_pos (hv (.inr (.inr rfl)))
  · obtain rfl | rfl | rfl | rfl | rfl | rfl | rfl := hn <;> rfl

/-- A heap bound refuses a value with a low bit. -/
theorem setSysReg_refuses (s : State) {n : Nat} {v : Word} (hn : heapReg n) (hv : bits v 0 16 ≠ 0) :
    s.setSysReg n v = .error Stop.illegal := by
  rw [bits_low16] at hv
  obtain rfl | rfl | rfl := hn <;> exact if_neg hv

theorem listed_iff (imm : BitVec 32) : SysReg.listed imm = true ↔ imm.toNat ∈ SysReg.readOnly ++ SysReg.readWrite := by
  simp [SysReg.listed]

theorem writable_iff (imm : BitVec 32) : SysReg.writable imm = true ↔ imm.toNat ∈ SysReg.readWrite := by
  simp [SysReg.writable]

theorem sysrd_listed {f : SysForm} (hw : (Instr.sysrd f).wellFormed = true) : SysReg.listed f.imm = true :=
  (Bool.and_eq_true_iff.mp hw).2

theorem syswr_writable {f : SysForm} (hw : (Instr.syswr f).wellFormed = true) : SysReg.writable f.imm = true :=
  (Bool.and_eq_true_iff.mp hw).2

/-- A well-formed SYSRD passes its own check of the number. -/
theorem exec_sysrd {f : SysForm} (hw : (Instr.sysrd f).wellFormed = true) (s : State) :
    exec (.sysrd f) s = .next (s.issue (metaM (formS f) true) fun t => .ok (put t f.d (t.sysReg f.imm.toNat))) := by
  have hl := sysrd_listed hw
  have hlt := listed_lt _ ((listed_iff _).mp hl)
  change execSysrd f s = _
  simp only [execSysrd, hl, if_true, Nat.mod_eq_of_lt hlt, writeOp_eq_put]

/-- A well-formed SYSWR passes its own check of the number. -/
theorem exec_syswr {f : SysForm} (hw : (Instr.syswr f).wellFormed = true) (s : State) :
    exec (.syswr f) s =
      .next (s.issue (metaC (formS f) false) fun t => t.setSysReg f.imm.toNat (t.readOp f.a f.da)) := by
  have hl := syswr_writable hw
  have hlt := listed_lt _ (List.mem_append_right SysReg.readOnly ((writable_iff _).mp hl))
  change execSyswr f s = _
  simp only [execSyswr, hl, if_true, Nat.mod_eq_of_lt hlt]

/-- Settles O17: SYSRD issues and retires, and the number that it names is a listed one. -/
theorem systemReads : Obligations.SystemReads := by
  unfold Obligations.SystemReads
  intro f s hw hr hslot hwin
  rw [exec_sysrd hw, issue_of_runs (.inr fun _ => hwin) (.inl rfl) hr rfl,
    sysReg_listed hslot ((listed_iff _).mp (sysrd_listed hw))]
  rfl

/-- Settles O18: SYSWR issues and writes the register that it names; a heap bound's refusal is the illegal-instruction trap. -/
theorem systemWrites : Obligations.SystemWrites := by
  unfold Obligations.SystemWrites
  intro f s hw hr hslot hwin v heap
  rw [exec_syswr hw, issue_of_runs (.inr fun _ => hwin) (.inr hslot) hr rfl]
  refine ⟨fun hv => ?_, fun hheap hv hh => ?_⟩
  · rw [setSysReg_writable s ((writable_iff _).mp (syswr_writable hw)) hv]
    rfl
  · rw [setSysReg_refuses s hheap hv]
    exact congrArg _ (stopped_of_handler hh 1 0 0 (by decide))

end Sys2Proof.Claims

/-! NOP, hints and the reserved opcodes (`Obligations.HintResults`, `Obligations.ReservedOpcode`). -/

namespace Sys2Proof.Claims

open Machine

/-- A hint with another number than 0, or in a helper, only retires (R73, R74). -/
theorem hint_retires {s : State} {number : Nat} (h : number ≠ 0 ∨ s.ctx.slot ≠ 15) (off : Int) (len : Nat) :
    s.hint number off len = retired s len := by
  have fetches : ¬ (number = 0 ∧ s.ctx.slot = 15) := by tauto
  simp only [State.hint, if_neg fetches]
  rfl

/-- A hint's number is 0 only in the lowest of its majors (R73). -/
theorem hintNumber_ne_zero {s : State} (h : bits (s.ctx.ir.getD 0 0) 22 8 > 0xD0) : s.hintNumber ≠ 0 := by
  unfold State.hintNumber State.irParcel
  omega

/-- Settles O8: NOP retires, and so does a hint that fetches no line. -/
theorem hintResults : Obligations.HintResults := by
  unfold Obligations.HintResults
  refine fun s => ⟨rfl, fun h => ?_⟩
  have noLine : s.hintNumber ≠ 0 ∨ s.ctx.slot ≠ 15 := h.imp_left hintNumber_ne_zero
  exact ⟨congrArg Host.Outcome.next (hint_retires noLine _ 2), congrArg Host.Outcome.next (hint_retires noLine _ 3)⟩

/-- Settles O14: the trap of a reserved opcode is an ordinary one at its PC. -/
theorem reservedOpcode : Obligations.ReservedOpcode := by
  unfold Obligations.ReservedOpcode
  intro s h
  exact congrArg _ (trapAt_of_handler h 2 _ 0 (by decide) s.ctx.pc)

end Sys2Proof.Claims

/-! LDV (`Obligations.VectorLoads`). -/

namespace Sys2Proof.Machine

/-- A byte after a wide write is the value's in the range written, and as it was elsewhere (R10). -/
theorem Mem.get_writeLE_range {m : Mem} (h : m.wf = true) (a n v i : Nat) :
    Mem.get (Mem.writeLE m a n v) i =
      if a ≤ i ∧ i < a + n then BitVec.ofNat 8 (v / 256 ^ (i - a)) else Mem.get m i := by
  split
  · rename_i hi
    obtain ⟨k, rfl⟩ := Nat.exists_eq_add_of_le hi.1
    rw [Mem.get_writeLE h a n v k (by omega), Nat.add_sub_cancel_left]
  · exact Mem.get_writeLE_other h a n v i (by omega)

end Sys2Proof.Machine

namespace Sys2Proof.Claims

open Machine

/-- LDV issued outside loops: its two checks, its wait for the dispatch queue, then 32 loads and one write (R77, R78). -/
theorem loadVector_of_runs {s : State} {f : Form} (hr : runs s f.p f.n) (hp : plain s) (hl : s.k.loop.running = false) :
    s.loadVector f =
      let ga := s.readOp f.a f.da + f.imm
      let la := s.readOp f.d 0
      if ga.toNat % 8 ≠ 0 then s.stopped (.trap 4 ga 0)
      else if la.toNat % 8 ≠ 0 ∨ 0xC0000 < la.toNat + 256 then s.stopped (.trap 5 la 0)
      else if s.mvuBusy la.toNat 256 then s.stopped (.hold .operand)
      else match s.lsWords ga f.opt 32 with
        | .ok (x, s1) =>
          retired { s1 with k := { s1.k with localMem := Mem.writeLE s1.k.localMem la.toNat 256 x } } f.len
        | .error r => s.stopped r := by
  obtain ⟨hslot, hwin⟩ := hp
  rw [State.loadVector, issue_of_runs (.inr fun _ => hwin) (.inr hslot) hr rfl]
  simp only [hl, Bool.false_eq_true, if_false, Config.localBytes]
  split_ifs
  · rfl
  · rfl
  · rfl
  · cases s.lsWords (s.readOp f.a f.da + f.imm) f.opt 32 <;> rfl

theorem exec_ldv {i : Instr} {f : Form} (hi : (∃ g, i = .ldvI64 g ∧ f = formI g) ∨ (∃ g, i = .ldvW96 g ∧ f = formW g))
    (s : State) : exec i s = .next (s.loadVector f) := by
  obtain ⟨g, rfl, rfl⟩ | ⟨g, rfl, rfl⟩ := hi <;> rfl

/-- Settles O24: the bytes are those of one wide write, and each check that fails is a precise trap. -/
theorem vectorLoads : Obligations.VectorLoads := by
  unfold Obligations.VectorLoads
  intro i f s hi hr hp hl ga la
  rw [exec_ldv hi, loadVector_of_runs hr hp hl]
  refine ⟨fun hga hla hend hbusy x s1 hx hwf => ?_, fun hh hga => ?_, fun hh hga hla => ?_⟩
  · refine ⟨Mem.writeLE s1.k.localMem la.toNat 256 x, ?_, Mem.wf_writeLE hwf _ _ _, Mem.get_writeLE_range hwf _ _ _⟩
    have inside : ¬ (la.toNat % 8 ≠ 0 ∨ 0xC0000 < la.toNat + 256) := by omega
    simp only [ga, la] at hga inside hbusy hx ⊢
    simp only [hga, ne_eq, not_true, if_false, if_neg inside, hbusy, Bool.false_eq_true, hx]
  · simp only [ga] at hga ⊢
    simp only [ne_eq, hga, not_false_iff, if_true, stopped_of_handler hh 4 _ 0 (by decide)]
  · simp only [ga, la] at hga hla ⊢
    simp only [ne_eq, hga, not_true, if_false, if_pos hla, stopped_of_handler hh 5 _ 0 (by decide)]

end Sys2Proof.Claims

/-! A fetch's translation does not depend on where the context in focus stands in its code, nor on how many of its instructions have
retired (R77, R158). -/

namespace Sys2Proof.Machine

/-- The context in focus at another PC, with another count of retired instructions. -/
def State.atPoint (s : State) (pc retired : Word) : State := { s with ctx := { s.ctx with pc := pc, retired := retired } }

section
variable {α : Type} (s : State) (pc n : Word)

/-- The same of a state that comes with a value. -/
def movedTo (r : α × State) : α × State := (r.1, r.2.atPoint pc n)

/-! The walk (R240, R245). -/

theorem State.walkPut_atPoint (die at' : Nat) (e : Word) :
    (s.atPoint pc n).walkPut die at' e = (s.walkPut die at' e).atPoint pc n := by
  unfold State.walkPut State.atPoint
  dsimp only
  split <;> rfl

theorem State.walkRead_atPoint (die level at' : Nat) :
    (s.atPoint pc n).walkRead die level at' = (s.walkRead die level at').map (movedTo pc n) := by
  have alive : (s.atPoint pc n).memAlive at' = s.memAlive at' := rfl
  have walks : (s.atPoint pc n).walks = s.walks := rfl
  have mem : (s.atPoint pc n).mem = s.mem := rfl
  simp only [State.walkRead, alive, walks, mem, State.walkPut_atPoint]
  split
  · rfl
  · split
    · rfl
    · split <;> rfl

theorem State.walkFrom_atPoint (p die : Nat) (va : Word) (level : Nat) : ∀ (s : State) (table : Nat),
    (s.atPoint pc n).walkFrom p die va level table = movedTo pc n (s.walkFrom p die va level table) := by
  have owned (s : State) (x : Nat) : (s.atPoint pc n).hbmOwned p x = s.hbmOwned p x := rfl
  induction level with
  | zero =>
    intro s table
    unfold State.walkFrom
    simp only [owned, State.walkRead_atPoint]
    split
    · rfl
    · cases s.walkRead die 0 (table + 8 * levelIndex va 0) with
      | none => rfl
      | some r =>
        simp only [Option.map_some, movedTo]
        split <;> rfl
  | succ level ih =>
    intro s table
    unfold State.walkFrom
    simp only [owned, State.walkRead_atPoint]
    split
    · rfl
    · cases s.walkRead die (level + 1) (table + 8 * levelIndex va (level + 1)) with
      | none => rfl
      | some r =>
        simp only [Option.map_some, movedTo, ih]
        split
        · rfl
        · split
          · rfl
          · split <;> rfl
        · rfl
        · rfl

/-! Record blocks and the TLB (R243, R244). -/

theorem State.putMem_atPoint (a k v : Nat) : (s.atPoint pc n).putMem a k v = (s.putMem a k v).atPoint pc n := rfl

theorem State.putErrorRecord_atPoint (r : BitVec 256) :
    (s.atPoint pc n).putErrorRecord r = (s.putErrorRecord r).map (State.atPoint · pc n) := by
  have mod : (s.atPoint pc n).mod = s.mod := rfl
  simp only [State.putErrorRecord, mod, State.putMem_atPoint]
  split
  · rfl
  · split
    · rfl
    · generalize s.putMem _ _ _ = t
      rfl

theorem State.errorRecord_atPoint (kind : Nat) (c : UnitClass) (m : Nat) (part : Option Nat) (addr : Nat) :
    (s.atPoint pc n).errorRecord kind c m part addr = (s.errorRecord kind c m part addr).atPoint pc n := by
  have image : (s.atPoint pc n).errorImage kind c m part addr = s.errorImage kind c m part addr := rfl
  have mod : (s.atPoint pc n).mod = s.mod := rfl
  simp only [State.errorRecord, image, mod, State.putErrorRecord_atPoint]
  generalize s.errorImage kind c m part addr = r
  cases s.mod.errWait.isEmpty with
  | false =>
    simp only [Bool.false_eq_true, if_false]
    split <;> rfl
  | true =>
    simp only [if_true]
    cases s.putErrorRecord r with
    | some t => rfl
    | none =>
      simp only [Option.map_none]
      split <;> rfl

theorem State.needBlock_atPoint (p : Option Nat) (region : Nat) :
    (s.atPoint pc n).needBlock p region = movedTo pc n (s.needBlock p region) := by
  have modNo : (s.atPoint pc n).modNo = s.modNo := rfl
  have blocks : (s.atPoint pc n).recBlocks = s.recBlocks := rfl
  have refused : (s.atPoint pc n).refused = s.refused := rfl
  simp only [State.needBlock, modNo, blocks, refused]
  split
  · rfl
  · split
    · rfl
    · split
      · rfl
      · exact congrArg (Prod.mk false)
          (State.errorRecord_atPoint { s with refused := region :: s.refused } pc n 6 .shared 0 p (region * 2 ^ 21))

theorem State.noteTranslation_atPoint (part base size : Nat) (leaf : Word) :
    (s.atPoint pc n).noteTranslation part base size leaf = (s.noteTranslation part base size leaf).atPoint pc n := by
  unfold State.noteTranslation State.atPoint
  dsimp only
  split <;> rfl

theorem State.tlbPut_atPoint (e : TlbEntry) : (s.atPoint pc n).tlbPut e = (s.tlbPut e).atPoint pc n := by
  simp only [State.tlbPut, State.noteTranslation_atPoint]
  generalize s.noteTranslation _ _ _ _ = t
  unfold State.atPoint
  dsimp only
  split <;> rfl

theorem State.cacheLeaf_atPoint (p : Nat) (va e : Word) (at' level : Nat) :
    (s.atPoint pc n).cacheLeaf p va e at' level = movedTo pc n (s.cacheLeaf p va e at' level) := by
  have block (region : Nat) : (if leafChk e then (s.atPoint pc n).needBlock (some p) region else (false, s.atPoint pc n)) =
      movedTo pc n (if leafChk e then s.needBlock (some p) region else (false, s)) := by
    rw [State.needBlock_atPoint]
    split <;> rfl
  simp only [State.cacheLeaf, block, movedTo, State.tlbPut_atPoint]

theorem State.hasBlock_atPoint (pa : Nat) : (s.atPoint pc n).hasBlock pa = s.hasBlock pa := rfl

/-- Whether an access through a TLB entry is checked, when `asked` is what asking for its region's block gives (R243). -/
def State.checkedBy (s : State) (t : TlbEntry) (pa region : Nat) (asked : Bool × State) : Bool × State :=
  if !t.checked || t.refused.contains region then (false, s)
  else if t.size = 2 ^ 16 ∨ t.asked.contains region then (s.hasBlock pa, s)
  else (asked.1, asked.2.noteAsked t region asked.1)

theorem State.throughTlb_eq (p : Nat) (t : TlbEntry) (va : Word) :
    s.throughTlb p t va =
      let pa := leafFrame t.leaf + va.toNat % t.size
      let r := s.checkedBy t pa (pa / 2 ^ 21) (s.needBlock (some p) (pa / 2 ^ 21))
      ({ space := .globalMem, addr := pa, home := leafHome t.leaf, checked := r.1, leafAt := some t.leafAt, leaf := t.leaf }, r.2) :=
  rfl

theorem State.checkedBy_atPoint (t : TlbEntry) (pa region : Nat) (asked : Bool × State) :
    (s.atPoint pc n).checkedBy t pa region (movedTo pc n asked) = movedTo pc n (s.checkedBy t pa region asked) := by
  unfold State.checkedBy
  split
  · rfl
  · split <;> rfl

theorem State.throughTlb_atPoint (p : Nat) (t : TlbEntry) (va : Word) :
    (s.atPoint pc n).throughTlb p t va = movedTo pc n (s.throughTlb p t va) := by
  simp only [State.throughTlb_eq, State.needBlock_atPoint, State.checkedBy_atPoint]
  rfl

/-! Order of arrival (R253, R384). -/

theorem State.waitersOf_atPoint (key : Nat → Bool) : (s.atPoint pc n).waitersOf key = s.waitersOf key := by
  have core (c : Nat) : ((s.atPoint pc n).coreAt c).waiters key c = (s.coreAt c).waiters key c := by
    have coreNo : (s.atPoint pc n).coreNo = s.coreNo := rfl
    simp only [State.coreAt, coreNo]
    split <;> rfl
  simp only [State.waitersOf, core]
  rfl

theorem State.asWaiter_atPoint (key : Nat) (path : Path) : (s.atPoint pc n).asWaiter key path = s.asWaiter key path := by
  simp only [State.asWaiter, State.waiters, State.waitersOf_atPoint]
  rfl

theorem State.isFirst_atPoint (key home : Nat) (path : Path) :
    (s.atPoint pc n).isFirst key home path = s.isFirst key home path := by
  simp only [State.isFirst, State.asWaiter_atPoint, State.waiters, State.waitersOf_atPoint]

theorem State.pageHolds_atPoint (path : Path) (pg : Page) : (s.atPoint pc n).pageHolds path pg = s.pageHolds path pg := by
  simp only [State.pageHolds, State.waitsIn, State.waitersOf_atPoint]
  rfl

theorem State.inTurn_atPoint (path : Path) (t : TlbEntry) (r : Except Stop (TlbEntry × State)) :
    (s.atPoint pc n).inTurn path t (r.map (movedTo pc n)) = (s.inTurn path t r).map (movedTo pc n) := by
  have pages : (s.atPoint pc n).pages = s.pages := rfl
  simp only [State.inTurn, pages, State.isFirst_atPoint, State.turn, State.asWaiter_atPoint]
  split <;> rfl

theorem State.movingPage_atPoint (p : Nat) (parking : Bool) (path : Path) (va : Word) (t : TlbEntry) :
    (s.atPoint pc n).movingPage p parking path va t = (s.movingPage p parking path va t).map (movedTo pc n) := by
  have page : (s.atPoint pc n).page t.leafAt = s.page t.leafAt := rfl
  simp only [State.movingPage, page, State.hasBlock_atPoint, State.pageHolds_atPoint, State.turn, State.asWaiter_atPoint]
  split
  · rfl
  · split
    · split
      · exact s.inTurn_atPoint pc n path t (.ok (t, s))
      · exact s.inTurn_atPoint pc n path _ (.ok (_, { s with inflight := s.inflight ++ [_] }))
    · rfl
    · rfl
    · exact s.inTurn_atPoint pc n path t (.ok (t, s))

theorem State.findLeaf_atPoint (p : Nat) (parking write : Bool) (path : Path) (va : Word) :
    (s.atPoint pc n).findLeaf p parking write path va = (s.findLeaf p parking write path va).map (movedTo pc n) := by
  have tlb : (s.atPoint pc n).tlbFind p va = s.tlbFind p va := rfl
  have walked : (s.atPoint pc n).walk p ((s.atPoint pc n).coreNo / 384) va = movedTo pc n (s.walk p (s.coreNo / 384) va) :=
    State.walkFrom_atPoint pc n p (s.coreNo / 384) va 4 s _
  simp only [State.findLeaf, tlb, walked, State.movingPage_atPoint]
  split
  · rfl
  · obtain ⟨w, s1⟩ := s.walk p (s.coreNo / 384) va
    cases w with
    | reserved _ => rfl
    | refused => rfl
    | invalid _ => rfl
    | dead => rfl
    | leaf e at' level =>
      have page : (s1.atPoint pc n).page at' = s1.page at' := rfl
      simp only [movedTo, page, State.pageHolds_atPoint, State.turn, State.asWaiter_atPoint, State.cacheLeaf_atPoint]
      split
      · rfl
      · split
        · rfl
        · split
          · rfl
          · exact s1.inTurn_atPoint pc n path _ (.ok (_, _))

theorem State.translateFetch_atPoint (p : Nat) (parking : Bool) (va : Word) :
    (s.atPoint pc n).translateFetch p parking va = (s.translateFetch p parking va).map (movedTo pc n) := by
  simp only [State.translateFetch, State.findLeaf_atPoint]
  split
  · rfl
  · cases s.findLeaf p parking false .fetch va with
    | error e => rfl
    | ok r =>
      obtain ⟨t, s1⟩ := r
      simp only [Except.map, bind, Except.bind, movedTo, State.throughTlb_atPoint]
      split
      · rfl
      · obtain ⟨g, s2⟩ := s1.throughTlb p t va
        have view : (s2.atPoint pc n).inView g.addr = s2.inView g.addr := rfl
        have alive : (s2.atPoint pc n).unitAlive g = s2.unitAlive g := rfl
        simp only [view, alive]
        split
        · rfl
        · split <;> rfl

end
end Sys2Proof.Machine

/-! Asynchronous faults (`Obligations.AsyncFaults`). -/

namespace Sys2Proof.Claims

open Machine

/-- A handler that is found is found from another PC. -/
theorem hasHandler_atPoint {s : State} (h : hasHandler s) (pc n : Word) : hasHandler (s.atPoint pc n) := by
  obtain ⟨hslot, hact, hvec, hgood, ⟨r, hr⟩, hloop, htrace⟩ := h
  refine ⟨hslot, hact, hvec, hgood, ⟨movedTo pc n r, ?_⟩, hloop, htrace⟩
  rw [State.translateFetch_atPoint]
  exact congrArg (Except.map (movedTo pc n)) hr

/-- Entry by an asynchronous fault that finds a handler, with the PC that it saves (R416, R420). -/
def interruptedHere (s : State) (p : Pending) : State :=
  { s with
    ctx := { s.ctx with pc := s.k.trapvec, hold := none, entry := false }
    k := { s.k with
      trapcause := BitVec.ofNat 64 (2 ^ 63 + 2 ^ 16 + p.sub * 2 ^ 8 + p.cause)
      trapaddr := p.addr
      trappc := s.ctx.pc
      trapseq := p.seq.setWidth 64 } }

theorem takeTrap_async {s : State} {p : Pending} (h : hasHandler s) (hc : p.cause < 22 ∨ p.cause = 23) (r : Word512) :
    s.takeTrap { cause := p.cause, sub := p.sub, addr := p.addr, pc := s.ctx.pc, seq := p.seq, async := true, record := r } =
      interruptedHere s p := by
  obtain ⟨hslot, hact, hvec, hgood, ⟨f, hf⟩, hloop, htrace⟩ := h
  have survives : ¬ (p.cause = 22 ∨ p.cause = 24 ∨ p.cause = 25 ∨ p.cause = 26) := by omega
  have untraced (pc : Word) (n : BitVec 32) : s.trace 3 pc n = s := by
    rw [State.trace, htrace]
    rfl
  simp only [State.takeTrap, State.focusSlot_here hslot, hact, survives, hvec, hf, badPc_false hgood, hloop, untraced,
    Bool.false_eq_true, if_false, Bool.or_false, Bool.true_and, Bool.toNat_false, Bool.toNat_true, Nat.zero_mul, Nat.add_zero,
    Nat.one_mul]
  rfl

/-- The unit that has reported a fault goes on. -/
theorem restartUnit_eq_afterFault (s : State) (source : Nat) : s.restartUnit source = afterFault s source := by
  unfold State.restartUnit afterFault
  split
  · rfl
  · split
    · rename_i h
      subst h
      rfl
    · rfl

/-- A fault is taken from the PC of the boundary, or again from that of a VRED4 (R77, R420). -/
theorem takeTrap_rewind {t : State} {p : Pending} (h : hasHandler t) (hc : p.cause < 22 ∨ p.cause = 23) (r : Word512) :
    (t.rewind p).takeTrap { cause := p.cause, sub := p.sub, addr := p.addr, pc := (t.rewind p).ctx.pc, seq := p.seq,
                            async := true, record := r } = interrupted t p := by
  unfold State.rewind
  split
  · rename_i again
    have restarts : restarted t p = true := by simpa [restarted] using again
    rw [show interrupted t p = interruptedHere (t.atPoint p.addr (t.ctx.retired - 1)) p by simp only [interrupted, restarts]; rfl]
    exact takeTrap_async (hasHandler_atPoint h _ _) hc r
  · rename_i goesOn
    have restarts : restarted t p = false := by simpa [restarted] using goesOn
    rw [show interrupted t p = interruptedHere t p by simp only [interrupted, restarts]; rfl]
    exact takeTrap_async h hc r

theorem unissued_iff (s : State) : s.ctx.unissued = true ↔ notIssued s := by
  unfold Ctx.unissued notIssued
  split <;> simp_all

/-- The boundaries at which the oldest fault is taken (R285, R420). -/
theorem takesFault_iff (s : State) : s.takesFault = true ↔ s.ctx.slot = 15 ∧ s.ctx.live = true ∧ notIssued s ∧
    s.k.trapcause.getLsbD 63 = false ∧ s.loopAt .starting = false ∧ s.loopAt .complete = false := by
  simp only [State.takesFault, Bool.and_eq_true, beq_iff_eq, unissued_iff, Bool.not_eq_true', and_assoc]

theorem loopAt_of_idle {s : State} (h : s.k.loop.running = false) (ph : LoopPhase) : s.loopAt ph = false := by
  simp [State.loopAt, h]

theorem exec_asyncFaultTaken {s : State} {p : Pending} {rest : List Pending} (hp : s.k.pending = p :: rest) :
    exec .asyncFaultTaken s =
      if s.takesFault then
        let t := ({ s with k := { s.k with pending := rest } }.restartUnit p.source).rewind p
        .next (t.takeTrap { cause := p.cause, sub := p.sub, addr := p.addr, pc := t.ctx.pc, seq := p.seq, async := true,
                            record := t.currentRecord p.record })
      else .next s := by
  change execAsyncFaultTaken s = _
  rw [execAsyncFaultTaken, hp]

/-- Settles O44: a fault that finds its boundary enters the handler, from the PC at which its unit's instruction is to restart. -/
theorem asyncFaults : Obligations.AsyncFaults := by
  unfold Obligations.AsyncFaults
  intro p rest s hp t
  rw [exec_asyncFaultTaken hp]
  refine ⟨fun hl hn hh ht hc _ => ?_, fun hstay => if_neg fun htakes => ?_⟩
  · obtain ⟨hslot, hact, _, _, _, hloop, _⟩ := hh
    have takes : s.takesFault = true :=
      (takesFault_iff s).mpr ⟨hslot, hl, hn, hact, loopAt_of_idle hloop _, loopAt_of_idle hloop _⟩
    rw [if_pos takes, restartUnit_eq_afterFault]
    exact congrArg Host.Outcome.next (takeTrap_rewind ht hc _)
  · obtain ⟨hslot, hl, hn, hact, hstarts, hends⟩ := (takesFault_iff s).mp htakes
    simp_all

end Sys2Proof.Claims

/-! Pages that move (`Obligations.MoveEvents`). First the copy of a frame: a memory read after a copy. -/

namespace Sys2Proof.Machine

/-- A memory cut down to some addresses reads there as it did, and elsewhere as memory that nothing has written. -/
theorem Mem.get_filter {lo : Nat} {m : Mem} (h : Mem.wfFrom lo m = true) (p : Nat → Bool) (a : Nat) :
    Mem.get (m.filter fun c => p c.1) a = if p a then Mem.get m a else Mem.empty := by
  induction m generalizing lo with
  | nil => simp [Mem.get]
  | cons c rest ih =>
    obtain ⟨x, y⟩ := c
    simp only [Mem.wfFrom, Bool.and_eq_true, decide_eq_true_eq] at h
    obtain ⟨_, hrest⟩ := h
    rw [List.filter_cons]
    split
    · rename_i hx
      simp only [Mem.get, ih hrest]
      grind
    · rename_i hx
      have below (hlt : a < x) : Mem.get rest a = Mem.empty := Mem.get_low hrest (by omega)
      simp only [Mem.get, ih hrest]
      grind

/-- A list of bytes set at a distance: each byte that it lists is read there, and every other address as before. -/
theorem Mem.get_foldl_set {lo src : Nat} {l : Mem} (hl : Mem.wfFrom lo l = true) (hs : ∀ c ∈ l, src ≤ c.1) (dst i : Nat)
    {m : Mem} (h : m.wf = true) :
    Mem.get (l.foldl (fun acc c => Mem.set acc (dst + (c.1 - src)) c.2) m) (dst + i) =
      if Mem.get l (src + i) = Mem.empty then Mem.get m (dst + i) else Mem.get l (src + i) := by
  induction l generalizing lo m with
  | nil => simp [Mem.get]
  | cons c rest ih =>
    obtain ⟨x, y⟩ := c
    simp only [Mem.wfFrom, Bool.and_eq_true, decide_eq_true_eq] at hl
    obtain ⟨⟨_, hy⟩, hrest⟩ := hl
    obtain ⟨hx, hs⟩ := List.forall_mem_cons.mp hs
    rw [List.foldl_cons, ih hrest hs (Mem.wf_set h _ _), Mem.get_set h]
    have below (hle : src + i ≤ x) : Mem.get rest (src + i) = Mem.empty := Mem.get_low hrest (by omega)
    simp only [Mem.get]
    grind

/-- A copy of a range holds what the range holds. -/
theorem Mem.get_copyFrom {m m' : Mem} (h : m.wf = true) (h' : m'.wf = true) (dst src n : Nat) {i : Nat} (hi : i < n) :
    Mem.get (Mem.copyFrom m dst m' src n) (dst + i) = Mem.get m' (src + i) := by
  have taken : Mem.get (m'.filter fun c => src ≤ c.1 && c.1 < src + n) (src + i) = Mem.get m' (src + i) := by
    rw [Mem.get_filter h' (fun a => src ≤ a && a < src + n)]
    simp [hi]
  have cleared : Mem.get (Mem.zero m dst n) (dst + i) = Mem.empty := by
    unfold Mem.zero
    rw [Mem.get_filter h (fun a => a < dst || dst + n ≤ a)]
    simp [hi]
  have above : ∀ c ∈ m'.filter fun c => src ≤ c.1 && c.1 < src + n, src ≤ c.1 := by
    intro c hc
    simp only [List.mem_filter, Bool.and_eq_true, decide_eq_true_eq] at hc
    exact hc.2.1
  unfold Mem.copyFrom
  rw [Mem.get_foldl_set (Mem.wfFrom_filter h' _) above dst i (Mem.wf_zero h dst n), taken, cleared]
  split
  · rename_i he
    exact he.symm
  · rfl

end Sys2Proof.Machine

/-! Frames of what a move does: stores performed everywhere, frames taken and returned, requests written. -/

namespace Sys2Proof.Machine

/-- The focus is on the same core, and the page records and the partitions' registers are the same. -/
structure State.SamePlace (s t : State) : Prop where
  coreNo : t.coreNo = s.coreNo
  pages : t.pages = s.pages
  parts : t.parts = s.parts

namespace State.SamePlace

theorem refl (s : State) : s.SamePlace s := ⟨rfl, rfl, rfl⟩

theorem trans {s t u : State} (h : s.SamePlace t) (h' : t.SamePlace u) : s.SamePlace u :=
  ⟨h'.coreNo.trans h.coreNo, h'.pages.trans h.pages, h'.parts.trans h.parts⟩

theorem page {s t : State} (h : s.SamePlace t) (at' : Nat) : t.page at' = s.page at' := by
  simp only [State.page, h.pages]

theorem ownsCluster {s t : State} (h : s.SamePlace t) (p c : Nat) : t.ownsCluster p c = s.ownsCluster p c := by
  simp only [State.ownsCluster, State.part, h.parts]

/-- A change at each of several places in turn. -/
theorem foldl {α : Type} {f : State → α → State} (hf : ∀ (t : State) (a : α), t.SamePlace (f t a)) (l : List α) (s : State) :
    s.SamePlace (l.foldl f s) :=
  List.foldlRecOn l f (refl s) fun t ht a _ => ht.trans (hf t a)

theorem putBytes (bs : List HeldByte) (s : State) : s.SamePlace (bs.foldl State.putByte s) := by
  obtain ⟨_, _, _, _, _, hs⟩ := State.putBytes_frame bs s
  rw [hs]
  exact ⟨rfl, rfl, rfl⟩

theorem focusSlot (s : State) (slot : Nat) : s.SamePlace (s.focusSlot slot) := by
  unfold State.focusSlot
  split
  · exact refl s
  · split
    · exact refl s
    · exact ⟨rfl, rfl, rfl⟩

theorem drainSome (s : State) (hit : HeldByte → Bool) : s.SamePlace (s.drainSome hit) :=
  (putBytes (s.ctx.nt.filter hit) s).trans ⟨rfl, rfl, rfl⟩

theorem drainCore (s : State) (hit : HeldByte → Bool) : s.SamePlace (s.drainCore hit) :=
  (foldl (fun t slot => (focusSlot t slot).trans (drainSome _ hit)) _ s).trans (focusSlot _ _)

theorem drainLate (s : State) (hit : HeldByte → Bool) : s.SamePlace (s.drainLate hit) := by
  unfold State.drainLate
  split
  · exact refl s
  · exact (putBytes (s.late.filter hit) s).trans ⟨rfl, rfl, rfl⟩

theorem atCore {f : State → State} (hf : ∀ t : State, t.SamePlace (f t)) (s : State) (c : Nat) : s.SamePlace (s.atCore c f) := by
  have pages (t : State) (c : Nat) : (t.focusCore c).pages = t.pages := by
    unfold State.focusCore
    split <;> rfl
  unfold State.atCore
  split
  · exact hf s
  · split
    · exact refl s
    · refine ⟨by simp, ?_, ?_⟩
      · rw [pages, (hf _).pages, pages]
      · rw [State.focusCore_parts, (hf _).parts, State.focusCore_parts]

theorem drainEverywhere (s : State) (hit : HeldByte → Bool) : s.SamePlace (s.drainEverywhere hit) :=
  (drainLate s hit).trans (foldl (fun t c => atCore (fun x => drainCore x hit) t c) _ _)

end State.SamePlace

section
variable {s t : State}

/-- A frame that is taken changes memory and the partition's cursor (R450). -/
theorem State.takeFrame_frame {p f : Nat} {fits : Nat → Bool} (h : s.takeFrame p fits = some (f, t)) :
    ∃ m ps, t = { s with mem := m, parts := ps } := by
  unfold State.takeFrame at h
  dsimp only at h
  split at h
  · cases h
  · split at h
    · cases h
    · simp only [Option.some.injEq, Prod.mk.injEq] at h
      exact ⟨_, _, h.2.symm⟩

/-- A frame that returns changes memory (R450). -/
theorem State.returnFrame_frame (s : State) (p frame : Nat) : ∃ m, s.returnFrame p frame = { s with mem := m } := by
  unfold State.returnFrame
  dsimp only
  split
  · exact ⟨s.mem, rfl⟩
  · split
    · exact ⟨s.mem, rfl⟩
    · exact ⟨_, rfl⟩

/-- Page requests that are written change memory and the partition's list of them (R250). -/
theorem State.flushRequests_frame (s : State) (p : Nat) : ∃ m ps, s.flushRequests p = { s with mem := m, parts := ps } := by
  unfold State.flushRequests
  extract_lets pt log go
  have written : ∃ m, go.1 = { s with mem := m } := by
    refine List.foldlRecOn (motive := fun acc : State × List PageReq => ∃ m, acc.1 = { s with mem := m }) _ _ ⟨s.mem, rfl⟩
      fun acc hacc r _ => ?_
    obtain ⟨m, hm⟩ := hacc
    dsimp only
    split
    · split
      · exact ⟨m, hm⟩
      · exact ⟨_, by rw [hm]; rfl⟩
    · exact ⟨m, hm⟩
  obtain ⟨m, hm⟩ := written
  rw [hm]
  exact ⟨_, _, rfl⟩

theorem State.pageRequest_frame (s : State) (p tag path level : Nat) (write : Bool) (va : Word) (pool : Option Nat)
    (parked : Option Word) : ∃ m ps, (s.pageRequest p tag path level write va pool parked).2 = { s with mem := m, parts := ps } := by
  unfold State.pageRequest
  dsimp only
  obtain ⟨m, ps, h⟩ := State.flushRequests_frame _ p
  exact ⟨m, ps, h⟩

theorem State.page_onPage (s : State) (at' : Nat) (f : Page → Page) : (s.onPage at' f).page at' = f (s.page at') := by
  simp [State.page, State.onPage]

theorem State.pageRequest_page (s : State) (p tag path level : Nat) (write : Bool) (va : Word) (pool : Option Nat)
    (parked : Option Word) (at' : Nat) : (s.pageRequest p tag path level write va pool parked).2.page at' = s.page at' := by
  obtain ⟨m, ps, h⟩ := s.pageRequest_frame p tag path level write va pool parked
  rw [h]
  rfl

theorem State.part_onPart {p : Nat} (h : p < 16) (s : State) (f : Part → Part) : (s.onPart p f).part p = f (s.part p) := by
  simp [State.part, State.onPart, Vector.getD, h]

end

end Sys2Proof.Machine

/-! Moves (R252 to R254, R258). -/

namespace Sys2Proof.Claims

open Machine

/-- A page that looks for a frame changes in nothing but whether it waits for one (R256). -/
theorem takeHbm_page (s : State) (at' toMod die : Nat) :
    ∃ w, (s.takeHbm at' toMod die).2.page at' = { s.page at' with starved := w } := by
  unfold State.takeHbm
  dsimp only
  split
  · exact ⟨_, rfl⟩
  · split
    · rename_i f s1 hf
      obtain ⟨m, ps, rfl⟩ := State.takeFrame_frame hf
      exact ⟨none, State.page_onPage _ _ _⟩
    · split
      · exact ⟨_, State.page_onPage _ _ _⟩
      · exact ⟨_, (State.pageRequest_page _ _ _ _ _ _ _ _ _ _).trans (State.page_onPage _ _ _)⟩

/-- An accepted move waits for its frame, or has it and holds new requests (R253). -/
theorem frameMove_page (s : State) (at' : Nat) : ∃ st f w, (st = (s.page at').stage ∨ st = .holding) ∧
    (s.frameMove at').page at' = { s.page at' with stage := st, newFrame := f, starved := w } := by
  obtain ⟨w, hw⟩ := takeHbm_page s at' (s.page at').targetMod ((s.page at').target / 24)
  unfold State.frameMove
  dsimp only
  split
  · rename_i s1 h
    rw [h] at hw
    exact ⟨_, _, w, .inl rfl, hw⟩
  · rename_i f s1 h
    rw [h] at hw
    exact ⟨.holding, f, w, .inr rfl, by rw [State.page_onPage, hw]⟩

/-- A page that does not starve takes the frame that its pool has (R256). -/
theorem takeHbm_of_frame {s s1 : State} {at' toMod die f : Nat} (hs : starving s (s.page at') = false)
    (hf : s.takeFrame (s.page at').part (fun f => s.hbmOwned (s.page at').part f && modOf f == toMod && dieOf f == die) =
      some (f, s1)) :
    s.takeHbm at' toMod die = (some f, s1.onPage at' fun q => { q with starved := none }) := by
  have fed : (s.page at').starved.any (s.poolAsked (s.page at').part) = false := hs
  simp only [State.takeHbm, fed, hf, Bool.false_eq_true, if_false]

/-- What comes of a move that is asked for (R254, R258). -/
theorem requestMove_cases (s : State) (p at' : Nat) (va : Word) {e : Word} (toMod goal : Nat) (ht : leafTier e = 0) :
    let t := (s.requestMove p at' va e toMod goal).2
    let code := moveCode s (s.page at') e toMod goal
    (code = 0 ∧ ∃ (u : State) (hist : List Nat), t = (u.onPage at' fun q => { q with
      va := va, part := p, stage := .waiting, target := goal, targetMod := toMod, oldLeaf := e, settle := none,
      history := hist }).frameMove at') ∨
    (code ≠ 0 ∧ t.mem = s.mem ∧ (t.page at').stage = (s.page at').stage) := by
  simp only [State.requestMove, moveCode, ht, and_true, ne_eq, not_true, false_or]
  by_cases hmoves : ¬ (s.page at').stage = .none
  · rw [if_pos hmoves, if_pos hmoves]
    exact .inr ⟨by decide, rfl, rfl⟩
  rw [if_neg hmoves, if_neg hmoves]
  by_cases hhome : leafHome e = goal ∧ modOf (leafFrame e) = toMod
  · rw [if_pos hhome, if_pos hhome]
    exact .inr ⟨by decide, rfl, rfl⟩
  rw [if_neg hhome, if_neg hhome]
  by_cases hsettled : s.settled (s.page at') = true
  · rw [if_pos hsettled, if_pos (.inl hsettled)]
    exact .inr ⟨by decide, rfl, rfl⟩
  rw [if_neg hsettled]
  by_cases hpong : s.pingPong (s.page at') = true
  · rw [if_pos hpong, if_pos (.inr hpong)]
    exact .inr ⟨by decide, rfl, by rw [State.page_onPage]⟩
  rw [if_neg hpong, if_neg (not_or.mpr ⟨hsettled, hpong⟩)]
  by_cases hfirm : Config.policy s.free = true ∧ s.movesOn (modOf (leafFrame e)) (leafHome e / 24) < 64
  · rw [if_pos hfirm, if_neg fun h => h.elim (absurd hfirm.1) (Nat.not_le.mpr hfirm.2)]
    exact .inl ⟨rfl, _, _, rfl⟩
  · rw [if_neg hfirm, if_pos (by rwa [← Nat.not_lt, ← not_and_or])]
    exact .inr ⟨by decide, rfl, rfl⟩

theorem movable_iff (e : Word) (level : Nat) : movable e level = true ↔ movablePage e level := by
  simp [movable, movablePage]

theorem exec_migrationRequest {s s1 : State} {e : Word} {at' level : Nat}
    (hw : s.walk s.cmd.part 0 s.cmd.value = (.leaf e at' level, s1)) :
    exec .migrationRequest s =
      let toMod := if s.cmd.flag then s.cmd.tag.toNat % 64 else s.modNo
      if canonical s.cmd.value ∧ movable e level ∧ s.cmd.unit < 48 ∧
          (toMod ≠ s.modNo ∨ s1.ownsCluster s.cmd.part s.cmd.unit) then
        .next (s1.requestMove s.cmd.part at' s.cmd.value e toMod s.cmd.unit).2
      else .next s1 := by
  change execMigrationRequest s = _
  rw [execMigrationRequest, hw]

/-- MIGRATION_REQUEST of a page that its walk finds (R258). -/
theorem migrationRequest_spec {s s1 : State} {e : Word} {at' level : Nat} (hc : canonical s.cmd.value = true)
    (hw : s.walk s.cmd.part 0 s.cmd.value = (.leaf e at' level, s1)) (ht : leafTier e = 0) :
    let toMod := if s.cmd.flag then s.cmd.tag.toNat % 64 else s.modNo
    let may := movablePage e level ∧ s.cmd.unit < 48 ∧
      (toMod ≠ s.modNo ∨ s1.ownsCluster s.cmd.part s.cmd.unit = true)
    let code := moveCode s1 (s1.page at') e toMod s.cmd.unit
    (¬ may → exec .migrationRequest s = .next s1) ∧
    (may → ∃ t, exec .migrationRequest s = .next t ∧
      (code = 0 → moving (t.page at') toMod s.cmd.unit ∧ (t.page at').oldLeaf = e) ∧
      (code ≠ 0 → t.mem = s1.mem ∧ (t.page at').stage = (s1.page at').stage)) := by
  intro toMod may code
  rw [exec_migrationRequest hw]
  have allowed : (canonical s.cmd.value = true ∧ movable e level = true ∧ s.cmd.unit < 48 ∧
      (toMod ≠ s.modNo ∨ s1.ownsCluster s.cmd.part s.cmd.unit = true)) ↔ may := by
    rw [hc, movable_iff, eq_self, true_and]
  refine ⟨fun hno => if_neg (mt allowed.mp hno), fun hmay => ⟨_, if_pos (allowed.mpr hmay), ?_⟩⟩
  obtain ⟨hcode, u, hist, ht⟩ | ⟨hcode, hmem, hstage⟩ := requestMove_cases s1 s.cmd.part at' s.cmd.value toMod s.cmd.unit ht
  · refine ⟨fun _ => ?_, fun hne => absurd hcode hne⟩
    rw [ht]
    obtain ⟨st, f, w, hst, hpage⟩ := frameMove_page (u.onPage at' fun q => { q with
      va := s.cmd.value, part := s.cmd.part, stage := .waiting, target := s.cmd.unit, targetMod := toMod, oldLeaf := e,
      settle := none, history := hist }) at'
    rw [hpage]
    rw [State.page_onPage] at hst ⊢
    exact ⟨⟨hst.symm, rfl, rfl⟩, rfl⟩
  · exact ⟨fun h0 => absurd h0 hcode, fun _ => ⟨hmem, hstage⟩⟩

end Sys2Proof.Claims

namespace Sys2Proof.Claims

open Machine

/-- MIGRATION_DRAINED: a move that waits takes the frame that its pool has, and one that holds requests streams when no access is
left in progress (R253). -/
theorem migrationDrained_spec (s : State) :
    let at' := s.cmd.addr
    let pg := s.page at'
    let fits := fun (f : Nat) => s.hbmOwned pg.part f && modOf f == pg.targetMod && dieOf f == pg.target / 24
    ((pg.stage ≠ .waiting ∧ (pg.stage ≠ .holding ∨ s.linesWait (leafFrame pg.oldLeaf) = true)) →
      exec .migrationDrained s = .next s) ∧
    (pg.stage = .waiting → starving s pg = false →
      ∀ f s1, s.takeFrame pg.part fits = some (f, s1) →
        ∃ t, exec .migrationDrained s = .next t ∧ (t.page at').stage = .holding ∧ (t.page at').newFrame = f) ∧
    (pg.stage = .holding → s.linesWait (leafFrame pg.oldLeaf) = false →
      ∃ t, exec .migrationDrained s = .next t ∧ (t.page at').stage = .streaming ∧ (t.page at').newFrame = pg.newFrame) := by
  intro at' pg fits
  refine ⟨fun h => congrArg Host.Outcome.next ((if_neg h.1).trans (if_pos h.2)), fun hstage hfed f s1 hf => ⟨_, rfl, ?_⟩,
    fun hstage hlines => ⟨_, rfl, ?_⟩⟩
  · have looks : s.drainMove at' = s.frameMove at' := if_pos hstage
    rw [looks, State.frameMove, takeHbm_of_frame hfed hf]
    simp only [State.page_onPage, and_self]
  · have notWaiting : ¬ pg.stage = .waiting := by simp [hstage]
    have goesOn : ¬ (pg.stage ≠ .holding ∨ s.linesWait (leafFrame pg.oldLeaf) = true) := by simp [hstage, hlines]
    have streams : s.drainMove at' = (performed s (leafFrame pg.oldLeaf)).onPage at' fun q => { q with stage := .streaming } :=
      (if_neg notWaiting).trans (if_neg goesOn)
    rw [streams, State.page_onPage, performed, (State.SamePlace.drainEverywhere s _).page]
    exact ⟨rfl, rfl⟩

/-- The records of a page whose granules are not checked do not follow it, and memory stays (R243). -/
theorem moveRecords_mem (s : State) (p old new : Nat) {leaf : Word} (h : leafChk leaf = false) :
    (s.moveRecords p old new leaf).mem = s.mem := by
  have known : (s.moveKnown old new).mem = s.mem := by
    unfold State.moveKnown
    split <;> rfl
  simp only [State.moveRecords, h, Bool.false_eq_true, if_false, known]

/-- An entry that is written is read back. -/
theorem entryAt_of_mem {t : State} {m : Mem} (hm : m.wf = true) {at' : Nat} {e : Word}
    (h : t.mem = Mem.writeLE m at' 8 e.toNat) : entryAt t at' = e := by
  rw [entryAt, h, Mem.readLE_writeLE hm]
  apply BitVec.eq_of_toNat_eq
  have := e.isLt
  simp only [BitVec.toNat_ofNat]
  omega

/-- A page that streams, with no access left in progress, is switched, if its entry is still the one that it had (R253). -/
theorem switchMove_switches {s : State} {at' : Nat} (hstage : (s.page at').stage = .streaming)
    (hlines : s.linesWait (leafFrame (s.page at').oldLeaf) = false) :
    let pg := s.page at'
    let old := leafFrame pg.oldLeaf
    let r := performed s old
    (entryAt r at' = pg.oldLeaf → s.switchMove at' =
      ((((((r.evictFrame old).copyFrame old pg.newFrame).moveRecords pg.part old pg.newFrame pg.oldLeaf).putMem at' 8
        (newEntry pg).toNat).followStores old pg.newFrame).onPage at' fun q => { q with stage := .forwarding })) ∧
    (entryAt r at' ≠ pg.oldLeaf → s.switchMove at' =
      (((r.evictFrame old).returnFrame pg.part pg.newFrame).onPage at' fun q => { q with stage := .none })) := by
  intro pg old r
  have goesOn : ¬ (pg.stage ≠ .streaming ∨ s.linesWait old = true) := by simp [pg, old, hstage, hlines]
  exact ⟨fun h => (if_neg goesOn).trans (if_pos h), fun h => (if_neg goesOn).trans (if_neg h)⟩

/-- What the switch of a move leaves in memory: the page in its new frame, and then the new entry (R253). -/
theorem switched_mem {s t : State} {at' old new : Nat} {e : Word} (hs : s.mem.wf = true)
    (apart : at' + 8 ≤ new ∨ new + 65536 ≤ at')
    (ht : t.mem = Mem.writeLE (Mem.copyFrom s.mem new s.mem old 65536) at' 8 e.toNat) :
    entryAt t at' = e ∧ copied s t old new := by
  have copyWf : (Mem.copyFrom s.mem new s.mem old 65536).wf = true := Mem.wf_copyFrom hs new s.mem old 65536
  refine ⟨entryAt_of_mem copyWf ht, fun i hi => ?_⟩
  rw [ht, Mem.get_writeLE_other copyWf _ _ _ _ (by omega), Mem.get_copyFrom hs hs new old 65536 hi]

/-- MIGRATION_STREAM_DONE: the switch, unless software has changed the entry (R253). -/
theorem migrationStreamDone_spec (s : State) :
    let at' := s.cmd.addr
    let pg := s.page at'
    let old := leafFrame pg.oldLeaf
    let r := performed s old
    ((pg.stage ≠ .streaming ∨ s.linesWait old = true) → exec .migrationStreamDone s = .next s) ∧
    (pg.stage = .streaming → s.linesWait old = false → entryAt r at' ≠ pg.oldLeaf →
      ∃ t, exec .migrationStreamDone s = .next t ∧ (t.page at').stage = .none) ∧
    (pg.stage = .streaming → s.linesWait old = false → entryAt r at' = pg.oldLeaf → leafChk pg.oldLeaf = false →
      r.mem.wf = true → (at' + 8 ≤ pg.newFrame ∨ pg.newFrame + 65536 ≤ at') →
      ∃ t, exec .migrationStreamDone s = .next t ∧ (t.page at').stage = .forwarding ∧
        entryAt t at' = newEntry pg ∧ copied r t old pg.newFrame) := by
  intro at' pg old r
  refine ⟨fun h => congrArg Host.Outcome.next (if_pos h), fun hstage hlines hentry => ⟨_, rfl, ?_⟩,
    fun hstage hlines hentry hchk hwf apart => ⟨_, rfl, ?_⟩⟩
  · rw [(switchMove_switches hstage hlines).2 hentry, State.page_onPage]
  · have kept : (((r.evictFrame old).copyFrame old pg.newFrame).moveRecords pg.part old pg.newFrame pg.oldLeaf).mem =
        Mem.copyFrom r.mem pg.newFrame r.mem old 65536 := moveRecords_mem _ _ _ _ hchk
    rw [(switchMove_switches hstage hlines).1 hentry]
    exact ⟨by rw [State.page_onPage], switched_mem hwf apart (congrArg (Mem.writeLE · at' 8 (newEntry pg).toNat) kept)⟩

end Sys2Proof.Claims

/-! Shoot-downs (R246, R450), settles and epochs (R254, R258), redirect notices (R252). -/

namespace Sys2Proof.Claims

open Machine

/-- What is forgotten stays so while a core's translations and lines only become fewer. -/
theorem forgotten_of_subset {t u : State} {p lo n : Nat} (h : forgotten t p lo n) (htlb : u.hw.tlb ⊆ t.hw.tlb)
    (hlines : u.hw.icache ⊆ t.hw.icache) : forgotten u p lo n :=
  ⟨fun x hx => h.1 x (htlb hx), fun x hx => h.2 x (hlines hx)⟩

/-- A shoot-down's core of the partition forgets the range (R246, R82). -/
theorem forgotten_shoot {s : State} {p : Nat} (h : s.ownsCluster p (s.coreNo / 16) = true) (lo n : Nat)
    (frames : List (Nat × Nat)) : forgotten (s.shoot p lo n frames) p lo n := by
  have hw : ∃ known, (s.shoot p lo n frames).hw = s.hw.shoot p lo n known := ⟨_, if_pos h⟩
  obtain ⟨known, hw⟩ := hw
  rw [forgotten, hw]
  refine ⟨fun x hx hp => ?_, fun x hx => ?_⟩
  · simp only [CoreHw.shoot, List.mem_filter, hp, beq_self_eq_true, Bool.true_and, Bool.not_eq_true', Bool.and_eq_false_iff,
      decide_eq_false_iff_not] at hx
    omega
  · simp only [CoreHw.shoot, List.mem_filter, Bool.and_eq_true, Bool.not_eq_true', Bool.and_eq_false_iff,
      decide_eq_false_iff_not] at hx
    omega

/-- Lines that are dropped leave a core's translations alone. -/
theorem forgotten_dropLines {s : State} {q lo n : Nat} (h : forgotten s q lo n) (p : Nat) (all : Bool) :
    forgotten (s.dropLines p all) q lo n := by
  have hw : (s.dropLines p all).hw.tlb = s.hw.tlb ∧ (s.dropLines p all).hw.icache ⊆ s.hw.icache := by
    simp only [State.dropLines]
    split
    · exact ⟨rfl, List.filter_subset_self _⟩
    · exact ⟨rfl, List.Subset.refl _⟩
  exact forgotten_of_subset h (fun _ hx => hw.1 ▸ hx) hw.2

/-- MIGRATION_SHOOTDOWN_DONE ends a move, once no loop holds a store that was translated there (R246, R253, R278). -/
theorem migrationShootdownDone_spec (s : State) :
    let at' := s.cmd.addr
    let pg := s.page at'
    let held := s.pagedHeld pg.part (pg.va.toNat / 65536 * 65536) 65536
    ((pg.stage ≠ .forwarding ∨ held = true) → exec .migrationShootdownDone s = .next s) ∧
    (pg.stage = .forwarding → held = false → ∃ t, exec .migrationShootdownDone s = .next t ∧ (t.page at').stage = .none ∧
      (s.ownsCluster pg.part (s.coreNo / 16) = true → forgotten t pg.part (pg.va.toNat / 65536 * 65536) 65536)) := by
  intro at' pg held
  refine ⟨fun h => congrArg Host.Outcome.next (if_pos h), fun hstage hheld => ⟨_, rfl, ?_⟩⟩
  have ends : ¬ (pg.stage ≠ .forwarding ∨ held = true) := by simp [hstage, hheld]
  have ended : s.endMove at' = ((s.shoot pg.part (pg.va.toNat / 65536 * 65536) 65536 [(leafFrame pg.oldLeaf, 65536)]).returnFrame
      pg.part (leafFrame pg.oldLeaf)).onPage at' fun q => { q with stage := .none } := if_neg ends
  rw [ended]
  refine ⟨by rw [State.page_onPage], fun howns => ?_⟩
  have forgot := forgotten_shoot howns (pg.va.toNat / 65536 * 65536) 65536 [(leafFrame pg.oldLeaf, 65536)]
  obtain ⟨m, hm⟩ := (s.shoot pg.part (pg.va.toNat / 65536 * 65536) 65536 [(leafFrame pg.oldLeaf, 65536)]).returnFrame_frame
    pg.part (leafFrame pg.oldLeaf)
  rw [hm]
  exact forgot

/-- SETTLE_END forgets the starts of a page's moves when their settle is over (R254). -/
theorem settleEnd_spec (s : State) :
    let at' := s.cmd.addr
    ∀ n, (s.page at').settle = some n →
      (s.cycle.toNat < n → exec .settleEnd s = .next s) ∧
      (n ≤ s.cycle.toNat → ∃ t, exec .settleEnd s = .next t ∧ (t.page at').settle = none ∧ (t.page at').history = [] ∧
        t.mem = s.mem) := by
  intro at' n hn
  have ended : ((s.page at').settle.isSome = true ∧ ¬ s.settled (s.page at') = true) ↔ n ≤ s.cycle.toNat := by
    simp [State.settled, hn]
  refine ⟨fun h => congrArg Host.Outcome.next (if_neg (mt ended.mp (Nat.not_le.mpr h))),
    fun h => ⟨_, congrArg Host.Outcome.next (if_pos (ended.mpr h)), ?_⟩⟩
  have page := s.page_onPage at' fun q => { q with settle := none, history := [] }
  exact ⟨congrArg Page.settle page, congrArg Page.history page, rfl⟩

/-- EPOCH_END restarts the counts of an epoch that has passed (R258). -/
theorem epochEnd_spec (s : State) :
    let past := s.cycle.toNat / 2 ^ Config.epochLog
    (s.mod.epochs < past → exec .epochEnd s = .next { s with
      pages := s.pages.map (fun e => (e.1, { e.2 with near := [] }))
      mod := { s.mod with epochs := past } }) ∧
    (past ≤ s.mod.epochs → exec .epochEnd s = .next s) :=
  ⟨fun h => congrArg Host.Outcome.next (if_pos h), fun h => congrArg Host.Outcome.next (if_neg (Nat.not_lt.mpr h))⟩

/-- FORWARDED_REQUEST of a page that has moved sends a redirect notice (R252). -/
theorem forwardedRequest_spec (s : State) :
    let at' := s.cmd.addr
    let pg := s.page at'
    (pg.stage = .forwarding → exec .forwardedRequest s = .next { s with inflight := s.inflight ++
      [(Instr.redirectNotice, { core := s.cmd.core, part := pg.part, addr := at', value := newEntry pg, tag := pg.oldLeaf })] }) ∧
    (pg.stage ≠ .forwarding → exec .forwardedRequest s = .next s) :=
  ⟨fun h => congrArg Host.Outcome.next (if_pos h), fun h => congrArg Host.Outcome.next (if_neg h)⟩

/-- Translations that are noted are all that changes (R82). -/
theorem noteTranslations_frame (l : List TlbEntry) (part : Nat) (leaf : Word) (s : State) :
    ∃ x, l.foldl (fun acc t => acc.noteTranslation part t.base t.size leaf) s = { s with translated := x } := by
  refine List.foldlRecOn (motive := fun u : State => ∃ x, u = { s with translated := x }) l _ ⟨s.translated, rfl⟩ ?_
  rintro _ ⟨x, rfl⟩ e _
  unfold State.noteTranslation
  dsimp only
  split
  · exact ⟨x, rfl⟩
  · exact ⟨_, rfl⟩

/-- REDIRECT_NOTICE replaces the translations of the entry that has been replaced (R252). -/
theorem redirectNotice_spec {s : State} (hc : s.cmd.core = s.coreNo) :
    ∃ u, exec .redirectNotice s = .next u ∧
      { u with translated := s.translated } = { s with hw := { s.hw with tlb := s.hw.tlb.map (fun t =>
        if t.leafAt = s.cmd.addr ∧ t.part = s.cmd.part ∧ t.leaf = s.cmd.tag then
          { t with leaf := s.cmd.value, checked := leafChk s.cmd.value && s.hasBlock (leafFrame s.cmd.value), refused := [] }
        else t) } } := by
  refine ⟨s.redirect s.cmd.part s.cmd.addr s.cmd.tag s.cmd.value, ?_, ?_⟩
  · change Host.Outcome.next (s.atCore s.cmd.core _) = _
    rw [hc, State.atCore_self]
  · unfold State.redirect
    dsimp only
    obtain ⟨x, hx⟩ := noteTranslations_frame (s.hw.tlb.filter fun t => t.leafAt = s.cmd.addr ∧ t.part = s.cmd.part ∧
      t.leaf = s.cmd.tag) s.cmd.part s.cmd.value s
    rw [hx]

/-- A number wrapped to a word is the word of that integer (R63). -/
theorem wordOf_eq_ofInt (v : Int) : wordOf v = BitVec.ofInt 64 v := by
  apply BitVec.eq_of_toNat_eq
  simp only [wordOf, wrap, BitVec.toNat_ofNat, BitVec.toNat_ofInt]
  omega

/-- The first address of a shoot-down in its canonical form: bit 56 of SDVA extends it (R450). -/
theorem shootAddress_eq (pt : Part) : pt.shootAddress = ((BitVec.ofNat 57 pt.sdStart.toNat).signExtend 64).toNat := by
  have signed : signExt pt.sdStart.toNat 57 = (BitVec.ofNat 57 pt.sdStart.toNat).toInt := by
    simp only [signExt, show (57 : Nat) ≠ 0 by decide, if_false, BitVec.toInt_eq_toNat_cond, BitVec.toNat_ofNat]
    split_ifs <;> omega
  rw [Part.shootAddress, wordOf_eq_ofInt, signed]
  rfl

/-- SHOOTDOWN written while it is not BUSY takes the range from SDVA (R450). -/
theorem shootdown_spec {s : State} (hp : s.cmd.part < 16) :
    let pt := s.parts.getD s.cmd.part {}
    (pt.shootdown.getLsbD 63 = true → exec .shootdown s = .next s) ∧
    (pt.shootdown.getLsbD 63 = false → ∃ t, exec .shootdown s = .next t ∧ t.mem = s.mem ∧ t.hw = s.hw ∧
      (t.parts.getD s.cmd.part {}).shootdown = BitVec.ofNat 64 (2 ^ 63 + bits s.cmd.value 0 32) ∧
      (t.parts.getD s.cmd.part {}).sdStart = pt.sdva) := by
  intro pt
  refine ⟨fun h => congrArg Host.Outcome.next (if_pos h), fun h => ?_⟩
  have idle : ¬ pt.shootdown.getLsbD 63 = true := Bool.eq_false_iff.mp h
  have taken := s.part_onPart hp fun q => { q with
    shootdown := BitVec.ofNat 64 (2 ^ 63 + bits s.cmd.value 0 32), sdStart := q.sdva }
  exact ⟨_, congrArg Host.Outcome.next (if_neg idle), rfl, rfl, congrArg Part.shootdown taken, congrArg Part.sdStart taken⟩

/-- SHOOTDOWN_COMPLETE, once no loop holds a store of the range and no STNT of it waits at a line (R246, R384). -/
theorem shootdownComplete_spec {s : State} (hp : s.cmd.part < 16) :
    let pt := s.parts.getD s.cmd.part {}
    let count := bits pt.shootdown 0 32
    let first := ((BitVec.ofNat 57 pt.sdStart.toNat).signExtend 64).toNat
    let held := s.pagedHeld s.cmd.part first (count * 65536) || s.ntWaits (HeldByte.paged first (count * 65536))
    ((pt.shootdown.getLsbD 63 = false ∨ held = true) →
      exec .shootdownComplete s = .next s) ∧
    (pt.shootdown.getLsbD 63 = true → held = false →
      ∃ t, exec .shootdownComplete s = .next t ∧ (t.parts.getD s.cmd.part {}).shootdown = BitVec.ofNat 64 count ∧
        t.walks = [] ∧
        (s.ownsCluster s.cmd.part (s.coreNo / 16) = true →
          forgotten t s.cmd.part first (count * 65536))) := by
  intro pt count first held
  have can : s.canShoot s.cmd.part = (pt.shootdown.getLsbD 63 && !held) := by
    change (pt.shootdown.getLsbD 63 && !(s.pagedHeld s.cmd.part pt.shootAddress (count * 65536)) &&
      !(s.ntWaits (HeldByte.paged pt.shootAddress (count * 65536)))) = _
    rw [shootAddress_eq, Bool.and_assoc, ← Bool.not_or]
  refine ⟨fun h => congrArg Host.Outcome.next (if_pos ?_), fun hbusy hheld => ⟨_, rfl, ?_⟩⟩
  · rw [can]
    rcases h with h | h <;> rw [h] <;> simp
  · have goesOn : ¬ ¬ s.canShoot s.cmd.part = true := by simp [can, hbusy, hheld]
    have done : s.endShootdown s.cmd.part = ((((s.drainEverywhere (HeldByte.paged pt.shootAddress (count * 65536))).shoot s.cmd.part
        pt.shootAddress (count * 65536) []).dropLines s.cmd.part (!(s.knowsRange s.cmd.part pt.shootAddress (count * 65536)))).onPart
        s.cmd.part fun q => { q with shootdown := BitVec.ofNat 64 count }) := if_neg goesOn
    rw [done, shootAddress_eq]
    have place := State.SamePlace.drainEverywhere s (HeldByte.paged first (count * 65536))
    refine ⟨congrArg Part.shootdown (State.part_onPart hp _ _), rfl, fun howns => ?_⟩
    have owns : (s.drainEverywhere (HeldByte.paged first (count * 65536))).ownsCluster s.cmd.part
        ((s.drainEverywhere (HeldByte.paged first (count * 65536))).coreNo / 16) = true := by
      rw [place.ownsCluster, place.coreNo, howns]
    exact forgotten_dropLines (forgotten_shoot owns first (count * 65536) []) _ _

/-- Settles O48: each event of a move and of a shoot-down in its own lemma. -/
theorem moveEvents : Obligations.MoveEvents := by
  unfold Obligations.MoveEvents
  refine ⟨fun s hc e at' level s1 hw ht => migrationRequest_spec hc hw ht, migrationDrained_spec, migrationStreamDone_spec,
    migrationShootdownDone_spec, fun s => ⟨settleEnd_spec s, epochEnd_spec s, (forwardedRequest_spec s).1,
      (forwardedRequest_spec s).2, fun hc => redirectNotice_spec hc⟩, fun s hp => ?_⟩
  obtain ⟨busy, taken⟩ := shootdown_spec hp
  obtain ⟨waits, done⟩ := shootdownComplete_spec hp
  exact ⟨busy, taken, waits, done⟩

end Sys2Proof.Claims

/-! Integer elements (R85, R86, R140): what the overflow rule writes, and what a source reads. Here and below, the vector
instructions on integer tensors (`Obligations.VectorIntegers`). -/

namespace Sys2Proof.Claims

open Machine

/-- The bits that an integer element holds after an exact result is written to it (R86, R173). -/
def elementBits (ty : BitVec 4) (sat : Bool) (r : Int) : Nat := (written ty sat r).toNat % 2 ^ width ty

theorem width_le (ty : BitVec 4) : width ty ≤ 64 := by
  unfold width
  calc 8 * 2 ^ (ty.toNat % 4) ≤ 8 * 2 ^ 3 := Nat.mul_le_mul_left 8 (Nat.pow_le_pow_right (by decide) (by omega))
    _ = 64 := rfl

theorem width_pos (ty : BitVec 4) : 0 < width ty := Nat.mul_pos (by decide) (Nat.two_pow_pos _)

theorem tyBytes_eq_size {ty : BitVec 4} : ty.toNat < 8 → tyBytes ty = size ty := by
  revert ty; decide

theorem size_mul_eq_width {ty : BitVec 4} : ty.toNat < 8 → 8 * size ty = width ty := by
  revert ty; decide

theorem pow_size {ty : BitVec 4} (h : ty.toNat < 8) : 256 ^ size ty = 2 ^ width ty := by
  rw [← size_mul_eq_width h, Nat.pow_mul]

theorem intMin_eq_least (ty : BitVec 4) : intMin ty = least ty := by
  simp [intMin, least, tySigned, tyBits, width]

theorem intMax_eq_greatest (ty : BitVec 4) : intMax ty = greatest ty := by
  simp [intMax, greatest, tySigned, tyBits, width]

theorem wrap_eq_toNat (z : Int) (n : Nat) : wrap z n = (BitVec.ofInt n z).toNat := (BitVec.toNat_ofInt z).symm

theorem setWidth_signExtend {w n : Nat} (x : BitVec w) (h : w ≤ n) : (x.signExtend n).setWidth w = x := by
  refine BitVec.eq_of_getLsbD_eq fun i hi => ?_
  rw [BitVec.getLsbD_setWidth, BitVec.getLsbD_signExtend]
  simp [hi, Nat.lt_of_lt_of_le hi h]

theorem signExt_toNat_eq_toInt {w n : Nat} (v : BitVec w) (h : 0 < n) : signExt v.toNat n = (v.setWidth n).toInt := by
  have half : (2 : Nat) ^ n = 2 * 2 ^ (n - 1) := by rw [← Nat.pow_succ', Nat.succ_eq_add_one, Nat.sub_add_cancel h]
  simp only [signExt, BitVec.toInt_eq_toNat_cond, BitVec.toNat_setWidth, if_neg (Nat.ne_of_gt h)]
  by_cases negative : 2 ^ (n - 1) ≤ v.toNat % 2 ^ n
  · rw [if_pos negative, if_neg (by omega)]
  · rw [if_neg negative, if_pos (by omega)]

/-- A source as its type reads it (R140). -/
theorem intSrc_eq_val (ty : BitVec 4) (v : Word) : intSrc (tySigned ty) v (tyBits ty) = val ty v := by
  simp only [intSrc, val, tySigned, decide_eq_true_eq]
  split
  · exact signExt_toNat_eq_toInt v (width_pos ty)
  · simp only [zval, BitVec.toNat_setWidth]; rfl

/-- The value that an exact result has after the overflow rule, before it is cut to the width (R86). -/
theorem elementBits_eq_wrap (ty : BitVec 4) (sat : Bool) (r : Int) :
    elementBits ty sat r = wrap (if sat then max (least ty) (min (greatest ty) r) else r) (width ty) := by
  have cut (x : Int) : (if ty.toNat < 4 then (BitVec.ofInt (width ty) x).signExtend 64
      else (BitVec.ofInt (width ty) x).setWidth 64).toNat % 2 ^ width ty = wrap x (width ty) := by
    rw [wrap_eq_toNat, ← BitVec.toNat_setWidth]
    split
    · rw [setWidth_signExtend _ (width_le ty)]
    · rw [BitVec.setWidth_setWidth_of_le _ (width_le ty), BitVec.setWidth_eq]
  exact cut _

theorem least_le_greatest (ty : BitVec 4) : least ty ≤ greatest ty := by
  have := Int.pow_pos (n := 2) (m := width ty) (by decide)
  have := Int.pow_pos (n := 2) (m := width ty - 1) (by decide)
  unfold least greatest
  split <;> omega

theorem overflowRule_bits (ty : BitVec 4) (sat : Bool) (r : Int) : (overflowRule ty sat r).1 = elementBits ty sat r := by
  have := least_le_greatest ty
  rw [elementBits_eq_wrap, overflowRule, intMin_eq_least, intMax_eq_greatest]
  cases sat with
  | false => rfl
  | true =>
    simp only [if_true]
    split
    · rw [max_eq_left (by omega)]; rfl
    · split
      · rw [min_eq_left (by omega), max_eq_right (by omega)]; rfl
      · rw [min_eq_right (by omega), max_eq_right (by omega)]; rfl

theorem overflowRule_flag (ty : BitVec 4) (sat : Bool) (r : Int) :
    (if (overflowRule ty sat r).2 then flagSATF else 0) = clampFlag ty sat r := by
  rw [overflowRule, intMin_eq_least, intMax_eq_greatest, clampFlag]
  cases sat with
  | false => simp
  | true =>
    by_cases low : r < least ty
    · simp [low, flagSATF]
    · by_cases high : greatest ty < r <;> simp [low, high, flagSATF]

theorem val_mem_range (ty : BitVec 4) (v : Word) : least ty ≤ val ty v ∧ val ty v ≤ greatest ty := by
  unfold val least greatest
  split
  · have lo := BitVec.le_toInt (v.setWidth (width ty))
    have hi := BitVec.toInt_lt (x := v.setWidth (width ty))
    exact ⟨lo, Int.le_sub_one_of_lt hi⟩
  · have hi := (v.setWidth (width ty)).isLt
    simp only [zval]
    have top : ((v.setWidth (width ty)).toNat : Int) < 2 ^ width ty := by exact_mod_cast hi
    omega

/-- A value of a type is neither clamped nor changed when an element of that type takes it. -/
theorem clampFlag_val (ty : BitVec 4) (sat : Bool) (v : Word) : clampFlag ty sat (val ty v) = 0 := by
  have := val_mem_range ty v
  exact if_neg (by omega)

theorem elementBits_val (ty : BitVec 4) (sat : Bool) (x : Nat) (h : x < 2 ^ width ty) :
    elementBits ty sat (val ty (BitVec.ofNat 64 x)) = x := by
  obtain ⟨lo, hi⟩ := val_mem_range ty (BitVec.ofNat 64 x)
  have kept : (BitVec.ofNat 64 x).setWidth (width ty) = BitVec.ofNat (width ty) x := by
    rw [BitVec.setWidth_ofNat_of_le (width_le ty)]
  rw [elementBits_eq_wrap, min_eq_right hi, max_eq_right lo, ite_self, wrap_eq_toNat]
  have back : BitVec.ofInt (width ty) (val ty (BitVec.ofNat 64 x)) = BitVec.ofNat (width ty) x := by
    unfold val sval zval
    rw [kept]
    split
    · exact BitVec.ofInt_toInt
    · rw [BitVec.ofInt_natCast, BitVec.ofNat_toNat, BitVec.setWidth_eq]
  rw [back, BitVec.toNat_ofNat, Nat.mod_eq_of_lt h]

end Sys2Proof.Claims

namespace Sys2Proof.Machine

/-! Reads of wide numbers, and of memory under bytes that a quantum has taken in (R299). -/

theorem Mem.readLE_lt (m : Mem) (a n : Nat) : Mem.readLE m a n < 256 ^ n := by
  induction n generalizing a with
  | zero => exact Nat.one_pos
  | succ n ih =>
    have hb := (Mem.get m a).isLt
    have hr := ih (a + 1)
    rw [Mem.readLE, Nat.pow_succ]
    omega

/-- A byte under taken ones depends on the byte below and on those taken from its own address. -/
theorem overlay_congr {m m' : Mem} {x : Nat} {keep : Nat × Byte → Bool} (hm : m.wf = true) (hm' : m'.wf = true)
    (h : Mem.get m x = Mem.get m' x) (bs : List (Nat × Byte)) (hkeep : ∀ b ∈ bs, b.1 = x → keep b = true) :
    Mem.get (overlay m (bs.filter keep)) x = Mem.get (overlay m' bs) x := by
  induction bs generalizing m m' with
  | nil => exact h
  | cons b bs ih =>
    have rest := fun c hc => hkeep c (List.mem_cons_of_mem b hc)
    by_cases hb : keep b = true
    · rw [List.filter_cons_of_pos hb]
      exact ih (Mem.wf_set hm _ _) (Mem.wf_set hm' _ _) (by rw [Mem.get_set hm, Mem.get_set hm', h]) rest
    · rw [List.filter_cons_of_neg hb]
      refine ih hm (Mem.wf_set hm' _ _) ?_ rest
      rw [Mem.get_set hm', if_neg fun hx => hb (hkeep b List.mem_cons_self hx.symm), h]

/-- What an entry's work has not written itself is read as its quantum has taken it in, and else as memory holds it (R168, R299). -/
theorem Entry.view_get {e : Entry} {i done : Nat} {s : State} {m : Mem} {x : Nat} (hs : s.k.localMem.wf = true) (hm : m.wf = true)
    (h : Mem.get s.k.localMem x = Mem.get m x) (hx : x ∉ e.written done) :
    Mem.get (e.view i done s).k.localMem x = Mem.get (overlay m (e.taken.getD i [])) x := by
  unfold Entry.view Entry.viewOf
  generalize e.taken.getD i [] = q
  cases q with
  | nil => exact h
  | cons b bs =>
    simp only [List.filter_true]
    refine overlay_congr hs hm h (b :: bs) fun c _ hc => ?_
    split
    · simp [hc, hx]
    · simp

end Sys2Proof.Machine

namespace Sys2Proof.Claims

open Machine

/-! Elements of tensors in shape and in bounds (R120, R122, R164, R165). -/

/-- An address outside a tensor's buffer. -/
def outside (t : Word512) (x : Nat) : Prop := x < tBase t ∨ tBase t + tExtent t ≤ x

theorem tWidth_eq_size {t : Word512} (h : (tFmt t).toNat < 8) : tWidth t = size (tFmt t) := tyBytes_eq_size h

theorem ne_bz8 {ty : BitVec 4} (h : ty.toNat < 8) : ty ≠ 13 := fun h13 => absurd (h13 ▸ h) (by decide)

theorem inShape_iff {t : Word512} {u : Tuple} :
    inShape t u = true ↔ u.i0 < tSize t 0 ∧ u.i1 < tSize t 1 ∧ u.i2 < tSize t 2 ∧ u.i3 < tSize t 3 := by
  simp only [inShape, Bool.and_eq_true, decide_eq_true_eq, and_assoc]

/-- The tuple of every element is in shape. -/
theorem inShape_tupleOf {t : Word512} {m : Nat} (h : m < tCount t) : inShape t (tupleOf t m) = true := by
  have pos : 0 < tCount t := by omega
  unfold tCount at h pos
  have s0 : 0 < tSize t 0 := Nat.pos_of_ne_zero fun h0 => by simp [h0] at pos
  have s1 : 0 < tSize t 1 := Nat.pos_of_ne_zero fun h0 => by simp [h0] at pos
  have s2 : 0 < tSize t 2 := Nat.pos_of_ne_zero fun h0 => by simp [h0] at pos
  refine inShape_iff.2 ⟨Nat.mod_lt _ s0, Nat.mod_lt _ s1, Nat.mod_lt _ s2, ?_⟩
  show m / tSize t 0 / tSize t 1 / tSize t 2 < _
  rw [Nat.div_div_eq_div_mul, Nat.div_div_eq_div_mul]
  exact Nat.div_lt_of_lt_mul (Nat.mul_assoc .. ▸ h)

/-- Every tuple in shape is the tuple of an element. -/
theorem exists_tupleOf {t : Word512} {u : Tuple} (h : inShape t u = true) : ∃ m, m < tCount t ∧ tupleOf t m = u := by
  obtain ⟨h0, h1, h2, h3⟩ := inShape_iff.1 h
  refine ⟨u.i0 + tSize t 0 * (u.i1 + tSize t 1 * (u.i2 + tSize t 2 * u.i3)), ?_, ?_⟩
  · have below {i n j k : Nat} (hi : i < n) (hj : j < k) : i + n * j < n * k := by
      calc i + n * j < n * (j + 1) := by rw [Nat.mul_succ]; omega
        _ ≤ n * k := Nat.mul_le_mul_left n hj
    simpa [tCount, Nat.mul_assoc] using below h0 (below h1 (below h2 h3))
  · have quot {i n : Nat} (j : Nat) (hi : i < n) : (i + n * j) / n = j := by
      rw [Nat.add_mul_div_left _ _ (by omega), Nat.div_eq_of_lt hi, Nat.zero_add]
    have rem {i n : Nat} (j : Nat) (hi : i < n) : (i + n * j) % n = i := by
      rw [Nat.add_mul_mod_self_left, Nat.mod_eq_of_lt hi]
    simp only [tupleOf, quot _ h0, quot _ h1, quot _ h2, rem _ h0, rem _ h1, rem _ h2]

/-- A source that fits a shape is read in its own shape (R165). -/
theorem inShape_bcast {d t : Word512} {u : Tuple} (hfit : fitsShape d t = true) (hu : inShape d u = true) :
    inShape t (bcast t u) = true := by
  simp only [fitsShape, upFrom, List.all_cons, List.all_nil, Bool.and_eq_true, Bool.or_eq_true, beq_iff_eq, Bool.and_true] at hfit
  have dim {n i k : Nat} (hk : i < k) (hn : n = k ∨ n = 1) : (if n = 1 then 0 else i) < n := by split <;> omega
  obtain ⟨u0, u1, u2, u3⟩ := inShape_iff.1 hu
  obtain ⟨f0, f1, f2, f3⟩ := hfit
  exact inShape_iff.2 ⟨dim u0 f0, dim u1 f1, dim u2 f2, dim u3 f3⟩

theorem elemIn_of_inShape {t : Word512} {u : Tuple} (hb : inBounds t) (hu : inShape t u = true) : elemIn t u = true := by
  obtain ⟨m, hm, rfl⟩ := exists_tupleOf hu
  exact hb m hm

/-- The bytes of an element in bounds are bytes of the buffer. -/
theorem elemAddr_in_buffer {t : Word512} {u : Tuple} (h : elemIn t u = true) :
    0 ≤ elemAddr t u ∧ tBase t ≤ (elemAddr t u).toNat ∧ (elemAddr t u).toNat + tWidth t ≤ tBase t + tExtent t := by
  simp only [elemIn, inBuf, Bool.and_eq_true, decide_eq_true_eq] at h
  omega

theorem boundsFaults_none {ts : List Word512} (h : ∀ t ∈ ts, inBounds t) : boundsFaults ts = none := by
  induction ts with
  | nil => rfl
  | cons t ts ih =>
    have all : (upFrom 0 (tCount t)).find? (fun m => !(elemIn t (tupleOf t m))) = none := by
      refine List.find?_eq_none.2 fun m hm => ?_
      have := h t List.mem_cons_self m (by have := (mem_upFrom.1 hm).2; omega)
      simp [this]
    have noFault : boundsFault t = none := by simp [boundsFault, all]
    rw [boundsFaults, noFault, ih fun x hx => h x (List.mem_cons_of_mem t hx)]
    rfl

end Sys2Proof.Claims

namespace Sys2Proof.Claims

open Machine

/-! An element-wise entry on integer tensors (R165, R168, R173): what is asked of its tensors, and the exact result of an element. -/

/-- What `Obligations.VectorIntegers` asks of an entry's tensors: integer formats, elements in bounds, a destination whose elements
share no byte with each other or with a source, and the formats that R175 has alike. -/
structure IntegerTensors (e : Entry) (f : G64) (ids : List (BitVec 6)) : Prop where
  format : (tFmt (e.ten f.d)).toNat < 8
  bounds : inBounds (e.ten f.d)
  separate : noOverlap (e.ten f.d)
  sources : ∀ id ∈ ids, (tFmt (e.ten id)).toNat < 8 ∧ inBounds (e.ten id) ∧ fitsShape (e.ten f.d) (e.ten id) = true ∧
    apart (e.ten f.d) (e.ten id)
  same : ∀ id ∈ sameFormat e.instr, tFmt (e.ten id) = tFmt (e.ten f.d)

/-- The exact result of element number `m` of the destination. -/
def exactAt (s : State) (e : Entry) (f : G64) (fn : Int → Int → Int → Nat → Word → Int) (m : Nat) : Int :=
  let u := tupleOf (e.ten f.d) m
  fn (source s e f.a m u) (source s e f.b m u) (source s e f.c m u) m e.x

/-- The bits that element number `m` takes, and the flag that its clamping sets. -/
abbrev bitsAt (s : State) (e : Entry) (f : G64) (fn : Int → Int → Int → Nat → Word → Int) (m : Nat) : Nat :=
  elementBits (tFmt (e.ten f.d)) f.sat (exactAt s e f fn m)
abbrev flagAt (s : State) (e : Entry) (f : G64) (fn : Int → Int → Int → Nat → Word → Int) (m : Nat) : Word :=
  clampFlag (tFmt (e.ten f.d)) f.sat (exactAt s e f fn m)

/-- A state whose local memory, outside the destination, is as the entry reads its element number `m`. -/
def readsAs (s : State) (e : Entry) (f : G64) (m : Nat) (v : State) : Prop :=
  ∀ x, outside (e.ten f.d) x → Mem.get v.k.localMem x = Mem.get (entryMem s e m) x

/-- What an instruction forms for an element delivers an exact integer result, wrapped or clamped (R86, R173). -/
def delivers (o : Out) (ty : BitVec 4) (mode : BitVec 3) (sat : Bool) (r : Int) : Prop :=
  ∀ u, o.encode ty mode sat u = (elementBits ty sat r, u.raise (clampFlag ty sat r))

/-- An element function computes the exact results, from any such state, and takes no word of the generator. -/
def computes (s : State) (e : Entry) (f : G64) (fn : Int → Int → Int → Nat → Word → Int) (op : ElemFn) : Prop :=
  ∀ m, m < tCount (e.ten f.d) → ∀ v, readsAs s e f m v → ∀ u, (op v (tupleOf (e.ten f.d) m) m u).2 = u ∧
    delivers (op v (tupleOf (e.ten f.d) m) m u).1 (tFmt (e.ten f.d)) f.md f.sat (exactAt s e f fn m)

theorem raise_zero (u : Fpu) : u.raise 0 = u := by simp [Fpu.raise]

theorem isFloat_false {ty : BitVec 4} (h : ty.toNat < 8) : isFloat ty = false := by simp [isFloat, h]

theorem delivers_int {ty : BitVec 4} (h : ty.toNat < 8) (mode : BitVec 3) (sat : Bool) (r : Int) :
    delivers (.num (.int r)) ty mode sat r := by
  intro u
  simp only [Out.encode, isFloat_false h, overflowRule_bits, overflowRule_flag, Bool.false_eq_true, if_false]

theorem delivers_raw {ty : BitVec 4} {x : Nat} (h : x < 2 ^ width ty) (delta : Nat) (mode : BitVec 3) (sat : Bool) :
    delivers (.raw x delta) ty mode sat (val ty (BitVec.ofNat 64 x)) := by
  intro u
  rw [elementBits_val ty sat x h, clampFlag_val, raise_zero]
  rfl

theorem numOf_int {ty : BitVec 4} (h : ty.toNat < 8) (scale : Int) (flush : Bool) (x : Nat) :
    numOf ty scale flush x = .int (val ty (BitVec.ofNat 64 x)) := by
  simp only [numOf, isFloat_false h, intSrc_eq_val, Bool.false_eq_true, if_false]

section
variable {s : State} {e : Entry} {f : G64} {ids : List (BitVec 6)}

theorem source_element_in {id : BitVec 6} {m : Nat} (ht : IntegerTensors e f ids) (hid : id ∈ ids)
    (hm : m < tCount (e.ten f.d)) : elemIn (e.ten id) (bcast (e.ten id) (tupleOf (e.ten f.d) m)) = true := by
  obtain ⟨-, hb, hfit, -⟩ := ht.sources id hid
  exact elemIn_of_inShape hb (inShape_bcast hfit (inShape_tupleOf hm))

/-- The bits of a source element, as a state reads them that is as the entry reads that element. -/
theorem elemRaw_of_readsAs {id : BitVec 6} {m : Nat} {v : State} (ht : IntegerTensors e f ids) (hid : id ∈ ids)
    (hm : m < tCount (e.ten f.d)) (hv : readsAs s e f m v) :
    v.elemRaw (e.ten id) (bcast (e.ten id) (tupleOf (e.ten f.d) m)) =
      Mem.readLE (entryMem s e m) (elemAddr (e.ten id) (bcast (e.ten id) (tupleOf (e.ten f.d) m))).toNat
        (size (tFmt (e.ten id))) := by
  obtain ⟨hf, -, -, hapart⟩ := ht.sources id hid
  have hin := source_element_in ht hid hm
  obtain ⟨-, lo, hi⟩ := elemAddr_in_buffer hin
  rw [State.elemRaw, if_pos hin, tWidth_eq_size hf]
  rw [tWidth_eq_size hf] at hi
  refine Mem.readLE_congr fun i hi' => hv _ ?_
  unfold apart at hapart
  unfold outside
  omega

theorem src_of_readsAs {id : BitVec 6} {m : Nat} {v : State} (ht : IntegerTensors e f ids) (hid : id ∈ ids)
    (hm : m < tCount (e.ten f.d)) (hv : readsAs s e f m v) :
    e.src id v (tupleOf (e.ten f.d) m) = .int (source s e id m (tupleOf (e.ten f.d) m)) := by
  rw [Entry.src, State.elemNum, numOf_int (ht.sources id hid).1, elemRaw_of_readsAs ht hid hm hv]
  rfl

/-- A source of the destination's format passes on its bits (R175). -/
theorem delivers_rawSrc {id : BitVec 6} {m : Nat} {v : State} (ht : IntegerTensors e f ids) (hid : id ∈ ids)
    (hm : m < tCount (e.ten f.d)) (hv : readsAs s e f m v) (hsame : tFmt (e.ten id) = tFmt (e.ten f.d))
    (mode : BitVec 3) (sat : Bool) :
    delivers (e.rawSrc id v (tupleOf (e.ten f.d) m)) (tFmt (e.ten f.d)) mode sat
      (source s e id m (tupleOf (e.ten f.d) m)) := by
  have bound := Mem.readLE_lt (entryMem s e m) (elemAddr (e.ten id) (bcast (e.ten id) (tupleOf (e.ten f.d) m))).toNat
    (size (tFmt (e.ten id)))
  rw [pow_size (ht.sources id hid).1] at bound
  rw [Entry.rawSrc, elemRaw_of_readsAs ht hid hm hv, ← hsame]
  exact delivers_raw bound _ mode sat

/-! Element functions of one, two and three operands. -/

variable {fn : Int → Int → Int → Nat → Word → Int}

theorem computes_fn1 {op : Machine.Num → Machine.Num × Word} {g : Int → Int} (ht : IntegerTensors e f ids) (ha : f.a ∈ ids)
    (hop : ∀ x, op (.int x) = (.int (g x), 0)) : computes s e f (fun x _ _ _ _ => g x) (e.fn1 f op) := by
  intro m hm v hv u
  simp only [Entry.fn1, src_of_readsAs ht ha hm hv, hop, raise_zero, true_and]
  exact delivers_int ht.format _ _ _

theorem computes_fn2 {op : Machine.Num → Machine.Num → Machine.Num × Word} {g : Int → Int → Int}
    (ht : IntegerTensors e f ids) (ha : f.a ∈ ids) (hb : f.b ∈ ids) (hop : ∀ x y, op (.int x) (.int y) = (.int (g x y), 0)) :
    computes s e f (fun x y _ _ _ => g x y) (e.fn2 f op) := by
  intro m hm v hv u
  simp only [Entry.fn2, src_of_readsAs ht ha hm hv, src_of_readsAs ht hb hm hv, hop, raise_zero, true_and]
  exact delivers_int ht.format _ _ _

theorem computes_fn3 {op : Machine.Num → Machine.Num → Machine.Num → Machine.Num × Word} {g : Int → Int → Int → Int}
    (ht : IntegerTensors e f ids) (ha : f.a ∈ ids) (hb : f.b ∈ ids) (hc : f.c ∈ ids)
    (hop : ∀ x y z, op (.int x) (.int y) (.int z) = (.int (g x y z), 0)) :
    computes s e f (fun x y z _ _ => g x y z) (e.fn3 f op) := by
  intro m hm v hv u
  simp only [Entry.fn3, src_of_readsAs ht ha hm hv, src_of_readsAs ht hb hm hv, src_of_readsAs ht hc hm hv, hop, raise_zero,
    true_and]
  exact delivers_int ht.format _ _ _

theorem computes_signFn {op : Machine.Num → Machine.Num} {g : Int → Int} (ht : IntegerTensors e f ids) (ha : f.a ∈ ids)
    (hop : ∀ x, op (.int x) = .int (g x)) (clear : Bool) :
    computes s e f (fun x _ _ _ _ => g x) (e.signFn f clear op) := by
  have integer : e.signFn f clear op = e.fn1 f (fun a => Machine.plain (op a)) := by
    funext v t m u
    simp [Entry.signFn, isFloat_false ht.format]
  rw [integer]
  exact computes_fn1 ht ha fun x => by rw [hop]; rfl

theorem isWidening_false {src dst : BitVec 4} : dst.toNat < 8 → isWidening src dst = false := by
  revert src dst; decide

theorem computes_cvtFn (ht : IntegerTensors e f ids) (ha : f.a ∈ ids) :
    computes s e f (fun x _ _ _ _ => x) (e.cvtFn f) := by
  intro m hm v hv u
  simp only [Entry.cvtFn, isWidening_false ht.format, Bool.false_eq_true, if_false, State.elemNum, numOf_int (ht.sources _ ha).1,
    elemRaw_of_readsAs ht ha hm hv, true_and]
  exact delivers_int ht.format _ _ _

theorem computes_copy (ht : IntegerTensors e f ids) (ha : f.a ∈ ids) (hsame : tFmt (e.ten f.a) = tFmt (e.ten f.d)) :
    computes s e f (fun x _ _ _ _ => x) (fun v t _ u => (e.rawSrc f.a v t, u)) :=
  fun _ hm _ hv _ => ⟨rfl, delivers_rawSrc ht ha hm hv hsame _ _⟩

theorem computes_select (ht : IntegerTensors e f ids) (ha : f.a ∈ ids) (hb : f.b ∈ ids) (hc : f.c ∈ ids)
    (sameA : tFmt (e.ten f.a) = tFmt (e.ten f.d)) (sameB : tFmt (e.ten f.b) = tFmt (e.ten f.d)) :
    computes s e f (fun x y z _ _ => if z = 0 then y else x)
      (fun v t _ u => (if (e.src f.c v t).toInt = 0 then e.rawSrc f.b v t else e.rawSrc f.a v t, u)) := by
  intro m hm v hv u
  refine ⟨rfl, ?_⟩
  simp only [src_of_readsAs ht hc hm hv, Num.toInt, exactAt]
  split
  · exact delivers_rawSrc ht hb hm hv sameB _ _
  · exact delivers_rawSrc ht ha hm hv sameA _ _

theorem computes_index (ht : IntegerTensors e f ids) :
    computes s e f (fun _ _ _ m b => b.toInt + m) (fun _ _ m u => (.num (.int (signExt e.x.toNat 64 + m)), u)) := by
  intro m _ v _ u
  rw [signExt_toNat_eq_toInt e.x (by decide), BitVec.setWidth_eq]
  exact ⟨rfl, delivers_int ht.format _ _ _⟩

end

/-! The operations on integers (R173, R180, R181). -/

theorem numAbs_int (x : Int) : numAbs (.int x) = .int (if x < 0 then -x else x) := by
  rw [numAbs]
  congr 1
  split <;> omega

theorem numHolds_int (c : Nat) (x y : Int) : numHolds c (.int x) (.int y) = compareInts c x y := by
  match c with
  | 0 | 2 | 3 | 4 | 5 | 6 => rfl
  | 1 => exact Bool.eq_iff_iff.2 (by simp [numHolds, compareInts])
  | n + 7 => rfl

theorem numHolds_toNat (c : Nat) (x y : Int) :
    ((numHolds c (.int x) (.int y)).toNat : Int) = if compareInts c x y then 1 else 0 := by
  rw [numHolds_int]
  cases compareInts c x y <;> rfl

theorem numShift_int (y : Int) : numShift (.int y) = (max 0 (min y 64)).toNat := by
  simp only [numShift, Num.toInt]
  omega

theorem numShl_int (x y : Int) : numShl (.int x) (.int y) = .int (x * 2 ^ (max 0 (min y 64)).toNat) := by
  rw [numShl, numShift_int]
  simp [Num.toInt]

theorem numShr_int (x y : Int) : numShr (.int x) (.int y) = .int (x / 2 ^ (max 0 (min y 64)).toNat) := by
  rw [numShr, numShift_int]
  simp [Num.toInt]

/-- Each instruction's work goes through the destination with an element function that computes its exact results. -/
theorem vectorWork_lanewise {e : Entry} {f : G64} {ids : List (BitVec 6)} {fn : Int → Int → Int → Nat → Word → Int}
    (h : lanewise e.instr = some (f, ids, fn)) (ht : IntegerTensors e f ids) (s : State) :
    ∃ op, s.vectorWork e = s.elementwise e f (f.d :: ids) op ∧ computes s e f fn op := by
  have hsame := ht.same
  unfold lanewise at h
  split at h <;> rename_i hi <;> cases h <;> simp only [State.vectorWork, hi] <;> simp only [sameFormat, hi] at hsame
  · -- VADD
    exact ⟨_, rfl, computes_fn2 ht (by simp) (by simp) fun _ _ => rfl⟩
  · -- VSUB
    exact ⟨_, rfl, computes_fn2 ht (by simp) (by simp) fun _ _ => rfl⟩
  · -- VMUL
    exact ⟨_, rfl, computes_fn2 ht (by simp) (by simp) fun _ _ => rfl⟩
  · -- VFMA
    exact ⟨_, rfl, computes_fn3 ht (by simp) (by simp) (by simp) fun _ _ _ => rfl⟩
  · -- VMIN
    exact ⟨_, rfl, computes_fn2 ht (by simp) (by simp) fun _ _ => rfl⟩
  · -- VMAX
    exact ⟨_, rfl, computes_fn2 ht (by simp) (by simp) fun _ _ => rfl⟩
  · -- VCLAMP
    exact ⟨_, rfl, computes_fn3 ht (by simp) (by simp) (by simp) fun _ _ _ => rfl⟩
  · -- VABS
    exact ⟨_, rfl, computes_signFn ht (by simp) numAbs_int _⟩
  · -- VNEG
    exact ⟨_, rfl, computes_signFn ht (by simp) (fun _ => rfl) _⟩
  · -- VCVT
    exact ⟨_, rfl, computes_cvtFn ht (by simp)⟩
  · -- VCPY
    exact ⟨_, rfl, computes_copy ht (by simp) (hsame _ (by simp))⟩
  · -- VCMP
    exact ⟨_, rfl, computes_fn2 ht (by simp) (by simp) fun x y => by rw [← numHolds_toNat]; rfl⟩
  · -- VSEL
    exact ⟨_, rfl, computes_select ht (by simp) (by simp) (by simp) (hsame _ (by simp)) (hsame _ (by simp))⟩
  · -- VAND
    exact ⟨_, rfl, computes_fn2 ht (by simp) (by simp) fun _ _ => rfl⟩
  · -- VOR
    exact ⟨_, rfl, computes_fn2 ht (by simp) (by simp) fun _ _ => rfl⟩
  · -- VXOR
    exact ⟨_, rfl, computes_fn2 ht (by simp) (by simp) fun _ _ => rfl⟩
  · -- VSHL
    exact ⟨_, rfl, computes_fn2 ht (by simp) (by simp) fun x y => by rw [numShl_int]; rfl⟩
  · -- VSHR
    exact ⟨_, rfl, computes_fn2 ht (by simp) (by simp) fun x y => by rw [numShr_int]; rfl⟩
  · -- VIOTA
    exact ⟨_, rfl, computes_index ht⟩

end Sys2Proof.Claims

namespace Sys2Proof.Claims

open Machine

/-! The instructions of `lanewise`: one resource, no product, one destination, and one quantum for each pass (R168, R171, R292). -/

section
variable {e : Entry} {f : G64} {ids : List (BitVec 6)} {fn : Int → Int → Int → Nat → Word → Int}

/-- Lanes of a pass of an element-wise entry: those of the widest tensor that it has captured (R168). -/
def passLanes (e : Entry) : Nat := lanesOf (e.tens.map (fun t => t.2))

theorem passLanes_pos (e : Entry) : 0 < passLanes e := by
  have bytes (t : Word512) : tWidth t ≤ 8 := by
    unfold tWidth tyBytes
    split <;> decide
  have widest (ts : List Word512) (w : Nat) (hw : 0 < w ∧ w ≤ 8) : 0 < ts.foldl (fun w t => max w (tWidth t)) w ∧
      ts.foldl (fun w t => max w (tWidth t)) w ≤ 8 := by
    induction ts generalizing w with
    | nil => exact hw
    | cons t ts ih => exact ih (max w (tWidth t)) (by have := bytes t; omega)
  obtain ⟨pos, le⟩ := widest (e.tens.map (fun t => t.2)) 1 (by decide)
  exact Nat.div_pos (by omega) pos

/-- What the instructions of `lanewise` have in common as entries of the dispatch queue. -/
structure LanewiseEntry (e : Entry) (f : G64) : Prop where
  resource : resourceOf e.instr = 1
  undecided : hasDecision e.instr = false
  noProduct : e.product = none
  work : ∀ s : State, s.entryWork e = s.vectorWork e
  cycleOf : ∀ m, e.cycleOf m = m / passLanes e * e.passCycles
  written : ∀ done, e.written done = (upFrom 0 done).flatMap (fun m => writtenBytes (e.ten f.d) (tupleOf (e.ten f.d) m))

theorem lanewise_entry (h : lanewise e.instr = some (f, ids, fn)) : LanewiseEntry e f := by
  unfold lanewise at h
  split at h <;> rename_i hi <;> cases h <;> exact
    { resource := by rw [hi]; rfl
      undecided := by rw [hi]; rfl
      noProduct := by simp only [Entry.product, hi]
      work := fun s => by simp only [State.entryWork, hi]; rfl
      cycleOf := fun m => by simp only [Entry.cycleOf, hi]; rfl
      written := fun done => by simp [Entry.written, hi, tensorDest] }

/-- An integer element's write changes bytes of its buffer only. -/
theorem not_outside_of_mem_writtenBytes {t : Word512} {u : Tuple} {x : Nat} (hf : (tFmt t).toNat < 8)
    (h : x ∈ writtenBytes t u) : ¬ outside t x := by
  simp only [writtenBytes, if_neg (ne_bz8 hf), List.append_nil] at h
  split at h
  · have := mem_upFrom.1 h
    have := elemAddr_in_buffer ‹_›
    unfold outside
    omega
  · cases h

theorem not_mem_written {x : Nat} (h : lanewise e.instr = some (f, ids, fn)) (ht : IntegerTensors e f ids)
    (hx : outside (e.ten f.d) x) (done : Nat) : x ∉ e.written done := by
  rw [(lanewise_entry h).written, List.mem_flatMap]
  rintro ⟨m, -, hm⟩
  exact not_outside_of_mem_writtenBytes ht.format hm hx

theorem quantumOf_pass (h : lanewise e.instr = some (f, ids, fn)) {q m : Nat}
    (hm : q * passLanes e ≤ m ∧ m < (q + 1) * passLanes e) :
    e.quantumOf m = e.quantumOf (q * passLanes e) := by
  have pos := passLanes_pos e
  have same : m / passLanes e = q := Nat.div_eq_of_lt_le hm.1 hm.2
  rw [Entry.quantumOf, Entry.quantumOf, (lanewise_entry h).cycleOf, (lanewise_entry h).cycleOf, same, Nat.mul_div_cancel _ pos]

end

/-! The walk through the destination: what stands once its first elements have been delivered (R168). -/

/-- What an element-wise entry's writes have done once the first `k` elements of its destination are delivered. -/
structure Delivered (s : State) (e : Entry) (f : G64) (fn : Int → Int → Int → Nat → Word → Int) (k : Nat) (a : Acc) : Prop where
  state : a.s = { s with k := { s.k with localMem := a.s.k.localMem } }
  wf : a.s.k.localMem.wf = true
  seed : a.e.seed = s.control.srseed
  apart : ∀ x, outside (e.ten f.d) x → Mem.get a.s.k.localMem x = Mem.get s.k.localMem x
  elements : ∀ m, m < k → Mem.readLE a.s.k.localMem (elemAddr (e.ten f.d) (tupleOf (e.ten f.d) m)).toNat (size (tFmt (e.ten f.d))) =
    bitsAt s e f fn m
  flags : (a.e.flags = 0 ∧ ∀ m, m < k → flagAt s e f fn m = 0) ∨
    (a.e.flags = 0x40 ∧ ∃ m, m < k ∧ flagAt s e f fn m ≠ 0)
  zero : a.zero = true ↔ ∀ m, m < k → bitsAt s e f fn m = 0
  kept : a.dropped = false

section
variable {s : State} {e : Entry} {f : G64} {ids : List (BitVec 6)} {fn : Int → Int → Int → Nat → Word → Int}

theorem Delivered.start (hwf : s.k.localMem.wf = true) : Delivered s e f fn 0 s.acc where
  state := rfl
  wf := hwf
  seed := rfl
  apart _ _ := rfl
  elements _ h := absurd h (Nat.not_lt_zero _)
  flags := .inl ⟨rfl, fun _ h => absurd h (Nat.not_lt_zero _)⟩
  zero := ⟨fun _ _ h => absurd h (Nat.not_lt_zero _), fun _ => rfl⟩
  kept := rfl

theorem flagAt_cases (m : Nat) : flagAt s e f fn m = 0 ∨ flagAt s e f fn m = 0x40 := by
  unfold flagAt clampFlag
  split
  · exact .inr rfl
  · exact .inl rfl

theorem Delivered.next {k : Nat} {a : Acc} (h : Delivered s e f fn k a) (ht : IntegerTensors e f ids)
    (hk : k < tCount (e.ten f.d)) :
    Delivered s e f fn (k + 1) (Acc.put { a with e := a.e.raise (flagAt s e f fn k) } (e.ten f.d)
      (tupleOf (e.ten f.d) k) (bitsAt s e f fn k)) := by
  have hin : elemIn (e.ten f.d) (tupleOf (e.ten f.d) k) = true := ht.bounds k hk
  have hwidth := tWidth_eq_size ht.format
  obtain ⟨pos, lo, hi⟩ := elemAddr_in_buffer hin
  rw [Acc.put, if_pos hin]
  have upTo {p : Nat → Prop} : (∀ m, m < k + 1 → p m) ↔ (∀ m, m < k → p m) ∧ p k :=
    Nat.forall_lt_succ_right
  refine
    { state := ?_, wf := Mem.wf_writeLE h.wf _ _ _, seed := h.seed, apart := fun x hx => ?_, elements := upTo.2 ⟨fun m hm => ?_, ?_⟩,
      flags := ?_, zero := ?_, kept := h.kept }
  · rw [h.state]
  · rw [← h.apart x hx]
    exact Mem.get_writeLE_other h.wf _ _ _ _ (by unfold outside at hx; omega)
  · rw [← h.elements m hm]
    have apart := ht.separate m k (by omega) hk (by omega)
    obtain ⟨posm, -, -⟩ := elemAddr_in_buffer (ht.bounds m (by omega))
    exact Mem.readLE_congr fun i hi' => Mem.get_writeLE_other h.wf _ _ _ _ (by omega)
  · show Mem.readLE (Mem.writeLE _ _ (tWidth _) _) _ _ = _
    rw [hwidth, Mem.readLE_writeLE h.wf, pow_size ht.format]
    exact Nat.mod_mod _ _
  · rcases h.flags with ⟨hf, unclamped⟩ | ⟨hf, m, hm, clamped⟩
    · rcases flagAt_cases (s := s) (e := e) (f := f) (fn := fn) k with hc | hc
      · exact .inl ⟨by simp [Fpu.raise, hf, hc], upTo.2 ⟨unclamped, hc⟩⟩
      · exact .inr ⟨by simp [Fpu.raise, hf, hc], k, by omega, by rw [hc]; decide⟩
    · refine .inr ⟨?_, m, by omega, clamped⟩
      rcases flagAt_cases (s := s) (e := e) (f := f) (fn := fn) k with hc | hc <;> simp [Fpu.raise, hf, hc]
  · rw [upTo, ← h.zero]
    simp only [zeroBits, isFloat_false ht.format, Bool.and_eq_true, Bool.false_eq_true, if_false, beq_iff_eq]

end

end Sys2Proof.Claims

namespace Sys2Proof.Claims

open Machine

/-! The passes of a walk, and the work of an entry that no bound faults (R168, R169). -/

section
variable {s : State} {e : Entry} {f : G64} {ids : List (BitVec 6)} {fn : Int → Int → Int → Nat → Word → Int} {op : ElemFn}

/-- The writes of one pass: its elements, delivered one after another. -/
theorem Delivered.write {o : Nat → Out} (ht : IntegerTensors e f ids) {n lo : Nat} {a : Acc} (h : Delivered s e f fn lo a)
    (hle : lo + n ≤ tCount (e.ten f.d))
    (ho : ∀ m, lo ≤ m → m < lo + n → delivers (o m) (tFmt (e.ten f.d)) f.md f.sat (exactAt s e f fn m)) :
    Delivered s e f fn (lo + n)
      (a.write (e.ten f.d) f.md f.sat ((upFrom lo n).map fun m => (tupleOf (e.ten f.d) m, o m))) := by
  rw [Acc.write, if_neg (ne_bz8 ht.format)]
  induction n generalizing lo a with
  | zero => exact h
  | succ n ih =>
    have first := h.next ht (by omega)
    simp only [upFrom, List.map_cons, List.foldl_cons]
    rw [ho lo (by omega) (by omega), show lo + (n + 1) = lo + 1 + n by omega]
    exact ih first (by omega) fun m hm hm' => ho m (by omega) (by omega)

/-- The reads of one pass, of an element function that takes no word of the generator. -/
theorem foldl_reads {d : Word512} {v : State} {u : Fpu} (ms : List Nat) (hop : ∀ m ∈ ms, (op v (tupleOf d m) m u).2 = u)
    (read : List (Tuple × Out)) :
    ms.foldl (fun (acc : List (Tuple × Out) × Fpu) m =>
      ((tupleOf d m, (op v (tupleOf d m) m acc.2).1) :: acc.1, (op v (tupleOf d m) m acc.2).2)) (read, u) =
    ((ms.map fun m => (tupleOf d m, (op v (tupleOf d m) m u).1)).reverse ++ read, u) := by
  induction ms generalizing read with
  | nil => rfl
  | cons m ms ih =>
    rw [List.foldl_cons, hop m List.mem_cons_self, ih fun x hx => hop x (List.mem_cons_of_mem m hx)]
    simp

theorem openBlock_zero {d : Word512} (hd : (tFmt d).toNat < 8) (os : List (Tuple × Out)) : openBlock d os = 0 := by
  unfold openBlock
  split
  · exact if_pos (.inl (ne_bz8 hd))
  · rfl

/-- The state that a pass reads is, outside the destination, as the entry reads each element of the pass. -/
theorem Delivered.readsAs_view (hl : lanewise e.instr = some (f, ids, fn)) (ht : IntegerTensors e f ids)
    (hwf : s.k.localMem.wf = true) {k : Nat} {a : Acc} (h : Delivered s e f fn k a) {q m : Nat}
    (hm : q * passLanes e ≤ m ∧ m < (q + 1) * passLanes e) (done : Nat) :
    readsAs s e f m (e.view (e.quantumOf (q * passLanes e)) done a.s) := by
  intro x hx
  rw [entryMem, quantumOf_pass hl hm]
  exact Entry.view_get h.wf hwf (h.apart x hx) (not_mem_written hl ht hx done)

/-- The passes from one on deliver the rest of the destination. -/
theorem Delivered.walkPasses (hl : lanewise e.instr = some (f, ids, fn)) (ht : IntegerTensors e f ids)
    (hwf : s.k.localMem.wf = true) (hop : computes s e f fn op) {n q : Nat} {a : Acc}
    (h : Delivered s e f fn (min (q * passLanes e) (tCount (e.ten f.d))) a)
    (hlo : tCount (e.ten f.d) ≤ (q + n) * passLanes e) (hhi : (q + n) * passLanes e < tCount (e.ten f.d) + passLanes e) :
    Delivered s e f fn (tCount (e.ten f.d)) (e.walkPasses (e.ten f.d) f.md f.sat (passLanes e) op n q [] a) := by
  induction n generalizing q a with
  | zero =>
    rw [Nat.add_zero] at hlo
    rw [Nat.min_eq_right hlo] at h
    exact h.write ht (n := 0) (o := fun _ => .raw 0 0) (Nat.le_refl _) fun m _ _ => by omega
  | succ n ih =>
    have next : (q + 1) * passLanes e = q * passLanes e + passLanes e := Nat.succ_mul q (passLanes e)
    have last : (q + (n + 1)) * passLanes e = (q + n) * passLanes e + passLanes e := by rw [← Nat.add_assoc, Nat.succ_mul]
    have more : q * passLanes e ≤ (q + n) * passLanes e := Nat.mul_le_mul_right (passLanes e) (by omega)
    rw [Nat.min_eq_left (by omega)] at h
    have pass {m : Nat} (hm : m ∈ upFrom (q * passLanes e) (min (passLanes e) (tCount (e.ten f.d) - q * passLanes e))) (u : Fpu) :=
      hop m (by have := mem_upFrom.1 hm; omega) _ (h.readsAs_view hl ht hwf (q := q) (done := q * passLanes e)
        (by have := mem_upFrom.1 hm; omega)) u
    simp only [Entry.walkPasses, List.length_nil, Nat.sub_zero, openBlock_zero ht.format]
    rw [foldl_reads _ fun m hm => (pass hm a.e).1]
    simp only [List.nil_append, List.append_nil, List.reverse_reverse, List.take_length, List.drop_length]
    refine ih ?_ (by rwa [Nat.add_assoc, Nat.add_comm 1 n]) (by rwa [Nat.add_assoc, Nat.add_comm 1 n])
    rw [show min ((q + 1) * passLanes e) (tCount (e.ten f.d)) =
      q * passLanes e + min (passLanes e) (tCount (e.ten f.d) - q * passLanes e) by omega]
    exact h.write ht (by omega) fun m hm hm' => (pass (mem_upFrom.2 ⟨hm, hm'⟩) a.e).2

/-- What the work of an entry on integer tensors leaves: local memory, and its result (R86, R123, R173). -/
structure IntegersWritten (s : State) (e : Entry) (f : G64) (fn : Int → Int → Int → Nat → Word → Int) (mem : Mem)
    (r : EntryResult) : Prop where
  fault : r.fault = none
  elements : ∀ m, m < tCount (e.ten f.d) →
    Mem.readLE mem (elemAddr (e.ten f.d) (tupleOf (e.ten f.d) m)).toNat (size (tFmt (e.ten f.d))) =
      bitsAt s e f fn m
  apart : ∀ x, outside (e.ten f.d) x → Mem.get mem x = Mem.get s.k.localMem x
  flags : r.flags = 0 ∨ r.flags = 0x40
  clamped : r.flags = 0x40 ↔ ∃ m, m < tCount (e.ten f.d) ∧ flagAt s e f fn m ≠ 0
  zero : ∃ z, r.zs = [(f.d.toNat, true, z)] ∧
    (z = true ↔ ∀ m, m < tCount (e.ten f.d) → bitsAt s e f fn m = 0)

/-- What the passes of an element-wise entry leave. -/
def walked (s : State) (e : Entry) (f : G64) (op : ElemFn) : Acc :=
  e.walkPasses (e.ten f.d) f.md f.sat (passLanes e) op ((tCount (e.ten f.d) + passLanes e - 1) / passLanes e) 0 [] s.acc

/-- An element-wise entry whose tensors lie in bounds does its passes and ends with its zero summary (R123, R169). -/
theorem elementwise_eq {all : List (BitVec 6)} (h : boundsFaults (all.map e.ten) = none) :
    s.elementwise e f all op = (walked s e f op).done [(walked s e f op).zs f.d.toNat true] := by
  unfold State.elementwise
  simp only [h]
  rfl

theorem Delivered.written {a : Acc} (h : Delivered s e f fn (tCount (e.ten f.d)) a) :
    IntegersWritten s e f fn a.s.k.localMem { flags := a.e.flags, zs := [a.zs f.d.toNat true] } where
  fault := rfl
  elements := h.elements
  apart := h.apart
  flags := h.flags.imp And.left And.left
  clamped := by
    rcases h.flags with ⟨hf, unclamped⟩ | ⟨hf, clamped⟩
    · exact ⟨fun h40 => absurd (hf.symm.trans h40) (by decide : (0 : Word) ≠ 0x40), fun ⟨m, hm, hc⟩ => absurd (unclamped m hm) hc⟩
    · exact ⟨fun _ => clamped, fun _ => hf⟩
  zero := ⟨a.zero, by simp [Acc.zs, h.kept], h.zero⟩

/-- All passes of an entry deliver the whole destination. -/
theorem Delivered.walk (hl : lanewise e.instr = some (f, ids, fn)) (ht : IntegerTensors e f ids) (hwf : s.k.localMem.wf = true)
    (hop : computes s e f fn op) : Delivered s e f fn (tCount (e.ten f.d)) (walked s e f op) := by
  have pos := passLanes_pos e
  have parts := Nat.div_add_mod (tCount (e.ten f.d) + passLanes e - 1) (passLanes e)
  have rest := Nat.mod_lt (tCount (e.ten f.d) + passLanes e - 1) pos
  refine Delivered.walkPasses hl ht hwf hop ?_ ?_ ?_
  · rw [Nat.zero_mul, Nat.zero_min]
    exact .start hwf
  all_goals
    rw [Nat.zero_add, Nat.mul_comm]
    omega

/-- A finished walk changes local memory alone: no word of the generator has been taken. -/
theorem Delivered.done {k : Nat} {a : Acc} (h : Delivered s e f fn k a) (hslot : s.ctx.slot = 15) (zs : List (Nat × Bool × Bool)) :
    a.done zs = ({ s with k := { s.k with localMem := a.s.k.localMem } }, { flags := a.e.flags, zs := zs }) := by
  have seed : a.e.seed = s.ctx.srseed := by rw [h.seed, State.control, if_pos hslot]
  have same : a.s.onControl (fun c => { c with srseed := a.e.seed }) = a.s := by
    have hs := h.state
    rw [seed]
    generalize a.s.k.localMem = mem at hs
    rw [hs]
    exact if_pos hslot
  rw [Acc.done, same, ← h.state]

theorem elementwise_integers (hl : lanewise e.instr = some (f, ids, fn)) (ht : IntegerTensors e f ids)
    (hwf : s.k.localMem.wf = true) (hslot : s.ctx.slot = 15) (hop : computes s e f fn op) :
    ∃ mem r, s.elementwise e f (f.d :: ids) op = ({ s with k := { s.k with localMem := mem } }, r) ∧
      IntegersWritten s e f fn mem r := by
  have inside : boundsFaults ((f.d :: ids).map e.ten) = none := by
    refine boundsFaults_none fun t hm => ?_
    obtain ⟨id, hid, rfl⟩ := List.mem_map.1 hm
    rcases List.mem_cons.1 hid with rfl | hid
    · exact ht.bounds
    · exact (ht.sources id hid).2.1
  rw [elementwise_eq inside]
  exact ⟨_, _, (Delivered.walk hl ht hwf hop).done hslot _, (Delivered.walk hl ht hwf hop).written⟩

end

end Sys2Proof.Claims

namespace Sys2Proof.Claims

open Machine

/-! The events that do an entry's work (R171, R294, R296). -/

section
variable {s : State} {e : Entry} {rest : List Entry} {f : G64} {ids : List (BitVec 6)} {fn : Int → Int → Int → Nat → Word → Int}

theorem posted_ne {x : Entry} (hq : queued s e rest) (hx : x ∈ rest) : x.order ≠ e.order := by
  refine hq.2 x ?_
  rw [Kern.posted, hq.1]
  exact List.mem_append_left _ hx

/-- The oldest entry replaced. -/
theorem setEntry_oldest (hq : queued s e rest) {x : Entry} (hx : x.order = e.order) :
    s.setEntry x = { s with k := { s.k with mvuq := x :: rest } } := by
  have others : rest.map (fun y => if y.order == x.order then x else y) = rest := by
    conv_rhs => rw [← List.map_id rest]
    refine List.map_congr_left fun y hy => if_neg ?_
    simp [hx, posted_ne hq hy]
  rw [State.setEntry, hq.1, List.map_cons, others, if_pos (by simp [hx])]

theorem trace_off {kind : Nat} {pc : Word} {seq : BitVec 32} (h : s.hw.tracectl.getLsbD 0 = false) : s.trace kind pc seq = s := by
  rw [State.trace, h]
  rfl

/-- The oldest entry, free to start, stands at the head (R294). -/
theorem head_oldest (hl : lanewise e.instr = some (f, ids, fn)) (hq : queued s e rest) (hr : ready e) : s.k.head = some e := by
  obtain ⟨waiting, noLoop, -⟩ := hr
  have oldest : s.k.mvuq.find? (fun x => x.stage == .waiting) = some e := by simp [hq.1, waiting]
  have first : s.k.mvuq.takeWhile (fun x => x.order != e.order) = [] := by simp [hq.1]
  simp [Kern.head, oldest, first, (lanewise_entry hl).undecided, Entry.afterStores, noLoop]

/-- The oldest entry, started, is the one that the vector datapath executes. -/
theorem running_oldest (hl : lanewise e.instr = some (f, ids, fn)) (hq : queued s e rest) (hstage : e.stage = .started) :
    s.k.running 1 = some e := by
  simp [Kern.running, hq.1, hstage, (lanewise_entry hl).resource]

/-- The arbiter of the vector datapath ends the quantum that it has granted to a started entry, and grants the next (R296). -/
theorem decideArbiter_started (hl : lanewise e.instr = some (f, ids, fn)) (hq : queued s e rest) (hstage : e.stage = .started)
    (hfree : Claims.free s) (hserved : served s (some 1)) :
    s.decideArbiter (arbiterOf s 1) = (s.quantum 1).grantNext (arbiterOf s 1) := by
  have running := running_oldest hl hq hstage
  have base : arbiterOf s 1 / 4 * 4 + s.coreNo % 4 = s.coreNo := by unfold arbiterOf; omega
  have res : arbiterOf s 1 % 4 = 1 := by unfold arbiterOf; omega
  have grant : (s.arbiter (arbiterOf s 1)).grant = some (s.coreNo % 4) := hserved 1 rfl
  have wants : s.wants s.coreNo 1 = true := by
    simp [State.wants, State.kernOf, Kern.wants, running, show s.stopping s.coreNo = false from hfree]
  have due : (s.kernOf s.coreNo).quantumDue 1 = true := by
    simp [State.kernOf, Kern.quantumDue, running, (lanewise_entry hl).noProduct]
  rw [State.decideArbiter, grant]
  simp only [base, res, wants, due, State.atCore_self, not_true_eq_false, if_false, if_true]

/-- The oldest entry has done its work and is finished with a result (R295, R296). -/
def worked (s : State) (e : Entry) (rest : List Entry) (mem : Mem) (r : EntryResult) : State :=
  { s with k := { s.k with localMem := mem, mvuq := { e with stage := .finished, left := 0, result := r } :: rest } }

variable (hl : lanewise e.instr = some (f, ids, fn)) (ht : IntegerTensors e f ids) (hwf : s.k.localMem.wf = true)
include hl ht hwf

theorem entryWork_integers (hslot : s.ctx.slot = 15) :
    ∃ mem r, s.entryWork e = ({ s with k := { s.k with localMem := mem } }, r) ∧ IntegersWritten s e f fn mem r := by
  obtain ⟨op, work, hop⟩ := vectorWork_lanewise hl ht s
  rw [(lanewise_entry hl).work, work]
  exact elementwise_integers hl ht hwf hslot hop

/-- Reserved words are given back: integer results take none (R98). -/
theorem wordedWork_integers (hslot : s.ctx.slot = 15) :
    ∃ mem r, s.wordedWork e = ({ s with k := { s.k with localMem := mem } }, r) ∧ IntegersWritten s e f fn mem r := by
  have seeded (v : State) (hv : v.ctx.slot = 15) (x : Word) : v.setSeed x = { v with ctx := { v.ctx with srseed := x } } :=
    if_pos hv
  unfold State.wordedWork
  split
  · exact entryWork_integers hl ht hwf hslot
  · rename_i w _
    obtain ⟨mem, r, work, written⟩ := entryWork_integers (s := { s with ctx := { s.ctx with srseed := w } }) hl ht hwf hslot
    refine ⟨mem, r, ?_, { written with }⟩
    rw [seeded s hslot, work]
    dsimp only
    rw [seeded _ (by exact hslot), State.control, if_pos hslot]

/-- The last quantum of an entry on integer tensors does its work and finishes it. -/
theorem serveEntry_integers (hslot : s.ctx.slot = 15) {queuedAs : Entry} (hq : queued s queuedAs rest)
    (horder : e.order = queuedAs.order) (hleft : e.left ≤ 128) :
    ∃ mem r, s.serveEntry e = (worked s e rest mem r).endQuantum 1 ∧ IntegersWritten s e f fn mem r := by
  obtain ⟨mem, r, work, written⟩ := wordedWork_integers hl ht hwf hslot
  refine ⟨mem, r, ?_, written⟩
  rw [State.serveEntry, if_pos hleft, (lanewise_entry hl).resource, work]
  exact congrArg (State.endQuantum · 1)
    (setEntry_oldest (s := { s with k := { s.k with localMem := mem } }) (e := queuedAs) hq horder)

/-- The start of an entry that one quantum holds (R171, R296). -/
theorem startEntry_integers (hhere : here s) (hq : queued s e rest) (hr : ready e) (hcycles : e.cycles ≤ 128)
    (hfree : Claims.free s) (hserved : served s (some 1)) :
    ∃ mem r, s.startEntry = (worked s e rest mem r).endQuantum 1 ∧ IntegersWritten s e f fn mem r := by
  obtain ⟨-, hslot, htrace⟩ := hhere
  have goes : ¬ (¬ s.granted (resourceOf e.instr) ∨ s.stopping s.coreNo) := by
    have grant : (s.arbiter (arbiterKey s.coreNo 1)).grant = some (s.coreNo % 4) := hserved 1 rfl
    rw [(lanewise_entry hl).resource, show s.stopping s.coreNo = false from hfree]
    simp [State.granted, grant]
  rw [State.startEntry, head_oldest hl hq hr]
  simp only [if_neg goes, trace_off htrace, (lanewise_entry hl).noProduct]
  rw [State.startWork, if_pos hcycles]
  obtain ⟨mem, r, serve, written⟩ := serveEntry_integers (e := { e with stage := .started, left := e.cycles }) hl { ht with } hwf
    hslot hq rfl hcycles
  exact ⟨mem, r, serve, { written with }⟩

/-- The end of a started entry's last quantum (R296). -/
theorem quantum_integers (hhere : here s) (hq : queued s e rest) (hstage : e.stage = .started) (hleft : e.left ≤ 128) :
    ∃ mem r, s.quantum 1 = (worked s e rest mem r).endQuantum 1 ∧ IntegersWritten s e f fn mem r := by
  rw [State.quantum, running_oldest hl hq hstage]
  simp only [(lanewise_entry hl).noProduct]
  exact serveEntry_integers hl ht hwf hhere.2.1 hq rfl hleft

/-- Either event of an entry's last quantum does its work: it changes local memory, the queue and the arbiter. -/
theorem exec_lastQuantum {i : Instr} (hlast : lastQuantum s e 1 i) (hhere : here s) (hq : queued s e rest) (hfree : Claims.free s)
    (hserved : served s (some 1)) :
    ∃ t mem r, exec i s = .next t ∧ t.ctx = s.ctx ∧ t.k = (worked s e rest mem r).k ∧ IntegersWritten s e f fn mem r := by
  rcases hlast with ⟨rfl, hr, hcycles⟩ | ⟨rfl, hstage, hleft, hunit⟩
  · obtain ⟨mem, r, start, written⟩ := startEntry_integers hl ht hwf hhere hq hr hcycles hfree hserved
    refine ⟨s.startEntry, mem, r, ?_, ?_, ?_, written⟩
    · show Host.Outcome.next (s.atCore s.cmd.core State.startEntry) = _
      rw [hhere.1, State.atCore_self]
    all_goals rw [start]; rfl
  · obtain ⟨mem, r, last, written⟩ := quantum_integers hl ht hwf hhere hq hstage hleft
    refine ⟨(s.quantum 1).grantNext (arbiterOf s 1), mem, r, ?_, ?_, ?_, written⟩
    · show Host.Outcome.next (if s.cmd.unit % 4 < 3 then s.decideArbiter s.cmd.unit else s) = _
      rw [hunit, if_pos (by unfold arbiterOf; omega), decideArbiter_started hl hq hstage hfree hserved]
    all_goals rw [last]; rfl

end

/-- Settles O41: the entry's last quantum does its work, whichever event ends it, and the work delivers every element. -/
theorem vectorIntegers : Obligations.VectorIntegers := by
  unfold Obligations.VectorIntegers
  intro f ids fn e rest i s hl hhere hq hlast hfree hserved hwf d result format bounds separate sources same
  obtain ⟨t, mem, r, next, ctx, k, written⟩ :=
    exec_lastQuantum hl ⟨format, bounds, separate, sources, same⟩ hwf hlast hhere hq hfree hserved
  have hmem : mem = t.k.localMem := (congrArg Kern.localMem k).symm
  subst hmem
  exact ⟨t, r, next, congrArg Kern.mvuq k, ctx, written.fault, written.elements, written.apart, written.flags, written.clamped,
    written.zero⟩

end Sys2Proof.Claims

/-! Where an access of a context goes (`Obligations.Apertures`). -/

namespace Sys2Proof.Machine

section
variable {s : State} {path : Path} {va : Word} {n : Nat} {w r at' : Bool}

theorem apertureOf_localMem (h : bits va 56 8 = 0x80) : apertureOf va = some .localMem := if_pos h

theorem apertureOf_clusterMem (h : bits va 56 8 = 0x81) : apertureOf va = some .clusterMem := by simp [apertureOf, h]

theorem apertureOf_none (h : bits va 56 8 ≠ 0x80) (h' : bits va 56 8 ≠ 0x81) : apertureOf va = none := by
  simp [apertureOf, h, h']

/-- An access to the local aperture: its end, then what the dispatch queue holds of its bytes (R128, R131). -/
theorem State.lsTarget_localMem (h : bits va 56 8 = 0x80) :
    s.lsTarget path va n w r at' =
      if 0xC0000 < va.toNat % 2 ^ 56 + n then .error (.trap 5 va 0)
      else if s.mvuBusy (va.toNat % 2 ^ 56) n then .error (.hold .operand)
      else .ok ({ space := .localMem, addr := va.toNat % 2 ^ 56 }, s) := by
  simp only [State.lsTarget, apertureOf_localMem h]
  rfl

/-- An access to the cluster aperture: its end, then its turn at the line (R128, R384). -/
theorem State.lsTarget_clusterMem (h : bits va 56 8 = 0x81) :
    s.lsTarget path va n w r at' =
      if 0x800000 < va.toNat % 2 ^ 56 + n then .error (.trap 6 va 0)
      else if s.lineBusy path (s.coreNo / 16) (clusterLine (s.clusterBase + va.toNat % 2 ^ 56)) then
        .error (s.lineTurn (clusterLine (s.clusterBase + va.toNat % 2 ^ 56)) path)
      else .ok ({ space := .clusterMem, addr := s.clusterBase + va.toNat % 2 ^ 56 }, s) := by
  simp only [State.lsTarget, apertureOf_clusterMem h]
  rfl

theorem canonical_iff : canonical va = true ↔ bits va 56 8 = 0 ∨ bits va 56 8 = 0xFF := by simp [canonical]

/-- An address of no aperture and of no canonical form is refused by its translation (R248). -/
theorem State.lsTarget_noncanonical (h : bits va 56 8 ≠ 0x80) (h' : bits va 56 8 ≠ 0x81) (hc : canonical va = false) :
    s.lsTarget path va n w r at' = .error (.trap 7 va 0) := by
  have refused : s.translate s.agent path true w va n = .error (.trap 7 va 0) := by simp [State.translate, hc]
  simp only [State.lsTarget, apertureOf_none h h', refused]
  rfl

end

end Sys2Proof.Machine

namespace Sys2Proof.Claims

open Machine

/-- Settles O19: each aperture by its own equation, and every other address by the first check of its translation. -/
theorem apertures : Obligations.Apertures := by
  unfold Obligations.Apertures
  intro s path va n w r at' off
  refine ⟨fun h inside free => ?_, fun h past => ?_, fun h inside busy => ?_, fun h inside => ?_, fun h past => ?_,
    fun h80 h81 h0 hFF => ?_⟩
  · rw [State.lsTarget_localMem h, if_neg (Nat.not_lt.mpr inside), free]
    rfl
  · rw [State.lsTarget_localMem h, if_pos past]
  · rw [State.lsTarget_localMem h, if_neg (Nat.not_lt.mpr inside), busy]
    rfl
  · intro line
    rw [State.lsTarget_clusterMem h, if_neg (Nat.not_lt.mpr inside)]
    exact ⟨fun free => if_neg (Bool.eq_false_iff.mp free), fun busy => if_pos busy⟩
  · rw [State.lsTarget_clusterMem h, if_pos past]
  · have refused : canonical va = false := Bool.eq_false_iff.mpr fun hc => (canonical_iff.mp hc).elim h0 hFF
    exact State.lsTarget_noncanonical h80 h81 refused

end Sys2Proof.Claims

/-! The effects of loads and stores, and where they may issue (`Obligations.Loads`, `Obligations.Misaligned`). -/

namespace Sys2Proof.Machine

/-- The bytes of a number read as the context sees them are those bytes (R10). -/
theorem State.seen_spells (s : State) (sp : Space) (a n : Nat) :
    Claims.spells (s.seen sp a n) n fun k => s.seenByte sp (a + k) := by
  induction n generalizing a with
  | zero => exact ⟨Nat.one_pos, fun _ h => absurd h (Nat.not_lt_zero _)⟩
  | succ n ih =>
    obtain ⟨small, bytes⟩ := ih (a + 1)
    have first := (s.seenByte sp a).isLt
    refine ⟨?_, fun i hi => ?_⟩
    · rw [State.seen, Nat.pow_succ]
      omega
    · rw [State.seen]
      cases i with
      | zero =>
        show ((s.seenByte sp a).toNat + 256 * s.seen sp (a + 1) n) / 256 ^ 0 % 256 = (s.seenByte sp a).toNat
        rw [Nat.pow_zero, Nat.div_one]
        omega
      | succ i =>
        have next := bytes i (by omega)
        have shift : ((s.seenByte sp a).toNat + 256 * s.seen sp (a + 1) n) / 256 = s.seen sp (a + 1) n := by omega
        rw [Nat.pow_succ', ← Nat.div_div_eq_div_mul, shift, next]
        exact congrArg (fun b => (s.seenByte sp b).toNat) (by omega)

/-- A load that goes through: where it goes, its replay record, and its value (R134, R445). -/
theorem State.lsLoad_aligned {s s1 s2 : State} {va : Word} {n : Nat} {t : Target} {atomic : Bool} (ha : va.toNat % n = 0)
    (ht : s.lsTarget .ls va n false false atomic = .ok (t, s1)) (hl : s1.logRead t va = .ok s2) (opt : BitVec 3) :
    s.lsLoad va n opt atomic = .ok (s2.seen t.space t.addr n, s2.noteNear opt t) := by
  rw [State.lsLoad, if_neg (not_not_intro ha), ht]
  change (s1.logRead t va >>= _) = _
  rw [hl]
  rfl

theorem State.lsLoad_misaligned {va : Word} {n : Nat} (h : va.toNat % n ≠ 0) (s : State) (opt : BitVec 3) (atomic : Bool) :
    s.lsLoad va n opt atomic = .error (.trap 4 va 0) := if_pos h

theorem State.lsStore_misaligned {va : Word} {n : Nat} (h : va.toNat % n ≠ 0) (s : State) (v : Nat) (opt : BitVec 3)
    (atomic nt : Bool) : s.lsStore va n v opt atomic nt = .error (.trap 4 va 0) := if_pos h

end Sys2Proof.Machine

namespace Sys2Proof.Claims

open Machine

/-- Elements of every type have the size of R120, reserved ones among them. -/
theorem memBytes_eq_size (f : Form) : memBytes f = size f.ty := by
  unfold memBytes
  generalize f.ty = ty
  revert ty
  decide

/-- The value that a load delivers (R134). -/
theorem loadValue_eq_loaded {ty : BitVec 4} {x : Nat} (hx : x < 256 ^ size ty) : loadValue ty x = loaded ty x := by
  unfold loadValue loaded tySigned
  simp only [decide_eq_true_eq]
  split
  · rename_i signed
    have narrow : ty.toNat < 8 := by omega
    have word : x < 2 ^ 64 :=
      lt_of_lt_of_le hx (pow_size narrow ▸ Nat.pow_le_pow_right (by decide) (width_le ty))
    have value : signExt x (width ty) = (BitVec.ofNat (width ty) x).toInt := by
      have h := signExt_toNat_eq_toInt (BitVec.ofNat 64 x) (width_pos ty)
      rwa [BitVec.toNat_ofNat, Nat.mod_eq_of_lt word, BitVec.setWidth_ofNat_of_le (width_le ty)] at h
    rw [tyBytes_eq_size narrow, size_mul_eq_width narrow, value, wordOf_eq_ofInt]
    rfl
  · rfl

section
variable {s : State} {i : Instr} {f : Form} {ea : Word}

/-! What stops a load or store before its own checks (R405, R408). -/

theorem windowAddress_ok (h : calm s ∨ bits ea 56 8 = 0x80) : s.windowAddress ea = .ok () := by
  refine if_neg ?_
  rintro ⟨slot, opened, outside⟩
  rcases h with calm | inside
  · rw [calm slot] at opened
    cases opened
  · exact outside (apertureOf_localMem inside)

/-- An instruction of LD, LDX, ST and STX issues with its guard true: its body runs. -/
theorem issue_metaL {dest : Bool} {b : State → Except Stop State} (hr : runs s f.p f.n) :
    s.issue (metaL f dest) b = match b s with
      | .ok t => retired t f.len
      | .error r => s.stopped r :=
  issue_of_runs (.inl rfl) (.inl rfl) hr rfl

/-- One of LDACQ, STNT, STREL and the atomics, which may not stand in a window, does too. -/
theorem issue_metaM {dest : Bool} {b : State → Except Stop State} (hr : runs s f.p f.n) (hc : calm s) :
    s.issue (metaM f dest) b = match b s with
      | .ok t => retired t f.len
      | .error r => s.stopped r :=
  issue_of_runs (.inr hc) (.inl rfl) hr rfl

/-! Loads (R134, R136). -/

/-- What a load's body leaves: its value in the destination and, of an acquire, the end of the region. -/
def loadResult (s : State) (f : Form) (ea : Word) (acq : Bool) : Except Stop State :=
  (s.lsLoad ea (size f.ty) f.opt acq).map fun (x, t) =>
    let r := put t f.d (loadValue f.ty x)
    if acq then r.endRegion else r

theorem indexAddress_eq (s : State) (g : G64) :
    indexAddress s (formG g) = s.readOp g.a g.da + BitVec.ofNat 64 (size g.ty) * s.readOp g.b g.db := by
  rw [indexAddress, memBytes_eq_size]
  rfl

theorem loadAt_eq_loadResult (h : mayAccess s i ea) :
    (do s.windowAddress ea; s.loadAt f ea) = loadResult s f ea false := by
  rw [windowAddress_ok (h.imp_right And.left)]
  change s.loadAt f ea = _
  rw [State.loadAt, loadResult, memBytes_eq_size]
  cases s.lsLoad ea (size f.ty) f.opt false with
  | error e => rfl
  | ok r => exact congrArg Except.ok (writeOp_eq_put ..)

theorem load_of_runs (hr : runs s f.p f.n) (h : mayAccess s i (loadAddress s f)) :
    s.load f = match loadResult s f (loadAddress s f) false with
      | .ok t => retired t f.len
      | .error r => s.stopped r := by
  rw [State.load, issue_metaL hr, loadAt_eq_loadResult h]

theorem loadAcquire_of_runs (hr : runs s f.p f.n) (hc : calm s) (hl : s.ctx.slot = 15 → s.k.loop.running = false) :
    s.loadAcquire f = match loadResult s f (loadAddress s f) true with
      | .ok t => retired t f.len
      | .error r => s.stopped r := by
  have outside : ¬ (s.ctx.slot = 15 ∧ s.k.loop.running = true) := fun ⟨slot, running⟩ => by
    rw [hl slot] at running
    cases running
  rw [State.loadAcquire, issue_metaM hr hc, if_neg outside, loadResult, memBytes_eq_size]
  cases s.lsLoad (loadAddress s f) (size f.ty) f.opt true with
  | error e => rfl
  | ok r => exact congrArg (fun t : State => retired t.endRegion f.len) (writeOp_eq_put ..)

/-- A load that issues does what its body leaves, or stops. -/
theorem exec_loading {acq : Bool} (hi : loading s i = some (f, ea, acq)) (hr : runs s f.p f.n) (h : mayAccess s i ea)
    (hl : acq = true → s.ctx.slot = 15 → s.k.loop.running = false) :
    exec i s = .next (match loadResult s f ea acq with
      | .ok t => retired t f.len
      | .error r => s.stopped r) := by
  unfold loading at hi
  split at hi <;> cases hi
  case h_1 g => exact congrArg _ (load_of_runs (f := formI32 3 g) hr h)
  case h_2 g => exact congrArg _ (load_of_runs (f := formI g) hr h)
  case h_3 g => exact congrArg _ (load_of_runs (f := formW g) hr h)
  case h_4 g =>
    refine congrArg _ ((issue_metaL (f := formG g) hr).trans ?_)
    rw [indexAddress_eq, loadAt_eq_loadResult h]
  case h_5 g => exact congrArg _ (loadAcquire_of_runs (f := formI g) hr (h.resolve_right And.right) (hl rfl))
  case h_6 g => exact congrArg _ (loadAcquire_of_runs (f := formW g) hr (h.resolve_right And.right) (hl rfl))

end

/-- Settles O21: the load's value is the bytes that the context sees, which its type extends. -/
theorem loads : Obligations.Loads := by
  unfold Obligations.Loads
  intro i f ea acq s s1 s2 t hi _ hr h hl ha ht hlog
  obtain ⟨small, bytes⟩ := s2.seen_spells t.space t.addr (size f.ty)
  refine ⟨s2.seen t.space t.addr (size f.ty), ⟨small, bytes⟩, ?_⟩
  rw [exec_loading hi hr h hl, loadResult, State.lsLoad_aligned ha ht hlog]
  cases acq <;> rw [← loadValue_eq_loaded small] <;> rfl

end Sys2Proof.Claims

/-! Misaligned accesses (`Obligations.Misaligned`). -/

namespace Sys2Proof.Claims

open Machine

section
variable {s : State} {i : Instr} {f : Form} {ea : Word}

/-! One trap at an instruction's own PC, and the checks that stand before an address's. -/

theorem plain.calm (h : plain s) : calm s := fun _ => h.2

/-- An instruction whose body traps where the trap finds a handler takes the trap at its own PC. -/
theorem issue_traps {m : Meta} {b : State → Except Stop State} {cause : Nat} {addr : Word} (hr : runs s m.p m.n)
    (hp : plain s) (he : m.engine = false) (hh : hasHandler s) (hc : cause < 22) (hb : b s = .error (.trap cause addr 0)) :
    s.issue m b = trapped s cause addr s.ctx.pc := by
  rw [issue_of_runs (.inr hp.calm) (.inr hp.1) hr he, hb]
  exact stopped_of_handler hh cause addr 0 hc

theorem not_inLoop (hh : hasHandler s) : ¬ (s.ctx.slot = 15 ∧ s.k.loop.running = true) := by
  obtain ⟨-, -, -, -, -, idle, -⟩ := hh
  simp [idle]

theorem releaseReady_ok (h : f.md = 5 → released s) : s.releaseReady f.md = .ok () := by
  refine if_neg ?_
  rintro ⟨sys, waits⟩
  obtain ⟨notices, accesses⟩ := h sys
  simp [notices, accesses] at waits

theorem storeAt_misaligned (ha : ea.toNat % size f.ty ≠ 0) (v : Word) (nt : Bool) :
    s.storeAt f ea v nt = .error (.trap 4 ea 0) :=
  State.lsStore_misaligned (memBytes_eq_size f ▸ ha) ..

theorem loadResult_misaligned (ha : ea.toNat % size f.ty ≠ 0) (acq : Bool) :
    loadResult s f ea acq = .error (.trap 4 ea 0) := by
  rw [loadResult, State.lsLoad_misaligned ha]
  rfl

theorem store_misaligned (hr : runs s f.p f.n) (hp : plain s) (hh : hasHandler s)
    (ha : (storeAddress s f).toNat % size f.ty ≠ 0) : s.store f = trapped s 4 (storeAddress s f) s.ctx.pc := by
  refine issue_traps hr hp rfl hh (by decide) ?_
  rw [windowAddress_ok (.inl hp.calm)]
  exact storeAt_misaligned ha _ _

theorem storeNt_misaligned (hr : runs s f.p f.n) (hp : plain s) (hh : hasHandler s)
    (ha : (storeAddress s f).toNat % size f.ty ≠ 0) : s.storeNt f = trapped s 4 (storeAddress s f) s.ctx.pc :=
  issue_traps hr hp rfl hh (by decide) (storeAt_misaligned ha _ _)

theorem storeRelease_misaligned (hr : runs s f.p f.n) (hp : plain s) (hh : hasHandler s) (hd : f.md = 5 → released s)
    (ha : (storeAddress s f).toNat % size f.ty ≠ 0) : s.storeRelease f = trapped s 4 (storeAddress s f) s.ctx.pc := by
  refine issue_traps hr hp rfl hh (by decide) ?_
  rw [if_neg (not_inLoop hh), releaseReady_ok hd]
  change (s.lsStore (storeAddress s f) (memBytes f) _ f.opt true false >>= _) = _
  rw [State.lsStore_misaligned (memBytes_eq_size f ▸ ha)]
  rfl

theorem storing_misaligned {v : Word} {kind : StoreKind} (hi : storing s i = some (f, ea, v, kind)) (hr : runs s f.p f.n)
    (hp : plain s) (hh : hasHandler s) (hd : f.md = 5 → released s) (ha : ea.toNat % size f.ty ≠ 0) :
    exec i s = .next (trapped s 4 ea s.ctx.pc) := by
  unfold storing at hi
  split at hi <;> cases hi
  case h_1 g => exact congrArg _ (store_misaligned (f := formI32 3 g) hr hp hh ha)
  case h_2 g => exact congrArg _ (store_misaligned (f := formI g) hr hp hh ha)
  case h_3 g => exact congrArg _ (store_misaligned (f := formW g) hr hp hh ha)
  case h_4 g =>
    refine congrArg _ (issue_traps (m := metaL (formG g) false) hr hp rfl hh (by decide) ?_)
    rw [indexAddress_eq, windowAddress_ok (.inl hp.calm)]
    exact storeAt_misaligned (f := formG g) ha _ _
  case h_5 g => exact congrArg _ (storeNt_misaligned (f := formI g) hr hp hh ha)
  case h_6 g => exact congrArg _ (storeNt_misaligned (f := formW g) hr hp hh ha)
  case h_7 g => exact congrArg _ (storeRelease_misaligned (f := formI g) hr hp hh hd ha)
  case h_8 g => exact congrArg _ (storeRelease_misaligned (f := formW g) hr hp hh hd ha)

theorem exec_atomicFn {f : G64} {fn : Nat} (hi : atomicFn i = some (f, fn)) (s : State) : exec i s = .next (s.atomic f fn) := by
  unfold atomicFn at hi
  split at hi <;> cases hi <;> rfl

theorem atomic_misaligned {f : G64} (fn : Nat) (hr : runs s f.p f.n) (hp : plain s) (hh : hasHandler s)
    (ha : (s.readOp f.a f.da).toNat % size f.ty ≠ 0) : s.atomic f fn = trapped s 4 (s.readOp f.a f.da) s.ctx.pc := by
  refine issue_traps (m := metaM (formG f) true) hr hp rfl hh (by decide) ?_
  have bytes : tyBytes f.ty = size f.ty := memBytes_eq_size (formG f)
  obtain ⟨-, -, -, -, -, idle, -⟩ := hh
  rw [outsideLoop_ok idle, bytes]
  exact if_pos ha

end

/-- Settles O23: alignment is the first check of every access, behind the wait of a release alone. -/
theorem misaligned : Obligations.Misaligned := by
  unfold Obligations.Misaligned
  intro i s _ hp hh
  refine ⟨fun f ea acq hi hr ha => ?_, fun f ea v kind hi hr ha hd => storing_misaligned hi hr hp hh hd ha,
    fun f fn hi hr ha => ?_⟩
  · obtain ⟨-, -, -, -, -, idle, -⟩ := id hh
    rw [exec_loading hi hr (.inl hp.calm) fun _ _ => idle, loadResult_misaligned ha]
    exact congrArg _ (stopped_of_handler hh 4 ea 0 (by decide))
  · rw [exec_atomicFn hi, atomic_misaligned fn hr hp hh ha]

end Sys2Proof.Claims

/-! A release store and the start of the region behind it (`Obligations.Stores`). -/

namespace Sys2Proof.Claims

open Machine

/-- A context with a local address in s4. -/
def localBase : State :=
  { State.reset with
    ctx := { live := true, pc := 0x1000, regs := State.reset.ctx.regs.setIfInBounds 4 0x8000000000000008 }
    k := { task := some {} } }

/-- STREL of a dword at `.die`. -/
def strel : I64 := { d := 4, a := 5, ty := 3, md := 3 }

theorem lsTarget_localBase : localBase.lsTarget .ls 0x8000000000000008 8 true true true =
    .ok ({ space := .localMem, addr := 8 }, localBase) := rfl

/-- The store takes a name (R132), and the region behind it begins with the next one (R371). -/
theorem strel_region_start : ∃ u, exec (.strelI64 strel) localBase = .next u ∧ u.ctx.regionAt = localBase.names + 1 :=
  ⟨_, rfl, by decide⟩

/-- Refutes O22: the bytes of a store take the next name of the order of arrival, so that the region which an STREL begins
starts behind it, where the statement has the region start as if no store had been made. In `localBase` an STREL to local memory
meets every premise. -/
theorem not_stores : ¬ Obligations.Stores := by
  unfold Obligations.Stores
  intro h
  have goes : StoreKind.release = .release →
      (localBase.ctx.slot = 15 → localBase.k.loop.running = false) ∧ ((formI strel).md = 5 → released localBase) :=
    fun _ => ⟨fun _ => rfl, fun sys => absurd sys (by decide)⟩
  obtain ⟨u, stated, ⟨registers, -, -⟩, -, -⟩ := h (.strelI64 strel) (formI strel) 0x8000000000000008 0 .release localBase
    localBase _ rfl (by decide) (runs_always _) (.inl fun _ => rfl) goes (by decide) lsTarget_localBase (by unfold tidy; decide)
    (by decide) (.inl rfl)
  obtain ⟨t, ht, start⟩ := strel_region_start
  have same : u = t := by
    rw [ht] at stated
    injection stated with e
    exact e.symm
  have claimed : u.ctx.regionAt = localBase.names := congrArg Ctx.regionAt registers
  rw [same, start] at claimed
  exact Nat.succ_ne_self _ claimed

end Sys2Proof.Claims

/-! Fields of a wide word, read and replaced (R117, R139). -/

namespace Sys2Proof.Machine

theorem bits_lt {n : Nat} (e : BitVec n) (lo len : Nat) : bits e lo len < 2 ^ len := Nat.mod_lt _ (Nat.two_pow_pos len)

/-- A field that is masked out of a shifted word is that field as a number. -/
theorem toNat_masked {n len : Nat} (e : BitVec n) (lo : Nat) (h : len ≤ n) :
    ((e >>> lo) &&& BitVec.ofNat n (2 ^ len - 1)).toNat = bits e lo len := by
  have mask : 2 ^ len - 1 < 2 ^ n := by
    have := Nat.pow_le_pow_right (n := 2) (by decide) h
    have := Nat.two_pow_pos len
    omega
  rw [BitVec.toNat_and, BitVec.toNat_ushiftRight, BitVec.toNat_ofNat, Nat.mod_eq_of_lt mask, Nat.and_two_pow_sub_one_eq_mod,
    Nat.shiftRight_eq_div_pow]
  rfl

/-- The top bit of a number of `n` bits says whether it is in the upper half. -/
theorem testBit_top {x n : Nat} (hn : 0 < n) (hx : x < 2 ^ n) : x.testBit (n - 1) = decide (2 ^ (n - 1) ≤ x) := by
  by_cases h : 2 ^ (n - 1) ≤ x
  · rw [decide_eq_true h]
    exact Nat.testBit_of_two_pow_le_and_two_pow_add_one_gt h (by rwa [Nat.sub_add_cancel hn])
  · rw [decide_eq_false h]
    exact Nat.testBit_lt_two_pow (Nat.not_le.mp h)

theorem wordOf_natCast (x : Nat) : wordOf x = BitVec.ofNat 64 x := by
  rw [Claims.wordOf_eq_ofInt, BitVec.ofInt_natCast]

theorem wordOf_sub (x y : Nat) : wordOf ((x : Int) - (y : Nat)) = BitVec.ofNat 64 x - BitVec.ofNat 64 y := by
  apply BitVec.eq_of_toNat_eq
  simp only [wordOf, wrap, BitVec.toNat_sub, BitVec.toNat_ofNat]
  omega

/-- A word with a field replaced, bit by bit. -/
theorem getLsbD_setBits {n : Nat} (e : BitVec n) (lo len v i : Nat) (hi : i < n) :
    (setBits e lo len v).getLsbD i = if lo ≤ i ∧ i < lo + len then v.testBit (i - lo) else e.getLsbD i := by
  have parts (x : Nat) : x = 2 ^ lo * (2 ^ len * (x / 2 ^ lo / 2 ^ len) + x / 2 ^ lo % 2 ^ len) + x % 2 ^ lo := by
    rw [Nat.div_add_mod, Nat.div_add_mod]
  have replaced : e.toNat - bits e lo len * 2 ^ lo + v % 2 ^ len * 2 ^ lo =
      2 ^ lo * (2 ^ len * (e.toNat / 2 ^ lo / 2 ^ len) + v % 2 ^ len) + e.toNat % 2 ^ lo := by
    have h := parts e.toNat
    unfold bits
    generalize e.toNat / 2 ^ lo / 2 ^ len = high at *
    generalize e.toNat / 2 ^ lo % 2 ^ len = old at *
    generalize e.toNat % 2 ^ lo = low at *
    rw [h, Nat.mul_add, Nat.mul_add, Nat.mul_comm old, Nat.mul_comm (v % 2 ^ len)]
    omega
  rw [setBits, BitVec.getLsbD_ofNat, replaced, Nat.testBit_two_pow_mul_add _ (Nat.mod_lt _ (Nat.two_pow_pos lo)),
    Nat.testBit_two_pow_mul_add _ (Nat.mod_lt _ (Nat.two_pow_pos len)), decide_eq_true hi, Bool.true_and]
  by_cases below : i < lo
  · rw [if_pos below, if_neg (by omega), Nat.testBit_mod_two_pow, decide_eq_true below]
    rfl
  rw [if_neg below]
  by_cases inside : i < lo + len
  · have inField : i - lo < len := by omega
    rw [if_pos inField, if_pos ⟨Nat.not_lt.mp below, inside⟩, Nat.testBit_mod_two_pow, decide_eq_true inField]
    rfl
  · rw [if_neg (by omega), if_neg fun h => inside h.2, Nat.testBit_div_two_pow, Nat.testBit_div_two_pow]
    exact congrArg e.toNat.testBit (by omega)

end Sys2Proof.Machine

/-! The tensor table (`Obligations.TensorTable`). -/

namespace Sys2Proof.Claims

open Machine

/-- The model's fields are those of R139. -/
theorem tensorField_eq : ∀ c, tensorField c = tensorPart c
  | 0 | 1 | 2 | 3 | 4 | 5 | 6 | 7 | 8 | 9 | 10 | 11 | 12 | 13 | 14 | 15 | 16 => rfl
  | _ + 17 => rfl

/-- A field has a bit at least, and is no wider than a register. -/
theorem tensorPart_width : ∀ c, 0 < (tensorPart c).2.1 ∧ (tensorPart c).2.1 ≤ 64
  | 0 | 1 | 2 | 3 | 4 | 5 | 6 | 7 | 8 | 9 | 10 | 11 | 12 | 13 | 14 | 15 | 16 => by decide
  | _ + 17 => (by decide : 0 < 1 ∧ 1 ≤ 64)

/-- A field as TGET delivers it: its number, extended by its signedness (R139). -/
theorem fieldWord_eq (e : Word512) (c : Nat) :
    (if (tensorPart c).2.2 then wordOf (signExt (bits e (tensorPart c).1 (tensorPart c).2.1) (tensorPart c).2.1)
      else BitVec.ofNat 64 (bits e (tensorPart c).1 (tensorPart c).2.1)) = fieldWord e c := by
  obtain ⟨positive, narrow⟩ := tensorPart_width c
  unfold fieldWord
  generalize tensorPart c = part at *
  obtain ⟨lo, len, signed⟩ := part
  dsimp only at positive narrow ⊢
  have small := bits_lt e lo len
  have number := toNat_masked e lo (le_trans narrow (by decide : 64 ≤ 512))
  rw [← BitVec.testBit_toNat, number, testBit_top positive small, ← BitVec.ofNat_toNat, number]
  cases signed with
  | false => rfl
  | true =>
    rw [signExt, if_neg positive.ne', Nat.mod_eq_of_lt small]
    by_cases upper : 2 ^ (len - 1) ≤ bits e lo len
    · simp only [upper, if_true, decide_true, Bool.and_self]
      exact wordOf_sub _ _
    · simp only [upper, if_true, if_false, decide_false, Bool.and_false, Bool.false_eq_true]
      exact wordOf_natCast _

/-- An entry with a field replaced, as TSET writes it (R139). -/
theorem setBits_eq_withField (e : Word512) (c : Nat) (v : Word) :
    setBits e (tensorPart c).1 (tensorPart c).2.1 v.toNat = withField e c v := by
  obtain ⟨-, narrow⟩ := tensorPart_width c
  unfold withField
  obtain ⟨lo, len, signed⟩ := tensorPart c
  refine BitVec.eq_of_getLsbD_eq fun i hi => ?_
  rw [getLsbD_setBits _ _ _ _ _ hi]
  simp only [BitVec.getLsbD_or, BitVec.getLsbD_and, BitVec.getLsbD_not, BitVec.getLsbD_shiftLeft, BitVec.getLsbD_ofNat,
    Nat.testBit_two_pow_sub_one, BitVec.getLsbD_setWidth, hi, decide_true, Bool.true_and]
  by_cases below : i < lo
  · rw [if_neg (by omega)]
    simp [below]
  have here : i - lo < 512 := by omega
  by_cases inside : i < lo + len
  · rw [if_pos ⟨Nat.not_lt.mp below, inside⟩]
    simp [below, here, show i - lo < len by omega, BitVec.getLsbD]
  · rw [if_neg fun h => inside h.2]
    simp [below, show ¬ i - lo < len by omega]

/-- A word is the extension of its low bits just where it lies in their signed range. -/
theorem extended_iff {len : Nat} (v : Word) (positive : 0 < len) (narrow : len ≤ 64) :
    v = wordOf (signExt v.toNat len) ↔ -(2 ^ (len - 1) : Int) ≤ v.toInt ∧ v.toInt < 2 ^ (len - 1) := by
  have value : wordOf (signExt v.toNat len) = (v.setWidth len).signExtend 64 := by
    rw [signExt_toNat_eq_toInt v positive, wordOf_eq_ofInt]
    rfl
  have extended : ((v.setWidth len).signExtend 64).toInt = (v.setWidth len).toInt := BitVec.toInt_signExtend_of_le narrow
  rw [value]
  constructor
  · intro h
    rw [h, extended]
    exact ⟨BitVec.le_toInt _, BitVec.toInt_lt⟩
  · rintro ⟨lower, upper⟩
    have half : (2 : Int) ^ len = 2 * 2 ^ (len - 1) := by rw [← pow_succ', Nat.sub_add_cancel positive]
    have low : (v.setWidth len).toInt = v.toInt.bmod (2 ^ len) := by
      rw [BitVec.toInt_setWidth, BitVec.toInt_eq_toNat_bmod, Int.bmod_bmod_of_dvd (Nat.pow_dvd_pow 2 narrow)]
    have kept : v.toInt.bmod (2 ^ len) = v.toInt := by
      apply Int.bmod_eq_of_le <;> push_cast <;> omega
    exact BitVec.eq_of_toInt_eq (by rw [extended, low, kept])

theorem fieldFits_iff (c : Nat) (v : Word) :
    fieldFits c v = true ↔ (c = 0 ∨ (if (tensorPart c).2.2 then
      -(2 ^ ((tensorPart c).2.1 - 1) : Int) ≤ v.toInt ∧ v.toInt < 2 ^ ((tensorPart c).2.1 - 1)
    else v.toNat < 2 ^ (tensorPart c).2.1)) := by
  obtain ⟨positive, narrow⟩ := tensorPart_width c
  simp only [fieldFits, tensorField_eq]
  by_cases base : c = 0
  · simp [base]
  rw [if_neg base, or_iff_right base]
  split
  · rw [beq_iff_eq, extended_iff v positive narrow]
  · rw [decide_eq_true_eq]

/-- The reserved values of the fields, and the SIZEs of 0 (R139). -/
theorem fieldRefused_false_iff (c x : Nat) : fieldRefused c x = false ↔
    (c = 2 → x < 14) ∧ (c = 3 ∨ c = 4 → x ≠ 3) ∧ (7 ≤ c ∧ c ≤ 10 → x ≠ 0) ∧ (c = 11 → x < 5) ∧ (c = 12 ∨ c = 13 → x < 9) := by
  unfold fieldRefused
  split
  case h_11 =>
    simp_all
    omega
  all_goals simp

/-- A field with signed values has no reserved one. -/
theorem fieldRefused_signed {c : Nat} (h : (tensorPart c).2.2 = true) (x : Nat) : fieldRefused c x = false := by
  have which : c = 5 ∨ c = 6 ∨ c = 14 := by
    rw [← tensorField_eq] at h
    unfold tensorField at h
    split at h <;> simp_all
  obtain rfl | rfl | rfl := which <;> rfl

/-- A value that fits its field is judged by itself. -/
theorem fieldRefused_low {c : Nat} {v : Word} (h : fieldFits c v = true) :
    fieldRefused c (v.toNat % 2 ^ (tensorPart c).2.1) = fieldRefused c v.toNat := by
  rcases (fieldFits_iff c v).mp h with rfl | fits
  · rfl
  split at fits
  · rename_i signed
    rw [fieldRefused_signed signed, fieldRefused_signed signed]
  · rw [Nat.mod_eq_of_lt fits]

/-- What TSET refuses (R139). -/
theorem refused_iff (c : Nat) (v : Word) :
    (¬ fieldFits c v = true ∨ fieldRefused c (v.toNat % 2 ^ (tensorField c).2.1) = true) ↔ ¬ fieldTakes c v := by
  have takes : fieldTakes c v ↔ fieldFits c v = true ∧ fieldRefused c v.toNat = false := by
    rw [fieldFits_iff, fieldRefused_false_iff]
    rfl
  rw [takes, tensorField_eq]
  by_cases fits : fieldFits c v = true
  · simp [fits, fieldRefused_low fits]
  · simp [fits]

/-! The three instructions. -/

section
variable {f : G64} {s : State}

/-- TGET with nothing owed to the summary that it may read (R126). -/
theorem exec_tget (hr : runs s f.p f.n) (ho : f.c.toNat = 16 → s.zsOwed f.a.toNat = false) :
    exec (.tget f) s = .next (retired (put s f.d (fieldWord (s.k.tens.getD f.a.toNat 0) f.c.toNat)) 2) := by
  have free : ¬ (f.c = 16 ∧ s.zsOwed f.a.toNat = true) := fun ⟨summary, owed⟩ => by
    rw [ho (congrArg BitVec.toNat summary)] at owed
    cases owed
  refine congrArg _ ((issue_of_runs (m := metaS (formG f) true) (.inl rfl) (.inl rfl) hr rfl).trans ?_)
  simp only [if_neg free, tensorField_eq, State.tensor, fieldWord_eq, writeOp_eq_put]
  rfl

/-- TSET with nothing owed to the entry: the value's check, then the field (R139). -/
theorem exec_tset (hr : runs s f.p f.n) (hp : plain s) (ho : s.updateOwed f.d.toNat = false) :
    exec (.tset f) s = .next (
      if ¬ fieldFits f.c.toNat (s.readOp f.a f.da) = true ∨
          fieldRefused f.c.toNat ((s.readOp f.a f.da).toNat % 2 ^ (tensorField f.c.toNat).2.1) = true then
        s.stopped (.trap 11 0 0)
      else retired (s.setTensor f.d.toNat (withField (s.tensor f.d.toNat) f.c.toNat (s.readOp f.a f.da))) 2) := by
  refine congrArg _ ((issue_metaC (f := formG f) hr hp).trans ?_)
  simp only [ho, Bool.false_eq_true, if_false]
  split_ifs
  · rfl
  · rw [tensorField_eq, setBits_eq_withField]
    rfl

/-- TDEF with nothing owed to the entry, from an aligned address: its loads, then the check of the image (R138). -/
theorem exec_tdef {s1 : State} {x : Nat} (hr : runs s f.p f.n) (hp : plain s) (ho : s.updateOwed f.d.toNat = false)
    (ha : (s.readOp f.a f.da).toNat % 64 = 0) (hx : s.lsWords (s.readOp f.a f.da) f.opt 8 = .ok (x, s1)) :
    exec (.tdef f) s = .next (
      if entryRefused (BitVec.ofNat 512 x) = true then s.stopped (.trap 11 (s.readOp f.a f.da) 0)
      else retired (s1.setTensor f.d.toNat (BitVec.ofNat 512 x)) 2) := by
  refine congrArg _ ((issue_metaC (f := formG f) hr hp).trans ?_)
  simp only [ho, ha, hx, Bool.false_eq_true, if_false, ne_eq, not_true]
  split_ifs with refused
  · simp only [bind, Except.bind, if_pos refused]
  · simp only [bind, Except.bind, if_neg refused]
    rfl

end

/-- Settles O25: each instruction by its equation, in which TSET and TDEF have the check that decides. -/
theorem tensorTable : Obligations.TensorTable := by
  unfold Obligations.TensorTable
  refine ⟨fun f s _ hr ho => exec_tget hr ho, ?_, ?_⟩
  · intro f s _ hr hp ho v
    rw [exec_tset hr hp ho]
    refine ⟨fun takes => ?_, fun refused hh => ?_⟩
    · rw [if_neg fun refused => (refused_iff _ _).mp refused takes]
      rfl
    · rw [if_pos ((refused_iff _ _).mpr refused)]
      exact congrArg _ (stopped_of_handler hh 11 0 0 (by decide))
  · intro f s s1 x hr hp ho ea ha hx img
    rw [exec_tdef hr hp ho ha hx]
    refine ⟨fun taken => ?_, fun refused hh => ?_⟩
    · rw [if_neg (Bool.eq_false_iff.mp taken)]
      rfl
    · rw [if_pos refused]
      exact congrArg _ (stopped_of_handler hh 11 ea 0 (by decide))

end Sys2Proof.Claims

/-! Scalar integer instructions (`Obligations.ArithmeticResults`, `Obligations.DivisionResults`, `Obligations.BitwiseResults`,
`Obligations.ShiftResults`). The model's ALU writes what the statements call `written`, and each of its operations gives the exact
result of the statements; a rotate gives it modulo the width, which is enough where nothing is clamped. -/

namespace Sys2Proof

/-! An instruction that may not clamp has SAT clear (R45). -/

section
variable {helper : Bool} {sh : Shape}

theorem G64.sat_of_fits {f : G64} (h : f.fits helper sh = true) (hs : sh.sat = false) : f.sat = false := by
  simp only [G64.fits, hs, Bool.and_eq_true, Bool.false_or, Bool.not_eq_true'] at h
  obtain ⟨⟨-, clear⟩, -⟩ := h
  exact clear

theorem I64.sat_of_fits {f : I64} (h : f.fits helper sh = true) (hs : sh.sat = false) : f.sat = false := by
  simp only [I64.fits, hs, Bool.and_eq_true, Bool.false_or, Bool.not_eq_true'] at h
  obtain ⟨⟨-, clear⟩, -⟩ := h
  exact clear

theorem W96.sat_of_fits {f : W96} (h : f.fits helper sh = true) (hs : sh.sat = false) : f.sat = false := by
  simp only [W96.fits, hs, Bool.and_eq_true, Bool.false_or, Bool.not_eq_true'] at h
  obtain ⟨⟨-, clear⟩, -⟩ := h
  exact clear

end

end Sys2Proof

namespace Sys2Proof.Claims

open Machine

/-! What the ALU writes (R86, R140). -/

/-- An exact result after the overflow rule, before it is extended (R86). -/
def clamped (ty : BitVec 4) (sat : Bool) (r : Int) : Int := if sat then max (least ty) (min (greatest ty) r) else r

/-- The extension of the low bits of a number by the signedness of a type (R140 step 4). -/
def extended (ty : BitVec 4) (r : Int) : Word :=
  if ty.toNat < 4 then (BitVec.ofInt (width ty) r).signExtend 64 else (BitVec.ofInt (width ty) r).setWidth 64

theorem written_eq_extended (ty : BitVec 4) (sat : Bool) (r : Int) : written ty sat r = extended ty (clamped ty sat r) := rfl

theorem extend_true (v : Word) {n : Nat} (positive : 0 < n) : extend true v.toNat n = (v.setWidth n).signExtend 64 := by
  have h : extend true v.toNat n = wordOf (signExt v.toNat n) := rfl
  rw [h, signExt_toNat_eq_toInt v positive, wordOf_eq_ofInt]
  rfl

theorem extend_false (v : Word) (n : Nat) : extend false v.toNat n = (v.setWidth n).setWidth 64 := by
  rw [← BitVec.ofNat_toNat, BitVec.toNat_setWidth]
  rfl

/-- The model's extension of a pattern, and that of the statements. -/
theorem extend_wrap (ty : BitVec 4) (r : Int) : extend (tySigned ty) (wrap r (width ty)) (tyBits ty) = extended ty r := by
  have word : wrap r (width ty) = (BitVec.ofNat 64 (wrap r (width ty))).toNat := by
    rw [BitVec.toNat_ofNat, Nat.mod_eq_of_lt]
    rw [wrap_eq_toNat]
    exact lt_of_lt_of_le (BitVec.isLt _) (Nat.pow_le_pow_right (by decide) (width_le ty))
  have low : (BitVec.ofNat 64 (wrap r (width ty))).setWidth (width ty) = BitVec.ofInt (width ty) r := by
    rw [BitVec.setWidth_ofNat_of_le (width_le ty), wrap_eq_toNat, BitVec.ofNat_toNat, BitVec.setWidth_eq]
  have bits : tyBits ty = width ty := rfl
  rw [word, bits, extended]
  by_cases signed : ty.toNat < 4
  · rw [if_pos signed, tySigned, decide_eq_true signed, extend_true _ (width_pos ty), low]
  · rw [if_neg signed, tySigned, decide_eq_false signed, extend_false, low]

theorem intResult_written (ty : BitVec 4) (sat : Bool) (r : Int) : (intResult ty sat r).1 = written ty sat r := by
  have h : (intResult ty sat r).1 = extend (tySigned ty) (overflowRule ty sat r).1 (tyBits ty) := rfl
  rw [h, overflowRule_bits, elementBits_eq_wrap, extend_wrap, written_eq_extended]
  rfl

theorem intResult_flag (ty : BitVec 4) (sat : Bool) (r : Int) :
    (if (intResult ty sat r).2 then flagSATF else 0) = clampFlag ty sat r := overflowRule_flag ty sat r

@[simp] theorem flagged_zero (s : State) : flagged s 0 = s := by simp [flagged]

theorem alu_eq_put (s : State) (f : Form) (op : BitVec 4 → Word → Word → Int) (a b : Word) :
    s.alu f op a b = flagged (put s f.d (written f.ty f.sat (op f.ty a b))) (clampFlag f.ty f.sat (op f.ty a b)) := by
  have h := intResult_flag f.ty f.sat (op f.ty a b)
  rw [State.alu, ← intResult_written, writeOp_eq_put]
  cases clamps : (intResult f.ty f.sat (op f.ty a b)).2 with
  | true =>
    rw [← h, clamps]
    rfl
  | false =>
    rw [← h, clamps]
    exact (flagged_zero _).symm

/-- A class S instruction that is guarded on does what its body does, and retires. -/
theorem issue_metaS {s : State} {f : Form} {dest : Bool} {g : State → State} (hr : runs s f.p f.n) :
    s.issue (metaS f dest) (fun t => .ok (g t)) = retired (g s) f.len := issue_of_runs (.inl rfl) (.inl rfl) hr rfl

/-! An instruction that completes as the statements say. -/

/-- The instruction completes with the exact result of its entry in a table, where its guard holds. -/
def Completes (i : Instr) (o : IntOp) : Prop :=
  ∀ s, runs s o.form.p o.form.n →
    let r := o.exact (s.readOp o.form.a o.form.da) (o.b s)
    exec i s = .next (retired (flagged (put s o.form.d (written o.form.ty o.form.sat r))
      (clampFlag o.form.ty o.form.sat r)) o.form.len)

/-- Two functions that give the same written value and flag in a form. -/
def SameResult (f : Form) (op x : BitVec 4 → Word → Word → Int) : Prop :=
  ∀ a b, written f.ty f.sat (op f.ty a b) = written f.ty f.sat (x f.ty a b) ∧
    clampFlag f.ty f.sat (op f.ty a b) = clampFlag f.ty f.sat (x f.ty a b)

section
variable {i : Instr} {f : Form} {op x : BitVec 4 → Word → Word → Int}

theorem SameResult.of_eq (h : op = x) : SameResult f op x := by
  intro a b
  rw [h]
  exact ⟨rfl, rfl⟩

/-- An ALU instruction whose operation gives the exact result of its entry. -/
theorem completes_alu {o : IntOp} (same : SameResult o.form op fun _ => o.exact)
    (e : ∀ s, exec i s = .next (s.issue (metaS o.form true) fun t =>
      .ok (t.alu o.form op (t.readOp o.form.a o.form.da) (o.b t)))) : Completes i o := by
  intro s hr
  rw [e, issue_metaS (g := fun t => t.alu o.form op (t.readOp o.form.a o.form.da) (o.b t)) hr, alu_eq_put]
  obtain ⟨value, flag⟩ := same (s.readOp o.form.a o.form.da) (o.b s)
  rw [value, flag]

theorem completes_aluReg (same : SameResult f op x) (e : ∀ s, exec i s = .next (s.aluReg f op)) :
    Completes i { form := f, b := fun s => s.readOp f.b f.db, exact := x f.ty } := completes_alu same e

theorem completes_aluImm (same : SameResult f op x) (e : ∀ s, exec i s = .next (s.aluImm f op)) :
    Completes i { form := f, b := fun _ => f.imm, exact := x f.ty } := completes_alu same e

/-- An instruction of one operand: its operation does not look at the second. -/
theorem completes_aluOne {b : State → Word} (unary : ∀ ty a c, op ty a 0 = x ty a c)
    (e : ∀ s, exec i s = .next (s.aluOne f op)) : Completes i { form := f, b := b, exact := x f.ty } := by
  have same : SameResult f (fun ty a _ => op ty a 0) fun _ => x f.ty := fun a c => by simp only [unary f.ty a c, and_self]
  exact completes_alu same fun s => by simp only [e, State.aluOne, State.alu]

end

/-! The model's operations are those of the statements (R141 to R144). -/

section
variable (ty : BitVec 4) (v : Word)

@[simp] theorem srcTy_eq_val : srcTy ty v = val ty v := intSrc_eq_val ty v
@[simp] theorem srcS_eq_sval : srcS ty v = sval ty v := signExt_toNat_eq_toInt v (width_pos ty)
theorem srcPat_eq_toNat : srcPat ty v = (v.setWidth (width ty)).toNat := (BitVec.toNat_setWidth _ v).symm
@[simp] theorem srcPat_eq_zval : (srcPat ty v : Int) = zval ty v := congrArg Int.ofNat (srcPat_eq_toNat ty v)
@[simp] theorem srcZ_eq_zval : srcZ ty v = zval ty v := srcPat_eq_zval ty v
@[simp] theorem tyBits_eq_width : tyBits ty = width ty := rfl

end

@[simp] theorem shiftAmount_eq_amount (b : Word) : shiftAmount b = amount b := by
  unfold shiftAmount amount
  split <;> omega

theorem opAdd_eq : opAdd = xAdd := by funext ty a b; simp [opAdd, xAdd]
theorem opSub_eq : opSub = xSub := by funext ty a b; simp [opSub, xSub]
theorem opMul_eq : opMul = xMul := by funext ty a b; simp [opMul, xMul]

/-- Division by a power of two, as the model and as the statements write it. -/
theorem ediv_two_pow (x : Int) (n : Nat) : x / ((2 ^ n : Nat) : Int) = x.fdiv (2 ^ n) := by
  rw [Int.fdiv_eq_ediv_of_nonneg _ (by positivity)]
  norm_cast

theorem opMulh_eq : opMulh = xMulh := by funext ty a b; simp only [opMulh, xMulh, ediv_two_pow, srcS_eq_sval, tyBits_eq_width]
theorem opMulhz_eq : opMulhz = xMulhz := by
  funext ty a b; simp only [opMulhz, xMulhz, ediv_two_pow, srcZ_eq_zval, tyBits_eq_width]

/-! Minima and maxima by the order of the two sources. -/
theorem opMin_eq : opMin = xMin := by funext ty a b; simp only [opMin, xMin, srcS_eq_sval, min_def]
theorem opMax_eq : opMax = xMax := by funext ty a b; simp only [opMax, xMax, srcS_eq_sval, max_def]
theorem opMinz_eq : opMinz = xMinz := by funext ty a b; simp only [opMinz, xMinz, srcZ_eq_zval, min_def]
theorem opMaxz_eq : opMaxz = xMaxz := by funext ty a b; simp only [opMaxz, xMaxz, srcZ_eq_zval, max_def]

theorem opAbs_eq (ty : BitVec 4) (a c : Word) : opAbs ty a 0 = xAbs ty a c := by
  simp only [opAbs, xAbs, srcTy_eq_val]
  split <;> omega

theorem opMov_eq (ty : BitVec 4) (a c : Word) : opMov ty a 0 = xMov ty a c := srcTy_eq_val ty a
theorem opMovl_eq : opMovl = xMovl := by funext ty a b; simp [opMovl, xMovl]

/-! Division (R143): what the remainder of a truncated quotient is. -/
theorem opDiv_eq : opDiv = xDiv := by funext ty a b; simp only [opDiv, xDiv, srcS_eq_sval]
theorem opDivz_eq : opDivz = xDivz := by
  funext ty a b; simp only [opDivz, xDivz, srcZ_eq_zval, tyBits_eq_width]; norm_cast
theorem opRem_eq : opRem = xRem := by funext ty a b; simp only [opRem, xRem, srcS_eq_sval, Int.tmod_def]
theorem opRemz_eq : opRemz = xRemz := by funext ty a b; simp only [opRemz, xRemz, srcZ_eq_zval, Int.tmod_def]

theorem opAnd_eq : opAnd = xAnd := by funext ty a b; exact srcPat_eq_zval ty _
theorem opOr_eq : opOr = xOr := by funext ty a b; exact srcPat_eq_zval ty _
theorem opXor_eq : opXor = xXor := by funext ty a b; exact srcPat_eq_zval ty _
theorem opAndn_eq : opAndn = xAndn := by funext ty a b; exact srcPat_eq_zval ty _

theorem opShl_eq : opShl = xShl := by
  funext ty a b; simp only [opShl, xShl, srcTy_eq_val, shiftAmount_eq_amount]; norm_cast
theorem opShr_eq : opShr = xShr := by
  funext ty a b; simp only [opShr, xShr, srcZ_eq_zval, shiftAmount_eq_amount, ediv_two_pow]
theorem opSra_eq : opSra = xSra := by
  funext ty a b; simp only [opSra, xSra, srcS_eq_sval, shiftAmount_eq_amount, ediv_two_pow]

/-! Rotates (R144). -/

/-- A pattern rotated, as a number: the bits that leave at the top come back at the bottom. -/
theorem ofNat_rotate {n : Nat} (x : BitVec n) {k : Nat} (hk : k < n) :
    BitVec.ofNat n (x.toNat * 2 ^ k + x.toNat / 2 ^ (n - k)) = x.rotateLeft k := by
  have low : x.toNat / 2 ^ (n - k) < 2 ^ k := by
    rw [Nat.div_lt_iff_lt_mul (Nat.two_pow_pos _), ← Nat.pow_add, Nat.add_sub_cancel' hk.le]
    exact x.isLt
  refine BitVec.eq_of_getLsbD_eq fun j hj => ?_
  rw [BitVec.getLsbD_ofNat, Nat.mul_comm, Nat.testBit_two_pow_mul_add _ low, BitVec.getLsbD_rotateLeft,
    Nat.mod_eq_of_lt hk, decide_eq_true hj, Bool.true_and]
  by_cases h : j < k
  · rw [if_pos h, cond_eq_ite, if_pos (decide_eq_true h), Nat.testBit_div_two_pow, Nat.add_comm]
    rfl
  · rw [if_neg h, cond_eq_ite, if_neg (by simpa using h)]
    simp [BitVec.getLsbD]

/-- A rotate gives the rotated pattern modulo the width: the same where nothing is clamped. -/
theorem sameResult_rol {f : Form} (unclamped : f.sat = false) : SameResult f opRol xRol := by
  intro a b
  have pattern : BitVec.ofInt (width f.ty) (opRol f.ty a b) = BitVec.ofInt (width f.ty) (xRol f.ty a b) := by
    simp only [opRol, xRol, srcPat_eq_toNat, tyBits_eq_width]
    rw [BitVec.ofInt_natCast, BitVec.ofInt_natCast, ofNat_rotate _ (Nat.mod_lt _ (width_pos f.ty)), BitVec.ofNat_toNat,
      BitVec.setWidth_eq]
  rw [unclamped]
  refine ⟨?_, by simp [clampFlag]⟩
  rw [written_eq_extended, written_eq_extended]
  simp only [clamped, Bool.false_eq_true, if_false, extended, pattern]

/-! The tables. -/

/-- Settles O1: each instruction is an ALU operation over two operands, an operand and an immediate, or one operand, and its
operation gives the exact result. -/
theorem arithmeticResults : Obligations.ArithmeticResults := by
  unfold Obligations.ArithmeticResults
  intro i o s ho _ hr
  suffices h : Completes i o from h s hr
  cases i with
  | addA32 _ | addG64 _ => cases ho; exact completes_aluReg (.of_eq opAdd_eq) fun _ => rfl
  | addI32 _ | addI64 _ | addW96 _ => cases ho; exact completes_aluImm (.of_eq opAdd_eq) fun _ => rfl
  | subA32 _ | subG64 _ => cases ho; exact completes_aluReg (.of_eq opSub_eq) fun _ => rfl
  | mulA32 _ | mulG64 _ => cases ho; exact completes_aluReg (.of_eq opMul_eq) fun _ => rfl
  | mulI64 _ | mulW96 _ => cases ho; exact completes_aluImm (.of_eq opMul_eq) fun _ => rfl
  | mulhA32 _ | mulhG64 _ => cases ho; exact completes_aluReg (.of_eq opMulh_eq) fun _ => rfl
  | mulhzA32 _ | mulhzG64 _ => cases ho; exact completes_aluReg (.of_eq opMulhz_eq) fun _ => rfl
  | minA32 _ | minG64 _ => cases ho; exact completes_aluReg (.of_eq opMin_eq) fun _ => rfl
  | minI64 _ | minW96 _ => cases ho; exact completes_aluImm (.of_eq opMin_eq) fun _ => rfl
  | maxA32 _ | maxG64 _ => cases ho; exact completes_aluReg (.of_eq opMax_eq) fun _ => rfl
  | maxI64 _ | maxW96 _ => cases ho; exact completes_aluImm (.of_eq opMax_eq) fun _ => rfl
  | minzA32 _ | minzG64 _ => cases ho; exact completes_aluReg (.of_eq opMinz_eq) fun _ => rfl
  | minzI64 _ | minzW96 _ => cases ho; exact completes_aluImm (.of_eq opMinz_eq) fun _ => rfl
  | maxzA32 _ | maxzG64 _ => cases ho; exact completes_aluReg (.of_eq opMaxz_eq) fun _ => rfl
  | maxzI64 _ | maxzW96 _ => cases ho; exact completes_aluImm (.of_eq opMaxz_eq) fun _ => rfl
  | absA32 _ | absG64 _ => cases ho; exact completes_aluOne opAbs_eq fun _ => rfl
  | movA32 _ | movG64 _ => cases ho; exact completes_aluOne opMov_eq fun _ => rfl
  | movlI32 _ | movlI64 _ | movlW96 _ => cases ho; exact completes_aluImm (.of_eq opMovl_eq) fun _ => rfl
  | _ => cases ho

/-- Settles O2: quotients are the model's own, and its remainder is a - b * trunc(a / b). -/
theorem divisionResults : Obligations.DivisionResults := by
  unfold Obligations.DivisionResults
  intro i o s ho _ hr
  suffices h : Completes i o from h s hr
  cases i with
  | divA32 _ | divG64 _ => cases ho; exact completes_aluReg (.of_eq opDiv_eq) fun _ => rfl
  | divzA32 _ | divzG64 _ => cases ho; exact completes_aluReg (.of_eq opDivz_eq) fun _ => rfl
  | remA32 _ | remG64 _ => cases ho; exact completes_aluReg (.of_eq opRem_eq) fun _ => rfl
  | remzA32 _ | remzG64 _ => cases ho; exact completes_aluReg (.of_eq opRemz_eq) fun _ => rfl
  | _ => cases ho

/-- Settles O3: the model's patterns are the low bits of the combined words. -/
theorem bitwiseResults : Obligations.BitwiseResults := by
  unfold Obligations.BitwiseResults
  intro i o s ho _ hr
  suffices h : Completes i o from h s hr
  cases i with
  | andA32 _ | andG64 _ => cases ho; exact completes_aluReg (.of_eq opAnd_eq) fun _ => rfl
  | andI32 _ | andI64 _ | andW96 _ => cases ho; exact completes_aluImm (.of_eq opAnd_eq) fun _ => rfl
  | orA32 _ | orG64 _ => cases ho; exact completes_aluReg (.of_eq opOr_eq) fun _ => rfl
  | orI64 _ | orW96 _ => cases ho; exact completes_aluImm (.of_eq opOr_eq) fun _ => rfl
  | xorA32 _ | xorG64 _ => cases ho; exact completes_aluReg (.of_eq opXor_eq) fun _ => rfl
  | xorI64 _ | xorW96 _ => cases ho; exact completes_aluImm (.of_eq opXor_eq) fun _ => rfl
  | andnA32 _ | andnG64 _ => cases ho; exact completes_aluReg (.of_eq opAndn_eq) fun _ => rfl
  | _ => cases ho

/-- Settles O4: shifts give the exact results; a rotate gives its own modulo the width, and SAT is clear there. -/
theorem shiftResults : Obligations.ShiftResults := by
  unfold Obligations.ShiftResults
  intro i o s ho hw hr
  suffices h : Completes i o from h s hr
  cases i with
  | shlA32 _ | shlG64 _ => cases ho; exact completes_aluReg (.of_eq opShl_eq) fun _ => rfl
  | shlI32 _ | shlI64 _ | shlW96 _ => cases ho; exact completes_aluImm (.of_eq opShl_eq) fun _ => rfl
  | shrA32 _ | shrG64 _ => cases ho; exact completes_aluReg (.of_eq opShr_eq) fun _ => rfl
  | shrI32 _ | shrI64 _ | shrW96 _ => cases ho; exact completes_aluImm (.of_eq opShr_eq) fun _ => rfl
  | sraA32 _ | sraG64 _ => cases ho; exact completes_aluReg (.of_eq opSra_eq) fun _ => rfl
  | sraI32 _ | sraI64 _ | sraW96 _ => cases ho; exact completes_aluImm (.of_eq opSra_eq) fun _ => rfl
  | rolA32 _ => cases ho; exact completes_aluReg (sameResult_rol rfl) fun _ => rfl
  | rolG64 _ => cases ho; exact completes_aluReg (sameResult_rol (G64.sat_of_fits hw rfl)) fun _ => rfl
  | rolI64 _ => cases ho; exact completes_aluImm (sameResult_rol (I64.sat_of_fits hw rfl)) fun _ => rfl
  | rolW96 _ => cases ho; exact completes_aluImm (sameResult_rol (W96.sat_of_fits hw rfl)) fun _ => rfl
  | _ => cases ho

end Sys2Proof.Claims

/-! Counts, extensions, scaled addresses, bit fields, selection (`Obligations.FieldResults`), compares and predicate logic
(`Obligations.PredicateResults`). -/

namespace Sys2Proof.Claims

open Machine

/-! Counts (R145). -/

/-- The zeros above the highest one of the low `n` bits. -/
theorem isClz_clzOf {v n : Nat} (h : v < 2 ^ n) : isClz n v (clzOf v n) := by
  induction n with
  | zero => exact ⟨le_rfl, h, fun impossible => absurd impossible (Nat.lt_irrefl _)⟩
  | succ n ih =>
    have double : 2 ^ (n + 1) = 2 * 2 ^ n := Nat.pow_succ'
    by_cases top : 2 ^ n ≤ v
    · have quotient : v / 2 ^ n = 1 := Nat.div_eq_of_lt_le (by omega) (by omega)
      have none : clzOf v (n + 1) = 0 := by simp [clzOf, quotient]
      rw [none]
      exact ⟨Nat.zero_le _, h, fun _ => top⟩
    · have quotient : v / 2 ^ n = 0 := Nat.div_eq_of_lt (by omega)
      have more : clzOf v (n + 1) = clzOf v n + 1 := by simp [clzOf, quotient, Nat.add_comm]
      obtain ⟨le, above, one⟩ := ih (by omega)
      rw [more, isClz, Nat.add_sub_add_right]
      exact ⟨by omega, above, fun lt => one (by omega)⟩

/-- The zeros below the lowest one of `n` bits. -/
theorem isCtz_ctzOf (n : Nat) : ∀ v, isCtz n v (ctzOf v n) := by
  induction n with
  | zero => exact fun v => ⟨le_rfl, Nat.mod_one v, fun impossible => absurd impossible (Nat.lt_irrefl _)⟩
  | succ n ih =>
    intro v
    by_cases odd : v % 2 = 1
    · have none : ctzOf v (n + 1) = 0 := by simp [ctzOf, odd]
      rw [none]
      exact ⟨Nat.zero_le _, Nat.mod_one v, fun _ => by omega⟩
    · have more : ctzOf v (n + 1) = ctzOf (v / 2) n + 1 := by simp [ctzOf, odd, Nat.add_comm]
      have halved (k : Nat) : v % 2 ^ (k + 1) = 2 * (v / 2 % 2 ^ k) := by
        rw [Nat.pow_succ', Nat.mod_mul]
        omega
      obtain ⟨le, below, one⟩ := ih (v / 2)
      rw [more, isCtz, halved, halved]
      exact ⟨by omega, by omega, fun lt => by have := one (by omega); omega⟩

/-- The ones among the low `n` bits. -/
theorem isPopc_onesOf (n : Nat) : ∀ v, isPopc n v (onesOf v n) := by
  induction n with
  | zero => exact fun v => rfl
  | succ n ih =>
    intro v
    have rest : onesOf (v / 2) n = ((List.range n).filter fun i => v.testBit (i + 1)).length := by
      simp only [Nat.testBit_succ]
      exact ih (v / 2)
    rw [isPopc, List.range_succ_eq_map, List.filter_cons, List.filter_map, onesOf, rest, Nat.testBit_zero]
    rcases Nat.mod_two_eq_zero_or_one v with even | odd
    · simp [even, Function.comp_def]
    · simp [odd, Function.comp_def, Nat.add_comm]

theorem onesOf_le (n : Nat) (v : Nat) : onesOf v n ≤ n := by
  rw [show onesOf v n = _ from isPopc_onesOf n v]
  exact (List.length_filter_le _ _).trans_eq List.length_range

/-! Results within their type's range: nothing is clamped, and the register holds the number itself (R140). -/

theorem extended_of_range {ty : BitVec 4} {r : Int} (lower : least ty ≤ r) (upper : r ≤ greatest ty) :
    extended ty r = BitVec.ofInt 64 r := by
  have positive := width_pos ty
  have half : (2 : Int) ^ width ty = 2 * 2 ^ (width ty - 1) := by rw [← pow_succ', Nat.sub_add_cancel positive]
  have top : (2 : Int) ^ width ty ≤ 2 ^ 64 := by exact_mod_cast Nat.pow_le_pow_right (by decide : 2 > 0) (width_le ty)
  unfold extended
  unfold least at lower
  unfold greatest at upper
  split_ifs at * with signed
  · apply BitVec.eq_of_toInt_eq
    rw [BitVec.toInt_signExtend_of_le (width_le ty), BitVec.toInt_ofInt, BitVec.toInt_ofInt, Int.bmod_eq_of_le, Int.bmod_eq_of_le]
    all_goals push_cast; omega
  · have kept : (BitVec.ofInt (width ty) r).toNat = r.toNat := by
      rw [BitVec.toNat_ofInt, Int.emod_eq_of_lt lower (by push_cast; omega)]
    rw [← BitVec.ofNat_toNat, kept, ← BitVec.ofInt_natCast, Int.toNat_of_nonneg lower]

theorem written_of_range {ty : BitVec 4} {r : Int} (sat : Bool) (lower : least ty ≤ r) (upper : r ≤ greatest ty) :
    written ty sat r = BitVec.ofInt 64 r := by
  rw [written_eq_extended, clamped, min_eq_right upper, max_eq_right lower, ite_self, extended_of_range lower upper]

theorem clampFlag_of_range {ty : BitVec 4} {r : Int} (sat : Bool) (lower : least ty ≤ r) (upper : r ≤ greatest ty) :
    clampFlag ty sat r = 0 := if_neg (by omega)

/-- A count of bits of a type lies in its range. -/
theorem count_in_range {ty : BitVec 4} {k : Nat} (h : k ≤ width ty) : least ty ≤ k ∧ (k : Int) ≤ greatest ty := by
  have bounds : least ty ≤ 0 ∧ (width ty : Int) ≤ greatest ty := by
    clear h
    revert ty
    decide
  omega

/-! The instructions. -/

section
variable {i : Instr} {f : Form}

/-- An instruction that counts bits: its count is in range, and so it is written as it is. -/
theorem exec_aluOne_count {s : State} {op : BitVec 4 → Word → Word → Int} {count : Nat → Nat → Nat}
    {is : Nat → Nat → Nat → Prop} (hr : runs s f.p f.n) (e : exec i s = .next (s.aluOne f op))
    (value : ∀ ty a, op ty a 0 = count (a.setWidth (width ty)).toNat (width ty))
    (meets : ∀ v n, v < 2 ^ n → is n v (count v n) ∧ count v n ≤ n) :
    ∃ k, is (width f.ty) ((s.readOp f.a f.da).setWidth (width f.ty)).toNat k ∧
      exec i s = .next (retired (put s f.d (BitVec.ofNat 64 k)) f.len) := by
  obtain ⟨counts, le⟩ := meets _ _ ((s.readOp f.a f.da).setWidth (width f.ty)).isLt
  refine ⟨_, counts, ?_⟩
  obtain ⟨lower, upper⟩ := count_in_range le
  rw [e, State.aluOne, issue_metaS (g := fun t => t.alu f op (t.readOp f.a f.da) 0) hr, alu_eq_put, value,
    written_of_range _ lower upper, clampFlag_of_range _ lower upper, flagged_zero, BitVec.ofInt_natCast]

/-- An instruction that writes a value of its operands. -/
theorem opWrite_of_runs {s : State} {v : State → Word} (hr : runs s f.p f.n) :
    s.opWrite f v = retired (put s f.d (v s)) f.len := by
  rw [State.opWrite, issue_metaS (g := fun t => t.writeOp f.d (v t)) hr, writeOp_eq_put]

/-- An instruction that writes a predicate of its operands. -/
theorem opPred_of_runs {s : State} {b : State → Bool} (hr : runs s f.p f.n) :
    s.opPred f b = retired (s.setPred f.d.toNat (b s)) f.len :=
  issue_metaS (g := fun t => t.setPred f.d.toNat (b t)) hr

/-- SEL passes the chosen operand through the ALU, which leaves a value of the type as it is (R150). -/
theorem select_of_runs {s : State} (hr : runs s f.p f.n) :
    s.select f = retired (put s f.d (written f.ty false
      (val f.ty (if pr s f.c.toNat then s.readOp f.a f.da else s.readOp f.b f.db)))) f.len := by
  have h := issue_metaS (dest := true) (g := fun t =>
    t.alu f opMov (if t.pred f.c.toNat then t.readOp f.a f.da else t.readOp f.b f.db) 0) hr
  refine h.trans ?_
  generalize chosen : (if s.pred f.c.toNat then s.readOp f.a f.da else s.readOp f.b f.db) = v
  rw [pred_eq_pr] at chosen
  obtain ⟨lower, upper⟩ := val_mem_range f.ty v
  have moved : opMov f.ty v 0 = val f.ty v := srcTy_eq_val f.ty v
  rw [chosen, alu_eq_put, moved, written_of_range _ lower upper, written_of_range _ lower upper,
    clampFlag_of_range _ lower upper, flagged_zero]

end

/-! Bit fields and scaled addresses (R146, R147). -/

theorem tyBytes_eq : tyBytes = size := by
  funext ty
  revert ty
  decide

theorem bits_eq_toNat {w : Nat} (x : BitVec w) (lo len : Nat) : bits x lo len = ((x >>> lo).setWidth len).toNat := by
  rw [bits, BitVec.toNat_setWidth, BitVec.toNat_ushiftRight, Nat.shiftRight_eq_div_pow]

/-- BFX: the field, extended (R146). -/
theorem bfxOf_eq (ty : BitVec 4) (v : Word) (pos : Nat) {len : Nat} (positive : 0 < len) :
    bfxOf ty v pos len =
      if ty = 3 then ((v >>> pos).setWidth len).signExtend 64 else ((v >>> pos).setWidth len).setWidth 64 := by
  have short : signExt (bits v pos len) len = signExt (v >>> pos).toNat len := by
    rw [bits_eq_toNat, BitVec.toNat_setWidth]
    simp only [signExt, Nat.mod_mod]
  unfold bfxOf
  split
  · simp only [short, signExt_toNat_eq_toInt _ positive, wordOf_eq_ofInt]
    rfl
  · simp only [bits_eq_toNat, BitVec.ofNat_toNat]

/-- BFI: the low bits of the source in the field's place (R146). -/
theorem setBits_eq_insert (x v : Word) (lo c : Nat) (hc : c < 64) :
    setBits x lo (c + 1) v.toNat =
      (x &&& ~~~((BitVec.allOnes 64 >>> (63 - c)) <<< lo)) ||| ((v <<< lo) &&& ((BitVec.allOnes 64 >>> (63 - c)) <<< lo)) := by
  refine BitVec.eq_of_getLsbD_eq fun i hi => ?_
  have mask : ((BitVec.allOnes 64 >>> (63 - c)) <<< lo).getLsbD i = decide (lo ≤ i ∧ i < lo + (c + 1)) := by
    simp only [BitVec.getLsbD_shiftLeft, BitVec.getLsbD_ushiftRight, BitVec.getLsbD_allOnes, hi, decide_true, Bool.true_and]
    by_cases below : i < lo
    · simp [below]
    · simp only [below, decide_false, Bool.not_false, Bool.true_and, decide_eq_decide]
      omega
  rw [getLsbD_setBits _ _ _ _ _ hi, BitVec.getLsbD_or, BitVec.getLsbD_and, BitVec.getLsbD_and, BitVec.getLsbD_not, mask,
    BitVec.getLsbD_shiftLeft]
  by_cases inside : lo ≤ i ∧ i < lo + (c + 1)
  · simp [inside, hi, BitVec.getLsbD]
  · simp [inside, hi]

/-- Settles O5: counts are in range, and the other instructions write their value as the model computes it. -/
theorem fieldResults : Obligations.FieldResults := by
  unfold Obligations.FieldResults
  constructor
  · intro i f is s hi _ hr
    cases i with
    | clzA32 _ | clzG64 _ =>
      cases hi
      exact exec_aluOne_count hr rfl (fun ty a => congrArg (fun v => (clzOf v (width ty) : Int)) (srcPat_eq_toNat ty a))
        fun v n h => ⟨isClz_clzOf h, (isClz_clzOf h).1⟩
    | ctzA32 _ | ctzG64 _ =>
      cases hi
      exact exec_aluOne_count hr rfl (fun ty a => congrArg (fun v => (ctzOf v (width ty) : Int)) (srcPat_eq_toNat ty a))
        fun v n _ => ⟨isCtz_ctzOf n v, (isCtz_ctzOf n v).1⟩
    | popcA32 _ | popcG64 _ =>
      cases hi
      exact exec_aluOne_count hr rfl (fun ty a => congrArg (fun v => (onesOf v (width ty) : Int)) (srcPat_eq_toNat ty a))
        fun v n _ => ⟨isPopc_onesOf n v, onesOf_le n v⟩
    | _ => cases hi
  · intro i f v s hi _ hr
    cases i with
    | sext g =>
      cases hi
      exact congrArg _ ((opWrite_of_runs hr).trans (by rw [← extend_true _ (width_pos g.ty)]; rfl))
    | zext g =>
      cases hi
      exact congrArg _ ((opWrite_of_runs hr).trans (by rw [← extend_false]; rfl))
    | leaI64 _ | leaW96 _ =>
      cases hi
      exact congrArg _ ((opWrite_of_runs hr).trans (by rw [tyBytes_eq]; rfl))
    | bfx _ =>
      cases hi
      exact congrArg _ ((opWrite_of_runs hr).trans (by rw [bfxOf_eq _ _ _ (Nat.succ_pos _)]))
    | bfi g =>
      cases hi
      exact congrArg _ ((opWrite_of_runs hr).trans (by rw [setBits_eq_insert _ _ _ _ g.c.isLt]))
    | sel _ =>
      cases hi
      exact congrArg _ (select_of_runs hr)
    | _ => cases hi

end Sys2Proof.Claims

namespace Sys2Proof.Claims

open Machine

/-! Predicates (R148, R149). -/

theorem setPred_eq_putPred (s : State) (i : Nat) (b : Bool) : s.setPred i b = putPred s i b := by
  have bit : setBits s.ctx.preds i 1 b.toNat = (s.ctx.preds &&& ~~~(1#8 <<< i)) ||| (if b then 1#8 <<< i else 0) := by
    refine BitVec.eq_of_getLsbD_eq fun j hj => ?_
    have mask : (1#8 <<< i).getLsbD j = decide (i = j) := by
      rw [BitVec.getLsbD_shiftLeft, BitVec.getLsbD_one, decide_eq_true hj, ← decide_not]
      simp only [Nat.zero_lt_succ, decide_true, Bool.true_and, ← Bool.decide_and, decide_eq_decide]
      omega
    rw [getLsbD_setBits _ _ _ _ _ hj, BitVec.getLsbD_or, BitVec.getLsbD_and, BitVec.getLsbD_not, mask]
    by_cases here : i = j
    · subst here
      cases b <;> simp [hj]
    · have mask' : (if b then 1#8 <<< i else 0).getLsbD j = false := by
        cases b
        · exact BitVec.getLsbD_zero
        · exact mask.trans (decide_eq_false here)
      rw [if_neg (by omega), decide_eq_false here, mask']
      simp [hj]
  rw [State.setPred, bit]
  rfl

theorem srcPat_eq_iff (ty : BitVec 4) (a b : Word) : srcPat ty a = srcPat ty b ↔ zval ty a = zval ty b := by
  rw [← srcPat_eq_zval, ← srcPat_eq_zval, Int.natCast_inj]

theorem srcPat_eq_zero_iff (ty : BitVec 4) (a : Word) : srcPat ty a = 0 ↔ zval ty a = 0 := by
  rw [← srcPat_eq_zval, Int.natCast_eq_zero]

theorem cmpHolds_eq_compare (ty : BitVec 4) (a b : Word) : ∀ cond, cmpHolds cond ty a b = compare cond ty a b
  | 0 => decide_eq_decide.mpr (srcPat_eq_iff ty a b)
  | 1 => by
    simpa [cmpHolds, compare, bne, beq_eq_decide] using srcPat_eq_iff ty a b
  | 2 | 3 | 4 | 5 => by simp only [cmpHolds, compare, srcS_eq_sval]
  | 6 | 7 | 8 | 9 => by simp only [cmpHolds, compare, srcZ_eq_zval]
  | 10 => by simpa [cmpHolds, compare, bne, beq_eq_decide] using srcPat_eq_zero_iff ty (a &&& b)
  | _ + 11 => decide_eq_decide.mpr (srcPat_eq_zero_iff ty (a &&& b))

section
variable {i : Instr} {f : Form} {s : State}

/-- A compare: its condition ANDed with pC (R148). -/
theorem cmp_of_runs {cond : BitVec 6} (hr : runs s f.p f.n) :
    s.cmp f cond = retired (putPred s f.d.toNat
      (compare cond.toNat f.ty (s.readOp f.a f.da) (s.readOp f.b f.db) && pr s f.c.toNat)) f.len := by
  rw [State.cmp, opPred_of_runs hr, setPred_eq_putPred, cmpHolds_eq_compare, pred_eq_pr]

theorem predOp_of_runs {op : Bool → Bool → Bool} (hr : runs s f.p f.n) :
    s.predOp f op = retired (putPred s f.d.toNat (op (pr s f.a.toNat) (pr s f.b.toNat))) f.len := by
  rw [State.predOp, opPred_of_runs hr, setPred_eq_putPred, pred_eq_pr, pred_eq_pr]

end

/-- The predicate instructions but SFCMP. -/
theorem exec_predicateValue {i : Instr} {f : Form} {b : Bool} {s : State} (hi : predicateValue s i = some (f, b))
    (hr : runs s f.p f.n) : exec i s = .next (retired (putPred s f.d.toNat b) f.len) := by
  cases i with
  | cmpA32 _ f =>
    cases hi
    exact congrArg _ ((cmp_of_runs hr).trans (by
      rw [show pr s (formA 3 f).c.toNat = true from rfl, Bool.and_true]
      rfl))
  | cmpG64 _ _ =>
    cases hi
    exact congrArg _ (cmp_of_runs hr)
  | pandA32 _ | pandG64 _ | porA32 _ | porG64 _ | pxorA32 _ | pxorG64 _ | pnotA32 _ | pnotG64 _ =>
    cases hi
    exact congrArg _ (predOp_of_runs hr)
  | _ => cases hi

/-! Values of .f32 sources (R87, R151). A number's 31 low bits order its magnitude: it is a whole number of the least
subnormals, and the more the greater those bits are. -/

/-- The 31 low bits of a .f32 source, and its sign bit. -/
def mag32 (v : Word) : Nat := bits v 0 31
def neg32 (v : Word) : Bool := bits v 31 1 == 1

/-- How many of the least subnormals a finite .f32 magnitude is. -/
def units32 (k : Nat) : Nat := if k < 2 ^ 23 then k else (2 ^ 23 + k % 2 ^ 23) * 2 ^ (k / 2 ^ 23 - 1)

theorem units32_strictMono : StrictMono units32 := by
  refine strictMono_nat_of_lt_succ fun k => ?_
  unfold units32
  by_cases subnormal : k + 1 < 2 ^ 23
  · rw [if_pos subnormal, if_pos (by omega)]
    omega
  rw [if_neg subnormal]
  by_cases least : k < 2 ^ 23
  · have eq : k + 1 = 2 ^ 23 := by omega
    rw [if_pos least, eq]
    simp
    omega
  rw [if_neg least]
  by_cases carry : (k + 1) % 2 ^ 23 = 0
  · have up : (k + 1) / 2 ^ 23 - 1 = k / 2 ^ 23 - 1 + 1 := by omega
    rw [carry, up]
    calc (2 ^ 23 + k % 2 ^ 23) * 2 ^ (k / 2 ^ 23 - 1)
        < (2 * 2 ^ 23) * 2 ^ (k / 2 ^ 23 - 1) := Nat.mul_lt_mul_of_pos_right (by omega) (Nat.two_pow_pos _)
      _ = (2 ^ 23 + 0) * 2 ^ (k / 2 ^ 23 - 1 + 1) := by ring
  · have same : (k + 1) / 2 ^ 23 = k / 2 ^ 23 := by omega
    have next : (k + 1) % 2 ^ 23 = k % 2 ^ 23 + 1 := by omega
    rw [same, next]
    exact Nat.mul_lt_mul_of_pos_right (by omega) (Nat.two_pow_pos _)


theorem units32_zero : units32 0 = 0 := rfl

theorem nan32_iff (v : Word) : nan32 v = true ↔ 255 * 2 ^ 23 < mag32 v := by
  simp only [nan32, mag32, bits, Bool.and_eq_true, beq_iff_eq, bne_iff_ne]
  omega

theorem fmtOf_8 : fmtOf 8 = { width := 32, expBits := 8, frac := 23, bias := 127, hasInf := true } := rfl

/-- What a .f32 source stands for, by its magnitude bits (R87). -/
theorem f32Of_eq (v : Word) : f32Of v =
    if 255 * 2 ^ 23 < mag32 v then .nan (neg32 v)
    else if mag32 v = 255 * 2 ^ 23 then .inf (neg32 v)
    else if mag32 v < 2 ^ 23 then .fin (neg32 v) (mag32 v) (-149)
    else .fin (neg32 v) (2 ^ 23 + mag32 v % 2 ^ 23) (-149 + (mag32 v / 2 ^ 23 : Nat) - 1) := by
  have sign : (v.toNat % 2 ^ 32 / 2 ^ 31 % 2 == 1) = neg32 v := by
    simp only [neg32, bits]
    congr 1
    omega
  have exponent : v.toNat % 2 ^ 32 / 2 ^ 23 % 2 ^ 8 = mag32 v / 2 ^ 23 := by simp only [mag32, bits]; omega
  have fraction : v.toNat % 2 ^ 32 % 2 ^ 23 = mag32 v % 2 ^ 23 := by simp only [mag32, bits]; omega
  have small : mag32 v < 2 ^ 31 := bits_lt v 0 31
  rw [f32Of, fmtOf_8]
  simp only [Fmt.decode, Fmt.lowExp, Nat.reduceSub, sign, exponent, fraction, Bool.true_and,
    Bool.not_true, Bool.false_and, Bool.false_eq_true, if_false, beq_iff_eq]
  by_cases special : mag32 v / 2 ^ 23 = 2 ^ 8 - 1
  · rw [if_pos special]
    by_cases infinite : mag32 v % 2 ^ 23 = 0
    · rw [if_pos infinite, if_neg (by omega), if_pos (by omega)]
    · rw [if_neg infinite, if_pos (by omega)]
  · rw [if_neg special, if_neg (show ¬ 255 * 2 ^ 23 < mag32 v by omega), if_neg (show ¬ mag32 v = 255 * 2 ^ 23 by omega)]
    by_cases subnormal : mag32 v / 2 ^ 23 = 0
    · rw [if_pos subnormal, if_pos (by omega), Nat.mod_eq_of_lt (by omega)]
      rfl
    · rw [if_neg subnormal, if_neg (by omega)]
      rfl

/-- A magnitude as a number of the least subnormals, beside its exponent: what a finite .f32 source stands for. -/
theorem f32Of_finite {v : Word} (h : mag32 v < 255 * 2 ^ 23) :
    ∃ (m : Nat) (k : Nat), f32Of v = .fin (neg32 v) m (k - 149) ∧ m * 2 ^ k = units32 (mag32 v) := by
  rw [f32Of_eq, if_neg (by omega), if_neg (by omega)]
  by_cases subnormal : mag32 v < 2 ^ 23
  · exact ⟨mag32 v, 0, by rw [if_pos subnormal]; rfl, by rw [units32, if_pos subnormal, Nat.pow_zero, Nat.mul_one]⟩
  · refine ⟨2 ^ 23 + mag32 v % 2 ^ 23, mag32 v / 2 ^ 23 - 1, ?_, by rw [units32, if_neg subnormal]⟩
    rw [if_neg subnormal]
    congr 1
    omega

theorem f32Of_inf {v : Word} (h : mag32 v = 255 * 2 ^ 23) : f32Of v = .inf (neg32 v) := by
  rw [f32Of_eq, if_neg (by omega), if_pos h]

theorem f32Of_nan {v : Word} (h : nan32 v = true) : f32Of v = .nan (neg32 v) := by
  rw [f32Of_eq, if_pos ((nan32_iff v).mp h)]

theorem isNan_f32Of (v : Word) : (f32Of v).isNan = nan32 v := by
  cases h : nan32 v with
  | true => rw [f32Of_nan h]; rfl
  | false =>
    have ordered : ¬ 255 * 2 ^ 23 < mag32 v := fun above => Bool.false_ne_true (h.symm.trans ((nan32_iff v).mpr above))
    by_cases infinite : mag32 v = 255 * 2 ^ 23
    · rw [f32Of_inf infinite]; rfl
    · obtain ⟨m, k, value, -⟩ := f32Of_finite (show mag32 v < 255 * 2 ^ 23 by omega)
      rw [value]; rfl

/-! The order of SFCMP (R153). -/

/-- A magnitude with a sign. -/
def withSign (neg : Bool) (k : Nat) : Int := if neg then -(k : Int) else k

theorem key32_eq (v : Word) : key32 v = withSign (neg32 v) (mag32 v) := by
  simp only [key32, withSign, neg32, mag32, beq_iff_eq]

theorem scaled_eq (neg : Bool) (m : Nat) (exp q : Int) : scaled neg m exp q = withSign neg (m * 2 ^ (exp - q).toNat) := by
  cases neg <;> simp [scaled, withSign]

theorem withSign_mul (neg : Bool) (m n : Nat) : withSign neg m * n = withSign neg (m * n) := by
  cases neg <;> simp [withSign]

/-- Numbers of least subnormals lie as their magnitude bits do. -/
theorem withSign_units_lt (a b : Bool) (x y : Nat) :
    withSign a (units32 x) < withSign b (units32 y) ↔ withSign a x < withSign b y := by
  have forward : units32 x < units32 y ↔ x < y := units32_strictMono.lt_iff_lt
  have backward : units32 y < units32 x ↔ y < x := units32_strictMono.lt_iff_lt
  have positive (z : Nat) : 0 < units32 z ↔ 0 < z := units32_strictMono.lt_iff_lt (a := 0)
  have := positive x
  have := positive y
  cases a <;> cases b <;> simp only [withSign, if_true, if_false, Bool.false_eq_true] <;> omega

/-- Two finite sources compare as their signed magnitude bits do. -/
theorem scaled_lt_iff {a b : Bool} {m n k l x y : Nat} (hm : m * 2 ^ k = units32 x) (hn : n * 2 ^ l = units32 y) :
    Val.lt (.fin a m (k - 149)) (.fin b n (l - 149)) = decide (withSign a x < withSign b y) := by
  have common (j : Nat) (hk : j ≤ k) (hl : j ≤ l) :
      scaled a m (k - 149) (j - 149) < scaled b n (l - 149) (j - 149) ↔ withSign a x < withSign b y := by
    have grid : (0 : Int) < (2 ^ j : Nat) := by positivity
    have units (neg : Bool) (p i : Nat) (h : j ≤ i) :
        scaled neg p (i - 149) (j - 149) * (2 ^ j : Nat) = withSign neg (p * 2 ^ i) := by
      rw [scaled_eq, withSign_mul, Nat.mul_assoc, ← Nat.pow_add]
      congr 3
      omega
    rw [← withSign_units_lt, ← hm, ← hn, ← units a m k hk, ← units b n l hl, Int.mul_lt_mul_right grid]
  simp only [Val.lt, decide_eq_decide]
  split
  · exact common k le_rfl (by omega)
  · exact common l (by omega) le_rfl

/-- `lt` of two sources is the order of their keys, and false where either is a NaN. -/
theorem lt_f32Of (v w : Word) : (f32Of v).lt (f32Of w) = (!(nan32 v || nan32 w) && decide (key32 v < key32 w)) := by
  by_cases hv : nan32 v = true
  · rw [f32Of_nan hv, hv]
    rfl
  by_cases hw : nan32 w = true
  · rw [f32Of_nan hw, hw, Bool.or_true]
    cases f32Of v <;> rfl
  have boundV : ¬ 255 * 2 ^ 23 < mag32 v := fun above => hv ((nan32_iff v).mpr above)
  have boundW : ¬ 255 * 2 ^ 23 < mag32 w := fun above => hw ((nan32_iff w).mpr above)
  rw [Bool.eq_false_of_not_eq_true hv, Bool.eq_false_of_not_eq_true hw, key32_eq, key32_eq, Bool.or_self, Bool.not_false,
    Bool.true_and]
  by_cases infV : mag32 v = 255 * 2 ^ 23
  · rw [f32Of_inf infV, infV]
    by_cases infW : mag32 w = 255 * 2 ^ 23
    · rw [f32Of_inf infW, infW]
      cases neg32 v <;> cases neg32 w <;> rfl
    · obtain ⟨n, l, valueW, -⟩ := f32Of_finite (show mag32 w < 255 * 2 ^ 23 by omega)
      rw [valueW]
      cases neg32 v <;> cases neg32 w <;> simp [Val.lt, withSign] <;> omega
  · obtain ⟨m, k, valueV, unitsV⟩ := f32Of_finite (show mag32 v < 255 * 2 ^ 23 by omega)
    rw [valueV]
    by_cases infW : mag32 w = 255 * 2 ^ 23
    · rw [f32Of_inf infW, infW]
      cases neg32 v <;> cases neg32 w <;> simp [Val.lt, withSign] <;> omega
    · obtain ⟨n, l, valueW, unitsW⟩ := f32Of_finite (show mag32 w < 255 * 2 ^ 23 by omega)
      rw [valueW, scaled_lt_iff unitsV unitsW]

theorem eqv_f32Of (v w : Word) : (f32Of v).eqv (f32Of w) = (!(nan32 v || nan32 w) && decide (key32 v = key32 w)) := by
  simp only [Val.eqv, isNan_f32Of, lt_f32Of, Bool.or_comm (nan32 w)]
  generalize key32 v = x
  generalize key32 w = y
  rcases lt_trichotomy x y with less | equal | more
  · simp [less, less.ne]
  · simp [equal]
  · simp +contextual [more, more.ne']

theorem fcmpHolds_eq_compare32 (v w : Word) : ∀ cond, fcmpHolds cond (f32Of v) (f32Of w) = compare32 cond v w
  | 0 => eqv_f32Of v w
  | 1 => by simp [fcmpHolds, compare32, eqv_f32Of]
  | 2 => lt_f32Of v w
  | 3 => by simp [fcmpHolds, compare32, eqv_f32Of, lt_f32Of, ← Bool.and_or_distrib_left, le_iff_lt_or_eq]
  | 4 => by simp [fcmpHolds, compare32, lt_f32Of, Bool.or_comm]
  | 5 => by simp [fcmpHolds, compare32, eqv_f32Of, lt_f32Of, ← Bool.and_or_distrib_left, le_iff_lt_or_eq, Bool.or_comm,
      eq_comm (a := key32 v)]
  | 6 => by simp [fcmpHolds, compare32, isNan_f32Of]
  | _ + 7 => by simp [fcmpHolds, compare32, isNan_f32Of]

/-- Settles O6: each predicate as the model computes it; .f32 sources that are no NaN compare as their keys. -/
theorem predicateResults : Obligations.PredicateResults := by
  unfold Obligations.PredicateResults
  refine ⟨fun i f b s hi _ hr => exec_predicateValue hi hr, fun cond f s _ hr => ?_⟩
  refine congrArg _ ((issue_metaS (f := formG f) (g := fun t => t.setPred f.d.toNat
    (fcmpHolds cond.toNat (f32Of (t.readOp f.a f.da)) (f32Of (t.readOp f.b f.db)) && t.pred f.c.toNat)) hr).trans ?_)
  rw [setPred_eq_putPred, fcmpHolds_eq_compare32, pred_eq_pr]
  rfl

end Sys2Proof.Claims

/-! Scalar floating point (`Obligations.FloatResults`): what a rounding leaves of the generator and the flags, how wide a .f32 result
is, and what comes of a NaN source. -/

namespace Sys2Proof.Claims

open Machine

/-! Flags and the generator (R56, R98). -/

/-- A value of FPFLAGS has bits 6 to 0 alone (R56). -/
abbrev Sticky (fl : Word) : Prop := fl &&& ~~~0x7F = 0

theorem Sticky.or {x y : Word} (hx : Sticky x) (hy : Sticky y) : Sticky (x ||| y) := by
  unfold Sticky at *
  rw [BitVec.and_or_distrib_right, hx, hy, BitVec.or_self]

theorem Sticky.ite {c : Prop} [Decidable c] {x y : Word} (hx : Sticky x) (hy : Sticky y) : Sticky (if c then x else y) := by
  split
  · exact hx
  · exact hy

theorem Sticky.iteSnd {α : Type} {c : Prop} [Decidable c] {x y : α × Word} (hx : Sticky x.2) (hy : Sticky y.2) :
    Sticky (if c then x else y).2 := by
  split
  · exact hx
  · exact hy

theorem sticky_zero : Sticky 0 := by decide
theorem sticky_nx : Sticky flagNX := by decide
theorem sticky_uf : Sticky flagUF := by decide
theorem sticky_satf : Sticky flagSATF := by decide
theorem sticky_icv : Sticky flagICV := by decide
theorem sticky_overflow : Sticky (flagOF ||| flagNX) := by decide

theorem sticky_roundWord (f : Fmt) (mode : BitVec 3) (sat : Bool) (w : Nat) (v : Val) :
    Sticky (f.roundWord mode sat w v).2 := by
  unfold Fmt.roundWord
  split
  case h_1 => exact sticky_zero
  case h_2 => exact .iteSnd sticky_zero (sticky_satf.or sticky_nx)
  case h_3 => exact sticky_zero
  case h_4 =>
    exact .iteSnd (.iteSnd sticky_overflow (sticky_overflow.or sticky_satf))
      (.iteSnd (sticky_uf.or sticky_nx) (.ite (sticky_nx.or (.ite sticky_uf sticky_zero)) sticky_zero))

/-- What a rounding step under a mode leaves: the generator goes on under .sr alone, and the flags are flags. -/
structure Rounds (mode : BitVec 3) (e e' : Fpu) : Prop where
  seed : mode ≠ 4 → e'.seed = e.seed
  flags : Sticky e.flags → Sticky e'.flags

section
variable {mode : BitVec 3} {e e' : Fpu}

theorem Rounds.refl : Rounds mode e e := ⟨fun _ => rfl, id⟩

theorem Rounds.raise {fl : Word} (h : Rounds mode e e') (hf : Sticky fl) : Rounds mode e (e'.raise fl) :=
  ⟨h.seed, fun he => (h.flags he).or hf⟩

theorem Rounds.ite {c : Prop} [Decidable c] {x y : Fpu} (hx : Rounds mode e x) (hy : Rounds mode e y) :
    Rounds mode e (if c then x else y) := by
  split
  · exact hx
  · exact hy

theorem rounds_wordFor : Rounds mode e (e.wordFor mode).2 := by
  unfold Fpu.wordFor
  split
  · rename_i stochastic
    exact ⟨fun deterministic => absurd stochastic deterministic, id⟩
  · exact .refl

theorem rounds_round (f : Fmt) (sat : Bool) (v : Val) : Rounds mode e (f.round mode sat v e).2 :=
  rounds_wordFor.raise (sticky_roundWord ..)

theorem rounds_toInteger (ty : BitVec 4) (sat : Bool) (v : Val) : Rounds mode e (toInteger ty mode sat v e).2 := by
  unfold toInteger
  split
  case h_1 => exact rounds_wordFor.raise sticky_icv
  case h_2 => exact rounds_wordFor.raise sticky_icv
  case h_3 => exact .ite (rounds_wordFor.raise sticky_icv) rounds_wordFor
  case h_4 => exact (rounds_wordFor.raise (.ite sticky_nx sticky_zero)).raise (.ite sticky_satf sticky_zero)

theorem rounds_convert (src dst : BitVec 4) (sat : Bool) (x : Nat) : Rounds mode e (convert src dst mode sat x e).2 := by
  unfold convert
  split
  · split
    · split
      · exact .refl
      · exact rounds_round ..
    · exact rounds_toInteger ..
  · split
    · exact rounds_round ..
    · exact Rounds.refl.raise (.ite sticky_satf sticky_zero)

end

/-! Units of a rounded magnitude (R94). -/

section
variable {mode : BitVec 3} {w mag : Nat} {neg : Bool} {exp q : Int} {frac : Nat}

/-- Rounding up adds one. -/
theorem ite_le_succ (up : Bool) (t : Nat) : (if up then t + 1 else t) ≤ t + 1 := by split <;> omega
theorem le_ite_succ (up : Bool) (t : Nat) : t ≤ (if up then t + 1 else t) := by split <;> omega

/-- At a grid that keeps `frac` bits behind the highest, or fewer, a magnitude is no more units than 2 to the frac + 1. -/
theorem roundUnits_le (h : topBit mag exp - frac ≤ q) : (roundUnits mode w neg mag exp q).1 ≤ 2 ^ (frac + 1) := by
  have upper : mag < 2 ^ (mag.log2 + 1) := Nat.lt_log2_self
  unfold topBit at h
  unfold roundUnits
  split
  · calc mag * 2 ^ (exp - q).toNat ≤ 2 ^ (mag.log2 + 1) * 2 ^ (exp - q).toNat := Nat.mul_le_mul_right _ upper.le
      _ = 2 ^ (mag.log2 + 1 + (exp - q).toNat) := (Nat.pow_add ..).symm
      _ ≤ 2 ^ (frac + 1) := Nat.pow_le_pow_right (by decide) (by omega)
  · have below : mag / 2 ^ (q - exp).toNat < 2 ^ (frac + 1) := by
      rw [Nat.div_lt_iff_lt_mul (Nat.two_pow_pos _), ← Nat.pow_add]
      exact upper.trans_le (Nat.pow_le_pow_right (by decide) (by omega))
    exact le_trans (ite_le_succ _ _) below

/-- At the grid that keeps exactly `frac` bits it is as many at least as a number with the highest of them. -/
theorem le_roundUnits (hmag : mag ≠ 0) : 2 ^ frac ≤ (roundUnits mode w neg mag exp (topBit mag exp - frac)).1 := by
  have lower : 2 ^ mag.log2 ≤ mag := Nat.log2_self_le hmag
  unfold roundUnits topBit
  split
  · calc 2 ^ frac ≤ 2 ^ (mag.log2 + (exp - (mag.log2 + exp - frac)).toNat) := Nat.pow_le_pow_right (by decide) (by omega)
      _ = 2 ^ mag.log2 * 2 ^ (exp - (mag.log2 + exp - frac)).toNat := Nat.pow_add ..
      _ ≤ _ := Nat.mul_le_mul_right _ lower
  · have above : 2 ^ frac ≤ mag / 2 ^ (mag.log2 + exp - frac - exp).toNat := by
      rw [Nat.le_div_iff_mul_le (Nat.two_pow_pos _), ← Nat.pow_add]
      exact le_trans (Nat.pow_le_pow_right (by decide) (by omega)) lower
    exact le_trans above (le_ite_succ _ _)

end

/-! Encodings of .f32 fit 32 bits (R87, R88). -/

theorem ite_fst_lt {c : Prop} [Decidable c] {x y : Nat × Word} {n : Nat} (hx : c → x.1 < n) (hy : ¬ c → y.1 < n) :
    (if c then x else y).1 < n := by
  split
  · exact hx ‹_›
  · exact hy ‹_›

theorem lowExp_f32 : (fmtOf 8).lowExp = -149 := rfl
theorem frac_f32 : (fmtOf 8).frac = 23 := rfl
theorem expBits_f32 : (fmtOf 8).expBits = 8 := rfl
theorem hasInf_f32 : (fmtOf 8).hasInf = true := rfl
theorem width_f32 : (fmtOf 8).width = 32 := rfl

theorem signed_lt {neg : Bool} {x : Nat} (h : x < 2 ^ 31) : (fmtOf 8).signed neg x < 2 ^ 32 := by
  rw [Fmt.signed, width_f32]
  split <;> omega

/-- What is packed at a grid of the format: a rounded magnitude, or its carry at the next grid. -/
theorem pack_lt {m : Nat} {q : Int} (hm : m ≤ 2 ^ ((fmtOf 8).frac + 1)) (hq : q ≤ 104) : (fmtOf 8).pack m q < 2 ^ 31 := by
  rw [Fmt.pack, lowExp_f32]
  rw [frac_f32] at *
  split <;> omega

theorem packed_lt {m : Nat} {q : Int} (hm : m ≤ 2 ^ ((fmtOf 8).frac + 1)) (hq : q ≤ 104) :
    (if m = 2 ^ ((fmtOf 8).frac + 1) then (fmtOf 8).pack (2 ^ (fmtOf 8).frac) (q + 1) else (fmtOf 8).pack m q) < 2 ^ 31 := by
  rw [Fmt.pack, Fmt.pack, lowExp_f32]
  rw [frac_f32] at *
  split_ifs <;> omega

/-- The grid of a result: that of its own highest bits, or of the least subnormals (R88). -/
theorem grid_f32 {q : Int} (h : q ≤ 104) :
    q ≤ (if q < (fmtOf 8).lowExp then (fmtOf 8).lowExp else q) ∧
      (if q < (fmtOf 8).lowExp then (fmtOf 8).lowExp else q) ≤ 104 := by
  rw [lowExp_f32]
  split <;> omega

/-- A normalised magnitude that does not exceed the format has an exponent of the format. -/
theorem le_of_not_exceeds {m : Nat} {q : Int} (hm : 2 ^ 23 ≤ m) (h : (fmtOf 8).exceeds m q = false) : q ≤ 104 := by
  by_contra above
  have pow : 2 ≤ 2 ^ (q - 104).toNat :=
    le_trans (by decide : 2 ≤ 2 ^ 1) (Nat.pow_le_pow_right (by decide) (by omega))
  have value : (fmtOf 8).exceeds m q = decide (16777215 < m * 2 ^ (q - 104).toNat) := by
    rw [Fmt.exceeds, lowExp_f32, frac_f32, expBits_f32, hasInf_f32]
    norm_num [above]
  have more := Nat.mul_le_mul hm pow
  rw [value, decide_eq_false_iff_not] at h
  omega

theorem roundWord_lt (mode : BitVec 3) (sat : Bool) (w : Nat) (v : Val) :
    ((fmtOf 8).roundWord mode sat w v).1 < 2 ^ 32 := by
  unfold Fmt.roundWord
  split
  case h_1 => exact signed_lt (by decide)
  case h_2 => exact ite_fst_lt (fun _ => signed_lt (by decide)) fun _ => signed_lt (by decide)
  case h_3 => exact signed_lt (by decide)
  case h_4 neg mag exp hmag =>
    refine ite_fst_lt (fun _ => ite_fst_lt (fun _ => signed_lt (by decide)) fun _ => signed_lt (by decide)) fun fits => ?_
    obtain ⟨above, below⟩ := grid_f32 (le_of_not_exceeds (le_roundUnits hmag) (Bool.eq_false_of_not_eq_true fits))
    exact ite_fst_lt (fun _ => signed_lt (by decide)) fun _ => signed_lt (packed_lt (roundUnits_le above) below)

/-! A widening conversion represents its value exactly (R102): the source's exponents are those of .f32. -/

/-- A finite value of a format has a fraction and a hidden bit, and an exponent below that of the format's infinity or top. -/
theorem decode_bounds {f : Fmt} {x : Nat} {neg : Bool} {mag : Nat} {exp : Int} (h : f.decode x = .fin neg mag exp)
    (he : 2 ≤ f.expBits) :
    mag < 2 ^ (f.frac + 1) ∧ exp ≤ f.lowExp + 2 ^ f.expBits - (if f.hasInf then 3 else 2) := by
  have double : 2 ^ (f.frac + 1) = 2 * 2 ^ f.frac := Nat.pow_succ'
  have fraction : x % 2 ^ f.frac < 2 ^ f.frac := Nat.mod_lt _ (Nat.two_pow_pos _)
  have field : x / 2 ^ f.frac % 2 ^ f.expBits < 2 ^ f.expBits := Nat.mod_lt _ (Nat.two_pow_pos _)
  have four : 2 ^ 2 ≤ 2 ^ f.expBits := Nat.pow_le_pow_right (by decide) he
  have cast : ((2 ^ f.expBits : Nat) : Int) = 2 ^ f.expBits := by push_cast; rfl
  unfold Fmt.decode at h
  simp only [Bool.and_eq_true, beq_iff_eq] at h
  split_ifs at h with special _ _ subnormal
  · cases h
    refine ⟨by omega, ?_⟩
    split <;> omega
  · cases h
    refine ⟨by omega, ?_⟩
    split
    · rename_i infinities
      have : x / 2 ^ f.frac % 2 ^ f.expBits ≠ 2 ^ f.expBits - 1 := fun top => special ⟨infinities, top⟩
      omega
    · omega

theorem exact_lt {v : Val} (h : ∀ neg mag exp, v = .fin neg mag exp → mag ≠ 0 → topBit mag exp ≤ 127) :
    (fmtOf 8).exact v < 2 ^ 32 := by
  unfold Fmt.exact
  split
  case h_1 => exact signed_lt (by decide)
  case h_2 => exact signed_lt (by decide)
  case h_3 => exact signed_lt (by decide)
  case h_4 neg mag exp hmag =>
    have top : topBit mag exp - (fmtOf 8).frac ≤ 104 := by
      have := h neg mag exp rfl hmag
      rw [frac_f32]
      omega
    obtain ⟨above, below⟩ := grid_f32 top
    exact signed_lt (pack_lt (roundUnits_le above) below)

/-- The formats that are widened to .f32, with the highest exponent of a value. -/
theorem widening_bounds : ∀ src, isWidening src 8 = true → 2 ≤ (fmtOf src).expBits ∧
    (fmtOf src).frac + ((fmtOf src).lowExp + 2 ^ (fmtOf src).expBits - (if (fmtOf src).hasInf then 3 else 2)) ≤ 127 := by
  decide

theorem widened_lt {src : BitVec 4} (h : isWidening src 8 = true) (x : Nat) :
    (fmtOf 8).exact ((fmtOf src).decode x) < 2 ^ 32 := by
  obtain ⟨expBits, highest⟩ := widening_bounds src h
  refine exact_lt fun neg mag exp value hmag => ?_
  obtain ⟨short, below⟩ := decode_bounds value expBits
  have := (Nat.log2_lt hmag).mpr short
  unfold topBit
  omega

theorem convert_f32_lt (src : BitVec 4) (mode : BitVec 3) (sat : Bool) (x : Nat) (e : Fpu) :
    (convert src 8 mode sat x e).1 < 2 ^ 32 := by
  unfold convert
  simp only [show isFloat 8 = true from rfl, if_true]
  split
  · split
    · exact widened_lt ‹_› _
    · exact roundWord_lt ..
  · exact roundWord_lt ..

/-! NaN sources (R89). -/

/-- An exact result with its flag: the flag is one of FPFLAGS, and a NaN source gives the NaN and no flag. -/
structure ExactResult (isNan : Bool) (x : Val × Word) : Prop where
  flag : Sticky x.2
  nan : isNan = true → x = (.nan false, 0)

theorem nan_of_isNan {v : Val} (h : v.isNan = true) : ∃ neg, v = .nan neg := by
  cases v with
  | nan neg => exact ⟨neg, rfl⟩
  | inf _ => cases h
  | fin _ _ _ => cases h

theorem add_nan {mode : BitVec 3} {x y : Val} (h : (x.isNan || y.isNan) = true) : Val.add mode x y = (.nan false, 0) := by
  rcases Bool.or_eq_true_iff.mp h with hx | hy
  · obtain ⟨_, rfl⟩ := nan_of_isNan hx
    rfl
  · obtain ⟨_, rfl⟩ := nan_of_isNan hy
    cases x <;> rfl

theorem mul_nan {x y : Val} (h : (x.isNan || y.isNan) = true) : x.mul y = (.nan false, 0) := by
  rcases Bool.or_eq_true_iff.mp h with hx | hy
  · obtain ⟨_, rfl⟩ := nan_of_isNan hx
    rfl
  · obtain ⟨_, rfl⟩ := nan_of_isNan hy
    cases x <;> rfl

theorem sticky_nv : Sticky flagNV := by decide

theorem sticky_add (mode : BitVec 3) (x y : Val) : Sticky (Val.add mode x y).2 := by
  unfold Val.add
  split
  case h_3 => exact .iteSnd sticky_zero sticky_nv
  all_goals exact sticky_zero

theorem sticky_mul (x y : Val) : Sticky (x.mul y).2 := by
  unfold Val.mul
  split
  case h_4 => exact .iteSnd sticky_nv sticky_zero
  case h_5 => exact .iteSnd sticky_nv sticky_zero
  all_goals exact sticky_zero

theorem exactResult_add (mode : BitVec 3) (v w : Word) :
    ExactResult (nan32 v || nan32 w) (Val.add mode (f32Of v) (f32Of w)) :=
  ⟨sticky_add .., fun h => add_nan (by rwa [isNan_f32Of, isNan_f32Of])⟩

theorem exactResult_mul (v w : Word) : ExactResult (nan32 v || nan32 w) ((f32Of v).mul (f32Of w)) :=
  ⟨sticky_mul .., fun h => mul_nan (by rwa [isNan_f32Of, isNan_f32Of])⟩

theorem exactResult_fma (mode : BitVec 3) (v w x : Word) :
    ExactResult (nan32 v || nan32 w || nan32 x) (Val.fma mode (f32Of v) (f32Of w) (f32Of x)) := by
  unfold Val.fma
  simp only [isNan_f32Of]
  exact ⟨.iteSnd sticky_zero ((sticky_mul ..).or (sticky_add ..)), fun h => if_pos h⟩

/-- Rounding the NaN sets no flag. -/
theorem roundF32_nan_flags (mode : BitVec 3) (sat : Bool) (s : State) :
    ((roundF32 mode sat (.nan false) s.fpu).2.raise 0).flags = 0 := by
  have word : (s.fpu.wordFor mode).2.flags = 0 := by
    unfold Fpu.wordFor
    split <;> rfl
  calc ((roundF32 mode sat (.nan false) s.fpu).2.raise 0).flags = (s.fpu.wordFor mode).2.flags ||| 0 ||| 0 := rfl
    _ = 0 := by rw [word]; rfl

/-! The instructions. -/

/-- What a scalar floating instruction leaves in its destination, SRSEED and FPFLAGS (R56, R98, R151). -/
def floated (s : State) (d : BitVec 6) (v seed fl : Word) : State :=
  flagged { put s d v with ctx := { (put s d v).ctx with srseed := seed } } fl

theorem setFpu_writeOp (s : State) (d : BitVec 6) (v : Word) (e : Fpu) :
    (s.writeOp d v).setFpu e = floated s d v e.seed e.flags := by
  rw [writeOp_eq_put]
  rfl

/-- The instruction completes with a value, a seed and flags as the statement has them. -/
def Floats (i : Instr) (f : G64) (isNan : Bool) (s : State) : Prop :=
  ∃ v seed fl, exec i s = .next (retired (floated s f.d v seed fl) 2) ∧ (f.md ≠ 4 → seed = s.ctx.srseed) ∧
    fl &&& ~~~0x7F = 0 ∧ (f.ty.toNat = 8 → v.toNat < 2 ^ 32) ∧ (isNan = true → v = 0x7FC00000 ∧ fl = 0)

section
variable {i : Instr} {f : G64} {s : State}

/-- SFADD, SFMUL and SFMA: one rounding of an exact result (R108, R151, R152). -/
theorem floats_of_exact {isNan : Bool} {x : State → Val × Word} (hr : runs s f.p f.n) (hx : ExactResult isNan (x s))
    (e : exec i s = .next (s.issue (metaS (formG f) true) fun t => .ok (t.floatWrite (formG f) (x t)))) :
    Floats i f isNan s := by
  have rounds : Rounds f.md s.fpu ((roundF32 f.md f.sat (x s).1 s.fpu).2.raise (x s).2) :=
    (rounds_round ..).raise hx.flag
  have issued := issue_metaS (f := formG f) (dest := true) (g := fun t => t.floatWrite (formG f) (x t)) hr
  refine ⟨_, _, _, e.trans (congrArg _ (issued.trans (congrArg (retired · 2) (setFpu_writeOp ..)))), rounds.seed,
    rounds.flags sticky_zero, fun _ => ?_, fun h => ?_⟩
  · exact lt_of_le_of_lt (BitVec.toNat_ofNat .. ▸ Nat.mod_le ..) (roundWord_lt ..)
  · rw [hx.nan h]
    exact ⟨rfl, roundF32_nan_flags ..⟩

/-- SFCVT's conversion, and what it writes of it: an integer extended by its signedness (R102 to R106, R154). -/
def converted (f : G64) (s : State) : Nat × Fpu :=
  convert (f.c.setWidth 4) f.ty f.md f.sat (s.readOp f.a f.da).toNat s.fpu
def convertedWord (f : G64) (s : State) : Word :=
  if isFloat f.ty then BitVec.ofNat 64 (converted f s).1 else extend (tySigned f.ty) (converted f s).1 (tyBits f.ty)

theorem floats_of_convert (hr : runs s f.p f.n) : Floats (.sfcvt f) f false s := by
  have rounds : Rounds f.md s.fpu (converted f s).2 := rounds_convert ..
  have issued := issue_metaS (f := formG f) (dest := true)
    (g := fun t => (t.writeOp f.d (convertedWord f t)).setFpu (converted f t).2) hr
  refine ⟨_, _, _, congrArg _ (issued.trans (congrArg (retired · 2) (setFpu_writeOp ..))), rounds.seed,
    rounds.flags sticky_zero, fun h => ?_, nofun⟩
  have single : f.ty = 8 := BitVec.eq_of_toNat_eq h
  have float : isFloat f.ty = true := by rw [single]; rfl
  rw [convertedWord, if_pos float, converted, single]
  exact lt_of_le_of_lt (BitVec.toNat_ofNat .. ▸ Nat.mod_le ..) (convert_f32_lt ..)

end

/-- Settles O7: the three arithmetic instructions round an exact result once, and SFCVT converts. -/
theorem floatResults : Obligations.FloatResults := by
  unfold Obligations.FloatResults
  intro i f isNan s hi _ hr
  cases i with
  | sfadd _ =>
    cases hi
    exact floats_of_exact hr (exactResult_add ..) rfl
  | sfmul _ =>
    cases hi
    exact floats_of_exact hr (exactResult_mul ..) rfl
  | sfma _ =>
    cases hi
    exact floats_of_exact hr (exactResult_fma ..) rfl
  | sfcvt _ =>
    cases hi
    exact floats_of_convert hr
  | _ => cases hi

end Sys2Proof.Claims

/-! Control transfers (`Obligations.Transfers`, `Obligations.ConditionalTransfers`, `Obligations.BadTargets`): each instruction is its
check of the target, and then what comes of that check. -/

namespace Sys2Proof.Claims

open Machine

section
variable {s s1 : State} {a : Word}

/-! The check of a target (R158). -/

theorem checkTarget_legal (h : legalTarget s a s1) : s.checkTarget a = .ok s1 := by
  obtain ⟨good, text, line, ok⟩ := h
  have slot : targetOk text (slotOf a) = true := ok
  simp [State.checkTarget, badPc_false good, line, atTarget, bind, Except.bind, slot]

theorem checkTarget_badAddress (h : badAddress a) : s.checkTarget a = .error (.trap 3 a 0) :=
  if_pos ((badPc_iff a).mpr h)

/-- A parcel that no transfer may reach raises the same trap as an address that none may. -/
theorem checkTarget_noTarget {text : List Parcel} (line : s.lineAt a = .ok (text, s1))
    (no : targetOk text (a.toNat % 64 / 4) = false) : s.checkTarget a = .error (.trap 3 a 0) := by
  have slot : targetOk text (slotOf a) = false := no
  by_cases bad : badAddress a
  · exact checkTarget_badAddress bad
  · simp [State.checkTarget, badPc_false bad, line, atTarget, bind, Except.bind, slot]

/-- A fetch fault of the target names the target. -/
theorem checkTarget_fetchTrap {cause : Nat} {addr detail : Word} (good : ¬ badAddress a)
    (line : s.lineAt a = .error (.trap cause addr detail)) (hc : cause < 19) :
    s.checkTarget a = .error (.trap cause a detail) := by
  simp [State.checkTarget, badPc_false good, line, atTarget, bind, Except.bind, hc.ne]

/-! What comes of the check. -/

/-- A transfer goes to a target that passes its check, and a call writes LR; else it stops. -/
def landed (s : State) (j : Jump) : State :=
  match s.checkTarget j.target with
  | .ok t => went (if j.link then linked t (linkNo s) (parcelsAfter s.ctx.pc j.len) else t) j.target
  | .error r => s.stopped r

theorem landed_ok {j : Jump} (h : s.checkTarget j.target = .ok s1) :
    landed s j = went (if j.link then linked s1 (linkNo s) (parcelsAfter s.ctx.pc j.len) else s1) j.target := by
  rw [landed, h]

/-- A target that traps, where a handler is found: nothing has been written. -/
theorem landed_trap {j : Jump} {cause : Nat} {addr detail : Word} (h : s.checkTarget j.target = .error (.trap cause addr detail))
    (handler : hasHandler s) (hc : cause < 22) : landed s j = trapped s cause addr s.ctx.pc := by
  rw [landed, h]
  exact stopped_of_handler handler cause addr detail hc

/-! The instructions (R155 to R157). -/

theorem transfer_of_runs {m : Meta} {link : Bool} {target : State → Word} (hr : runs s m.p m.n) (he : m.engine = false)
    (hw : m.window = true ∨ (s.ctx.slot = 15 → s.k.window = none)) (hh : m.helper = true ∨ s.ctx.slot = 15) :
    s.transfer m link target = landed s { p := m.p, n := m.n, len := m.len, link := link, target := target s } := by
  rw [State.transfer, issueRaw_of_runs hw hh hr he, landed]
  dsimp only
  cases s.checkTarget (target s) <;> rfl

/-- A direct transfer, whose offset the form has sign-extended. -/
theorem branch_of_runs {f : Form} {link : Bool} {n : Nat} {off : BitVec n} (hr : runs s f.p f.n) (hn : n ≤ 64)
    (himm : f.imm = off.signExtend 64) :
    s.branch f link = landed s { p := f.p, n := f.n, len := f.len, link := link, target := parcelsAfter s.ctx.pc off.toInt } := by
  rw [State.branch, transfer_of_runs (m := metaJ f true true) hr rfl (.inl rfl) (.inl rfl), himm,
    BitVec.toInt_signExtend_of_le hn]
  rfl

theorem exec_jump {i : Instr} {j : Jump} (hi : jump s i = some j) (hr : runs s j.p j.n) (hm : mayJump s i) :
    exec i s = .next (landed s j) := by
  obtain ⟨noWindow, control⟩ := hm
  cases i with
  | brJ32 _ | brI64 _ | brW96 _ | callJ32 _ | callI64 _ | callW96 _ =>
    cases hi
    exact congrArg _ (branch_of_runs hr (by decide) rfl)
  | retA32 | retG64 _ =>
    cases hi
    exact congrArg _ (transfer_of_runs hr rfl (.inl rfl) (.inl rfl))
  | bri _ =>
    cases hi
    exact congrArg _ (transfer_of_runs hr rfl (.inr noWindow) (.inl rfl))
  | calli f =>
    cases hi
    exact congrArg _ (transfer_of_runs hr rfl (.inr noWindow) (.inr (control f rfl)))
  | _ => cases hi

/-- BRC, whose offset the form has sign-extended: where its condition holds it is a transfer (R156). -/
theorem branchIf_of_runs {f : Form} {n : Nat} {off : BitVec n} (hr : runs s f.p f.n) (hn : n ≤ 64)
    (himm : f.imm = off.signExtend 64) :
    s.branchIf f = if (pr s f.d.toNat != f.opt.getLsbD 0) = true
      then landed s { p := f.p, n := f.n, len := f.len, link := false, target := parcelsAfter s.ctx.pc off.toInt }
      else retired s f.len := by
  rw [State.branchIf, issueRaw_of_runs (m := metaJ f true true) (.inl rfl) (.inl rfl) hr rfl, himm,
    BitVec.toInt_signExtend_of_le hn, pred_eq_pr]
  split_ifs
  · rw [landed]
    dsimp only
    cases s.checkTarget (parcelsAfter s.ctx.pc off.toInt) <;> rfl
  · rfl

theorem exec_condJump {i : Instr} {j : Jump} {taken : Bool} (hi : condJump s i = some (j, taken)) (hr : runs s j.p j.n) :
    j.link = false ∧ exec i s = .next (if taken = true then landed s j else retired s j.len) := by
  cases i with
  | brcJ32 f =>
    cases hi
    have predicate : (formJ f).d.toNat = f.p.toNat := BitVec.toNat_setWidth_of_le (by decide)
    have negated : (formJ f).opt.getLsbD 0 = f.n := by cases h : f.n <;> simp [formJ, h]
    rw [← predicate, ← negated]
    exact ⟨rfl, congrArg _ (branchIf_of_runs hr (by decide) rfl)⟩
  | brcI64 _ | brcW96 _ =>
    cases hi
    exact ⟨rfl, congrArg _ (branchIf_of_runs hr (by decide) rfl)⟩
  | _ => cases hi

end

/-- Settles O10: a legal target passes its check. -/
theorem transfers : Obligations.Transfers := by
  unfold Obligations.Transfers
  intro i j s s1 hi hr hm legal
  rw [exec_jump hi hr hm, landed_ok (checkTarget_legal legal)]

/-- Settles O11: BRC is a transfer that writes no LR where its condition holds, and retires where it does not. -/
theorem conditionalTransfers : Obligations.ConditionalTransfers := by
  unfold Obligations.ConditionalTransfers
  intro i j taken s hi hr _
  obtain ⟨noLink, e⟩ := exec_condJump hi hr
  refine ⟨fun yes s1 legal => ?_, fun no => ?_⟩
  · rw [e, if_pos yes, landed_ok (checkTarget_legal legal), noLink]
    rfl
  · rw [e, no]
    rfl

/-- Settles O12: each bad target fails its check with its cause, and the trap finds the state as it was. -/
theorem badTargets : Obligations.BadTargets := by
  unfold Obligations.BadTargets
  intro i j s hi hr hm handler
  rw [exec_jump hi hr hm]
  refine ⟨fun bad => ?_, fun text s1 line no => ?_, fun cause addr detail line hc good => ?_⟩
  · rw [landed_trap (checkTarget_badAddress bad) handler (by decide)]
  · rw [landed_trap (checkTarget_noTarget line no) handler (by decide)]
  · rw [landed_trap (checkTarget_fetchTrap good line hc) handler (by omega)]

end Sys2Proof.Claims

/-! The start of an entry of the dispatch queue (`Obligations.EntryStarts`). First the frame of an entry's work: memories, the array,
masks and the generator are all that it writes (R164 to R187, R310 to R314, R321 to R323, R331 to R334). -/

namespace Sys2Proof.Machine

/-- A state with what an entry's work writes left out. -/
def State.outsideWork (s : State) : State :=
  { s with
    ctx := { s.ctx with srseed := 0 }
    k := { s.k with localMem := [], crown := [], bezel := [], masks := Vector.replicate 16 0 } }

/-- What each step of a walk keeps, the walk keeps. -/
theorem foldl_keeps {α β γ : Type} {f : β → α → β} (g : β → γ) (h : ∀ b a, g (f b a) = g b) (l : List α) (b : β) :
    g (l.foldl f b) = g b :=
  List.foldlRecOn (motive := fun x => g x = g b) l f rfl fun x hx a _ => (h x a).trans hx

/-! Updates of the state. -/

@[simp] theorem State.setMask_outsideWork (s : State) (i : Nat) (v : MaskWord) : (s.setMask i v).outsideWork = s.outsideWork := rfl

@[simp] theorem State.setCrown_outsideWork (s : State) (r j v : Nat) : (s.setCrown r j v).outsideWork = s.outsideWork := rfl

@[simp] theorem State.setBezel_outsideWork (s : State) (i j v : Nat) : (s.setBezel i j v).outsideWork = s.outsideWork := rfl

@[simp] theorem State.putCrown_outsideWork (s : State) (fmt : BitVec 4) (o k j x : Nat) :
    (s.putCrown fmt o k j x).outsideWork = s.outsideWork := by
  unfold State.putCrown
  dsimp only
  split <;> simp

/-- The generator of a control context in focus. -/
theorem State.setSeed_eq {s : State} (h : s.ctx.slot = 15) (w : Word) :
    s.setSeed w = { s with ctx := { s.ctx with srseed := w } } := if_pos h

theorem State.setSeed_control {s : State} (h : s.ctx.slot = 15) : s.setSeed s.control.srseed = s := by
  rw [setSeed_eq h, State.control, if_pos h]

theorem State.setSeed_outsideWork {s : State} (h : s.ctx.slot = 15) (w : Word) : (s.setSeed w).outsideWork = s.outsideWork := by
  rw [setSeed_eq h]
  rfl

/-- Work leaves the control context in focus. -/
theorem State.slot_of_outsideWork {s t : State} (h : t.outsideWork = s.outsideWork) : t.ctx.slot = s.ctx.slot :=
  (congrArg (fun u : State => u.ctx.slot) h :)

/-! Elements delivered into a destination (R92, R93, R168). -/

@[simp] theorem Acc.put_outsideWork (a : Acc) (d : Word512) (t : Tuple) (x : Nat) :
    (a.put d t x).s.outsideWork = a.s.outsideWork := by
  unfold Acc.put
  split <;> rfl

@[simp] theorem Acc.putByte_outsideWork (a : Acc) (d : Word512) (at' : Int) (f : Byte → Byte) :
    (a.putByte d at' f).s.outsideWork = a.s.outsideWork := by
  unfold Acc.putByte
  split <;> rfl

@[simp] theorem Acc.putDelta_outsideWork (a : Acc) (d : Word512) (t : Tuple) (delta : Nat) :
    (a.putDelta d t delta).s.outsideWork = a.s.outsideWork := Acc.putByte_outsideWork _ _ _ _

theorem Acc.foldl_outsideWork {α : Type} {f : Acc → α → Acc} (h : ∀ a x, (f a x).s.outsideWork = a.s.outsideWork) (l : List α)
    (a : Acc) : (l.foldl f a).s.outsideWork = a.s.outsideWork := foldl_keeps (fun a => a.s.outsideWork) h l a

@[simp] theorem Acc.pad_outsideWork (a : Acc) (d : Word512) (t : Tuple) : (a.pad d t).s.outsideWork = a.s.outsideWork := by
  unfold Acc.pad
  dsimp only
  split
  · refine Acc.foldl_outsideWork (fun b i => ?_) _ a
    split <;> simp
  · rfl

@[simp] theorem Acc.block_outsideWork (a : Acc) (d : Word512) (mode : BitVec 3) (sat : Bool) (os : List (Tuple × Out)) :
    (a.block d mode sat os).s.outsideWork = a.s.outsideWork := by
  unfold Acc.block
  split
  · rfl
  · simp only [Acc.pad_outsideWork, Acc.putDelta_outsideWork]
    exact Acc.foldl_outsideWork (fun b p => by simp) _ a

@[simp] theorem Acc.write_outsideWork (a : Acc) (d : Word512) (mode : BitVec 3) (sat : Bool) (os : List (Tuple × Out)) :
    (a.write d mode sat os).s.outsideWork = a.s.outsideWork := by
  unfold Acc.write
  split
  · exact Acc.foldl_outsideWork (fun b p => Acc.block_outsideWork b d mode sat p) _ a
  · exact Acc.foldl_outsideWork (fun b p => by simp) _ a

@[simp] theorem Acc.deliver_outsideWork (a : Acc) (d : Word512) (f : G64) (t : Tuple) (v : Num) :
    (a.deliver d f t v).s.outsideWork = a.s.outsideWork := Acc.write_outsideWork _ _ _ _ _

section
variable {s : State}

theorem State.boundsResult_outsideWork (a : Int) : (s.boundsResult a).1.outsideWork = s.outsideWork := rfl

theorem State.foldl_outsideWork {α : Type} {f : State → α → State} (h : ∀ t x, (f t x).outsideWork = t.outsideWork) (l : List α) :
    (l.foldl f s).outsideWork = s.outsideWork := foldl_keeps State.outsideWork h l s

theorem State.foldl_pair_outsideWork {α : Type} {f : State × Fpu → α → State × Fpu}
    (h : ∀ r x, (f r x).1.outsideWork = r.1.outsideWork) (l : List α) (u : Fpu) :
    (l.foldl f (s, u)).1.outsideWork = s.outsideWork := foldl_keeps (fun r : State × Fpu => r.1.outsideWork) h l (s, u)

/-- What a walk leaves for retirement changes the generator and nothing else. -/
theorem Acc.done_outsideWork (hslot : s.ctx.slot = 15) {a : Acc} (h : a.s.outsideWork = s.outsideWork)
    (zs : List (Nat × Bool × Bool)) : (a.done zs).1.outsideWork = s.outsideWork :=
  (State.setSeed_outsideWork ((State.slot_of_outsideWork h).trans hslot) a.e.seed).trans h

/-! The vector datapath (R164 to R187). -/

theorem Entry.walkPasses_outsideWork (e : Entry) (d : Word512) (mode : BitVec 3) (sat : Bool) (lanes : Nat) (fn : ElemFn)
    (n q : Nat) (kept : List (Tuple × Out)) (a : Acc) :
    (e.walkPasses d mode sat lanes fn n q kept a).s.outsideWork = a.s.outsideWork := by
  induction n generalizing q kept a with
  | zero => exact Acc.write_outsideWork _ _ _ _ _
  | succ n ih => exact (ih _ _ _).trans (Acc.write_outsideWork _ _ _ _ _)

theorem State.elementwise_outsideWork (hslot : s.ctx.slot = 15) (e : Entry) (f : G64) (ids : List (BitVec 6)) (fn : ElemFn) :
    (s.elementwise e f ids fn).1.outsideWork = s.outsideWork := by
  unfold State.elementwise
  dsimp only
  split
  · exact boundsResult_outsideWork _
  · exact Acc.done_outsideWork hslot (Entry.walkPasses_outsideWork e _ _ _ _ _ _ _ _ s.acc) _

theorem State.reduceRows_outsideWork (hslot : s.ctx.slot = 15) (e : Entry) (f : G64) (ids : List (BitVec 6))
    (row : List (Tuple × State) → Fpu → Num × Fpu) : (s.reduceRows e f ids row).1.outsideWork = s.outsideWork := by
  unfold State.reduceRows
  dsimp only
  split
  · exact boundsResult_outsideWork _
  · exact Acc.done_outsideWork hslot (Acc.foldl_outsideWork (fun a i => by simp) _ s.acc) _

theorem Entry.scanStep_outsideWork (e : Entry) (f : G64) (sc : Scan) (m : Nat) :
    (e.scanStep f sc m).a.s.outsideWork = sc.a.s.outsideWork := by
  unfold Entry.scanStep
  extract_lets
  split
  · show (ite _ _ _ : Acc).s.outsideWork = _
    split
    · exact Acc.write_outsideWork _ _ _ _ _
    · rfl
  · exact Acc.deliver_outsideWork _ _ _ _ _

theorem Entry.scanRow_outsideWork (e : Entry) (f : G64) (r : ScanRun) (i : Nat) :
    (e.scanRow f r i).d.s.outsideWork = r.d.s.outsideWork := by
  unfold Entry.scanRow
  extract_lets _ _ _ m _ init sc
  have row : sc.a.s.outsideWork = r.d.s.outsideWork :=
    foldl_keeps (fun sc : Scan => sc.a.s.outsideWork) (fun sc m => e.scanStep_outsideWork f sc m) _ _
  split
  · exact (Acc.write_outsideWork _ _ _ _ _).trans row
  · exact row

theorem State.scanWork_outsideWork (hslot : s.ctx.slot = 15) (e : Entry) (f : G64) :
    (s.scanWork e f).1.outsideWork = s.outsideWork := by
  unfold State.scanWork
  split
  · exact boundsResult_outsideWork _
  · exact Acc.done_outsideWork hslot
      (foldl_keeps (fun r : ScanRun => r.d.s.outsideWork) (fun r i => e.scanRow_outsideWork f r i) _ { d := s.acc }) _

theorem State.red4Work_outsideWork (hslot : s.ctx.slot = 15) (e : Entry) (f : G64) :
    (s.red4Work e f).1.outsideWork = s.outsideWork := by
  unfold State.red4Work
  dsimp only
  split
  · exact boundsResult_outsideWork _
  · exact Acc.done_outsideWork hslot (Acc.write_outsideWork _ _ _ _ _) _

theorem State.vectorWork_outsideWork (hslot : s.ctx.slot = 15) (e : Entry) : (s.vectorWork e).1.outsideWork = s.outsideWork := by
  unfold State.vectorWork
  split
  case h_26 | h_27 | h_31 => -- VREDS, VREDM, VDOT
    exact reduceRows_outsideWork hslot e _ _ _
  case h_28 => -- VSCAN
    exact scanWork_outsideWork hslot e _
  case h_33 => -- VRED4
    exact red4Work_outsideWork hslot e _
  case h_34 => -- no vector instruction
    rfl
  all_goals exact elementwise_outsideWork hslot e _ _ _

/-! The transfer port (R310 to R314, R321 to R323). -/

theorem State.fillColumn_outsideWork (view : Nat → State) (e : Word512) (o j : Nat) :
    (s.fillColumn view e o j).outsideWork = s.outsideWork := by
  unfold State.fillColumn
  dsimp only
  split
  · refine (foldl_outsideWork (fun _ _ => setCrown_outsideWork _ _ _ _) _).trans ?_
    refine (foldl_outsideWork (fun _ _ => setCrown_outsideWork _ _ _ _) _).trans ?_
    exact foldl_outsideWork (fun _ _ => putCrown_outsideWork _ _ _ _ _ _) _
  · exact foldl_outsideWork (fun _ _ => putCrown_outsideWork _ _ _ _ _ _) _

theorem State.fillWork_outsideWork (e : Entry) (f : G64) : (s.fillWork e f).1.outsideWork = s.outsideWork := by
  unfold State.fillWork
  dsimp only
  split
  · exact boundsResult_outsideWork _
  · exact foldl_outsideWork (fun t j => fillColumn_outsideWork _ _ _ _) _

theorem State.patternWork_outsideWork (e : Entry) (f : G64) : (s.patternWork e f).1.outsideWork = s.outsideWork :=
  foldl_outsideWork (fun _ _ => foldl_outsideWork (fun _ _ => putCrown_outsideWork _ _ _ _ _ _) _) _

theorem State.zeroWork_outsideWork (e : Entry) : (s.zeroWork e).1.outsideWork = s.outsideWork := rfl

theorem State.drainWork_outsideWork (hslot : s.ctx.slot = 15) (e : Entry) (f : G64) :
    (s.drainWork e f).1.outsideWork = s.outsideWork := by
  unfold State.drainWork
  extract_lets d row os a s1
  split
  · exact boundsResult_outsideWork _
  · have delivered : a.s.outsideWork = s.outsideWork := Acc.write_outsideWork _ _ _ _ _
    refine Acc.done_outsideWork hslot (a := { a with s := s1 }) ?_ _
    show (ite _ _ _ : State).outsideWork = _
    split
    · exact (foldl_outsideWork (fun t p => setBezel_outsideWork _ _ _ _) _).trans delivered
    · exact delivered

theorem State.loadBezelWork_outsideWork (hslot : s.ctx.slot = 15) (e : Entry) (f : G64) :
    (s.loadBezelWork e f).1.outsideWork = s.outsideWork := by
  unfold State.loadBezelWork
  dsimp only
  split
  · exact boundsResult_outsideWork _
  · refine Acc.done_outsideWork hslot ?_ _
    refine foldl_pair_outsideWork (fun r m => ?_) _ _
    exact setBezel_outsideWork _ _ _ _

theorem State.scaleWork_outsideWork (hslot : s.ctx.slot = 15) (e : Entry) (f : G64) :
    (s.scaleWork e f).1.outsideWork = s.outsideWork := by
  unfold State.scaleWork
  dsimp only
  split
  · exact boundsResult_outsideWork _
  · refine Acc.done_outsideWork hslot ?_ _
    refine foldl_pair_outsideWork (fun r m => ?_) _ _
    exact setBezel_outsideWork _ _ _ _

theorem State.transferWork_outsideWork (hslot : s.ctx.slot = 15) (e : Entry) :
    (s.transferWork e).1.outsideWork = s.outsideWork := by
  unfold State.transferWork
  split
  · exact fillWork_outsideWork e _
  · exact patternWork_outsideWork e _
  · exact zeroWork_outsideWork e
  · exact drainWork_outsideWork hslot e _
  · exact loadBezelWork_outsideWork hslot e _
  · exact scaleWork_outsideWork hslot e _
  · rfl

/-! SCOUT and the mask unit (R331 to R334). -/

theorem State.scoutWork_outsideWork (hslot : s.ctx.slot = 15) (e : Entry) (f : G64) :
    (s.scoutWork e f).1.outsideWork = s.outsideWork := by
  unfold State.scoutWork
  extract_lets
  split
  · exact boundsResult_outsideWork _
  · exact Acc.done_outsideWork hslot (Acc.foldl_outsideWork (fun a c => Acc.put_outsideWork _ _ _ _) _ s.acc) _

theorem State.kselWork_outsideWork (e : Entry) (f : G64) : (s.kselWork e f).1.outsideWork = s.outsideWork := by
  unfold State.kselWork
  dsimp only
  split
  · exact boundsResult_outsideWork _
  · exact setMask_outsideWork _ _ _

theorem State.maskWork_outsideWork (e : Entry) : (s.maskWork e).1.outsideWork = s.outsideWork := by
  unfold State.maskWork
  split
  case h_1 => exact kselWork_outsideWork e _
  all_goals rfl

/-! Every entry that is no product. -/

theorem State.entryWork_outsideWork (hslot : s.ctx.slot = 15) (e : Entry) : (s.entryWork e).1.outsideWork = s.outsideWork := by
  unfold State.entryWork
  split
  · exact scoutWork_outsideWork hslot e _
  · split
    · exact maskWork_outsideWork e
    · split
      · exact transferWork_outsideWork hslot e
      · exact vectorWork_outsideWork hslot e

theorem State.wordedWork_outsideWork (hslot : s.ctx.slot = 15) (e : Entry) : (s.wordedWork e).1.outsideWork = s.outsideWork := by
  unfold State.wordedWork
  split
  · exact entryWork_outsideWork hslot e
  · rename_i w _
    have seeded : (s.setSeed w).outsideWork = s.outsideWork := setSeed_outsideWork hslot w
    have hslot' : (s.setSeed w).ctx.slot = 15 := (slot_of_outsideWork seeded).trans hslot
    have work : ((s.setSeed w).entryWork e).1.outsideWork = s.outsideWork := (entryWork_outsideWork hslot' e).trans seeded
    exact (setSeed_outsideWork ((slot_of_outsideWork work).trans hslot) _).trans work

end

end Sys2Proof.Machine

namespace Sys2Proof.Claims

open Machine

/-! The resource of an instruction, its decision point, and whether it is a product (R292, R318, R339). -/

/-- The mask unit is the core's own: it is no resource of the quad. -/
theorem resource_eq (i : Instr) : resource i = if resourceOf i = 3 then none else some (resourceOf i) := by
  unfold resourceOf
  split
  case h_15 => -- the vector datapath
    unfold resource
    split <;> simp_all
  all_goals rfl

theorem hasDecision_iff (i : Instr) : hasDecision i = true ↔ resource i = some 0 := by
  unfold hasDecision
  split
  case h_4 => -- no product and no SCOUT
    unfold resource
    split <;> simp_all
  all_goals simp [resource]

theorem resourceOf_of_some {i : Instr} {r : Nat} (h : resource i = some r) : resourceOf i = r := by
  rw [resource_eq] at h
  split at h
  · cases h
  · exact Option.some.inj h

theorem resource_lt {i : Instr} {r : Nat} (h : resource i = some r) : r < 3 := by
  revert h
  unfold resource
  split <;> rintro ⟨⟩ <;> decide

/-- An MMA or an MMAK. -/
def isProduct (i : Instr) : Prop := ∃ f, i = .mma f ∨ i = .mmak f

theorem product_of_isProduct {e : Entry} (h : isProduct e.instr) : ∃ p, e.product = some p := by
  obtain ⟨f, hi | hi⟩ := h
  all_goals exact ⟨_, by rw [Entry.product, hi]⟩

theorem resource_of_isProduct {i : Instr} (h : isProduct i) : resource i = some 0 := by
  obtain ⟨f, rfl | rfl⟩ := h <;> rfl

theorem product_none {e : Entry} (h : ¬ isProduct e.instr) : e.product = none := by
  unfold Entry.product
  split
  · exact absurd ⟨_, .inl ‹_›⟩ h
  · exact absurd ⟨_, .inr ‹_›⟩ h
  · rfl

section
variable {s : State} {e : Entry} {rest : List Entry}

/-! The oldest entry of the queue (R293, R294, R296). -/

/-- The queue with its oldest entry replaced. -/
def withOldest (s : State) (x : Entry) (rest : List Entry) : State := { s with k := { s.k with mvuq := x :: rest } }

/-- The oldest entry, free to start, stands at the head: nothing holds it back (R294). -/
theorem head_of_ready (hq : queued s e rest) (hr : ready e) : s.k.head = some e := by
  obtain ⟨waiting, noLoop, decided⟩ := hr
  have oldest : s.k.mvuq.find? (fun x => x.stage == .waiting) = some e := by simp [hq.1, waiting]
  have first : s.k.mvuq.takeWhile (fun x => x.order != e.order) = [] := by simp [hq.1]
  have passed : (hasDecision e.instr && !e.decided) = false := by
    simpa [hasDecision_iff] using decided
  simp [Kern.head, oldest, first, passed, Entry.afterStores, noLoop]

theorem granted_of_served (h : served s (resource e.instr)) : s.granted (resourceOf e.instr) = true := by
  rw [State.granted, Bool.or_eq_true]
  by_cases own : resourceOf e.instr = 3
  · exact .inl (by simp [own])
  · refine .inr ?_
    have grant : (s.arbiter (arbiterKey s.coreNo (resourceOf e.instr))).grant = some (s.coreNo % 4) :=
      h (resourceOf e.instr) (by rw [resource_eq, if_neg own])
    simp [grant]

theorem not_granted {r : Nat} (hr : resource e.instr = some r) (h : ¬ served s (some r)) : s.granted (resourceOf e.instr) = false := by
  have shared := resource_lt hr
  rw [resourceOf_of_some hr, State.granted, Bool.or_eq_false_iff]
  refine ⟨by simp; omega, beq_eq_false_iff_ne.2 fun grant => h fun q hq => ?_⟩
  cases hq
  exact grant

theorem exec_start (h : here s) : exec .mvuEntryStart s = .next s.startEntry := by
  show Host.Outcome.next (s.atCore s.cmd.core State.startEntry) = _
  rw [h.1, State.atCore_self]

/-- Nothing starts on a core whose engines are to stop (R426). -/
theorem startEntry_stopping (h : ¬ Claims.free s) : s.startEntry = s := by
  have stops : s.stopping s.coreNo = true := by simpa [Claims.free] using h
  unfold State.startEntry
  split
  · rfl
  · rw [if_pos (.inr stops)]

/-- Nor does an entry that its arbiter does not serve (R296). -/
theorem startEntry_unserved (hq : queued s e rest) (hr : ready e) {r : Nat} (hres : resource e.instr = some r)
    (h : ¬ served s (some r)) : s.startEntry = s := by
  rw [State.startEntry, head_of_ready hq hr]
  exact if_pos (.inl (by simp [not_granted hres h]))

theorem not_held_up (hfree : Claims.free s) (hserved : served s (resource e.instr)) :
    ¬ (¬ s.granted (resourceOf e.instr) ∨ s.stopping s.coreNo) := by
  simp [granted_of_served hserved, show s.stopping s.coreNo = false from hfree]

section
variable (hhere : here s) (hq : queued s e rest) (hr : ready e) (hfree : Claims.free s) (hserved : served s (resource e.instr))
include hhere hq hr hfree hserved

/-- A product starts, or ends with a bounds fault (R310). -/
theorem startEntry_product {p : MatOps × (Nat → Nat → Bool)} (h : e.product = some p) :
    (∃ a, s.startEntry =
      (withOldest s { e with stage := .finished, result := { fault := some (14, a) } } rest).endQuantum 0) ∨
    (∃ tiles, s.startEntry = withOldest s { e with stage := .started, tiles := tiles } rest) := by
  rw [State.startEntry, head_of_ready hq hr]
  simp only [if_neg (not_held_up hfree hserved), trace_off hhere.2.2, h]
  cases productBounds e with
  | some a => exact .inl ⟨_, congrArg (State.endQuantum · 0) (setEntry_oldest hq rfl)⟩
  | none => exact .inr ⟨_, setEntry_oldest hq rfl⟩

/-- Of any other entry the first quantum starts (R296). -/
theorem startEntry_work (h : e.product = none) : s.startEntry = s.startWork e := by
  rw [State.startEntry, head_of_ready hq hr]
  simp only [if_neg (not_held_up hfree hserved), trace_off hhere.2.2, h]

end

/-! The quanta of an entry that is no product (R296). -/

theorem queued_of_outsideWork {t : State} (h : t.outsideWork = s.outsideWork) (hq : queued s e rest) : queued t e rest := by
  have queue : t.k.mvuq = s.k.mvuq := (congrArg (fun u : State => u.k.mvuq) h :)
  have posted : t.k.posted = s.k.posted := (congrArg (fun u : State => u.k.posted) h :)
  exact ⟨queue.trans hq.1, posted ▸ hq.2⟩

/-- The last quantum does the work, and the entry is finished with its result. -/
theorem serveEntry_last (hslot : s.ctx.slot = 15) (hq : queued s e rest) {x : Entry} (hx : x.order = e.order) (h : x.left ≤ 128) :
    s.serveEntry x = (withOldest (s.wordedWork x).1 { x with stage := .finished, left := 0, result := (s.wordedWork x).2 }
      rest).endQuantum (resourceOf x.instr) := by
  rw [State.serveEntry, if_pos h]
  exact congrArg (State.endQuantum · (resourceOf x.instr))
    (setEntry_oldest (queued_of_outsideWork (State.wordedWork_outsideWork hslot x) hq) hx)

/-- An earlier quantum takes in what it reads, and leaves the rest to do (R299). -/
theorem serveEntry_part (hq : queued s e rest) {x : Entry} (hx : x.order = e.order) (h : 128 < x.left) :
    ∃ bs, s.serveEntry x = (withOldest s { x with left := x.left - 128, taken := bs } rest).endQuantum (resourceOf x.instr) := by
  rw [State.serveEntry, if_neg (by omega)]
  exact ⟨_, congrArg (State.endQuantum · (resourceOf x.instr)) (setEntry_oldest hq hx)⟩

theorem queued_withOldest (hq : queued s e rest) {x : Entry} (hx : x.order = e.order) : queued (withOldest s x rest) x rest := by
  refine ⟨rfl, fun y hy => ?_⟩
  have same : (withOldest s x rest).k.posted.tail = s.k.posted.tail := by
    rw [Kern.posted, Kern.posted, hq.1]
    rfl
  rw [hx]
  exact hq.2 y (same ▸ hy)

/-- Of all entries, queued or on their way, the oldest is replaced. -/
theorem setPosted_oldest (hq : queued s e rest) {x : Entry} (hx : x.order = e.order) : s.setPosted x = withOldest s x rest := by
  rw [State.setPosted, setEntry_oldest hq hx]
  refine congrArg (fun l => { s with k := { s.k with mvuq := x :: rest, unreleased := l } }) (a₂ := s.k.unreleased) ?_
  refine (List.map_congr_left fun u hu => ?_).trans (List.map_id _)
  cases hw : u.work with
  | entry y =>
    have posted : y ∈ s.k.posted.tail := by
      rw [Kern.posted, hq.1]
      exact List.mem_append_right _ (List.mem_filterMap.2 ⟨u, hu, by rw [hw]⟩)
    simp [hx, hq.2 y posted]
  | _ => simp

theorem setSeed_withOldest (hslot : s.ctx.slot = 15) (x : Entry) (w : Word) :
    (withOldest s x rest).setSeed w = withOldest (s.setSeed w) x rest := by
  rw [State.setSeed_eq hslot]
  exact State.setSeed_eq (s := withOldest s x rest) hslot w

/-- An entry that reserves its words keeps the generator as it stands, which goes on behind them (R98). -/
theorem reserve_oldest (hslot : s.ctx.slot = 15) (hq : queued s e rest) :
    ∃ w, s.reserve e = withOldest (s.setSeed w) { e with seed := some s.control.srseed } rest := by
  refine ⟨(s.entryWork e).1.control.srseed, ?_⟩
  rw [State.reserve, setPosted_oldest (x := { e with seed := some s.control.srseed }) hq rfl, setSeed_withOldest hslot]

/-- An entry that one quantum holds is finished at its start (R171). -/
theorem startWork_short (hslot : s.ctx.slot = 15) (hq : queued s e rest) (h : e.cycles ≤ 128) :
    let x : Entry := { e with stage := .started, left := e.cycles }
    s.startWork e = (withOldest (s.wordedWork x).1 { x with stage := .finished, left := 0, result := (s.wordedWork x).2 }
      rest).endQuantum (resourceOf e.instr) := by
  intro x
  rw [State.startWork, if_pos h]
  exact serveEntry_last hslot hq rfl h

/-- A longer one is finished by a bounds fault, or goes through its first quantum (R98, R169, R296). -/
theorem startWork_long (hslot : s.ctx.slot = 15) (hq : queued s e rest) (h : 128 < e.cycles) :
    ∃ u x, s.startWork e = (withOldest u x rest).endQuantum (resourceOf e.instr) ∧ u.outsideWork = s.outsideWork ∧
      ((∃ f, x = { e with stage := .finished, left := 0, result := { fault := some f } }) ∨
        x = { e with stage := .started, left := e.cycles - 128, taken := x.taken, seed := x.seed }) := by
  rw [State.startWork, if_neg (by omega)]
  cases (s.wordedWork e).2.fault with
  | some f =>
    exact ⟨s, _, congrArg (State.endQuantum · (resourceOf e.instr)) (setEntry_oldest hq rfl), rfl, .inl ⟨f, rfl⟩⟩
  | none =>
    dsimp only
    split
    · obtain ⟨w, reserved⟩ := reserve_oldest hslot hq
      have still := queued_withOldest (queued_of_outsideWork (State.setSeed_outsideWork hslot w) hq)
        (x := { e with seed := some s.control.srseed }) rfl
      obtain ⟨bs, part⟩ := serveEntry_part still
        (x := { e with stage := .started, left := e.cycles, seed := some s.control.srseed }) rfl h
      rw [reserved]
      exact ⟨s.setSeed w, _, part, State.setSeed_outsideWork hslot w, .inr rfl⟩
    · obtain ⟨bs, part⟩ := serveEntry_part hq (x := { e with stage := .started, left := e.cycles }) rfl h
      exact ⟨s, _, part, rfl, .inr rfl⟩

end

end Sys2Proof.Claims

namespace Sys2Proof.Claims

open Machine

section
variable {s t u : State} {e : Entry} {rest q : List Entry}

/-! What the events of an entry leave alone. -/

/-- The queue stands as given, and nothing has changed besides it, the arbiters, and what an entry's work writes. -/
structure OnlyWork (s t : State) (q : List Entry) : Prop where
  queue : t.k.mvuq = q
  view : coreView t = coreView s
  coreNo : t.coreNo = s.coreNo
  mem : t.mem = s.mem
  clusterMem : t.clusterMem = s.clusterMem
  others : t.others = s.others

theorem onlyWork_withOldest (h : u.outsideWork = s.outsideWork) (x : Entry) : OnlyWork s (withOldest u x rest) (x :: rest) where
  queue := rfl
  view := (congrArg coreView h :)
  coreNo := (congrArg State.coreNo h :)
  mem := (congrArg State.mem h :)
  clusterMem := (congrArg State.clusterMem h :)
  others := (congrArg State.others h :)

theorem OnlyWork.setArbiter (h : OnlyWork s t q) (key : Nat) (a : Arbiter) : OnlyWork s (t.setArbiter key a) q := { h with }

theorem OnlyWork.endQuantum (h : OnlyWork s t q) (res : Nat) : OnlyWork s (t.endQuantum res) q := by
  unfold State.endQuantum
  split
  · exact h
  · exact h.setArbiter _ _

theorem endQuantum_k (res : Nat) : (s.endQuantum res).k = s.k := by
  unfold State.endQuantum
  split <;> rfl

theorem grantNext_k (key : Nat) : (s.grantNext key).k = s.k := rfl

/-- The grant of the resource that an entry has used is taken back. -/
theorem quantumOver_endQuantum (h : t.coreNo = s.coreNo) (i : Instr) : quantumOver s (t.endQuantum (resourceOf i)) (resource i) := by
  intro r hr
  have shared := resource_lt hr
  rw [resourceOf_of_some hr, State.endQuantum, if_neg (by omega)]
  simp [arbiterKey, h]

/-! The start of the oldest entry (R171, R296, R310). -/

/-- What is said of an entry that has started, or been finished at its start. -/
structure Started (e x : Entry) : Prop where
  fields : x = { e with stage := x.stage, left := x.left, tiles := x.tiles, result := x.result, taken := x.taken, seed := x.seed }
  product : isProduct e.instr → (x.stage = .started ∧ x.left = e.left ∧ x.result = e.result) ∨
    (x.stage = .finished ∧ ∃ a, x.result = { fault := some (14, a) })
  short : ¬ isProduct e.instr → e.cycles ≤ 128 → x.stage = .finished
  long : ¬ isProduct e.instr → 128 < e.cycles → (x.stage = .finished ∧ x.result.fault ≠ none) ∨
    x = { e with stage := .started, left := e.cycles - 128, taken := x.taken, seed := x.seed }

/-- The start of the oldest entry: all that it changes, and the end of its quantum unless a product goes on. -/
def startsAs (s t : State) (e : Entry) (rest : List Entry) : Prop :=
  ∃ x, OnlyWork s t (x :: rest) ∧ Started e x ∧ (x.stage = .finished ∨ ¬ isProduct e.instr → quantumOver s t (resource e.instr))

/-- A start whose quantum ends with it. -/
theorem startsAs_endQuantum (h : u.outsideWork = s.outsideWork) {x : Entry} (hx : Started e x) :
    startsAs s ((withOldest u x rest).endQuantum (resourceOf e.instr)) e rest :=
  have only := onlyWork_withOldest (rest := rest) h x
  ⟨x, only.endQuantum _, hx, fun _ => quantumOver_endQuantum only.coreNo e.instr⟩

section
variable (hhere : here s) (hq : queued s e rest) (hr : ready e) (hfree : Claims.free s) (hserved : served s (resource e.instr))
include hhere hq hr hfree hserved

theorem startEntry_startsAs_product (product : isProduct e.instr) : startsAs s s.startEntry e rest := by
  obtain ⟨p, hp⟩ := product_of_isProduct product
  have array : resourceOf e.instr = 0 := resourceOf_of_some (resource_of_isProduct product)
  rcases startEntry_product hhere hq hr hfree hserved hp with ⟨a, start⟩ | ⟨tiles, start⟩
  · rw [start, ← array]
    exact startsAs_endQuantum rfl
      ⟨rfl, fun _ => .inr ⟨rfl, a, rfl⟩, fun other => absurd product other, fun other => absurd product other⟩
  · rw [start]
    refine ⟨_, onlyWork_withOldest rfl { e with stage := .started, tiles := tiles }, ?_, fun ends => ?_⟩
    · exact ⟨rfl, fun _ => .inl ⟨rfl, rfl, rfl⟩, fun other => absurd product other, fun other => absurd product other⟩
    · exact ends.elim nofun (absurd product)

theorem startEntry_startsAs_work (other : ¬ isProduct e.instr) : startsAs s s.startEntry e rest := by
  rw [startEntry_work hhere hq hr hfree hserved (product_none other)]
  by_cases short : e.cycles ≤ 128
  · rw [startWork_short hhere.2.1 hq short]
    exact startsAs_endQuantum (State.wordedWork_outsideWork hhere.2.1 _)
      ⟨rfl, fun product => absurd product other, fun _ _ => rfl, fun _ long => absurd short (by omega)⟩
  · obtain ⟨v, x, start, work, outcome⟩ := startWork_long hhere.2.1 hq (Nat.lt_of_not_le short)
    rw [start]
    refine startsAs_endQuantum work ⟨?_, fun product => absurd product other, fun _ h => absurd h short, fun _ _ => ?_⟩
    · rcases outcome with ⟨f, rfl⟩ | started
      · rfl
      · rw [started]
    · rcases outcome with ⟨f, rfl⟩ | started
      · exact .inl ⟨rfl, by simp⟩
      · exact .inr started

theorem startEntry_startsAs : startsAs s s.startEntry e rest := by
  by_cases product : isProduct e.instr
  · exact startEntry_startsAs_product hhere hq hr hfree hserved product
  · exact startEntry_startsAs_work hhere hq hr hfree hserved product

end

/-! The next decision of its arbiter (R296). -/

theorem running_of_started (hq : queued s e rest) (hstage : e.stage = .started) {res : Nat} (hres : resource e.instr = some res) :
    s.k.running res = some e := by
  simp [Kern.running, hq.1, hstage, resourceOf_of_some hres]

/-- The decision ends the quantum of the started entry, and grants the next. -/
theorem exec_decision (hq : queued s e rest) (hstage : e.stage = .started) {res : Nat} (hres : resource e.instr = some res)
    (hp : e.product = none) (hfree : Claims.free s) (hserved : served s (some res)) (hunit : s.cmd.unit = arbiterOf s res) :
    exec .arbiterDecision s = .next ((s.serveEntry e).grantNext (arbiterOf s res)) := by
  have shared := resource_lt hres
  have running := running_of_started hq hstage hres
  have base : arbiterOf s res / 4 * 4 + s.coreNo % 4 = s.coreNo := by unfold arbiterOf; omega
  have number : arbiterOf s res % 4 = res := by unfold arbiterOf; omega
  have grant : (s.arbiter (arbiterOf s res)).grant = some (s.coreNo % 4) := hserved res rfl
  have wants : s.wants s.coreNo res = true := by
    simp [State.wants, State.kernOf, Kern.wants, running, show s.stopping s.coreNo = false from hfree]
  have due : (s.kernOf s.coreNo).quantumDue res = true := by simp [State.kernOf, Kern.quantumDue, running, hp]
  show Host.Outcome.next (if s.cmd.unit % 4 < 3 then s.decideArbiter s.cmd.unit else s) = _
  rw [hunit, if_pos (show arbiterOf s res % 4 < 3 by omega), State.decideArbiter, grant]
  simp only [base, number, wants, due, State.atCore_self, not_true_eq_false, if_false, if_true]
  rw [State.quantum, running]
  simp only [hp]

theorem decision_goes_on (hhere : here s) (hq : queued s e rest) (hstage : e.stage = .started) {res : Nat}
    (hres : resource e.instr = some res) (hp : e.product = none) (hfree : Claims.free s) (hserved : served s (some res))
    (hunit : s.cmd.unit = arbiterOf s res) :
    ∃ t x, exec .arbiterDecision s = .next t ∧ OnlyWork s t (x :: rest) ∧
      (128 < e.left → x = { e with left := e.left - 128, taken := x.taken } ∧ t.k = { s.k with mvuq := x :: rest }) ∧
      (e.left ≤ 128 → x = { e with stage := .finished, left := 0, result := x.result }) := by
  rw [exec_decision hq hstage hres hp hfree hserved hunit]
  by_cases last : e.left ≤ 128
  · rw [serveEntry_last hhere.2.1 hq rfl last]
    refine ⟨_, { e with stage := .finished, left := 0, result := (s.wordedWork e).2 }, rfl, ?_, fun h => absurd last (by omega),
      fun _ => rfl⟩
    exact ((onlyWork_withOldest (State.wordedWork_outsideWork hhere.2.1 e) _).endQuantum _).setArbiter _ _
  · obtain ⟨bs, part⟩ := serveEntry_part hq (x := e) rfl (Nat.lt_of_not_le last)
    rw [part]
    refine ⟨_, _, rfl, ((onlyWork_withOldest rfl _).endQuantum _).setArbiter _ _, fun _ => ⟨rfl, ?_⟩, fun h => absurd h last⟩
    rw [grantNext_k, endQuantum_k]
    rfl

/-! Work that takes no word of the generator: mask logic, KPOP and MZERO (R314, R334). -/

theorem wordedWork_seedless {x : Entry} {k : Kern} {r : EntryResult} (hslot : s.ctx.slot = 15)
    (work : ∀ w, (s.setSeed w).entryWork x = ({ s.setSeed w with k := k }, r)) : s.wordedWork x = ({ s with k := k }, r) := by
  unfold State.wordedWork
  split
  · have own := work s.control.srseed
    rwa [State.setSeed_control hslot] at own
  · rename_i w _
    rw [work w, State.setSeed_eq hslot, State.control, if_pos hslot]
    exact congrArg (·, r) (State.setSeed_eq (s := { s with ctx := { s.ctx with srseed := w }, k := k }) hslot _)

theorem entryWork_maskUnit {x : Entry} (own : resourceOf x.instr = 3) : s.entryWork x = s.maskWork x := by
  unfold State.entryWork
  split
  · rename_i f scout
    rw [scout] at own
    cases own
  · exact if_pos own

/-- An entry of the mask unit is served by its own core, and its one cycle finishes it. -/
theorem exec_start_maskUnit (hhere : here s) (hq : queued s e rest) (hr : ready e) (hfree : Claims.free s)
    (own : resourceOf e.instr = 3) (one : e.cycles = 1) {k : Kern} {r : EntryResult}
    (work : ∀ (x : Entry) (w : Word), x.instr = e.instr → (s.setSeed w).maskWork x = ({ s.setSeed w with k := k }, r)) :
    exec .mvuEntryStart s =
      .next { s with k := { k with mvuq := { e with stage := .finished, left := 0, result := r } :: rest } } := by
  have unshared : resource e.instr = none := by rw [resource_eq, if_pos own]
  have noProduct : e.product = none := product_none fun h => by
    have array := resource_of_isProduct h
    rw [unshared] at array
    cases array
  have served : served s (resource e.instr) := by
    rw [unshared]
    exact nofun
  have worked : s.wordedWork { e with stage := .started, left := e.cycles } = ({ s with k := k }, r) :=
    wordedWork_seedless hhere.2.1 fun w =>
      (entryWork_maskUnit (x := { e with stage := .started, left := e.cycles }) own).trans (work _ w rfl)
  rw [exec_start hhere, startEntry_work hhere hq hr hfree served noProduct, startWork_short hhere.2.1 hq (by omega), worked,
    own, State.endQuantum, if_pos rfl]
  rfl

theorem exec_start_maskLogic (hhere : here s) (hq : queued s e rest) (hr : ready e) (hfree : Claims.free s) {d : BitVec 6}
    {v : MaskWord} (h : maskResult s e.instr = some (d, v)) :
    exec .mvuEntryStart s = .next { s with k := { s.k with
      masks := s.k.masks.setIfInBounds d.toNat v
      mvuq := { e with stage := .finished, left := 0, result := {} } :: rest } } := by
  unfold maskResult at h
  split at h <;> rename_i hi <;> cases h
  all_goals
    refine exec_start_maskUnit (k := { s.k with masks := s.k.masks.setIfInBounds _ _ }) hhere hq hr hfree (by rw [hi]; rfl)
      (by rw [Entry.cycles, hi]) fun x w hx => ?_
    rw [State.maskWork, hx, hi, State.setSeed_eq hhere.2.1]
    rfl

theorem upFrom_eq_range' (lo n : Nat) : upFrom lo n = List.range' lo n := by
  induction n generalizing lo with
  | zero => rfl
  | succ n ih => rw [upFrom, ih, List.range'_succ]

theorem exec_start_kpop (hhere : here s) (hq : queued s e rest) (hr : ready e) (hfree : Claims.free s) {f : G64}
    (hi : e.instr = .kpop f) :
    exec .mvuEntryStart s = .next { s with k := { s.k with
      mvuq := { e with
        stage := .finished
        left := 0
        result := { scalar := some (f.d, BitVec.ofNat 64
          ((List.range 256).filter (fun i => (s.k.masks.getD f.a.toNat 0).getLsbD i)).length) } } :: rest } } := by
  refine exec_start_maskUnit (k := s.k) hhere hq hr hfree (by rw [hi]; rfl) (by rw [Entry.cycles, hi]) fun x w hx => ?_
  rw [State.maskWork, hx, hi, State.setSeed_eq hhere.2.1, List.range_eq_range', ← upFrom_eq_range']
  rfl

/-- The rows of a table whose keys are kept. -/
theorem find_filter_keys {α : Type} (t : Tbl α) (keep : Nat → Bool) (n : Nat) :
    Tbl.find (t.filter (fun p => keep p.1)) n = if keep n = true then Tbl.find t n else none := by
  induction t with
  | nil => simp [Tbl.find]
  | cons p t ih =>
    obtain ⟨m, v⟩ := p
    by_cases hn : n = m
    · subst hn
      cases h : keep n <;> simp_all [Tbl.find]
    · cases h : keep m <;> simp_all [Tbl.find]

/-- MZERO makes its own rows +0, and leaves the others (R314). -/
theorem zeroWork_bezel (x : Entry) {i j : Nat} (hj : j < 256) :
    Tbl.getD (s.zeroWork x).1.k.bezel (256 * i + j) 0 =
      if x.x.toNat ≤ i ∧ i < x.x.toNat + x.y.toNat then 0 else Tbl.getD s.k.bezel (256 * i + j) 0 := by
  rw [Tbl.getD, State.zeroWork]
  dsimp only
  rw [find_filter_keys s.k.bezel
    (fun n => decide (n < 256 * x.x.toNat) || decide (256 * x.x.toNat + 256 * x.y.toNat ≤ n))]
  by_cases inside : x.x.toNat ≤ i ∧ i < x.x.toNat + x.y.toNat
  · rw [if_pos inside, if_neg (by simp; omega)]
    rfl
  · rw [if_neg inside, if_pos (by simp; omega)]
    rfl

/-- Either event of an entry's last quantum leaves the Bezel as the entry's work does. -/
theorem exec_lastQuantum_bezel {event : Instr} {res : Nat} (hlast : lastQuantum s e res event) (hhere : here s)
    (hq : queued s e rest) (hres : resource e.instr = some res) (hp : e.product = none) (hfree : Claims.free s)
    (hserved : served s (some res)) :
    ∃ t stage left, exec event s = .next t ∧
      t.k.bezel = (s.wordedWork { e with stage := stage, left := left }).1.k.bezel := by
  rcases hlast with ⟨rfl, hr, hcycles⟩ | ⟨rfl, hstage, hleft, hunit⟩
  · refine ⟨_, .started, e.cycles, exec_start hhere, ?_⟩
    rw [startEntry_work hhere hq hr hfree (hres ▸ hserved) hp, startWork_short hhere.2.1 hq hcycles, endQuantum_k]
    rfl
  · refine ⟨_, e.stage, e.left, exec_decision hq hstage hres hp hfree hserved hunit, ?_⟩
    rw [grantNext_k, serveEntry_last hhere.2.1 hq rfl hleft, endQuantum_k]
    rfl

theorem wordedWork_mzero {f : G64} {x : Entry} (hslot : s.ctx.slot = 15) (hi : x.instr = .mzero f) :
    s.wordedWork x = s.zeroWork x := by
  refine wordedWork_seedless hslot fun w => ?_
  rw [State.entryWork, hi, State.setSeed_eq hslot]
  simp only [resourceOf, State.transferWork, hi]
  rfl

end

/-- Settles O42: the work of an entry is bounded by what it writes, and each event comes down to one quantum of the entry. -/
theorem entryStarts : Obligations.EntryStarts := by
  unfold Obligations.EntryStarts
  refine ⟨fun e rest s hhere hq hr hfree hserved => ?_, fun e rest res s hhere hq hstage hres hp hfree hserved hunit => ?_,
    fun e rest s hhere _ _ hstop => ?_, fun e rest s hhere hq hr hfree => ⟨fun d v hv => ?_, fun f n hi hn => ?_,
    fun r hres hno => ?_⟩, fun f e rest event s hi hhere hq hlast hfree hserved => ?_⟩
  · obtain ⟨x, only, started, ended⟩ := startEntry_startsAs hhere hq hr hfree hserved
    exact ⟨_, x, exec_start hhere, only.queue, started.fields, only.view, only.coreNo, only.mem, only.clusterMem, only.others,
      started.product, started.short, started.long, ended⟩
  · obtain ⟨t, x, next, only, part, last⟩ := decision_goes_on hhere hq hstage hres hp hfree hserved hunit
    exact ⟨t, x, next, only.queue, only.view, only.mem, part, last⟩
  · rw [exec_start hhere, startEntry_stopping hstop]
  · exact exec_start_maskLogic hhere hq hr hfree hv
  · rw [hn]
    exact exec_start_kpop hhere hq hr hfree hi
  · rw [exec_start hhere, startEntry_unserved hq hr hres hno]
  · have port : resource e.instr = some 2 := by rw [hi]; rfl
    obtain ⟨t, stage, left, next, bezel⟩ := exec_lastQuantum_bezel hlast hhere hq port
      (product_none (by simp [isProduct, hi])) hfree hserved
    rw [wordedWork_mzero (x := { e with stage := stage, left := left }) hhere.2.1 hi] at bezel
    exact ⟨t, next, fun i j hj => by rw [bezel, zeroWork_bezel _ hj]⟩

end Sys2Proof.Claims

/-! Error records (`Obligations.ModuleEvents`): the one that is written while the ring has room, and its fields (R456). -/

namespace Sys2Proof.Claims

open Machine

section
variable {s t : State} {kind n addr : Nat} {c : UnitClass} {part : Option Nat}

theorem code_eq_classNo (c : UnitClass) : c.code = classNo c := by cases c <;> rfl

/-- A field of a word that is given by its number. -/
theorem bits_ofNat {w lo len : Nat} (v : Nat) (h : lo + len ≤ w) : bits (BitVec.ofNat w v) lo len = v / 2 ^ lo % 2 ^ len := by
  apply Nat.eq_of_testBit_eq
  intro i
  by_cases hi : i < len
  · simp [bits, Nat.testBit_mod_two_pow, Nat.testBit_div_two_pow, show i + lo < w by omega]
  · simp [bits, Nat.testBit_mod_two_pow, hi]

/-- KIND, CLASS and UNIT of an error record. -/
theorem errorImage_unit (hk : kind < 2 ^ 16) : let w := s.errorImage kind c n part addr
    bits w 0 16 = kind ∧ bits w 16 8 = classNo c ∧ bits w 24 12 = n % 4096 := by
  have hc : classNo c < 2 ^ 8 := by cases c <;> decide
  simp only [State.errorImage, code_eq_classNo]
  generalize Tbl.getD s.corrected _ 0 = count
  generalize part.getD 0 = owner
  refine ⟨?_, ?_, ?_⟩ <;> rw [bits_ofNat _ (by decide)] <;> split <;> omega

/-- COUNT and ADDR of an error record whose partition is one of the sixteen. -/
theorem errorImage_count (hk : kind < 2 ^ 16) (hp : part.getD 0 < 16) :
    let w := s.errorImage kind c n part addr
    let count := Tbl.getD s.corrected (classNo c * 65536 + n) 0
    count < 2 ^ 64 → bits w 64 64 = count ∧ (addr < 2 ^ 64 → bits w 128 64 = addr) := by
  have hc : classNo c < 2 ^ 8 := by cases c <;> decide
  simp only [State.errorImage, code_eq_classNo]
  generalize Tbl.getD s.corrected _ 0 = count
  generalize part.getD 0 = owner at hp ⊢
  refine fun hcount => ⟨?_, fun haddr => ?_⟩ <;> rw [bits_ofNat _ (by decide)] <;> split <;> omega

/-- The state with a record in its error ring. -/
def withRecord (s : State) (w : BitVec 256) : State := { s with
  mem := Mem.writeLE s.mem (errorSlot s) 32 w.toNat
  mod := { s.mod with errtail := BitVec.ofNat 64 ((s.mod.errtail.toNat + 1) % 2 ^ 32) } }

theorem putErrorRecord_of_room (room : errorRoom s) (w : BitVec 256) : s.putErrorRecord w = some (withRecord s w) := by
  obtain ⟨ring, -, space⟩ := room
  have based : bits s.mod.errring 12 40 * 4096 ≠ 0 := by omega
  have notFull : ringFull s.mod.errtail s.mod.errhead (bits s.mod.errring 0 4 + 7) = false := by
    simpa [ringFull] using Nat.ne_of_lt space
  simp only [State.putErrorRecord, ringSlot, if_neg based, notFull, Bool.false_eq_true, if_false, State.putMem, withRecord,
    errorSlot]

theorem errorRecord_of_room (room : errorRoom s) :
    s.errorRecord kind c n part addr = withRecord s (s.errorImage kind c n part addr) := by
  have noneWait : s.mod.errWait = [] := room.2.1
  simp only [State.errorRecord, noneWait, List.isEmpty_nil, if_true, putErrorRecord_of_room room]

theorem errorRecord_of_noRing (noRing : bits s.mod.errring 12 40 = 0) :
    s.errorRecord kind c n part addr = s.countError c n := by
  have unwritten (w : BitVec 256) : s.putErrorRecord w = none := by simp [State.putErrorRecord, ringSlot, noRing]
  simp only [State.errorRecord, unwritten, ite_self, noRing, true_or, if_true]

/-- The partition that an error record names is one of the sixteen. -/
theorem unitOwner_lt (s : State) (c : UnitClass) (n : Nat) : (s.unitOwner c n).getD 0 < 16 := by
  have found (test : Nat → Bool) : ((upFrom 0 16).find? test).getD 0 < 16 := by
    cases h : (upFrom 0 16).find? test with
    | none => decide
    | some p => exact (mem_upFrom.mp (List.mem_of_find?_eq_some h)).2
  cases c with
  | core | quad | cluster => exact found fun p => s.ownsCluster p _
  | queueEngine => exact found fun p => s.ownsEngine p n
  | pseudoChannel => exact found fun p => s.ownsSet p (n / 16)
  | shared => exact Nat.zero_lt_succ 15

/-- An error of a unit is counted. -/
theorem countError_count (s : State) (c : UnitClass) (n : Nat) : Tbl.getD (s.countError c n).corrected (classNo c * 65536 + n) 0 =
    Tbl.getD s.corrected (classNo c * 65536 + n) 0 + 1 := by
  rw [State.countError, code_eq_classNo]
  exact Tbl.getD_put_same _ _ _ _

/-- A corrected error is counted first, and its record holds the new count. -/
theorem correct_correctedIn (room : errorRoom s) (c : UnitClass) (n addr : Nat) :
    correctedIn s (s.correct c n addr) c n addr := by
  have record : s.correct c n addr = withRecord (s.countError c n) _ := errorRecord_of_room room
  obtain ⟨kind, cls, unit⟩ := errorImage_unit (s := s.countError c n) (kind := 1) (c := c) (n := n) (part := s.unitOwner c n)
    (addr := addr) (by decide)
  have fields := errorImage_count (s := s.countError c n) (kind := 1) (c := c) (n := n) (addr := addr) (by decide)
    (unitOwner_lt s c n)
  generalize (s.countError c n).errorImage 1 c n (s.unitOwner c n) addr = w at record kind cls unit fields
  dsimp only at fields
  rw [countError_count] at fields
  rw [record]
  have mem : (withRecord (s.countError c n) w).mem = Mem.writeLE s.mem (errorSlot s) 32 w.toNat := by
    simp only [withRecord, State.countError, errorSlot]
  exact ⟨countError_count s c n, rfl, w, mem, kind, cls, unit, fun h => (fields h).1, fun ha h => (fields h).2 ha⟩

/-- An error of a root port: its record is written, or it is counted, as the statement says. -/
theorem plainError_portError (hmem : t.mem = s.mem) (hmod : t.mod = s.mod) (hcount : t.corrected = s.corrected) (port : Nat)
    (part : Option Nat) (addr : Nat) : portError s (t.plainError (SharedKind.rootPort.unit port) part addr) port := by
  have unitNo : SharedKind.rootPort.unit port = port % 4096 + 12288 := rfl
  refine ⟨fun noRing => ?_, fun room => ?_⟩
  · have record : t.plainError (SharedKind.rootPort.unit port) part addr = State.countError t.freeValue.2 .shared _ :=
      errorRecord_of_noRing (s := t.freeValue.2) (hmod ▸ noRing)
    have key : 393216 + 12288 + port % 4096 = classNo .shared * 65536 + SharedKind.rootPort.unit port := by
      simp only [classNo, unitNo]
      omega
    rw [record, key, ← hcount]
    exact ⟨hmem, hmod, countError_count _ _ _⟩
  · have roomHere : errorRoom t.freeValue.2 := by simpa [errorRoom, State.freeValue, hmod] using room
    have record : t.plainError (SharedKind.rootPort.unit port) part addr = withRecord t.freeValue.2 _ :=
      errorRecord_of_room roomHere
    obtain ⟨-, cls, unit⟩ := errorImage_unit (s := t.freeValue.2) (kind := t.freeValue.1.toNat % 6 + 1) (c := .shared)
      (n := SharedKind.rootPort.unit port) (part := part) (addr := addr) (by omega)
    generalize t.freeValue.2.errorImage _ _ _ _ _ = w at record cls unit
    have slot : errorSlot t.freeValue.2 = errorSlot s := by simp only [errorSlot, State.freeValue, hmod]
    rw [record, withRecord, slot]
    refine ⟨by simp [State.freeValue, hmod], w, by simp only [State.freeValue, hmem], cls, unit.trans ?_⟩
    rw [unitNo]
    omega

end

end Sys2Proof.Claims

/-! Errors of units (R454, R455): counted, fenced, or a cached copy discarded. -/

namespace Sys2Proof.Claims

open Machine

section
variable {s : State} {c : UnitClass}

theorem classOf_classNo (c : UnitClass) : classOf (classNo c) = c := by cases c <;> rfl

theorem classOf_of_errorUnit (h : errorUnit s c) : classOf s.cmd.part = c := h.1 ▸ classOf_classNo c

theorem unitExists_of_errorUnit (h : errorUnit s c) : unitExists c s.cmd.unit = true := by
  obtain ⟨-, below⟩ := h
  cases c <;> exact decide_eq_true below

theorem exec_scrub (h : errorUnit s c) :
    exec .scrub s = .next (if s.cmd.flag then s.correct c s.cmd.unit s.cmd.addr else s) := by
  show execScrub s = _
  simp only [execScrub, classOf_of_errorUnit h, unitExists_of_errorUnit h, Bool.and_true]

theorem exec_eccError_corrected (h : errorUnit s c) (hf : s.cmd.flag = false) :
    exec .eccError s = .next (s.correct c s.cmd.unit s.cmd.addr) := by
  show execEccError s = _
  simp [execEccError, classOf_of_errorUnit h, unitExists_of_errorUnit h, hf]

/-- An error that cannot be corrected fences its unit, unless it lies in a copy that is cached. -/
theorem exec_eccError_fences (h : errorUnit s c) (hf : s.cmd.flag = true)
    (hc : s.cmd.value = 0 ∨ ¬ (c = .core ∨ c = .shared ∨ c = .cluster)) :
    exec .eccError s = .next (s.fenceUnit c s.cmd.unit s.cmd.addr) := by
  show execEccError s = _
  have uncached {d : UnitClass} (hd : d = .core ∨ d = .shared ∨ d = .cluster) : ¬ (s.cmd.value ≠ 0 ∧ c = d) :=
    fun ⟨hv, hcd⟩ => hc.elim hv fun none => none (hcd ▸ hd)
  simp only [execEccError, classOf_of_errorUnit h, unitExists_of_errorUnit h, hf, Bool.not_true, Bool.false_eq_true, if_false,
    if_neg (uncached (.inl rfl)), if_neg (uncached (.inr (.inl rfl))), if_neg (uncached (.inr (.inr rfl)))]

/-- One that lies in a copy that a core, a walk cache or a hot-line store holds discards it. -/
theorem exec_eccError_cached (h : errorUnit s c) (hf : s.cmd.flag = true) (hv : s.cmd.value ≠ 0)
    (hc : c = .core ∨ c = .shared ∨ c = .cluster) : exec .eccError s = .next (match c with
      | .core => s.discardCached s.cmd.unit (s.cmd.value == 1) s.cmd.tag.toNat s.cmd.addr
      | .shared => s.discardWalk s.cmd.unit s.cmd.addr
      | _ => s.discardLine s.cmd.unit s.cmd.addr) := by
  show execEccError s = _
  simp only [execEccError, classOf_of_errorUnit h, unitExists_of_errorUnit h, hf, Bool.not_true, Bool.false_eq_true, if_false, hv,
    ne_eq, not_false_eq_true, true_and]
  rcases hc with rfl | rfl | rfl <;> simp

theorem fence_again {n addr : Nat} (h : s.isFenced c n = true) : s.fence c n addr = s := if_pos h

/-- The state with a unit out of service. -/
def outOfService (s : State) (c : UnitClass) (n : Nat) : State := { s with fenced := (c, n) :: s.fenced }

/-- A partition with its FAULTED set. -/
def faulted (q : Part) : Part := { q with ctl := setBits q.ctl 1 1 1 }

/-- A unit that is fenced is out of service, its owner's FAULTED is set, and no context learns of it. -/
theorem fence_spec {n addr : Nat} (h : s.isFenced c n = false) : let t := s.fence c n addr
    t.isFenced c n = true ∧ t.ctx = s.ctx ∧ t.k = s.k ∧
    ∀ p, s.unitOwner c n = some p → (t.part p).ctl = setBits (s.part p).ctl 1 1 1 := by
  have fenced : (outOfService s c n).isFenced c n = true := by simp [outOfService, State.isFenced]
  have fence : s.fence c n addr = ((s.unitOwner c n).elim (outOfService s c n) ((outOfService s c n).onPart · faulted)).errorRecord
      2 c n (s.unitOwner c n) addr := by
    rw [State.fence, if_neg (by simp [h])]
    cases s.unitOwner c n <;> rfl
  obtain ⟨m, md, co, record⟩ := State.errorRecord_frame
    ((s.unitOwner c n).elim (outOfService s c n) ((outOfService s c n).onPart · faulted)) 2 c n (s.unitOwner c n) addr
  rw [fence, record]
  have below := unitOwner_lt s c n
  cases hp : s.unitOwner c n with
  | none => exact ⟨fenced, rfl, rfl, nofun⟩
  | some p =>
    rw [hp] at below
    refine ⟨fenced, rfl, rfl, fun q hq => ?_⟩
    cases hq
    exact congrArg Part.ctl (State.part_onPart below (outOfService s c n) faulted)

/-- An entry of the TLB or of the instruction cache is discarded from the core in focus, and from nothing else. -/
theorem discardCached_spec (tlb : Bool) (va addr : Nat) : let t := s.discardCached s.coreNo tlb va addr
    t.walks = s.walks ∧ t.fenced = s.fenced ∧ t.ctx = s.ctx ∧ t.k = s.k ∧
    t.hw = if tlb then { s.hw with tlb := s.hw.tlb.filter (fun x => !(decide (x.base ≤ va) && decide (va < x.base + x.size))) }
      else { s.hw with icache := s.hw.icache.filter (fun l => l.va != va / 64 * 64) } := by
  intro t
  obtain ⟨m, md, co, record⟩ : ∃ m md co, t = _ := State.errorRecord_frame _ _ _ _ _ _
  rw [record, State.atCore_self]
  exact ⟨rfl, rfl, rfl, rfl, rfl⟩

/-- A word of a walk cache is discarded, and nothing else. -/
theorem discardWalk_spec (die addr : Nat) : let t := s.discardWalk die addr
    t.fenced = s.fenced ∧ t.ctx = s.ctx ∧ t.k = s.k ∧ t.hw = s.hw ∧ t.walks = s.walks.filter (fun e => e.1 != addr) := by
  intro t
  obtain ⟨m, md, co, record⟩ : ∃ m md co, t = _ := State.errorRecord_frame _ _ _ _ _ _
  rw [record]
  exact ⟨rfl, rfl, rfl, rfl, rfl⟩

/-- A clean line for which no request waits is discarded from its store. -/
theorem discardLine_spec {cluster addr : Nat} {l : HotLine} (only : Tbl.getD s.hot cluster [] = [l]) (hit : l.addr = addr / 64)
    (clean : l.dirty = false) (idle : l.waiting = []) : let t := s.discardLine cluster addr
    Tbl.getD t.hot cluster [] = [] ∧ t.fenced = s.fenced ∧ t.ctx = s.ctx ∧ t.k = s.k := by
  intro t
  have discarded : t = State.errorRecord { s with hot := Tbl.put s.hot cluster [] } 3 .cluster cluster
      (s.unitOwner .cluster cluster) addr := by
    simp [t, State.discardLine, State.lines, only, hit, clean, idle]
  obtain ⟨m, md, co, record⟩ := State.errorRecord_frame { s with hot := Tbl.put s.hot cluster [] } 3 .cluster cluster
    (s.unitOwner .cluster cluster) addr
  rw [discarded, record]
  exact ⟨Tbl.getD_put_same _ _ _ _, rfl, rfl, rfl⟩

end

end Sys2Proof.Claims

/-! A tick of the sample unit (R437 to R440). -/

namespace Sys2Proof.Machine

/-- A trace record changes memory and the trace registers of the core in focus, and nothing else. -/
theorem State.trace_frame (s : State) (kind : Nat) (pc : Word) (seq : BitVec 32) :
    ∃ m h, s.trace kind pc seq = { s with mem := m, hw := h } ∧ h.counts = s.hw.counts := by
  unfold State.trace State.putMem
  dsimp only
  split
  · split
    · exact ⟨s.mem, s.hw, rfl, rfl⟩
    · split
      · exact ⟨s.mem, _, rfl, rfl⟩
      · generalize Mem.writeLE s.mem _ 32 _ = m
        exact ⟨m, { s.hw with trtail := _, traceDropped := false }, rfl, rfl⟩
  · exact ⟨s.mem, s.hw, rfl, rfl⟩

/-- A core that has been out of focus comes back as it was, whatever has been done to another one. -/
theorem State.focusCore_back {s x : State} {c : Nat} (hc : c ≠ s.coreNo) (hx : x.coreNo = c)
    (ho : x.others = (s.focusCore c).others) : (x.focusCore s.coreNo).hw = s.hw := by
  rw [State.focusCore, if_neg (hx ▸ hc.symm), ho, State.focusCore, if_neg hc]
  simp

/-- The same core in focus, with the same counts, and the same registers of the module. -/
structure State.SameCounts (s t : State) : Prop where
  coreNo : t.coreNo = s.coreNo
  counts : t.hw.counts = s.hw.counts
  mod : t.mod = s.mod

theorem State.SameCounts.traceAt (s : State) (c kind : Nat) (pc : State → Word) (seq : State → BitVec 32) :
    s.SameCounts (s.atCore c (fun x => x.trace kind (pc x) (seq x))) := by
  unfold State.atCore
  split
  · obtain ⟨m, h, frame, counts⟩ := s.trace_frame kind (pc s) (seq s)
    dsimp only
    rw [frame]
    exact ⟨rfl, counts, rfl⟩
  · rename_i elsewhere
    split
    · exact ⟨rfl, rfl, rfl⟩
    · obtain ⟨m, h, frame, -⟩ := (s.focusCore c).trace_frame kind (pc (s.focusCore c)) (seq (s.focusCore c))
      dsimp only
      rw [frame]
      have back := State.focusCore_back elsewhere (x := { s.focusCore c with mem := m, hw := h }) (State.focusCore_coreNo s c) rfl
      exact ⟨State.focusCore_coreNo _ _, congrArg CoreHw.counts back,
        (State.focusCore_mod _ _).trans (State.focusCore_mod s c)⟩

theorem State.SameCounts.traceAll (cores : List Nat) (s : State) (kind : Nat) (pc : State → Word) (seq : State → BitVec 32) :
    s.SameCounts (cores.foldl (fun (acc : State) c => acc.atCore c (fun x => x.trace kind (pc x) (seq x))) s) :=
  List.foldlRecOn cores _ ⟨rfl, rfl, rfl⟩ fun t same c _ =>
    have next := State.SameCounts.traceAt t c kind pc seq
    ⟨next.coreNo.trans same.coreNo, next.counts.trans same.counts, next.mod.trans same.mod⟩

end Sys2Proof.Machine

namespace Sys2Proof.Claims

open Machine

section
variable {s : State}

theorem tickDue_iff (s : State) :
    s.tickDue = true ↔ s.mod.sampctl.getLsbD 0 = true ∧ s.mod.sampNext ≤ s.cycle.toNat := by simp [State.tickDue]

theorem exec_sampleTick_undue (h : ¬ s.tickDue = true) : exec .sampleTick s = .next s := by
  show execSampleTick s = _
  rw [execSampleTick, if_neg h]

/-- A tick latches and clears every counter, whatever the cores trace of it. -/
theorem exec_sampleTick_due (h : s.tickDue = true) :
    ∃ t, exec .sampleTick s = .next t ∧ t.hw.counts = {} ∧ t.mod = s.sample.mod := by
  have traced := State.SameCounts.traceAll s.sample.coreList s.sample 6 (fun x => x.control.pc) State.pointSeq
  refine ⟨_, ?_, traced.counts, traced.mod⟩
  show execSampleTick s = _
  rw [execSampleTick, if_pos h]

theorem ringFull_iff (tail head : Word) (log : Nat) : ringFull tail head log = true ↔ (tail - head).toNat % 2 ^ 32 = 2 ^ log := by
  simp [ringFull]

theorem writeSample_mod (s : State) (at' : Nat) : (s.writeSample at').mod = s.mod := by
  obtain ⟨m, f, frame⟩ : ∃ m f, s.writeSample at' = { s with mem := m, free := f } := by
    unfold State.writeSample
    exact ⟨_, _, rfl⟩
  rw [frame]

theorem sample_mod_full (full : ringFull s.mod.samptail s.mod.samphead (bits s.mod.sampctl 10 5) = true) :
    s.sample.mod = { s.mod with
      sampSeq := s.mod.sampSeq + 1
      sampNext := s.mod.sampNext + 2 ^ bits s.mod.sampctl 5 5
      sampTime := 0
      engineCounts := []
      quadCounts := []
      sampDropped := s.mod.sampDropped + 1 } := by
  simp only [State.sample, State.sampleRecord, if_pos full, State.clearCounts]

theorem sample_mod_room (room : ¬ ringFull s.mod.samptail s.mod.samphead (bits s.mod.sampctl 10 5) = true) :
    s.sample.mod = { s.mod with
      sampSeq := s.mod.sampSeq + 1
      sampNext := s.mod.sampNext + 2 ^ bits s.mod.sampctl 5 5
      sampTime := 0
      engineCounts := []
      quadCounts := []
      sampDropped := 0
      samptail := BitVec.ofNat 64 ((s.mod.samptail.toNat + 1) % 2 ^ 32)
      sampFirst := false } := by
  simp only [State.sample, State.sampleRecord, if_neg room, State.clearCounts, writeSample_mod]

end

end Sys2Proof.Claims

/-! HEALTH and the clock step (R457, R463), boot and reset (R458). -/

namespace Sys2Proof.Claims

open Machine

section
variable {s : State}

theorem exec_healthUpdate (s : State) : exec .healthUpdate s = .next (if s.healthDue then s.updateHealth else s) := rfl

theorem healthDue_iff (s : State) : s.healthDue = true ↔ s.mod.healthTurns < s.cycle.toNat / 2 ^ 30 := decide_eq_true_iff

/-- Wear and life are free values above the count of fences. -/
theorem updateHealth_spec (s : State) : ∃ h, s.updateHealth = { s with
      free := s.free + 3
      mod := { s.mod with health := h, healthTurns := s.cycle.toNat / 2 ^ 30 } } ∧
    bits h 0 16 = min 255 s.fenced.length := by
  refine ⟨_, rfl, ?_⟩
  rw [bits_ofNat _ (by decide)]
  omega

theorem stepDownDue_iff (s : State) : s.stepDownDue = true ↔
    1 ≤ s.sinceClock ∧ s.mod.powercap.toNat < (s.meanAt (s.sinceClock - 1)).toNat ∧ s.mod.clock < 3 := by
  simp only [State.stepDownDue, Bool.and_eq_true, decide_eq_true_eq]
  tauto

/-- The ten milliseconds before a step up are the last ten. -/
theorem stepUpDue_iff (s : State) : s.stepUpDue = true ↔
    10 ≤ s.sinceClock ∧ (∀ n, s.sinceClock ≤ n + 10 → n < s.sinceClock → (s.meanAt n).toNat < s.mod.powercap.toNat) ∧
      0 < s.mod.clock := by
  simp only [State.stepUpDue, Bool.and_eq_true, decide_eq_true_eq, List.all_eq_true, mem_upFrom]
  constructor
  · rintro ⟨⟨clock, ten⟩, below⟩
    exact ⟨ten, fun n lo hi => below n ⟨by omega, by omega⟩, clock⟩
  · rintro ⟨ten, below, clock⟩
    exact ⟨⟨clock, ten⟩, fun n ⟨lo, hi⟩ => below n (by omega) (by omega)⟩

theorem exec_powerStepDown (s : State) :
    exec .powerStepDown s = .next (if s.stepDownDue then s.setClock (s.mod.clock + 1) else s) := rfl
theorem exec_powerStepUp (s : State) :
    exec .powerStepUp s = .next (if s.stepUpDue then s.setClock (s.mod.clock - 1) else s) := rfl
theorem exec_powerGood (s : State) : exec .powerGood s =
    .next (if s.mod.boot = .reset then { s with mod := { s.mod with boot := .rom } } else s) := rfl

theorem accepts_iff (m : Module) (image : List Byte) (version : Word) :
    m.accepts image version = true ↔ Config.signatureOk image = true ∧ m.rollback.toNat ≤ version.toNat := by
  simp [Module.accepts]

theorem exec_romImageCheck_elsewhere (h : s.mod.boot ≠ .rom) : exec .romImageCheck s = .next s := by
  show execRomImageCheck s = _
  simp only [execRomImageCheck, if_pos h]

theorem exec_romImageCheck_good (h : s.mod.boot = .rom)
    (good : s.mod.imageCut = false ∧ s.mod.accepts s.mod.image s.mod.imageVersion = true) : exec .romImageCheck s =
      .next { s with mod := { s.mod with boot := .firmware, measurement := Config.sha512 s.mod.image } } := by
  show execRomImageCheck s = _
  simp [execRomImageCheck, h, good]

theorem exec_romImageCheck_bad (h : s.mod.boot = .rom)
    (bad : ¬ (s.mod.imageCut = false ∧ s.mod.accepts s.mod.image s.mod.imageVersion = true)) : exec .romImageCheck s =
      .next (State.plainError { s with mod := { s.mod.tryImage s.cmd.bytes s.cmd.value with boot := .recovery } } 0 none 0) := by
  have refused : (!s.mod.imageCut && s.mod.accepts s.mod.image s.mod.imageVersion) = false := by simpa using bad
  show execRomImageCheck s = _
  simp [execRomImageCheck, h, refused]

/-- An error record, written or waiting, leaves every register of the module but those of the error ring. -/
theorem errorRecord_mod (s : State) (kind : Nat) (c : UnitClass) (n : Nat) (part : Option Nat) (addr : Nat) :
    ∃ tail waiting, (s.errorRecord kind c n part addr).mod = { s.mod with errtail := tail, errWait := waiting } := by
  unfold State.errorRecord
  generalize s.errorImage kind c n part addr = r
  dsimp only
  split
  · rename_i t h
    split at h
    · obtain ⟨a, rfl⟩ := State.putErrorRecord_frame h
      exact ⟨_, s.mod.errWait, rfl⟩
    · cases h
  · split
    · exact ⟨s.mod.errtail, s.mod.errWait, rfl⟩
    · exact ⟨s.mod.errtail, _, rfl⟩

/-- The one try of another image: taken whole if it is offered and passes the checks. -/
theorem tryImage_taken {m : Module} {image : List Byte} {version : Word}
    (h : image ≠ [] ∧ m.accepts image version = true) :
    m.tryImage image version = { m with image := image, imageVersion := version, imageCut := false } :=
  if_pos (by simpa using h)

theorem tryImage_kept {m : Module} {image : List Byte} {version : Word}
    (h : ¬ (image ≠ [] ∧ m.accepts image version = true)) : m.tryImage image version = m :=
  if_neg (by simpa using h)

theorem exec_firmwareBringUp_elsewhere (h : s.mod.boot ≠ .firmware) : exec .firmwareBringUp s = .next s := by
  show execFirmwareBringUp s = _
  simp only [execFirmwareBringUp, if_neg h]

theorem exec_firmwareBringUp (h : s.mod.boot = .firmware) : exec .firmwareBringUp s = .next { s with mod := { s.mod with
    boot := .running
    links := tableOf 64 (s.cmd.bytes.take 18) s.mod.links
    linkEnabled := s.mod.linkEnabled || (s.cmd.bytes.take 18).any (fun b => decide (b.toNat < 64))
    rootPorts := tableOf 16 ((s.cmd.bytes.drop 18).take 16) s.mod.rootPorts } } := by
  show execFirmwareBringUp s = _
  simp only [execFirmwareBringUp, if_pos h]

/-- Entries put one after another: one whose key no later entry has stands in the table. -/
theorem find_foldl_put_of_notMem {es : List (Byte × Nat)} {k : Nat} (h : ∀ e ∈ es, e.2 ≠ k) (t : Tbl Nat) :
    Tbl.find (es.foldl (fun acc e => Tbl.put acc e.2 e.1.toNat) t) k = Tbl.find t k := by
  induction es generalizing t with
  | nil => rfl
  | cons e es ih =>
    rw [List.foldl_cons, ih fun e' he' => h e' (List.mem_cons_of_mem e he')]
    exact Tbl.find_put_other t _ (h e List.mem_cons_self).symm

theorem find_foldl_put {es : List (Byte × Nat)} (distinct : (es.map Prod.snd).Nodup) {b : Byte} {k : Nat} (h : (b, k) ∈ es)
    (t : Tbl Nat) : Tbl.find (es.foldl (fun acc e => Tbl.put acc e.2 e.1.toNat) t) k = some b.toNat := by
  induction es generalizing t with
  | nil => cases h
  | cons e es ih =>
    rw [List.map_cons, List.nodup_cons] at distinct
    rw [List.foldl_cons]
    rcases List.mem_cons.mp h with rfl | later
    · rw [find_foldl_put_of_notMem fun e' he' hk => distinct.1 (List.mem_map.mpr ⟨e', he', hk⟩)]
      exact Tbl.find_put_same t _ _
    · exact ih distinct.2 later _

/-- A byte below the bound stands in the table at its place. -/
theorem find_tableOf {bound i : Nat} {bs : List Byte} {b : Byte} (t : Tbl Nat) (h : bs[i]? = some b) (hb : b.toNat < bound) :
    Tbl.find (tableOf bound bs t) i = some b.toNat := by
  obtain ⟨hi, here⟩ := List.getElem?_eq_some_iff.mp h
  refine find_foldl_put ?_ ?_ t
  · refine List.Nodup.sublist (List.filter_sublist.map _) ?_
    rw [upFrom_eq_range', List.map_snd_zip (by simp)]
    exact List.nodup_range'
  · rw [List.mem_filter]
    refine ⟨List.mem_iff_getElem?.mpr ⟨i, ?_⟩, decide_eq_true hb⟩
    rw [upFrom_eq_range', List.getElem?_zip_eq_some]
    exact ⟨h, by simp [hi]⟩

end

end Sys2Proof.Claims

/-! Links (R460), ports and slices (R462), DMA of a root port (R461). -/

namespace Sys2Proof.Claims

open Machine

section
variable {s : State}

theorem exec_linkFail_down (h : Tbl.find s.mod.links s.cmd.unit = none) : exec .linkFail s = .next s := by
  show execLinkFail s = _
  rw [execLinkFail, h]

theorem exec_linkFail_up {target : Nat} (h : Tbl.find s.mod.links s.cmd.unit = some target) :
    let left := Tbl.del s.mod.links s.cmd.unit
    exec .linkFail s = if left.any (fun l => l.2 == target) then .next { s with mod := { s.mod with links := left } }
      else .next (State.endRequests { s with mod := { s.mod with links := left, lost := target :: s.mod.lost } } target) := by
  show execLinkFail s = _
  rw [execLinkFail, h]

/-- Cores that change nothing, and no task that no core runs. -/
theorem endInOrder_idle {here : State → Nat → State} (idle : ∀ c, here s c = s) (addr : Rec → Nat) :
    s.endInOrder here [] addr = s := by
  simp only [State.endInOrder, List.filter_nil, List.foldl_nil]
  refine List.foldlRecOn (motive := (· = s)) _ _ rfl fun t same c _ => ?_
  subst same
  rw [idle, ite_self]

/-- No task ends where none has a request outstanding. -/
theorem endRequests_idle {target : Nat} (late : s.late = []) (idle : ∀ c, (s.focusCore c).outstandingTo target = none) :
    s.endRequests target = s := by
  have allKept : { s with late := s.late.filter (fun b => !(b.goesTo target)) } = s := by rw [late, List.filter_nil, ← late]
  rw [State.endRequests, allKept]
  refine endInOrder_idle (fun c => ?_) _
  rw [idle]

theorem outstandingTo_mod (s : State) (md : Module) (c target : Nat) :
    (State.focusCore { s with mod := md } c).outstandingTo target = (s.focusCore c).outstandingTo target := by
  unfold State.focusCore
  split <;> rfl

theorem exec_cxlPortFail (s : State) : exec .cxlPortFail s = .next (if s.cmd.unit < 8 then
    State.strandAll { s with mod := { s.mod with portsDown := s.cmd.unit :: s.mod.portsDown.filter (fun p => p != s.cmd.unit) } }
    else s) := rfl

theorem strandAll_noPages (h : s.pages = []) : s.strandAll = s := by simp [State.strandAll, h]

theorem exec_dynamicCapacity (s : State) : exec .dynamicCapacity s = .next (if s.cmd.unit < 96 ∧ ¬ s.mod.slices.contains s.cmd.unit
    then { s with mod := { s.mod with slices := s.cmd.unit :: s.mod.slices } } else s) := rfl

/-! DMA. -/

theorem exec_dmaRequest_unassigned (h : Tbl.find s.mod.rootPorts s.cmd.unit = none) :
    exec .dmaRequest s = .next (s.plainError (SharedKind.rootPort.unit s.cmd.unit) none 0) := by
  show execDmaRequest s = _
  simp only [execDmaRequest, h]

theorem exec_dmaRequest_refused {p : Nat} {r : Stop} (h : Tbl.find s.mod.rootPorts s.cmd.unit = some p)
    (plan : s.dmaPlan p s.cmd = .error r) : exec .dmaRequest s = .next (s.refuseDma s.cmd.unit p r) := by
  show execDmaRequest s = _
  simp only [execDmaRequest, h, plan]

theorem exec_dmaRequest_planned {p : Nat} {ts : List Target} (h : Tbl.find s.mod.rootPorts s.cmd.unit = some p)
    (plan : s.dmaPlan p s.cmd = .ok ts) : exec .dmaRequest s = .next (if ts.any (fun t => s.awaited t.addr)
      then s.requeue .dmaRequest s.cmd else (ts.zip s.cmd.bytes).foldl State.dmaByte s) := by
  show execDmaRequest s = _
  simp only [execDmaRequest, h, plan]

/-- Where the write of one byte goes, or why it is refused. -/
theorem dmaPlan_byte {p : Nat} {b : Byte} (h : s.cmd.bytes = [b]) :
    s.dmaPlan p s.cmd = (s.engineXlate p s.cmd.value true).map fun x => [x] := by
  rw [State.dmaPlan, h]
  show State.dmaTargets s p s.cmd.value true 1 = _
  rw [State.dmaTargets]
  cases s.engineXlate p s.cmd.value true <;> rfl

theorem dmaPlan_read {p : Nat} (h : s.cmd.bytes = []) : s.dmaPlan p s.cmd = s.dmaTargets p s.cmd.value false s.cmd.addr := by
  rw [State.dmaPlan, h]
  rfl

/-- A byte of a DMA changes memory, the hot-line stores and what is known of writes. -/
theorem dmaByte_frame (s : State) (x : Target) (b : Byte) : ∃ h e,
    s.dmaByte (x, b) = { s with mem := Mem.set s.mem x.addr b, hot := h, before := e } := by
  obtain ⟨e, overwritten⟩ := s.overwrite_frame .globalMem x.addr 1
  obtain ⟨h, soiled⟩ := State.soil_frame { s with before := e } x.addr
  exact ⟨h, e, by simp only [State.dmaByte, overwritten, soiled]⟩

/-- What a refused DMA leaves of the state that the error record finds: no context learns of it, and it is not tried again. -/
theorem plainError_keeps (t : State) (n : Nat) (part : Option Nat) (addr : Nat) : let u := t.plainError n part addr
    u.ctx = t.ctx ∧ u.k = t.k ∧ u.inflight = t.inflight ∧ u.pages = t.pages := by
  intro u
  obtain ⟨m, md, co, record⟩ : ∃ m md co, u = _ := t.plainError_frame n part addr
  rw [record]
  exact ⟨rfl, rfl, rfl, rfl⟩

/-- A refused translation has its error record, and nothing else. -/
theorem refuseDma_trap (port p cause : Nat) (addr detail : Word) :
    ∃ at', s.refuseDma port p (.trap cause addr detail) = s.plainError (SharedKind.rootPort.unit port) (some p) at' := by
  unfold State.refuseDma
  split
  · rename_i h
    cases h
  · exact ⟨_, rfl⟩
  · exact ⟨_, rfl⟩

theorem refuseDma_tierMiss (s : State) (port p leaf : Nat) (va : Word) : s.refuseDma port p (.tierMiss leaf va) =
    (s.askPageIn p leaf va).plainError (SharedKind.rootPort.unit port) (some p) 0 := rfl

/-- The page-in that is asked for starts, where nothing moves the page. -/
theorem askPageIn_page {p leaf : Nat} {va : Word} (h : (s.page leaf).stage = .none) :
    ((s.askPageIn p leaf va).page leaf).stage = .pageIn ∧ ((s.askPageIn p leaf va).page leaf).va = va := by
  simp only [State.askPageIn, State.page_onPage, h, and_self]

end

end Sys2Proof.Claims

/-! A container that is loaded (R188, R195 to R198, R205): what its text and its records are, and where they are written. -/

namespace Sys2Proof.Machine

theorem State.soilAll_frame (granules : List Nat) (s : State) :
    ∃ h, granules.foldl (fun (acc : State) g => acc.soil (g * 64)) s = { s with hot := h } :=
  List.foldlRecOn (motive := fun (t : State) => ∃ h, t = { s with hot := h }) granules _ ⟨s.hot, rfl⟩ fun t ⟨h, ht⟩ g _ => by
    obtain ⟨h', hg⟩ := t.soil_frame (g * 64)
    exact ⟨h', by rw [hg, ht]⟩

theorem State.markOutsideAll_frame (ident : Nat) (granules : List Nat) (s : State) :
    ∃ r, granules.foldl (State.markOutside ident) s = { s with records := r } :=
  List.foldlRecOn (motive := fun (t : State) => ∃ r, t = { s with records := r }) granules _ ⟨s.records, rfl⟩ fun t ⟨r, ht⟩ g _ => by
    rw [State.markOutside]
    split
    · exact ⟨_, by rw [ht]⟩
    · exact ⟨r, ht⟩

/-- While there is no home map, no byte of it asks for a record block. -/
theorem State.askBlocks_noMap {s : State} (noMap : bits s.mod.homemap 12 40 = 0) (cells : List (Nat × Byte)) :
    s.askBlocks cells = s := by
  simp [State.askBlocks, State.mapBase, noMap]

/-- A write of an application core, while there is no home map. -/
theorem State.outsideWrite_frame {s : State} (noMap : bits s.mod.homemap 12 40 = 0) (core at' : Nat) (bs : List Byte) :
    ∃ h b r, s.outsideWrite core at' bs = { s with mem := Mem.putBytes s.mem at' bs, hot := h, before := b, records := r } := by
  obtain ⟨b, hb⟩ := s.overwrite_frame .globalMem at' bs.length
  obtain ⟨h, hh⟩ := State.soilAll_frame (granulesOf at' bs.length) { s with before := b }
  obtain ⟨r, hr⟩ := State.markOutsideAll_frame (s.appIdent core) (granulesOf at' bs.length)
    { s with mem := Mem.putBytes s.mem at' bs, hot := h, before := b }
  have unasked := State.askBlocks_noMap (s := { s with mem := Mem.putBytes s.mem at' bs, hot := h, before := b }) noMap
    ((upFrom at' bs.length).zip bs)
  refine ⟨h, b, r, ?_⟩
  rw [State.outsideWrite, hb, hh]
  dsimp only
  rw [unasked, hr]

/-- A text that a load writes, if there is one. -/
def State.writeText (s : State) (core at' : Nat) (bs : List Byte) : State := if bs.isEmpty then s else s.outsideWrite core at' bs

theorem State.writeText_frame {s : State} (noMap : bits s.mod.homemap 12 40 = 0) (core at' : Nat) (bs : List Byte) :
    ∃ h b r, s.writeText core at' bs = { s with mem := Mem.putBytes s.mem at' bs, hot := h, before := b, records := r } := by
  cases bs with
  | nil => exact ⟨s.hot, s.before, s.records, rfl⟩
  | cons b bs => exact State.outsideWrite_frame noMap core at' (b :: bs)

/-- The code of translated functions, of kernels or of helpers, in their order. -/
def loadedCode (helper : Bool) (out : List Translation) : List Byte :=
  (out.filter (fun o => o.level != 255 && o.helper == helper)).flatMap (fun o => o.code.bytes)

theorem bytesOfNat_length (n v : Nat) : (bytesOfNat n v).length = n := by
  induction n generalizing v with
  | zero => rfl
  | succ n ih => rw [bytesOfNat, List.length_cons, ih]

theorem Translation.record_length (o : Translation) (entry : Nat) (xrefs : List Byte) :
    (o.record entry xrefs).length = 32 + 8 * (o.code.map o.level).length + xrefs.length := by
  simp only [Translation.record, List.length_append, List.length_flatMap, bytesOfNat_length, List.map_const', List.sum_replicate,
    smul_eq_mul]
  omega

/-- Functions loaded one after another: their code is appended by its kind, and each has a record. -/
theorem Loaded.foldl_add (base : Word) (xrefs : List Byte) (out : List Translation) (l : Loaded) :
    let r := out.foldl (Loaded.add base xrefs) l
    r.kernels = l.kernels ++ loadedCode false out ∧ r.helpers = l.helpers ++ loadedCode true out ∧
    r.records.length = l.records.length + (out.map (fun o => 32 + 8 * (o.code.map o.level).length + xrefs.length)).sum := by
  induction out generalizing l with
  | nil => simp [loadedCode]
  | cons o out ih =>
    obtain ⟨kernels, helpers, records⟩ := ih (l.add base xrefs o)
    simp only [List.foldl_cons, kernels, helpers, records]
    by_cases rejected : o.level = 255
    · simp [Loaded.add, rejected, loadedCode, Translation.record_length, Nat.add_assoc]
    · cases ofHelper : o.helper <;>
        simp [Loaded.add, rejected, ofHelper, loadedCode, Translation.record_length, Nat.add_assoc]

/-- The bytes of a number written in order are the number written. -/
theorem Mem.putBytes_bytesOfNat (m : Mem) (a n v : Nat) : Mem.putBytes m a (bytesOfNat n v) = Mem.writeLE m a n v := by
  induction n generalizing m a v with
  | zero => rfl
  | succ n ih => exact ih _ _ _

end Sys2Proof.Machine

namespace Sys2Proof.Claims

open Machine

section
variable {s : State}

theorem exec_thaquetTranslation (s : State) : let l := loadContainer s.cmd.bytes s.cmd.value
    exec .thaquetTranslation s = .next (((s.writeText s.cmd.core s.cmd.addr l.kernels).writeText s.cmd.core s.cmd.tag.toNat
      l.helpers).writeText s.cmd.core s.cmd.unit l.records) := rfl

/-- A load writes its three texts to memory, and the context in focus does not learn of it. -/
theorem exec_thaquetTranslation_mem (noMap : bits s.mod.homemap 12 40 = 0) : let l := loadContainer s.cmd.bytes s.cmd.value
    ∃ t, exec .thaquetTranslation s = .next t ∧ t.ctx = s.ctx ∧ t.k = s.k ∧ t.mem = Mem.putBytes (Mem.putBytes
      (Mem.putBytes s.mem s.cmd.addr l.kernels) s.cmd.tag.toNat l.helpers) s.cmd.unit l.records := by
  intro l
  obtain ⟨h₁, b₁, r₁, kernels⟩ := State.writeText_frame noMap s.cmd.core s.cmd.addr l.kernels
  obtain ⟨h₂, b₂, r₂, helpers⟩ := State.writeText_frame (s := s.writeText s.cmd.core s.cmd.addr l.kernels)
    (by rw [kernels]; exact noMap) s.cmd.core s.cmd.tag.toNat l.helpers
  obtain ⟨h₃, b₃, r₃, records⟩ := State.writeText_frame (s := (s.writeText s.cmd.core s.cmd.addr l.kernels).writeText
    s.cmd.core s.cmd.tag.toNat l.helpers) (by rw [helpers, kernels]; exact noMap) s.cmd.core s.cmd.unit l.records
  refine ⟨_, exec_thaquetTranslation s, ?_⟩
  rw [records, helpers, kernels]
  exact ⟨rfl, rfl, rfl⟩

theorem containerBad_of_magic {img : List Byte} (h : field img 0 4 ≠ 0x51414854) : containerBad img = true := by
  simp [containerBad, ContainerHead.read, h]

/-- A refused container is one record of status 1, of no level. -/
theorem loadContainer_bad {img : List Byte} (h : containerBad img = true) (base : Word) :
    loadContainer img base = { records := bytesOfNat 32 (2 ^ 64 + 255 * 2 ^ 56) } := by
  have record : ({ status := 1 } : Translation).record 0 [] = bytesOfNat 32 (2 ^ 64 + 255 * 2 ^ 56) := by
    have noCode : Code.map {} 255 = [] := rfl
    simp [Translation.record, noCode]
  simp only [loadContainer, if_pos h, record]

theorem thaquetTranslation_bad (noMap : bits s.mod.homemap 12 40 = 0) (bad : field s.cmd.bytes 0 4 ≠ 0x51414854)
    (wf : s.mem.wf = true) : ∃ t, exec .thaquetTranslation s = .next t ∧ t.ctx = s.ctx ∧ t.k = s.k ∧
      Mem.readLE t.mem s.cmd.unit 32 = 2 ^ 64 + 255 * 2 ^ 56 ∧
      ∀ x, (x < s.cmd.unit ∨ s.cmd.unit + 32 ≤ x) → Mem.get t.mem x = Mem.get s.mem x := by
  obtain ⟨t, next, ctx, k, mem⟩ := exec_thaquetTranslation_mem noMap
  have written : t.mem = Mem.writeLE s.mem s.cmd.unit 32 (2 ^ 64 + 255 * 2 ^ 56) := by
    rw [mem, loadContainer_bad (containerBad_of_magic bad)]
    exact Mem.putBytes_bytesOfNat _ _ _ _
  refine ⟨t, next, ctx, k, ?_, fun x outside => ?_⟩
  · rw [written, Mem.readLE_writeLE wf]
    decide
  · rw [written, Mem.get_writeLE_other wf _ _ _ _ outside]

theorem thaquetTranslation_good (noMap : bits s.mod.homemap 12 40 = 0) (good : containerBad s.cmd.bytes = false) :
    let img := s.cmd.bytes
    let h := ContainerHead.read img
    let out := (funcsOf img h).map (translateFunc img h (funcsOf img h))
    let xrefs := (img.drop h.xref).take (8 * h.xrefn)
    ∃ t records, exec .thaquetTranslation s = .next t ∧ t.ctx = s.ctx ∧ t.k = s.k ∧
      t.mem = Mem.putBytes (Mem.putBytes (Mem.putBytes s.mem s.cmd.addr (loadedCode false out)) s.cmd.tag.toNat (loadedCode true out))
        s.cmd.unit records ∧
      records.length = (out.map (fun o => 32 + 8 * (o.code.map o.level).length + xrefs.length)).sum := by
  intro img h out xrefs
  obtain ⟨t, next, ctx, k, mem⟩ := exec_thaquetTranslation_mem noMap
  have load : loadContainer s.cmd.bytes s.cmd.value = out.foldl (Loaded.add s.cmd.value xrefs) {} := by
    rw [loadContainer, if_neg (by simp [good])]
  obtain ⟨kernels, helpers, records⟩ := Loaded.foldl_add s.cmd.value xrefs out {}
  rw [load, kernels, helpers] at mem
  exact ⟨t, _, next, ctx, k, mem, records.trans (Nat.zero_add _)⟩

end

end Sys2Proof.Claims

/-! The events of the module (`Obligations.ModuleEvents`). -/

namespace Sys2Proof.Claims

open Machine

section
variable {s : State}

theorem eccError_channel (unit : errorUnit s .pseudoChannel) (hf : s.cmd.flag = true) :
    exec .eccError s = .next (s.fence .pseudoChannel s.cmd.unit s.cmd.addr) :=
  exec_eccError_fences unit hf (.inr (by simp))

theorem eccError_core (unit : errorUnit s .core) (hf : s.cmd.flag = true) (hv : s.cmd.value ≠ 0) (here : s.cmd.unit = s.coreNo) :
    let va := s.cmd.tag.toNat
    ∃ t, exec .eccError s = .next t ∧ t.walks = s.walks ∧ t.fenced = s.fenced ∧ t.ctx = s.ctx ∧ t.k = s.k ∧
      (s.cmd.value = 1 → t.hw = { s.hw with
        tlb := s.hw.tlb.filter (fun x => !(decide (x.base ≤ va) && decide (va < x.base + x.size))) }) ∧
      (s.cmd.value ≠ 1 → t.hw = { s.hw with icache := s.hw.icache.filter (fun l => l.va != va / 64 * 64) }) := by
  intro va
  obtain ⟨walks, fenced, ctx, k, hw⟩ := discardCached_spec (s := s) (s.cmd.value == 1) va s.cmd.addr
  rw [exec_eccError_cached unit hf hv (.inl rfl), here]
  refine ⟨_, rfl, walks, fenced, ctx, k, fun tlb => ?_, fun text => ?_⟩
  · rw [hw, if_pos (by simpa using tlb)]
  · rw [hw, if_neg (by simpa using text)]

theorem eccError_shared (unit : errorUnit s .shared) (hf : s.cmd.flag = true) :
    ∃ t, exec .eccError s = .next t ∧ t.fenced = s.fenced ∧ t.ctx = s.ctx ∧ t.k = s.k ∧ t.hw = s.hw ∧
      t.walks = if s.cmd.value = 0 then s.walks else s.walks.filter (fun e => e.1 != s.cmd.addr) := by
  by_cases hv : s.cmd.value = 0
  · obtain ⟨m, md, co, record⟩ := s.plainError_frame s.cmd.unit none s.cmd.addr
    refine ⟨_, exec_eccError_fences unit hf (.inl hv), ?_⟩
    rw [State.fenceUnit, record, if_pos hv]
    exact ⟨rfl, rfl, rfl, rfl, rfl⟩
  · rw [if_neg hv]
    exact ⟨_, exec_eccError_cached unit hf hv (.inr (.inl rfl)), discardWalk_spec _ _⟩

theorem healthUpdate_due (due : s.mod.healthTurns < s.cycle.toNat / 2 ^ 30) : ∃ h, exec .healthUpdate s = .next { s with
      free := s.free + 3
      mod := { s.mod with health := h, healthTurns := s.cycle.toNat / 2 ^ 30 } } ∧
    bits h 0 16 = min 255 s.fenced.length := by
  obtain ⟨h, update, fences⟩ := updateHealth_spec s
  exact ⟨h, by rw [exec_healthUpdate, if_pos ((healthDue_iff s).mpr due), update], fences⟩

/-- The links and root ports that firmware brings up. -/
theorem firmwareBringUp_links (h : s.mod.boot = .firmware) : ∃ t, exec .firmwareBringUp s = .next t ∧ t.mod.boot = .running ∧
    ∀ i b, i < 18 → s.cmd.bytes[i]? = some b → b.toNat < 64 →
      Tbl.find t.mod.links i = some b.toNat ∧ t.mod.linkEnabled = true := by
  refine ⟨_, exec_firmwareBringUp h, rfl, fun i b hi hb serves => ?_⟩
  have listed : (s.cmd.bytes.take 18)[i]? = some b := by rw [List.getElem?_take_of_lt hi, hb]
  have enabled : (s.cmd.bytes.take 18).any (fun b => decide (b.toNat < 64)) = true :=
    List.any_eq_true.mpr ⟨b, List.mem_of_getElem? listed, decide_eq_true serves⟩
  exact ⟨find_tableOf _ listed serves, Bool.or_eq_true_iff.mpr (.inr enabled)⟩

theorem firmwareBringUp_rootPorts (h : s.mod.boot = .firmware) : ∃ t, exec .firmwareBringUp s = .next t ∧
    ∀ i b, i < 16 → s.cmd.bytes[18 + i]? = some b → b.toNat < 16 → Tbl.find t.mod.rootPorts i = some b.toNat := by
  refine ⟨_, exec_firmwareBringUp h, fun i b hi hb assigned => find_tableOf _ ?_ assigned⟩
  rw [List.getElem?_take_of_lt hi, List.getElem?_drop, hb]

/-- A failed check of the image, with the one try of another. -/
theorem romImageCheck_bad (h : s.mod.boot = .rom)
    (bad : ¬ (s.mod.imageCut = false ∧ s.mod.accepts s.mod.image s.mod.imageVersion = true)) :
    let offered := s.cmd.bytes ≠ [] ∧ s.mod.accepts s.cmd.bytes s.cmd.value = true
    ∃ t, exec .romImageCheck s = .next t ∧ t.mod.boot = .recovery ∧ t.mod.measurement = s.mod.measurement ∧
      (offered → t.mod.image = s.cmd.bytes ∧ t.mod.imageVersion = s.cmd.value ∧ t.mod.imageCut = false) ∧
      (¬ offered → t.mod.image = s.mod.image ∧ t.mod.imageVersion = s.mod.imageVersion ∧ t.mod.imageCut = s.mod.imageCut) := by
  intro offered
  refine ⟨_, exec_romImageCheck_bad h bad, ?_⟩
  obtain ⟨tail, waiting, record⟩ : ∃ tail waiting, (State.plainError
      { s with mod := { s.mod.tryImage s.cmd.bytes s.cmd.value with boot := .recovery } } 0 none 0).mod = _ :=
    errorRecord_mod _ _ _ _ _ _
  rw [record]
  by_cases taken : offered
  · refine ⟨rfl, ?_, fun _ => ?_, fun untaken => absurd taken untaken⟩ <;> simp [State.freeValue, tryImage_taken taken]
  · refine ⟨rfl, ?_, fun now => absurd now taken, fun _ => ?_⟩ <;> simp [State.freeValue, tryImage_kept taken]

theorem linkFail_last {target : Nat} (h : Tbl.find s.mod.links s.cmd.unit = some target)
    (last : ∀ e ∈ Tbl.del s.mod.links s.cmd.unit, e.2 ≠ target) (late : s.late = [])
    (idle : ∀ c, (s.focusCore c).outstandingTo target = none) : exec .linkFail s = .next { s with mod := { s.mod with
      links := Tbl.del s.mod.links s.cmd.unit, lost := target :: s.mod.lost } } := by
  have served : ¬ (Tbl.del s.mod.links s.cmd.unit).any (fun l => l.2 == target) = true := by
    simp only [List.any_eq_true, beq_iff_eq, not_exists, not_and]
    exact last
  rw [exec_linkFail_up h, if_neg served]
  exact congrArg Host.Outcome.next (endRequests_idle late fun c => (outstandingTo_mod s _ c target).trans (idle c))

theorem linkFail_other {target : Nat} (h : Tbl.find s.mod.links s.cmd.unit = some target)
    (other : ∃ e ∈ Tbl.del s.mod.links s.cmd.unit, e.2 = target) :
    exec .linkFail s = .next { s with mod := { s.mod with links := Tbl.del s.mod.links s.cmd.unit } } := by
  have served : (Tbl.del s.mod.links s.cmd.unit).any (fun l => l.2 == target) = true := by
    simp only [List.any_eq_true, beq_iff_eq]
    exact other
  rw [exec_linkFail_up h, if_pos served]

section
variable {p : Nat} {b : Byte} (assigned : Tbl.find s.mod.rootPorts s.cmd.unit = some p) (one : s.cmd.bytes = [b])
include assigned one

theorem dmaRequest_writes {x : Target} (xlate : s.engineXlate p s.cmd.value true = .ok x) (free : s.awaited x.addr = false) :
    ∃ t, exec .dmaRequest s = .next t ∧ { t with hot := s.hot, before := s.before } = { s with mem := Mem.set s.mem x.addr b } := by
  have plan : s.dmaPlan p s.cmd = .ok [x] := by rw [dmaPlan_byte one, xlate]; rfl
  obtain ⟨h, e, written⟩ := dmaByte_frame s x b
  refine ⟨s.dmaByte (x, b), ?_, by rw [written]⟩
  rw [exec_dmaRequest_planned assigned plan, one]
  simp [free]

theorem dmaRequest_waits {x : Target} (xlate : s.engineXlate p s.cmd.value true = .ok x) (held : s.awaited x.addr = true) :
    exec .dmaRequest s = .next { s with inflight := s.inflight ++ [(.dmaRequest, s.cmd)] } := by
  have plan : s.dmaPlan p s.cmd = .ok [x] := by rw [dmaPlan_byte one, xlate]; rfl
  rw [exec_dmaRequest_planned assigned plan, if_pos (by simp [held])]
  rfl

theorem dmaRequest_tierMiss {leaf : Nat} {va : Word} (xlate : s.engineXlate p s.cmd.value true = .error (.tierMiss leaf va)) :
    ∃ t, exec .dmaRequest s = .next t ∧ t.ctx = s.ctx ∧ t.k = s.k ∧ t.inflight = s.inflight ∧ portError s t s.cmd.unit ∧
      ((s.page leaf).stage = .none → (t.page leaf).stage = .pageIn ∧ (t.page leaf).va = va) := by
  have plan : s.dmaPlan p s.cmd = .error (.tierMiss leaf va) := by rw [dmaPlan_byte one, xlate]; rfl
  obtain ⟨ctx, k, inflight, pages⟩ := plainError_keeps (s.askPageIn p leaf va) (SharedKind.rootPort.unit s.cmd.unit) (some p) 0
  rw [exec_dmaRequest_refused assigned plan, refuseDma_tierMiss]
  refine ⟨_, rfl, ctx, k, inflight, ?_, fun still => ?_⟩
  · exact plainError_portError (State.onPage_mem _ _ _) (State.onPage_mod _ _ _) (State.onPage_corrected _ _ _) _ _ _
  · rw [State.page, pages]
    exact askPageIn_page still

theorem dmaRequest_trap {cause : Nat} {addr detail : Word}
    (xlate : s.engineXlate p s.cmd.value true = .error (.trap cause addr detail)) :
    ∃ t, exec .dmaRequest s = .next t ∧ t.ctx = s.ctx ∧ t.k = s.k ∧ t.inflight = s.inflight ∧ portError s t s.cmd.unit := by
  have plan : s.dmaPlan p s.cmd = .error (.trap cause addr detail) := by rw [dmaPlan_byte one, xlate]; rfl
  obtain ⟨at', refused⟩ := refuseDma_trap (s := s) s.cmd.unit p cause addr detail
  obtain ⟨ctx, k, inflight, -⟩ := plainError_keeps s (SharedKind.rootPort.unit s.cmd.unit) (some p) at'
  rw [exec_dmaRequest_refused assigned plan, refused]
  exact ⟨_, rfl, ctx, k, inflight, plainError_portError rfl rfl rfl _ _ _⟩

end

theorem dmaRequest_reads {p : Nat} {xs : List Target} (assigned : Tbl.find s.mod.rootPorts s.cmd.unit = some p)
    (empty : s.cmd.bytes = []) (targets : s.dmaTargets p s.cmd.value false s.cmd.addr = .ok xs)
    (free : ∀ x ∈ xs, s.awaited x.addr = false) : exec .dmaRequest s = .next s := by
  rw [exec_dmaRequest_planned assigned ((dmaPlan_read empty).trans targets), if_neg (by simpa using free), empty,
    List.zip_nil_right]
  rfl

theorem dmaRequest_unassigned (unassigned : Tbl.find s.mod.rootPorts s.cmd.unit = none) :
    ∃ t, exec .dmaRequest s = .next t ∧ t.ctx = s.ctx ∧ t.k = s.k ∧ t.inflight = s.inflight ∧ portError s t s.cmd.unit := by
  obtain ⟨ctx, k, inflight, -⟩ := plainError_keeps s (SharedKind.rootPort.unit s.cmd.unit) none 0
  exact ⟨_, exec_dmaRequest_unassigned unassigned, ctx, k, inflight, plainError_portError rfl rfl rfl _ _ _⟩

end

/-- Settles O53: each event's equation says which state it answers, and the lemma of the operation that it comes down to (a record
in the error ring, a fence, a discarded copy, a table of links, a byte of a DMA, the texts of a load) says what that state is. -/
theorem moduleEvents : Obligations.ModuleEvents := by
  unfold Obligations.ModuleEvents
  refine ⟨fun s => ?sampling, fun s c unit => ?errors, fun s => ?health, fun s => ?reset, fun s => ?links,
    fun s noMap => ⟨thaquetTranslation_bad noMap, thaquetTranslation_good noMap⟩, fun s => ⟨rfl, rfl, rfl, rfl, _, rfl⟩⟩
  case sampling =>
    refine ⟨fun undue => exec_sampleTick_undue (mt (tickDue_iff s).mp undue), fun due full => ?_, fun due room => ?_⟩
    all_goals obtain ⟨t, next, counts, mod⟩ := exec_sampleTick_due ((tickDue_iff s).mpr due)
    · exact ⟨t, next, counts, mod.trans (sample_mod_full ((ringFull_iff _ _ _).mpr full))⟩
    · exact ⟨t, next, counts, mod.trans (sample_mod_room (mt (ringFull_iff _ _ _).mp room))⟩
  case errors =>
    refine ⟨fun hf => ?_, fun hf room => ?_, fun hf room => ⟨_, exec_eccError_corrected unit hf, correct_correctedIn room c _ _⟩,
      ?_, ?_, ?_, ?_, ?_⟩
    · rw [exec_scrub unit, hf]
      rfl
    · rw [exec_scrub unit, hf]
      exact ⟨_, rfl, correct_correctedIn room c _ _⟩
    · rintro hf rfl fenced
      rw [eccError_channel unit hf, fence_again fenced]
    · rintro hf rfl serving
      exact ⟨_, eccError_channel unit hf, fence_spec serving⟩
    · rintro hf rfl hv here
      exact eccError_core unit hf hv here
    · rintro hf rfl
      exact eccError_shared unit hf
    · rintro l hf rfl hv only hit clean idle
      exact ⟨_, exec_eccError_cached unit hf hv (.inr (.inr rfl)), discardLine_spec only hit clean idle⟩
  case health =>
    refine ⟨healthUpdate_due, fun undue => ?_, ⟨fun down => ?_, fun stays => ?_, fun up => ?_, fun stays => ?_⟩, fun h => ?_,
      fun h => ?_, exec_romImageCheck_elsewhere, ⟨fun h good => ?_, fun h bad => ?_⟩, exec_firmwareBringUp_elsewhere,
      firmwareBringUp_links, firmwareBringUp_rootPorts⟩
    · rw [exec_healthUpdate, if_neg (mt (healthDue_iff s).mp (Nat.not_lt.mpr undue))]
    · rw [exec_powerStepDown, if_pos ((stepDownDue_iff s).mpr down)]
      rfl
    · rw [exec_powerStepDown, if_neg (mt (stepDownDue_iff s).mp stays)]
    · rw [exec_powerStepUp, if_pos ((stepUpDue_iff s).mpr up)]
      rfl
    · rw [exec_powerStepUp, if_neg (mt (stepUpDue_iff s).mp stays)]
    · rw [exec_powerGood, if_pos h]
    · rw [exec_powerGood, if_neg h]
    · exact exec_romImageCheck_good h ⟨good.1, (accepts_iff _ _ _).mpr good.2⟩
    · have image := romImageCheck_bad h (by rwa [accepts_iff])
      rwa [accepts_iff] at image
  case reset =>
    constructor
    · show execModuleReset s = _
      cases hf : s.cmd.flag <;> simp [execModuleReset, State.restart, hf]
    · show execPowerOff s = _
      cases hf : s.cmd.flag <;> simp [execPowerOff, State.restart, hf]
  case links =>
    refine ⟨rfl, exec_linkFail_down, fun target up => ⟨linkFail_other up, linkFail_last up⟩, fun noPort => ?_, fun port noPages => ?_,
      fun known => ?_, fun slice new => ?_, dmaRequest_unassigned, fun p assigned =>
        ⟨fun x b one xlate => ⟨dmaRequest_writes assigned one xlate, dmaRequest_waits assigned one xlate⟩,
          fun xs => dmaRequest_reads assigned, fun b leaf va one => dmaRequest_tierMiss assigned one,
          fun b cause addr detail one => dmaRequest_trap assigned one⟩⟩
    · rw [exec_cxlPortFail, if_neg (Nat.not_lt.mpr noPort)]
    · rw [exec_cxlPortFail, if_pos port]
      exact congrArg _ (strandAll_noPages noPages)
    · rw [exec_dynamicCapacity, if_neg]
      rintro ⟨slice, new⟩
      exact known.elim (Nat.not_le.mpr slice) fun there => new (List.contains_iff_mem.mpr there)
    · rw [exec_dynamicCapacity, if_pos ⟨slice, mt List.contains_iff_mem.mp new⟩]

end Sys2Proof.Claims

/-! Spawns (`Obligations.Spawns`): the structure is read, and the engine's reply delivered. -/

namespace Sys2Proof.Machine

/-- A launch packet that is accepted has no reserved bit set (R207). -/
theorem State.acceptLaunch_reserved {s : State} {p : Nat} {addr : Word} {pkt : BitVec 1024} {reply : Nat × State}
    (h : s.acceptLaunch p addr pkt = .ok reply) : packetReserved pkt = false := by
  by_contra reserved
  have bad : packetBad pkt = true := by simp [packetBad, eq_true_of_ne_false reserved]
  simp only [State.acceptLaunch, bad, if_true] at h
  cases h

/-- A record image that is pushed has no reserved bit set (R216). -/
theorem State.pushTask_reserved {s : State} {img : Word512} {queue : Word} {link : Option Word} {reply : Word × State}
    (h : s.pushTask img queue link = .ok reply) : recordReserved img = false := by
  by_contra reserved
  have bad : recordBad img = true := by simp [recordBad, eq_true_of_ne_false reserved]
  simp only [State.pushTask, bad, or_true, if_true] at h
  cases h

theorem State.launchPacket_ok {s s1 : State} {p i : Nat} {addr : Word} {pkt : BitVec 1024}
    (h : s.acceptLaunch p addr pkt = .ok (i, s1)) : s.launchPacket p addr pkt = (BitVec.ofNat 64 i, s1) := by
  unfold State.launchPacket
  rw [h]

theorem State.launchPacket_error {s : State} {p code : Nat} {addr : Word} {pkt : BitVec 1024}
    (h : s.acceptLaunch p addr pkt = .error code) : s.launchPacket p addr pkt = (failWord code, s) := by
  unfold State.launchPacket
  rw [h]

theorem State.reportReserved_false (s : State) (addr : Word) : s.reportReserved false addr = s := rfl

/-- A save that succeeds leaves its core idle (R426). -/
theorem State.save_idle {s t : State} {reason : Nat} {st : RecState} {held : Bool} {leaf : Option Nat} {tag : Word}
    (h : s.save reason st held leaf = some (tag, t)) : t.ctx = {} ∧ t.k = {} := by
  unfold State.save at h
  dsimp only at h
  split at h
  · cases h
    exact ⟨rfl, rfl⟩
  · cases h

/-- TSPAWNW's child is taken only with its parent saved (R235, R427). -/
theorem State.spawnWait_idle {s t : State} {f : Form} {img : Word512} {queue : Word} (h : s.spawnWait f img queue = .ok t) :
    t.ctx = {} ∧ t.k = {} := by
  unfold State.spawnWait at h
  split at h
  · cases h
  · rename_i me s1 _ _ _
    cases push : s1.pushTask img queue (some me) with
    | error c =>
      rw [push] at h
      cases h
    | ok reply =>
      obtain ⟨tag, s2⟩ := reply
      rw [push] at h
      dsimp only [bind, Except.bind] at h
      split at h
      · cases h
        exact State.save_idle ‹_›
      · cases h
  · cases push : s.pushTask img queue none <;> rw [push] at h <;> cases h

end Sys2Proof.Machine

namespace Sys2Proof.Claims

open Machine

/-! The number that an instruction takes is no part of what waits, nor of what runs. -/

theorem waitersOf_numbered (s : State) (key : Nat → Bool) : (numbered s).waitersOf key = s.waitersOf key := by
  have core (c : Nat) : ((numbered s).coreAt c).waiters key c = (s.coreAt c).waiters key c := by
    have coreNo : (numbered s).coreNo = s.coreNo := rfl
    simp only [State.coreAt, coreNo]
    split <;> rfl
  simp only [State.waitersOf, core]
  rfl

theorem byteWaits_numbered (s : State) : (numbered s).byteWaits = s.byteWaits := by
  funext h
  simp only [State.byteWaits, State.othersAwait, State.waiters, waitersOf_numbered]
  rfl

theorem atStop_numbered (s : State) : (numbered s).atStop = s.atStop := by
  simp only [State.atStop, State.coreNtBlocked, byteWaits_numbered]
  rfl

section
variable {s s1 : State} {f : G64} {x n : Nat}

/-- What `issue_metaE` says, for an instruction whose effect ends in states of its own. -/
theorem issueRaw_metaE {f : Form} {b : State → Except Stop State} (hr : runs s f.p f.n) (hp : plain s) :
    s.issueRaw (metaE f false false) b = match b (numbered s) with
      | .ok t => t
      | .error r => s.stoppedAs true r :=
  State.issueRaw_runs (State.mayIssue_ok (Or.inr fun _ => hp.2) (Or.inr hp.1)) (guard_of_runs hr)

/-- An engine's instruction that reads a structure of `n` dwords: the reply to it goes to D, and the region ends. -/
theorem issue_reply {reply : Word → Nat → State → Word × State} {reserved : Nat → Bool} (hr : runs s f.p f.n) (hp : plain s)
    (hx : (numbered s).lsWords (s.readOp f.a f.da) f.opt n = .ok (x, s1)) :
    s.issue (metaE (formG f) false false) (fun t => do
      let at' := t.readOp f.a f.da
      let (y, t1) ← t.lsWords at' f.opt n
      .ok ((((reply at' y t1).2.reportReserved (reserved y) at').endRegion).writeOp f.d (reply at' y t1).1)) =
    let r := reply (s.readOp f.a f.da) x s1
    retired (put (r.2.reportReserved (reserved x) (s.readOp f.a f.da)).endRegion f.d r.1) 2 := by
  refine (issue_metaE hr hp).trans ?_
  have ea : (numbered s).readOp f.a f.da = s.readOp f.a f.da := rfl
  dsimp only
  rw [ea, hx, ← writeOp_eq_put]
  rfl

theorem exec_launch (hr : runs s f.p f.n) (hp : plain s)
    (hx : (numbered s).lsWords (s.readOp f.a f.da) f.opt 16 = .ok (x, s1)) :
    let ea := s.readOp f.a f.da
    let r := s1.launchPacket s1.myPart ea (BitVec.ofNat 1024 x)
    exec (.launch f) s =
      .next (retired (put (r.2.reportReserved (packetReserved (BitVec.ofNat 1024 x)) ea).endRegion f.d r.1) 2) :=
  congrArg Host.Outcome.next (issue_reply (reply := fun at' y t => t.launchPacket t.myPart at' (BitVec.ofNat 1024 y))
    (reserved := fun y => packetReserved (BitVec.ofNat 1024 y)) hr hp hx)

theorem exec_tspawn (hr : runs s f.p f.n) (hp : plain s)
    (hx : (numbered s).lsWords (s.readOp f.a f.da) f.opt 8 = .ok (x, s1)) :
    let ea := s.readOp f.a f.da
    let img : Word512 := BitVec.ofNat 512 x
    let r := spawnResult s1 (s1.pushTask img (s1.readOp f.b f.db) (if f.md.getLsbD 0 then some (s1.readOp f.c f.dc) else none))
    exec (.tspawn f) s = .next (retired (put (r.2.reportReserved (recordReserved img) ea).endRegion f.d r.1) 2) :=
  congrArg Host.Outcome.next (issue_reply (reply := fun _ y t => spawnResult t (t.pushTask (BitVec.ofNat 512 y)
      (t.readOp f.b f.db) (if f.md.getLsbD 0 then some (t.readOp f.c f.dc) else none)))
    (reserved := fun y => recordReserved (BitVec.ofNat 512 y)) hr hp hx)

/-- TSPAWNW waits for its engines' stopping points once its child is taken; one refused delivers the code and goes on. -/
theorem exec_tspawnw (hr : runs s f.p f.n) (hp : plain s)
    (hx : (numbered s).lsWords (s.readOp f.a f.da) f.opt 8 = .ok (x, s1)) :
    let ea := s.readOp f.a f.da
    let img : Word512 := BitVec.ofNat 512 x
    exec (.tspawnw f) s = .next (match s1.spawnWait (formG f) img (s1.readOp f.b f.db) with
      | .ok s2 => if s.atStop then s2 else { s with ctx := { s.ctx with hold := some .drain } }
      | .error code => retired (put (s1.reportReserved (recordReserved img) ea).endRegion f.d (failure code)) 2) := by
  refine congrArg Host.Outcome.next ((issueRaw_metaE hr hp).trans ?_)
  have ea : (numbered s).readOp f.a f.da = s.readOp f.a f.da := rfl
  dsimp only
  rw [ea, hx, atStop_numbered]
  dsimp only [bind, Except.bind]
  cases s1.spawnWait (formG f) (BitVec.ofNat 512 x) (s1.readOp f.b f.db) with
  | ok s2 => cases s.atStop <;> rfl
  | error code =>
    dsimp only
    rw [writeOp_eq_put]
    rfl

end

/-- Settles O32: each instruction's equation names the engine's reply, and what the engine takes has no reserved bit to report. -/
theorem spawns : Obligations.Spawns := by
  unfold Obligations.Spawns
  refine ⟨fun f s s1 x hr hp hx => ⟨fun index s2 taken => ?_, fun code refused => ?_⟩, fun f s s1 x hr hp hx =>
    ⟨fun tag s2 taken => ?_, fun code refused => ?_, fun s2 taken => ⟨?_, ?_, ?_⟩, fun code refused => ?_⟩⟩
  · rw [exec_launch hr hp hx, State.launchPacket_ok taken, State.acceptLaunch_reserved taken, State.reportReserved_false]
  · rw [exec_launch hr hp hx, State.launchPacket_error refused]
    rfl
  · rw [exec_tspawn hr hp hx, taken, State.pushTask_reserved taken, State.reportReserved_false]
    rfl
  · rw [exec_tspawn hr hp hx, refused]
    rfl
  · exact (State.spawnWait_idle taken).1
  · exact (State.spawnWait_idle taken).2
  · rw [exec_tspawnw hr hp hx, taken]
  · rw [exec_tspawnw hr hp hx, refused]

end Sys2Proof.Claims

/-! Fields of a word after a write of one of them, and the words that a register takes (R213, R437, R448). -/

namespace Sys2Proof.Machine

theorem testBit_bits {n : Nat} (w : BitVec n) (lo len i : Nat) :
    (bits w lo len).testBit i = (decide (i < len) && w.getLsbD (lo + i)) := by
  rw [bits, Nat.testBit_mod_two_pow, Nat.testBit_div_two_pow, Nat.add_comm, BitVec.getLsbD]

theorem bits_one {n : Nat} (w : BitVec n) (i : Nat) : bits w i 1 = (w.getLsbD i).toNat := by
  rw [bits, BitVec.getLsbD, Nat.toNat_testBit, pow_one]

/-- A bit outside the field that is replaced. -/
theorem getLsbD_setBits_other {n : Nat} (e : BitVec n) {lo len v i : Nat} (h : i < lo ∨ lo + len ≤ i) :
    (setBits e lo len v).getLsbD i = e.getLsbD i := by
  by_cases hi : i < n
  · rw [getLsbD_setBits _ _ _ _ _ hi, if_neg (by omega)]
  · rw [BitVec.getLsbD_of_ge _ _ (by omega), BitVec.getLsbD_of_ge _ _ (by omega)]

/-- A bit replaced alone. -/
theorem getLsbD_setBits_one {n : Nat} (e : BitVec n) {i : Nat} (v : Nat) (hi : i < n) :
    (setBits e i 1 v).getLsbD i = v.testBit 0 := by
  rw [getLsbD_setBits _ _ _ _ _ hi, if_pos (by omega), Nat.sub_self]

theorem bits_setBits_same {n : Nat} (e : BitVec n) {lo len : Nat} (v : Nat) (h : lo + len ≤ n) :
    bits (setBits e lo len v) lo len = v % 2 ^ len := by
  refine Nat.eq_of_testBit_eq fun i => ?_
  rw [testBit_bits, Nat.testBit_mod_two_pow]
  by_cases hi : i < len
  · rw [getLsbD_setBits _ _ _ _ _ (by omega), if_pos (by omega), Nat.add_sub_cancel_left]
  · simp [hi]

/-- A field apart from the one that is replaced. -/
theorem bits_setBits_other {n : Nat} (e : BitVec n) {lo len lo' len' : Nat} (v : Nat) (h : lo' + len' ≤ lo ∨ lo + len ≤ lo') :
    bits (setBits e lo len v) lo' len' = bits e lo' len' := by
  refine Nat.eq_of_testBit_eq fun i => ?_
  rw [testBit_bits, testBit_bits]
  by_cases hi : i < len'
  · rw [getLsbD_setBits_other _ (by omega)]
  · simp [hi]

/-- A bit replaced by what it is. -/
theorem setBits_one_self {n : Nat} (e : BitVec n) {i v : Nat} (h : v.testBit 0 = e.getLsbD i) : setBits e i 1 v = e := by
  refine BitVec.eq_of_getLsbD_eq fun j hj => ?_
  rw [getLsbD_setBits _ _ _ _ _ hj]
  split
  · rw [show j = i by omega, Nat.sub_self, h]
  · rfl

/-- A field that a mask keeps whole. -/
theorem bits_masked (v : Word) {mask lo len : Nat} (h : ∀ i < len, mask.testBit (lo + i) = true) (hlen : lo + len ≤ 64) :
    bits (masked v mask) lo len = bits v lo len := by
  refine Nat.eq_of_testBit_eq fun i => ?_
  rw [testBit_bits, testBit_bits, masked, BitVec.getLsbD_and, BitVec.getLsbD_ofNat]
  by_cases hi : i < len
  · rw [h i hi, decide_eq_true (show lo + i < 64 by omega)]
    simp
  · simp [hi]

/-- A word is not zero where some bit of it is set. -/
theorem ne_zero_iff_getLsbD {n : Nat} (w : BitVec n) : w ≠ 0 ↔ ∃ i, i < n ∧ w.getLsbD i = true := by
  constructor
  · intro h
    by_contra none
    refine h (BitVec.eq_of_getLsbD_eq fun i hi => ?_)
    exact (Bool.eq_false_iff.mpr fun set => none ⟨i, hi, set⟩).trans BitVec.getLsbD_zero.symm
  · rintro ⟨i, -, set⟩ rfl
    simp at set

end Sys2Proof.Machine

/-! Queues (R213, R240): a control word is written by the owner of its engine. -/

namespace Sys2Proof.Machine

variable {s : State}

theorem State.queue_onQueue_same (q : Nat) (f : Queue → Queue) : (s.onQueue q f).queue q = f (s.queue q) :=
  Tbl.getD_put_same _ _ _ _

theorem State.queue_onQueue_other {q r : Nat} (f : Queue → Queue) (h : r ≠ q) : (s.onQueue q f).queue r = s.queue r :=
  Tbl.getD_put_other _ _ _ h

/-- The queue control word that a write of `v` leaves of `old`: SIZE, BASE and PART while EN is 0, and EN. -/
def qctlWord (old v : Word) : Word :=
  let based := setBits old 6 39 (bits v 6 39)
  let sized := if 6 ≤ bits v 47 5 ∧ bits v 47 5 ≤ 20 then setBits based 47 5 (bits v 47 5) else based
  setBits (if old.getLsbD 0 then old else setBits sized 52 4 (bits v 52 4)) 0 1 v.toNat

theorem State.writeQctl_ignored {q : Nat} {v : Word} (h : ¬ (q < 512 ∧ s.engineOwner (q / 64) = some (bits v 52 4))) :
    s.writeQctl q v = s := by
  rw [State.writeQctl, if_pos ((not_and_or.mp h).imp_left Nat.not_lt.mp)]

theorem State.writeQctl_taken {q : Nat} {v : Word} (h : q < 512 ∧ s.engineOwner (q / 64) = some (bits v 52 4)) :
    s.writeQctl q v = s.onQueue q (fun x => { x with ctl := qctlWord x.ctl v }) := by
  rw [State.writeQctl, if_neg (not_or.mpr ⟨Nat.not_le.mpr h.1, not_not.mpr h.2⟩)]
  rfl

end Sys2Proof.Machine

namespace Sys2Proof.Claims

open Machine

theorem exec_queueSwitch (s : State) (en : Bool) : exec (if en then Instr.queueEnable else Instr.queueDisable) s =
    .next (s.writeQctl s.cmd.unit (setBits s.cmd.value 0 1 en.toNat)) := by
  cases en <;> rfl

/-- What EN's own write takes and leaves of a queue control word. -/
theorem queueWord_qctlWord (old v : Word) (en : Bool) : queueWord old v (qctlWord old (setBits v 0 1 en.toNat)) en.toNat := by
  have enabled : (setBits v 0 1 en.toNat).toNat % 2 ^ 1 = en.toNat := by
    have field := bits_setBits_same v (lo := 0) (len := 1) en.toNat (by decide)
    rw [bits, pow_zero, Nat.div_one] at field
    rw [field]
    cases en <;> rfl
  have written (x : Word) : bits (setBits x 0 1 (setBits v 0 1 en.toNat).toNat) 0 1 = en.toNat :=
    (bits_setBits_same _ _ (by decide)).trans enabled
  simp (disch := decide) only [qctlWord, bits_setBits_other]
  refine ⟨written _, fun on => ?_, fun off => ?_⟩
  · rw [if_pos on, bits_setBits_other _ _ (by decide)]
  · rw [if_neg (Bool.eq_false_iff.mp off)]
    have base := Nat.mod_eq_of_lt (bits_lt v 6 39)
    have part := Nat.mod_eq_of_lt (bits_lt v 52 4)
    have size := Nat.mod_eq_of_lt (bits_lt v 47 5)
    split <;> simp (disch := decide) only [bits_setBits_same, bits_setBits_other, base, part, size, and_self]

theorem queueSwitch_ignored {s : State} {en : Bool}
    (h : ¬ (s.cmd.unit < 512 ∧ s.engineOwner (s.cmd.unit / 64) = some (bits s.cmd.value 52 4))) :
    exec (if en then Instr.queueEnable else Instr.queueDisable) s = .next s := by
  rw [exec_queueSwitch, State.writeQctl_ignored (by rwa [bits_setBits_other _ _ (by decide)])]

theorem queueSwitch_taken {s : State} {en : Bool}
    (h : s.cmd.unit < 512 ∧ s.engineOwner (s.cmd.unit / 64) = some (bits s.cmd.value 52 4)) : let q := s.cmd.unit
    ∃ t, exec (if en then Instr.queueEnable else Instr.queueDisable) s = .next t ∧ { t with queues := s.queues } = s ∧
      (∀ r, r ≠ q → t.queue r = s.queue r) ∧ t.queue q = { s.queue q with ctl := (t.queue q).ctl } ∧
      queueWord (s.queue q).ctl s.cmd.value (t.queue q).ctl en.toNat := by
  refine ⟨_, (exec_queueSwitch s en).trans (congrArg _ (State.writeQctl_taken (by rwa [bits_setBits_other _ _ (by decide)]))), rfl,
    fun r other => State.queue_onQueue_other _ other, ?_, ?_⟩
  · rw [State.queue_onQueue_same]
  · rw [State.queue_onQueue_same]
    exact queueWord_qctlWord _ _ en

end Sys2Proof.Claims

/-! Partitions (R450 to R452): who owns a unit, how a partition starts, and how it stops. -/

namespace Sys2Proof.Machine

variable {s : State} {p : Nat}

/-- Registers of a partition changed one after the other. -/
theorem State.onPart_onPart (h : p < 16) (f g : Part → Part) : (s.onPart p f).onPart p g = s.onPart p (fun q => g (f q)) := by
  rw [State.onPart, State.part_onPart h]
  simp only [State.onPart, Vector.setIfInBounds_setIfInBounds]

theorem State.onPart_congr {f g : Part → Part} (h : f (s.part p) = g (s.part p)) : s.onPart p f = s.onPart p g := by
  rw [State.onPart, h, State.onPart]

theorem State.writePartctl_stays {v : Word} (on : (s.part p).ctl.getLsbD 0 = true)
    (h : v.getLsbD 0 = true ∨ (s.part p).draining = true) : s.writePartctl p v = s := by
  rw [State.writePartctl]
  simp only [if_pos on, Bool.or_eq_true, if_pos h]

theorem State.writePartctl_stops {v : Word} (on : (s.part p).ctl.getLsbD 0 = true) (disable : v.getLsbD 0 = false)
    (running : (s.part p).draining = false) :
    s.writePartctl p v = (s.onPart p (fun q => { q with draining := true })).cancelScope p 0 := by
  rw [State.writePartctl]
  simp only [if_pos on, disable, running, Bool.or_self, Bool.false_eq_true, if_false]

theorem State.writePartctl_taken {v : Word} (off : (s.part p).ctl.getLsbD 0 = false)
    (taken : s.taken p (fun q => qengOf q.ctl) (qengOf v) = true) : s.writePartctl p v = s := by
  rw [State.writePartctl]
  simp only [off, taken, Bool.false_eq_true, if_false, if_true]

/-- A partition whose engines no other has is given them, and starts if it is to and has some, and clusters (R451). -/
theorem State.writePartctl_named {v : Word} (off : (s.part p).ctl.getLsbD 0 = false)
    (untaken : s.taken p (fun q => qengOf q.ctl) (qengOf v) = false) (enable : v.getLsbD 0 = true) :
    s.writePartctl p v = let s1 := s.onPart p (fun q => { q with ctl := setBits q.ctl 8 8 (bits v 8 8) })
      if bits v 8 8 ≠ 0 ∧ (s.part p).clusters ≠ 0 then s1.onPart p Part.start else s1 := by
  rw [State.writePartctl]
  simp only [off, untaken, enable, Bool.false_eq_true, if_false, Bool.true_and, Bool.and_eq_true, bne_iff_ne]

theorem State.recordsOf_noQueues (tasks : s.queues = []) : s.recordsOf p = [] := by
  rw [State.recordsOf, tasks]
  rfl

/-- A partition with no scope but its root job, and no task in a queue: the root job alone is cancelled, and stays open (R27). -/
theorem State.cancelScope_root {c : Scope} (tasks : s.queues = []) (only : (s.part p).scopes = [(0, c)])
    (opened : c.state = .opened) :
    s.cancelScope p 0 = s.onPart p (fun q => { q with scopes := [(0, { c with cancelled := true })] }) := by
  have root : s.scope p 0 = c := by rw [State.scope, only]; rfl
  have free (n : Nat) (hn : n ≠ 0) : (s.scope p n).state = .free := by
    rw [State.scope, only, Tbl.getD, Tbl.find, if_neg hn]
    rfl
  have hit : (upFrom 0 256).filter (fun n => s.below p 0 5 n && (s.scope p n).state != .free && (s.scope p n).state != .complete &&
      !(s.completing p 4 n)) = [0] := by
    refine (List.filter_cons_of_pos (l := upFrom 1 255) (by simp [State.below, State.completing, root, opened])).trans
      (congrArg (List.cons 0) (List.filter_eq_nil_iff.mpr fun n hn => ?_))
    have := (mem_upFrom.mp hn).1
    simp [free n (by omega)]
  simp only [State.cancelScope, hit, List.foldl_cons, List.foldl_nil]
  rw [State.recordsOf_noQueues (s := s.onScope p 0 _) tasks]
  have lowest (k : Nat) : [0].filter (fun n => (s.scope p n).kind == k && n != 0) = [] := by simp
  simp only [lowest, List.append_nil, List.filter_nil, List.foldl_nil]
  refine State.onPart_congr ?_
  simp [root, only, Tbl.put]

theorem State.isDrained_iff : s.isDrained p = true ↔ Claims.quiet s p := by
  simp only [State.isDrained, Claims.quiet, Bool.and_eq_true, List.all_eq_true, Bool.or_eq_true, Bool.not_eq_true',
    Option.isNone_iff_eq_none, bne_iff_ne, or_iff_not_imp_left, Bool.not_eq_false]

theorem State.endDrain_drained (draining : (s.part p).draining = true) (quiet : Claims.quiet s p) :
    s.endDrain p = s.onPart p (fun q => { q with ctl := setBits q.ctl 0 1 0, draining := false }) := by
  rw [State.endDrain, draining, State.isDrained_iff.mpr quiet]
  rfl

theorem State.endDrain_waits (h : (s.part p).draining = false ∨ ¬ Claims.quiet s p) : s.endDrain p = s := by
  rw [State.endDrain, if_neg]
  rw [Bool.and_eq_true, State.isDrained_iff, not_and_or, Bool.not_eq_true]
  exact h

end Sys2Proof.Machine

namespace Sys2Proof.Claims

open Machine

/-- A unit that another partition owns (R451). -/
theorem taken_iff (s : State) (p : Nat) (mine : Part → Word) (v : Word) :
    s.taken p mine v = true ↔ elsewhereOwned s p mine v := by
  have shared (o : Nat) : mine (s.part o) &&& v ≠ 0 ↔ ∃ b, b < 64 ∧ (mine (s.part o)).getLsbD b = true ∧ v.getLsbD b = true := by
    rw [ne_zero_iff_getLsbD]
    simp only [BitVec.getLsbD_and, Bool.and_eq_true]
  simp only [State.taken, List.any_eq_true, mem_upFrom, Bool.and_eq_true, bne_iff_ne]
  constructor
  · rintro ⟨o, ⟨-, ho⟩, other, common⟩
    obtain ⟨b, hb, owned, named⟩ := (shared o).mp common
    exact ⟨o, b, by omega, other, hb, owned, named⟩
  · rintro ⟨o, b, ho, other, hb, owned, named⟩
    exact ⟨o, ⟨Nat.zero_le o, by omega⟩, other, (shared o).mpr ⟨b, hb, owned, named⟩⟩

section
variable {s : State}

/-- The value of PARTITION_ENABLE and PARTITION_DISABLE: EN is the event's own, and the engines are named by the other bits. -/
theorem qengOf_setBits (v : Word) (en : Nat) : qengOf (setBits v 0 1 en) = engines v := by
  rw [qengOf, bits_setBits_other _ _ (by decide), engines]

theorem partitionEnable_refused (h : (s.parts.getD s.cmd.part {}).ctl.getLsbD 0 = true ∨
    elsewhereOwned s s.cmd.part (fun q => engines q.ctl) (engines s.cmd.value)) : exec .partitionEnable s = .next s := by
  refine congrArg Host.Outcome.next ?_
  cases on : (s.part s.cmd.part).ctl.getLsbD 0 with
  | true => exact State.writePartctl_stays on (.inl (getLsbD_setBits_one _ _ (by decide)))
  | false =>
    refine State.writePartctl_taken on ?_
    rw [qengOf_setBits]
    exact (taken_iff _ _ _ _).mpr (h.resolve_left (Bool.eq_false_iff.mp on))

/-- A partition that is not refused: the engines are named, and it starts if there are some, and clusters. -/
theorem partitionEnable_named (h : ¬ ((s.parts.getD s.cmd.part {}).ctl.getLsbD 0 = true ∨
    elsewhereOwned s s.cmd.part (fun q => engines q.ctl) (engines s.cmd.value))) :
    exec .partitionEnable s = .next (
      let s1 := s.onPart s.cmd.part (fun q => { q with ctl := setBits q.ctl 8 8 (bits s.cmd.value 8 8) })
      if bits s.cmd.value 8 8 ≠ 0 ∧ (s.parts.getD s.cmd.part {}).clusters ≠ 0 then s1.onPart s.cmd.part Part.start else s1) := by
  obtain ⟨off, untaken⟩ := not_or.mp h
  rw [← taken_iff, Bool.not_eq_true] at untaken
  have named := State.writePartctl_named (v := setBits s.cmd.value 0 1 1) (Bool.eq_false_iff.mpr off)
    ((congrArg _ (qengOf_setBits _ _)).trans untaken) (getLsbD_setBits_one _ _ (by decide))
  rw [bits_setBits_other _ _ (by decide)] at named
  exact congrArg Host.Outcome.next named

theorem partitionDisable_root {c : Scope} (hp : s.cmd.part < 16) (on : (s.parts.getD s.cmd.part {}).ctl.getLsbD 0 = true)
    (running : (s.parts.getD s.cmd.part {}).draining = false) (tasks : s.queues = [])
    (only : (s.parts.getD s.cmd.part {}).scopes = [(0, c)]) (opened : c.state = .opened) :
    exec .partitionDisable s = .next (s.onPart s.cmd.part (fun q => { q with
      draining := true
      scopes := [(0, { c with cancelled := true })] })) := by
  have onlyThen : ((s.onPart s.cmd.part (fun q => { q with draining := true })).part s.cmd.part).scopes = [(0, c)] := by
    rw [State.part_onPart hp]
    exact only
  have root := State.cancelScope_root (s := s.onPart s.cmd.part (fun q => { q with draining := true })) tasks onlyThen opened
  rw [State.onPart_onPart hp] at root
  exact congrArg Host.Outcome.next
    ((State.writePartctl_stops on (getLsbD_setBits_one _ _ (by decide)) running).trans root)

end

end Sys2Proof.Claims

/-! The sample unit is enabled (R437, R438), and the heads of rings are written (R445, R456). -/

namespace Sys2Proof.Machine

variable {s : State}

/-- SAMPCTL's fields but EN as a write of `v` leaves them of `old`: values out of range leave their field (R437). -/
def sampFields (old v : Word) : Word :=
  let based := setBits old 15 37 (bits v 15 37)
  let sized := if bits v 10 5 ≤ 16 then setBits based 10 5 (bits v 10 5) else based
  if 8 ≤ bits v 5 5 ∧ bits v 5 5 ≤ 24 then setBits sized 5 5 (bits v 5 5) else sized

theorem sampFields_bits (old v : Word) : let c := sampFields old v
    bits c 15 37 = bits v 15 37 ∧ bits c 52 12 = bits old 52 12 ∧ bits c 1 4 = bits old 1 4 ∧
    bits c 10 5 = (if bits v 10 5 ≤ 16 then bits v 10 5 else bits old 10 5) ∧
    bits c 5 5 = (if 8 ≤ bits v 5 5 ∧ bits v 5 5 ≤ 24 then bits v 5 5 else bits old 5 5) ∧ bits c 0 1 = bits old 0 1 := by
  have base := Nat.mod_eq_of_lt (bits_lt v 15 37)
  have size := Nat.mod_eq_of_lt (bits_lt v 10 5)
  have length := Nat.mod_eq_of_lt (bits_lt v 5 5)
  unfold sampFields
  dsimp only
  split <;> split <;>
    simp (disch := decide) only [bits_setBits_same, bits_setBits_other, base, size, length, and_self]

theorem sampFields_enable (old v : Word) (en : Nat) : sampFields old (setBits v 0 1 en) = sampFields old v := by
  simp (disch := decide) only [sampFields, bits_setBits_other]

theorem State.writeSampctl_running {v : Word} (on : s.mod.sampctl.getLsbD 0 = true) (enable : v.getLsbD 0 = true) :
    s.writeSampctl v = s := by
  have kept : setBits s.mod.sampctl 0 1 v.toNat = s.mod.sampctl := setBits_one_self _ (enable.trans on.symm)
  simp only [State.writeSampctl, if_pos on, kept]

theorem State.writeSampctl_noRing {v : Word} (off : s.mod.sampctl.getLsbD 0 = false) (noRing : bits v 15 37 = 0) :
    s.writeSampctl v = { s with mod := { s.mod with sampctl := sampFields s.mod.sampctl v } } := by
  have ring := (sampFields_bits s.mod.sampctl v).1.trans noRing
  unfold sampFields at ring ⊢
  simp only [State.writeSampctl, off, Bool.false_eq_true, if_false, ring, bne_self_eq_false, Bool.and_false]

/-- The sample unit starts with indices and counts at zero, and its first tick is the next (R438). -/
theorem State.writeSampctl_starts {v : Word} (off : s.mod.sampctl.getLsbD 0 = false) (enable : v.getLsbD 0 = true)
    (ring : bits v 15 37 ≠ 0) : let c := sampFields s.mod.sampctl v
    s.writeSampctl v = State.clearCounts { s with mod := { s.mod with
      sampctl := setBits c 0 1 1
      samptail := 0
      samphead := 0
      sampSeq := 0
      sampDropped := 0
      sampFirst := true
      sampNext := (s.cycle.toNat / 2 ^ bits c 5 5 + 1) * 2 ^ bits c 5 5 } } := by
  have based := (sampFields_bits s.mod.sampctl v).1.trans_ne ring
  unfold sampFields at based ⊢
  dsimp only at based ⊢
  rw [State.writeSampctl]
  simp only [off, Bool.false_eq_true, if_false, enable, Bool.true_and, bne_iff_ne.mpr based, if_true]

theorem State.flushAll_none (none : s.mod.errWait = []) : s.flushAll = s := by
  simp only [State.flushAll, none, List.length_nil, State.flushErrors]

/-- The one record that waits is written where there is room (R456). -/
theorem State.flushAll_one {r : BitVec 256} {t : State} (written : s.putErrorRecord r = some t) (one : s.mod.errWait = [r]) :
    s.flushAll = { t with mod := { t.mod with errWait := [] } } := by
  simp only [State.flushAll, one, List.length_singleton, State.flushErrors, written]

end Sys2Proof.Machine

namespace Sys2Proof.Claims

open Machine

section
variable {s : State}

theorem sampleEnable_running (on : s.mod.sampctl.getLsbD 0 = true) : exec .sampleEnable s = .next s :=
  congrArg Host.Outcome.next (State.writeSampctl_running on (getLsbD_setBits_one _ _ (by decide)))

/-- A tick is a multiple of the period, and the first comes strictly after the write. -/
theorem nextTick_spec (now : Nat) {length : Nat} (h : 0 < length) : let n := (now / length + 1) * length
    now < n ∧ n ≤ now + length ∧ n % length = 0 := by
  refine ⟨?_, ?_, Nat.mul_mod_left _ _⟩
  · exact Nat.mul_comm _ _ ▸ Nat.lt_mul_div_succ now h
  · rw [Nat.succ_mul]
    exact Nat.add_le_add_right (Nat.div_mul_le_self now length) length

theorem sampleEnable_starts (off : s.mod.sampctl.getLsbD 0 = false) : let v := s.cmd.value
    let m := s.mod
    ∃ c : Word,
      bits c 15 37 = bits v 15 37 ∧ bits c 52 12 = bits m.sampctl 52 12 ∧ bits c 1 4 = bits m.sampctl 1 4 ∧
      bits c 10 5 = (if bits v 10 5 ≤ 16 then bits v 10 5 else bits m.sampctl 10 5) ∧
      bits c 5 5 = (if 8 ≤ bits v 5 5 ∧ bits v 5 5 ≤ 24 then bits v 5 5 else bits m.sampctl 5 5) ∧
      (bits v 15 37 = 0 → bits c 0 1 = 0 ∧ exec .sampleEnable s = .next { s with mod := { m with sampctl := c } }) ∧
      (bits v 15 37 ≠ 0 → bits c 0 1 = 1 ∧ ∃ t, exec .sampleEnable s = .next t ∧
        (∃ n, t.mod = { m with
          sampctl := c
          samptail := 0
          samphead := 0
          sampSeq := 0
          sampDropped := 0
          sampFirst := true
          sampNext := n
          sampTime := 0
          engineCounts := []
          quadCounts := [] } ∧ s.cycle.toNat < n ∧ n ≤ s.cycle.toNat + 2 ^ bits c 5 5 ∧ n % 2 ^ bits c 5 5 = 0) ∧
        t.hw = { s.hw with counts := {} } ∧
        t.others = s.others.map (fun e => (e.1, { e.2 with hw := { e.2.hw with counts := {} } })) ∧
        { t with mod := m, hw := s.hw, others := s.others } = s) := by
  intro v m
  obtain ⟨ring, high, low, size, length, en⟩ := sampFields_bits m.sampctl v
  by_cases noRing : bits v 15 37 = 0
  · refine ⟨sampFields m.sampctl v, ring, high, low, size, length, fun _ => ⟨?_, ?_⟩, fun h => absurd noRing h⟩
    · rw [en, bits_one, off]
      rfl
    · have ignored := State.writeSampctl_noRing (v := setBits v 0 1 1) off ((bits_setBits_other _ _ (by decide)).trans noRing)
      rw [sampFields_enable] at ignored
      exact congrArg _ ignored
  · have starts := State.writeSampctl_starts (v := setBits v 0 1 1) off (getLsbD_setBits_one _ _ (by decide))
      ((bits_setBits_other _ _ (by decide)).trans_ne noRing)
    rw [sampFields_enable] at starts
    refine ⟨setBits (sampFields m.sampctl v) 0 1 1, ?_⟩
    simp (disch := decide) only [bits_setBits_other, bits_setBits_same]
    exact ⟨ring, high, low, size, length, fun h => absurd h noRing, fun _ => ⟨rfl, _, congrArg Host.Outcome.next starts,
      ⟨_, rfl, nextTick_spec _ (Nat.two_pow_pos _)⟩, rfl, rfl, rfl⟩⟩

/-- A record is written where the ring has room, whether others wait or not (R456). -/
theorem putErrorRecord_of_space (ring : bits s.mod.errring 12 40 ≠ 0)
    (space : (s.mod.errtail - s.mod.errhead).toNat % 2 ^ 32 < 2 ^ (bits s.mod.errring 0 4 + 7)) (w : BitVec 256) :
    s.putErrorRecord w = some (withRecord s w) := by
  have based : bits s.mod.errring 12 40 * 4096 ≠ 0 := by omega
  have notFull : ringFull s.mod.errtail s.mod.errhead (bits s.mod.errring 0 4 + 7) = false := by
    simpa [ringFull] using Nat.ne_of_lt space
  simp only [State.putErrorRecord, ringSlot, if_neg based, notFull, Bool.false_eq_true, if_false, State.putMem, withRecord,
    errorSlot]

theorem errheadWrite_none (none : s.mod.errWait = []) :
    exec .errheadWrite s = .next { s with mod := { s.mod with errhead := index32 s.cmd.value } } :=
  congrArg Host.Outcome.next (State.flushAll_none (s := { s with mod := { s.mod with errhead := index32 s.cmd.value } }) none)

theorem errheadWrite_one {r : BitVec 256} (one : s.mod.errWait = [r]) (ring : bits s.mod.errring 12 40 ≠ 0)
    (room : (s.mod.errtail - index32 s.cmd.value).toNat % 2 ^ 32 < 2 ^ (bits s.mod.errring 0 4 + 7)) :
    exec .errheadWrite s = .next { s with
      mem := Mem.writeLE s.mem
        (bits s.mod.errring 12 40 * 4096 + s.mod.errtail.toNat % 2 ^ (bits s.mod.errring 0 4 + 7) * 32) 32 r.toNat
      mod := { s.mod with
        errhead := index32 s.cmd.value
        errtail := BitVec.ofNat 64 ((s.mod.errtail.toNat + 1) % 2 ^ 32)
        errWait := [] } } := by
  have written := putErrorRecord_of_space (s := { s with mod := { s.mod with errhead := index32 s.cmd.value } }) ring room r
  have flushed := State.flushAll_one written one
  simp only [withRecord, errorSlot] at flushed
  exact congrArg Host.Outcome.next flushed

end

end Sys2Proof.Claims

/-! Bytes written in order, as they read (R10). -/

namespace Sys2Proof.Machine

theorem Mem.get_putBytes_other {m : Mem} (h : m.wf = true) (a : Nat) (bs : List Byte) {x : Nat}
    (hx : x < a ∨ a + bs.length ≤ x) : Mem.get (Mem.putBytes m a bs) x = Mem.get m x := by
  induction bs generalizing m a with
  | nil => rfl
  | cons b bs ih =>
    rw [List.length_cons] at hx
    rw [Mem.putBytes, ih (Mem.wf_set h a b) (a + 1) (by omega), Mem.get_set_other h (by omega)]

theorem Mem.get_putBytes {m : Mem} (h : m.wf = true) (a : Nat) (bs : List Byte) {i : Nat} (hi : i < bs.length) :
    Mem.get (Mem.putBytes m a bs) (a + i) = bs[i] := by
  induction bs generalizing m a i with
  | nil => cases hi
  | cons b bs ih =>
    cases i with
    | zero => exact (Mem.get_putBytes_other (Mem.wf_set h a b) (a + 1) bs (.inl (Nat.lt_succ_self a))).trans (Mem.get_set_same h)
    | succ i =>
      rw [Mem.putBytes, show a + (i + 1) = a + 1 + i by omega]
      exact ih (Mem.wf_set h a b) (a + 1) (Nat.lt_of_succ_lt_succ hi)

theorem Mem.bytes_length (m : Mem) (a n : Nat) : (Mem.bytes m a n).length = n := by
  induction n generalizing a with
  | zero => rfl
  | succ n ih => rw [Mem.bytes, List.length_cons, ih]

theorem Mem.getElem_bytes (m : Mem) (a n : Nat) {i : Nat} (hi : i < (Mem.bytes m a n).length) :
    (Mem.bytes m a n)[i] = Mem.get m (a + i) := by
  induction n generalizing a i with
  | zero => cases hi
  | succ n ih =>
    cases i with
    | zero => rfl
    | succ i =>
      rw [show a + (i + 1) = a + 1 + i by omega]
      exact ih (a + 1) _

/-- What has been written reads back. -/
theorem Mem.bytes_putBytes {m : Mem} (h : m.wf = true) (a : Nat) (bs : List Byte) :
    Mem.bytes (Mem.putBytes m a bs) a bs.length = bs :=
  List.ext_getElem (Mem.bytes_length _ _ _) fun _ _ hi => (Mem.getElem_bytes _ _ _ _).trans (Mem.get_putBytes h a bs hi)

theorem Mem.bytes_add (m : Mem) (a n k : Nat) : Mem.bytes m a (n + k) = Mem.bytes m a n ++ Mem.bytes m (a + n) k := by
  induction n generalizing a with
  | zero => rw [Nat.zero_add, Nat.add_zero]; rfl
  | succ n ih => rw [Nat.add_right_comm, Mem.bytes, ih, Mem.bytes, List.cons_append, Nat.add_right_comm, Nat.add_assoc a n 1]

/-- Bytes that are two texts in a row are each of them in its place. -/
theorem Mem.bytes_split {m : Mem} {a n k : Nat} {xs ys : List Byte} (h : Mem.bytes m a (n + k) = xs ++ ys) (hn : xs.length = n) :
    Mem.bytes m a n = xs ∧ Mem.bytes m (a + n) k = ys := by
  rw [Mem.bytes_add] at h
  exact List.append_inj h ((Mem.bytes_length _ _ _).trans hn.symm)

/-- The bytes of a number read as that number. -/
theorem Mem.readLE_of_bytes {m : Mem} {a n v : Nat} (h : Mem.bytes m a n = bytesOfNat n v) : Mem.readLE m a n = v % 256 ^ n := by
  induction n generalizing a v with
  | zero => rw [pow_zero, Nat.mod_one]; rfl
  | succ n ih =>
    rw [Mem.bytes, bytesOfNat, List.cons.injEq] at h
    rw [Mem.readLE, h.1, ih h.2, BitVec.toNat_ofNat, Nat.pow_succ 256 n, Nat.mul_comm (256 ^ n), Nat.mod_mul]

theorem Mem.readLE_of_bytes_toNat {m : Mem} {a n k : Nat} {w : BitVec k} (hk : k = 8 * n)
    (h : Mem.bytes m a n = bytesOfNat n w.toNat) : Mem.readLE m a n = w.toNat := by
  subst hk
  rw [Mem.readLE_of_bytes h, Nat.mod_eq_of_lt (w.isLt.trans_eq (Nat.pow_mul 2 8 n))]

end Sys2Proof.Machine

/-! Attestation (R459): what a report holds. -/

namespace Sys2Proof.Machine

variable {s : State}

/-- What an attestation's signature covers: nonce, measurement, ownership, rollback counter and health. -/
def State.attested (s : State) : List Byte :=
  Mem.bytes s.appMem (bits s.mod.attest 9 43 * 512) 64 ++ bytesOfNat 64 s.mod.measurement.toNat ++
    bytesOfNat 64 (Config.sha512 s.ownership).toNat ++ dwordBytes s.mod.rollback ++ dwordBytes s.mod.health

/-- The report that an attestation leaves. -/
def State.report (s : State) : List Byte :=
  s.attested ++ (bytesOfNat 132 (Config.sign (Config.sha512 s.attested)).toNat).reverse ++ List.replicate 172 0

theorem State.attested_length (s : State) : s.attested.length = 208 := by
  simp only [State.attested, dwordBytes, List.length_append, Mem.bytes_length, bytesOfNat_length]

theorem State.report_length (s : State) : s.report.length = 512 := by
  simp only [State.report, List.length_append, State.attested_length, List.length_reverse, bytesOfNat_length,
    List.length_replicate]

end Sys2Proof.Machine

namespace Sys2Proof.Claims

open Machine

section
variable {s : State}

theorem exec_attestComplete (s : State) : exec .attestComplete s = .next (if s.mod.attest.getLsbD 63 then
    { s with
      appMem := Mem.putBytes s.appMem (bits s.mod.attest 9 43 * 512) s.report
      mod := { s.mod with attest := setBits s.mod.attest 63 1 0 } }
    else s) := rfl

/-- The parts of what is signed, each at its place. -/
theorem attested_parts {m : Mem} {a : Nat} (h : Mem.bytes m a 208 = s.attested) :
    Mem.bytes m a 64 = Mem.bytes s.appMem (bits s.mod.attest 9 43 * 512) 64 ∧
    Mem.bytes m (a + 64) 64 = bytesOfNat 64 s.mod.measurement.toNat ∧
    Mem.bytes m (a + 128) 64 = bytesOfNat 64 (Config.sha512 s.ownership).toNat ∧
    Mem.bytes m (a + 192) 8 = dwordBytes s.mod.rollback ∧ Mem.bytes m (a + 200) 8 = dwordBytes s.mod.health := by
  obtain ⟨upToRollback, health⟩ := Mem.bytes_split (n := 200) (k := 8) h
    (by simp only [dwordBytes, List.length_append, Mem.bytes_length, bytesOfNat_length])
  obtain ⟨upToOwnership, rollback⟩ := Mem.bytes_split (n := 192) (k := 8) upToRollback
    (by simp only [List.length_append, Mem.bytes_length, bytesOfNat_length])
  obtain ⟨upToMeasurement, ownership⟩ := Mem.bytes_split (n := 128) (k := 64) upToOwnership
    (by simp only [List.length_append, Mem.bytes_length, bytesOfNat_length])
  obtain ⟨nonce, measurement⟩ := Mem.bytes_split (n := 64) (k := 64) upToMeasurement (Mem.bytes_length _ _ _)
  exact ⟨nonce, measurement, ownership, rollback, health⟩

theorem report_parts {m : Mem} {a : Nat} (h : Mem.bytes m a 512 = s.report) : Mem.bytes m a 208 = s.attested ∧
    Mem.bytes m (a + 208) 132 = (bytesOfNat 132 (Config.sign (Config.sha512 s.attested)).toNat).reverse ∧
    Mem.bytes m (a + 340) 172 = List.replicate 172 0 := by
  obtain ⟨signed, rest⟩ := Mem.bytes_split (n := 340) (k := 172) h
    (by simp only [List.length_append, State.attested_length, List.length_reverse, bytesOfNat_length])
  obtain ⟨body, signature⟩ := Mem.bytes_split (n := 208) (k := 132) signed s.attested_length
  exact ⟨body, signature, rest⟩

theorem attestComplete_report (busy : s.mod.attest.getLsbD 63 = true) (wf : s.appMem.wf = true) :
    let a := bits s.mod.attest 9 43 * 512
    ∃ t, exec .attestComplete s = .next t ∧
      { t with appMem := s.appMem } = { s with mod := { s.mod with attest := setBits s.mod.attest 63 1 0 } } ∧
      Mem.bytes t.appMem a 64 = Mem.bytes s.appMem a 64 ∧
      Mem.readLE t.appMem (a + 64) 64 = s.mod.measurement.toNat ∧
      Mem.readLE t.appMem (a + 128) 64 = (Config.sha512 s.ownership).toNat ∧
      Mem.readLE t.appMem (a + 192) 8 = s.mod.rollback.toNat ∧
      Mem.readLE t.appMem (a + 200) 8 = s.mod.health.toNat ∧
      (Mem.bytes t.appMem (a + 208) 132).reverse =
        bytesOfNat 132 (Config.sign (Config.sha512 (Mem.bytes t.appMem a 208))).toNat ∧
      (∀ x, a + 340 ≤ x → x < a + 512 → Mem.get t.appMem x = 0) ∧
      ∀ x, (x < a ∨ a + 512 ≤ x) → Mem.get t.appMem x = Mem.get s.appMem x := by
  dsimp only
  generalize place : bits s.mod.attest 9 43 * 512 = a
  have written := Mem.bytes_putBytes wf a s.report
  rw [State.report_length] at written
  obtain ⟨body, signature, rest⟩ := report_parts written
  obtain ⟨nonce, measurement, ownership, rollback, health⟩ := attested_parts body
  have next := exec_attestComplete s
  rw [if_pos busy, place] at next
  rw [place] at nonce
  refine ⟨_, next, rfl, ?_⟩
  dsimp only
  refine ⟨nonce, Mem.readLE_of_bytes_toNat rfl measurement, Mem.readLE_of_bytes_toNat rfl ownership,
    Mem.readLE_of_bytes_toNat rfl rollback, Mem.readLE_of_bytes_toNat rfl health, ?_, fun x lo hi => ?_, fun x out => ?_⟩
  · rw [signature, body, List.reverse_reverse]
  · obtain ⟨i, rfl⟩ := Nat.exists_eq_add_of_le lo
    have byte := Mem.getElem_bytes (Mem.putBytes s.appMem a s.report) (a + 340) 172 (i := i) (by rw [Mem.bytes_length]; omega)
    simp only [rest, List.getElem_replicate] at byte
    exact byte.symm
  · exact Mem.get_putBytes_other wf a s.report (by rwa [State.report_length])

end

end Sys2Proof.Claims

/-! The home map (R243, R448): the regions that a new map marks get their record blocks. -/

namespace Sys2Proof.Machine

variable {s t u : State}

/-- A byte that does not read as unlisted memory is listed. -/
theorem Mem.mem_of_get {m : Mem} {a : Nat} (h : Mem.get m a ≠ Mem.empty) : (a, Mem.get m a) ∈ m := by
  induction m with
  | nil => exact absurd rfl h
  | cons c rest ih =>
    obtain ⟨x, y⟩ := c
    simp only [Mem.get] at h ⊢
    split at h
    · next hit =>
      rw [if_pos hit, hit]
      exact List.mem_cons_self
    · next miss =>
      rw [if_neg miss]
      split at h
      · exact absurd rfl h
      · next above =>
        rw [if_neg above]
        exact List.mem_cons_of_mem _ (ih h)

/-- What asking for record blocks keeps: the contexts of the core, the module's number and its home map, and the blocks that
there are. -/
structure State.Asked (s t : State) : Prop where
  ctx : t.ctx = s.ctx
  k : t.k = s.k
  modid : t.mod.modid = s.mod.modid
  homemap : t.mod.homemap = s.mod.homemap
  blocks : ∀ r ∈ s.recBlocks, r ∈ t.recBlocks

theorem State.Asked.refl (s : State) : s.Asked s := ⟨rfl, rfl, rfl, rfl, fun _ h => h⟩

theorem State.Asked.trans (h : s.Asked t) (h' : t.Asked u) : s.Asked u :=
  ⟨h'.ctx.trans h.ctx, h'.k.trans h.k, h'.modid.trans h.modid, h'.homemap.trans h.homemap, fun r hr => h'.blocks r (h.blocks r hr)⟩

theorem State.errorRecord_asked (s : State) (kind : Nat) (c : UnitClass) (n : Nat) (part : Option Nat) (addr : Nat) :
    s.Asked (s.errorRecord kind c n part addr) ∧ (s.errorRecord kind c n part addr).recBlocks = s.recBlocks := by
  obtain ⟨tail, waiting, mod⟩ := Claims.errorRecord_mod s kind c n part addr
  obtain ⟨m, md, co, frame⟩ := s.errorRecord_frame kind c n part addr
  rw [frame] at mod ⊢
  exact ⟨⟨rfl, rfl, (congrArg Module.modid mod).trans rfl, (congrArg Module.homemap mod).trans rfl, fun _ h => h⟩, rfl⟩

/-- A request for a block makes one at most. -/
theorem State.needBlock_asked (s : State) (p : Option Nat) (region : Nat) :
    s.Asked (s.needBlock p region).2 ∧ (s.needBlock p region).2.recBlocks.length ≤ s.recBlocks.length + 1 := by
  unfold State.needBlock
  split
  · exact ⟨.refl s, Nat.le_succ _⟩
  · split
    · exact ⟨⟨rfl, rfl, rfl, rfl, fun r h => List.mem_cons_of_mem _ h⟩, Nat.le_refl _⟩
    · split
      · exact ⟨.refl s, Nat.le_succ _⟩
      · obtain ⟨kept, blocks⟩ := State.errorRecord_asked { s with refused := region :: s.refused } 6 .shared 0 p (region * 2 ^ 21)
        exact ⟨⟨kept.ctx, kept.k, kept.modid, kept.homemap, kept.blocks⟩, Nat.le_succ_of_le (congrArg List.length blocks).le⟩

/-- A region of this module has its block after the request, unless every block is taken. -/
theorem State.needBlock_has (p : Option Nat) {region : Nat} (here : modOf (region * 2 ^ 21) = s.modNo)
    (room : s.recBlocks.length < Config.recordBlocks) : region ∈ (s.needBlock p region).2.recBlocks := by
  unfold State.needBlock
  split
  · next h => exact List.contains_iff_mem.mp (h.resolve_left (not_not.mpr here))
  · exact List.mem_cons_self

section
variable {α : Type} (owner : α → Option Nat) (region : α → Nat)

theorem State.foldl_needBlock_asked (cells : List α) (s : State) :
    s.Asked (cells.foldl (fun (acc : State) c => (acc.needBlock (owner c) (region c)).2) s) :=
  List.foldlRecOn cells _ (.refl s) fun _ kept _ _ => kept.trans (State.needBlock_asked _ _ _).1

/-- While there is room for a block of each, every region of this module that is asked for has its block in the end. -/
theorem State.foldl_needBlock_has {c : α} (here : modOf (region c * 2 ^ 21) = s.modNo) {cells : List α} (asked : c ∈ cells)
    (room : s.recBlocks.length + cells.length ≤ Config.recordBlocks) :
    region c ∈ (cells.foldl (fun (acc : State) c => (acc.needBlock (owner c) (region c)).2) s).recBlocks := by
  induction cells generalizing s with
  | nil => cases asked
  | cons d rest ih =>
    rw [List.length_cons] at room
    rw [List.foldl_cons]
    obtain ⟨kept, length⟩ := s.needBlock_asked (owner d) (region d)
    rcases List.mem_cons.mp asked with rfl | later
    · exact (State.foldl_needBlock_asked owner region rest _).blocks _ (State.needBlock_has _ here (by omega))
    · refine ih (here.trans ?_) later (by omega)
      rw [State.modNo, State.modNo, kept.modid]

end

/-- The region that a cell of memory stands for in the home map, and the partition that its block is asked for. -/
def State.cellRegion (s : State) (c : Nat × Byte) : Nat := s.modNo * 2 ^ 25 + (c.1 - s.mapBase)
def State.cellOwner (s : State) (c : Nat × Byte) : Option Nat :=
  (upFrom 0 16).find? (fun p => s.ownsSet p (setOf (s.cellRegion c * 2 ^ 21)))

/-- A cell of the home map marks its region as checked. -/
def State.cellMarks (s : State) (c : Nat × Byte) : Bool :=
  s.mapBase != 0 && decide (s.mapBase ≤ c.1) && decide (c.1 < s.mapBase + Config.regions) && c.2.getLsbD 7

theorem State.askBlocks_eq (s : State) (cells : List (Nat × Byte)) : s.askBlocks cells =
    (cells.filter s.cellMarks).foldl (fun (acc : State) c => (acc.needBlock (s.cellOwner c) (s.cellRegion c)).2) s := rfl

theorem State.askBlocks_asked (s : State) (cells : List (Nat × Byte)) : s.Asked (s.askBlocks cells) :=
  State.foldl_needBlock_asked s.cellOwner s.cellRegion _ s

/-- The regions of a module follow each other in its part of the address space (R236). -/
theorem modOf_region {n r : Nat} (h : r < Config.regions) : modOf ((n * 2 ^ 25 + r) * 2 ^ 21) = n := by
  have : r < 294912 := h
  unfold modOf
  omega

/-- A byte of the home map that marks its region gets the region a block (R243). -/
theorem State.askBlocks_has {cells : List (Nat × Byte)} {r : Nat} {b : Byte} (based : s.mapBase ≠ 0) (hr : r < Config.regions)
    (marks : b.getLsbD 7 = true) (listed : (s.mapBase + r, b) ∈ cells)
    (room : s.recBlocks.length + cells.length ≤ Config.recordBlocks) :
    s.modNo * 2 ^ 25 + r ∈ (s.askBlocks cells).recBlocks := by
  have marked : s.cellMarks (s.mapBase + r, b) = true := by
    simp only [State.cellMarks, bne_iff_ne.mpr based, decide_eq_true (Nat.le_add_right s.mapBase r),
      decide_eq_true (Nat.add_lt_add_left hr s.mapBase), marks, Bool.and_self]
  have region : s.cellRegion (s.mapBase + r, b) = s.modNo * 2 ^ 25 + r := by
    rw [State.cellRegion, Nat.add_sub_cancel_left]
  rw [State.askBlocks_eq, ← region]
  exact State.foldl_needBlock_has _ _ (by rw [region]; exact modOf_region hr) (List.mem_filter.mpr ⟨listed, marked⟩)
    (Nat.le_trans (Nat.add_le_add_left (List.length_filter_le _ _) _) room)

end Sys2Proof.Machine

/-! Writes of the control space by offset (R448 to R452, R463). -/

namespace Sys2Proof.Claims

open Machine

section
variable {s : State}

/-- A masked word, the mask written out. -/
theorem masked_eq (v : Word) {mask : Nat} {w : Word} (h : BitVec.ofNat 64 mask = w) : masked v mask = v &&& w := by rw [masked, h]

theorem modidWrite (s : State) : exec .modidWrite s =
    .next (if s.mod.linkEnabled then s else { s with mod := { s.mod with modid := s.cmd.value &&& 63 } }) := rfl

/-- A write of ATTEST leaves the nonce in its buffer, and starts an attestation unless one is in progress (R459). -/
theorem attestWrite (s : State) : let v := s.cmd.value
    let nonce := Mem.putBytes s.appMem (bits v 9 43 * 512) (s.cmd.bytes.take 64)
    exec .attest s = .next (if s.mod.attest.getLsbD 63 then { s with appMem := nonce } else { s with
      appMem := nonce
      mod := { s.mod with attest := v &&& 0xFFFFFFFFFFE00 ||| 0x8000000000000000 } }) := by
  intro v nonce
  have mask : masked v (maskBits 9 51) = v &&& 0xFFFFFFFFFFE00 := masked_eq v (by decide)
  rw [← mask]
  rfl

theorem exec_registerWrite (s : State) : exec .registerWrite s = .next (s.writeReg s.cmd.addr s.cmd.value) := rfl

theorem registerWrite_module {off : Nat} (h : s.cmd.addr = off) (low : off < 0x10000) :
    exec .registerWrite s = .next (s.writeModuleReg off s.cmd.value) := by
  rw [exec_registerWrite, State.writeReg, h, if_pos low]

theorem registerWrite_part (lo : 0x10000 ≤ s.cmd.addr) (hi : s.cmd.addr < 0x20000) : exec .registerWrite s =
    .next (s.writePartReg ((s.cmd.addr - 0x10000) / 0x1000) (s.cmd.addr % 0x1000) s.cmd.value) := by
  rw [exec_registerWrite, State.writeReg, if_neg (Nat.not_lt.mpr lo), if_pos hi]

/-- A register of the debug block of the core in focus. -/
theorem registerWrite_core {off : Nat} (here : s.coreNo < 768) (h : s.cmd.addr = 0x40000 + 0x100 * s.coreNo + off)
    (low : off < 0x100) :
    exec .registerWrite s = .next { s with hw := s.hw.writeReg off s.cmd.value } := by
  have inCore : 0x40000 ≤ s.cmd.addr ∧ s.cmd.addr < 0x40000 + 0x100 * Config.cores :=
    ⟨by omega, show s.cmd.addr < 0x40000 + 0x100 * 768 by omega⟩
  have core : (s.cmd.addr - 0x40000) / 0x100 = s.coreNo := by omega
  have register : s.cmd.addr % 0x100 = off := by omega
  rw [exec_registerWrite, State.writeReg, if_neg (by omega), if_neg (by omega), if_neg (by omega), if_neg (by omega), if_pos inCore,
    core, register, State.atCore_self]

/-- Offsets at which nothing is written: read-only registers of the module, and the gap behind the queue engines. -/
theorem registerWrite_ignored
    (h : s.cmd.addr = 0x10 ∨ s.cmd.addr = 0x30 ∨ s.cmd.addr = 0x40 ∨ (0x28000 ≤ s.cmd.addr ∧ s.cmd.addr < 0x30000)) :
    exec .registerWrite s = .next s := by
  rcases h with h | h | h | ⟨lo, hi⟩
  · exact registerWrite_module h (by decide)
  · exact registerWrite_module h (by decide)
  · exact registerWrite_module h (by decide)
  · rw [exec_registerWrite, State.writeReg, if_neg (by omega), if_neg (by omega), if_neg (by omega), if_neg (by omega),
      if_neg (by omega)]

theorem homemapWrite (h : s.cmd.addr = 0x20) : let v := s.cmd.value
    let m := s.mod
    ∃ t, exec .registerWrite s = .next t ∧ t.mod.homemap = v &&& 0xFFFFFFFFFF000 ∧ t.ctx = s.ctx ∧ t.k = s.k ∧
      (∀ r, r < 294912 → bits v 12 40 ≠ 0 → (Mem.get s.mem (bits v 12 40 * 4096 + r)).getLsbD 7 = true →
        s.recBlocks.length + s.mem.length ≤ 294912 → t.recBlocks.contains (s.modNo * 2 ^ 25 + r) = true) ∧
      (s.mem = [] → t = { s with mod := { m with homemap := v &&& 0xFFFFFFFFFF000 } }) := by
  intro v m
  have mask : masked v (maskBits 12 51) = v &&& 0xFFFFFFFFFF000 := masked_eq v (by decide)
  have field : bits (v &&& 0xFFFFFFFFFF000) 12 40 = bits v 12 40 := by
    rw [← mask]
    exact bits_masked v (by decide) (by decide)
  have write : exec .registerWrite s =
      .next (State.askBlocks { s with mod := { m with homemap := v &&& 0xFFFFFFFFFF000 } } s.mem) := by
    rw [registerWrite_module h (by decide), ← mask]
    rfl
  have asked := State.askBlocks_asked { s with mod := { m with homemap := v &&& 0xFFFFFFFFFF000 } } s.mem
  refine ⟨_, write, asked.homemap, asked.ctx, asked.k, fun r hr base marks room => ?_, fun empty => ?_⟩
  · have place : State.mapBase { s with mod := { m with homemap := v &&& 0xFFFFFFFFFF000 } } = bits v 12 40 * 4096 :=
      congrArg (· * 4096) field
    have listed : (bits v 12 40 * 4096 + r, Mem.get s.mem (bits v 12 40 * 4096 + r)) ∈ s.mem :=
      Mem.mem_of_get fun zero => by simp [zero, Mem.empty] at marks
    rw [← place] at listed marks
    exact List.contains_iff_mem.mpr (State.askBlocks_has (by rw [place]; omega) hr marks listed room)
  · rw [empty]
    rfl

theorem whileOff_on {p : Nat} {f : Part → Part} (on : (s.parts.getD p {}).ctl.getLsbD 0 = true) : s.whileOff p f = s := if_pos on

theorem whileOff_off {p : Nat} {f : Part → Part} (off : (s.parts.getD p {}).ctl.getLsbD 0 = false) :
    s.whileOff p f = s.onPart p f := if_neg (Bool.eq_false_iff.mp off)

/-- CLUSTERS: clusters of another partition are not taken, and none while the partition runs (R451). -/
theorem clustersWrite_ignored {p : Nat} {c : Word} {f : Part → Part}
    (h : elsewhereOwned s p (fun q => q.clusters) c ∨ (s.parts.getD p {}).ctl.getLsbD 0 = true) :
    s.giveUnits p (fun q => q.clusters) c f = s := by
  rw [State.giveUnits]
  rcases h with taken | on
  · rw [if_pos ((taken_iff _ _ _ _).mpr taken)]
  · rw [whileOff_on on, ite_self]

theorem clustersWrite_taken {p : Nat} {c : Word} {f : Part → Part} (untaken : ¬ elsewhereOwned s p (fun q => q.clusters) c)
    (off : (s.parts.getD p {}).ctl.getLsbD 0 = false) : s.giveUnits p (fun q => q.clusters) c f = s.onPart p f := by
  rw [State.giveUnits, if_neg (mt (taken_iff _ _ _ _).mp untaken), whileOff_off off]

theorem powercapWrite (h : s.cmd.addr = 0x28) : exec .registerWrite s = .next (if 1000 ≤ bits s.cmd.value 0 16 ∧
    bits s.cmd.value 0 16 ≤ 2400 then
    { s with mod := { s.mod with powercap := BitVec.ofNat 64 (bits s.cmd.value 0 16) } } else s) :=
  registerWrite_module h (by decide)

theorem errringWrite (h : s.cmd.addr = 0x38) (none : s.mod.errWait = []) : exec .registerWrite s =
    .next { s with mod := { s.mod with errring := s.cmd.value &&& 0xFFFFFFFFFF00F } } := by
  have mask : masked s.cmd.value (maskBits 12 51 + 15) = s.cmd.value &&& 0xFFFFFFFFFF00F := masked_eq _ (by decide)
  rw [registerWrite_module h (by decide), ← mask]
  exact congrArg _ (State.flushAll_none none)

/-- The registers of a partition's block: CLUSTERS, PTROOT and SDVA (R450, R451). -/
theorem partRegisterWrites {p off : Nat} (write : exec .registerWrite s = .next (s.writePartReg p off s.cmd.value)) :
    let v := s.cmd.value
    let pt := s.parts.getD p {}
    (off = 0x08 → (elsewhereOwned s p (fun q => q.clusters) (v &&& 0xFFFFFFFFFFFF) ∨ pt.ctl.getLsbD 0 = true) →
      exec .registerWrite s = .next s) ∧
    (off = 0x08 → ¬ elsewhereOwned s p (fun q => q.clusters) (v &&& 0xFFFFFFFFFFFF) → pt.ctl.getLsbD 0 = false →
      exec .registerWrite s = .next (s.onPart p (fun q => { q with clusters := v &&& 0xFFFFFFFFFFFF }))) ∧
    (off = 0x30 → pt.ctl.getLsbD 0 = true → exec .registerWrite s = .next s) ∧
    (off = 0x30 → pt.ctl.getLsbD 0 = false →
      exec .registerWrite s = .next (s.onPart p (fun q => { q with ptroot := v &&& 0xFFFFFFFFFF000 }))) ∧
    (off = 0x38 → exec .registerWrite s = .next (s.onPart p (fun q => { q with sdva := v &&& 0x1FFFFFFFFFF0000 }))) := by
  intro v pt
  have clusters : masked v (maskBits 0 47) = v &&& 0xFFFFFFFFFFFF := masked_eq v (by decide)
  have ptroot : masked v (maskBits 12 51) = v &&& 0xFFFFFFFFFF000 := masked_eq v (by decide)
  have sdva : masked v (maskBits 16 56) = v &&& 0x1FFFFFFFFFF0000 := masked_eq v (by decide)
  rw [← clusters, ← ptroot, ← sdva, write]
  refine ⟨?_, ?_, ?_, ?_, ?_⟩
  · rintro rfl refused
    exact congrArg _ (clustersWrite_ignored refused)
  · rintro rfl untaken disabled
    exact congrArg _ (clustersWrite_taken untaken disabled)
  · rintro rfl on
    exact congrArg _ (whileOff_on on)
  · rintro rfl disabled
    exact congrArg _ (whileOff_off disabled)
  · rintro rfl
    rfl

theorem serveqWrite (here : s.coreNo < 768) (h : s.cmd.addr = 0x40000 + 0x100 * s.coreNo) : exec .registerWrite s =
    .next { s with hw := { s.hw with serveq := s.cmd.value &&& 0xFFFFFFFFFF } } := by
  have mask : masked s.cmd.value (maskBits 0 39) = s.cmd.value &&& 0xFFFFFFFFFF := masked_eq _ (by decide)
  rw [← mask]
  exact registerWrite_core here (off := 0) h (by decide)

theorem bppcWrite {n : Nat} (hn : n < 4) (here : s.coreNo < 768) (h : s.cmd.addr = 0x40020 + 0x100 * s.coreNo + 8 * n) :
    exec .registerWrite s = .next { s with hw := { s.hw with bppc := s.hw.bppc.setIfInBounds n s.cmd.value } } := by
  have register : s.hw.writeReg (0x20 + 8 * n) s.cmd.value = { s.hw with bppc := s.hw.bppc.setIfInBounds n s.cmd.value } := by
    rw [CoreHw.writeReg, if_neg (by omega), if_neg (by omega), if_neg (by omega), if_pos (by omega),
      show (0x20 + 8 * n - 0x20) / 8 = n by omega]
  rw [registerWrite_core here (off := 0x20 + 8 * n) (by omega) (by omega), register]

end

end Sys2Proof.Claims

/-! Writes of system software (`Obligations.RegisterWrites`). -/

namespace Sys2Proof.Claims

open Machine

/-- Settles O52: each register's equation says when its write is taken and what it leaves; a report, a mask of units and a home map
are read back by the lemmas about bytes, bits and record blocks. -/
theorem registerWrites : Obligations.RegisterWrites := by
  unfold Obligations.RegisterWrites
  refine ⟨fun s en => ⟨queueSwitch_ignored, queueSwitch_taken⟩, fun s hp => ?partitions,
    fun s => ⟨sampleEnable_running, sampleEnable_starts⟩, fun s => ?rings,
    fun s => ⟨fun idle => ?_, attestComplete_report⟩, fun s => ?registers⟩
  case partitions =>
    refine ⟨partitionEnable_refused, fun free idle => ?_, fun free engines clusters => ?_, fun on draining => ?_,
      fun c on running tasks only opened => partitionDisable_root hp on running tasks only opened, fun draining quiet => ?_,
      fun waits => ?_⟩
    · rw [partitionEnable_named free, if_neg (not_and_or.mpr (idle.imp not_not.mpr not_not.mpr))]
      exact congrArg Host.Outcome.next (State.onPart_congr rfl)
    · rw [partitionEnable_named free, if_pos ⟨engines, clusters⟩, State.onPart_onPart hp]
      exact congrArg Host.Outcome.next (State.onPart_congr rfl)
    · exact congrArg Host.Outcome.next (State.writePartctl_stays on (.inr draining))
    · exact congrArg Host.Outcome.next (State.endDrain_drained draining quiet)
    · exact congrArg Host.Outcome.next (State.endDrain_waits waits)
  case rings =>
    refine ⟨rfl, errheadWrite_none, fun r => errheadWrite_one, fun linked => ?_, fun unlinked => ?_, fun busy => ?_, fun idle => ?_⟩
    · rw [modidWrite, if_pos linked]
    · rw [modidWrite, if_neg (Bool.eq_false_iff.mp unlinked)]
    · rw [attestWrite, if_pos busy]
    · rw [attestWrite, if_neg (Bool.eq_false_iff.mp idle)]
  case registers =>
    refine ⟨homemapWrite, errringWrite, fun h low high => ?_, fun h out => ?_, registerWrite_ignored,
      fun lo hi => partRegisterWrites (registerWrite_part lo hi), serveqWrite, fun n => bppcWrite⟩
    · rw [powercapWrite h, if_pos ⟨low, high⟩]
    · rw [powercapWrite h, if_neg (by omega)]
  · rw [exec_attestComplete, if_neg (Bool.eq_false_iff.mp idle)]

end Sys2Proof.Claims

/-! What the translation of an access changes (`Obligations.AccessFrame`): caches, record blocks, records and messages, but no
memory while a record block can be given. -/

namespace Sys2Proof.Machine

section
variable {s t u : State}

/-- A walk changes the walk cache, and a free value may be used (R245, log 7). -/
theorem State.walkPut_frame (s : State) (die at' : Nat) (e : Word) : ∃ w n, s.walkPut die at' e = { s with walks := w, free := n } := by
  unfold State.walkPut
  dsimp only
  split
  · exact ⟨_, s.free, rfl⟩
  · exact ⟨_, _, rfl⟩

theorem State.walkRead_frame {die level at' : Nat} {e : Word} (h : s.walkRead die level at' = some (e, t)) :
    ∃ w n, t = { s with walks := w, free := n } := by
  unfold State.walkRead at h
  split at h
  · cases h
    exact ⟨s.walks, s.free, rfl⟩
  · split at h
    · cases h
    · obtain ⟨-, rfl⟩ := Prod.mk.inj (Option.some.inj h)
      split
      · exact s.walkPut_frame die at' _
      · exact ⟨s.walks, s.free, rfl⟩

theorem State.walkFrom_frame (p die : Nat) (va : Word) (level : Nat) : ∀ (s : State) (table : Nat),
    ∃ w n, (s.walkFrom p die va level table).2 = { s with walks := w, free := n } := by
  induction level with
  | zero =>
    intro s table
    unfold State.walkFrom
    split
    · exact ⟨s.walks, s.free, rfl⟩
    · dsimp only
      split
      · exact ⟨s.walks, s.free, rfl⟩
      · rename_i e s1 read
        have here := State.walkRead_frame read
        split <;> exact here
  | succ next ih =>
    intro s table
    unfold State.walkFrom
    split
    · exact ⟨s.walks, s.free, rfl⟩
    · dsimp only
      split
      · exact ⟨s.walks, s.free, rfl⟩
      · rename_i e s1 read
        obtain ⟨w, n, here⟩ := State.walkRead_frame read
        have stays : ∃ w n, s1 = { s with walks := w, free := n } := ⟨w, n, here⟩
        split
        · exact stays
        · split
          · exact stays
          · split
            · exact stays
            · obtain ⟨w', n', below⟩ := ih s1 (bits e 8 44 * 256)
              exact ⟨w', n', below.trans (by rw [here])⟩
        · exact stays
        · exact stays

theorem State.walk_frame (s : State) (p die : Nat) (va : Word) :
    ∃ w n, (s.walk p die va).2 = { s with walks := w, free := n } := State.walkFrom_frame p die va 4 s _

/-- What a translation keeps: the context in focus, its core's state and cluster memory, and global memory unless a record block
is refused, of which a record is written (R243). -/
structure State.Translates (s t : State) : Prop where
  ctx : t.ctx = s.ctx
  k : t.k = s.k
  coreNo : t.coreNo = s.coreNo
  clusterMem : t.clusterMem = s.clusterMem
  mem : s.recBlocks.length < Config.recordBlocks → t.mem = s.mem

theorem State.Translates.refl (s : State) : s.Translates s := ⟨rfl, rfl, rfl, rfl, fun _ => rfl⟩

/-- Steps before and behind one that asks for a record block. -/
theorem State.Translates.after (blocks : t.recBlocks = s.recBlocks) (mem : t.mem = s.mem) (h : s.Translates t)
    (h' : t.Translates u) : s.Translates u :=
  ⟨h'.ctx.trans h.ctx, h'.k.trans h.k, h'.coreNo.trans h.coreNo, h'.clusterMem.trans h.clusterMem,
    fun room => (h'.mem (blocks ▸ room)).trans mem⟩

theorem State.Translates.before (h : s.Translates t) (h' : t.Translates u) (mem : u.mem = t.mem) : s.Translates u :=
  ⟨h'.ctx.trans h.ctx, h'.k.trans h.k, h'.coreNo.trans h.coreNo, h'.clusterMem.trans h.clusterMem,
    fun room => mem.trans (h.mem room)⟩

/-- A record block is given, or its refusal is recorded (R243). -/
theorem State.translates_needBlock (s : State) (p : Option Nat) (region : Nat) : s.Translates (s.needBlock p region).2 := by
  unfold State.needBlock
  split
  · exact .refl s
  · split
    · exact ⟨rfl, rfl, rfl, rfl, fun _ => rfl⟩
    · split
      · exact .refl s
      · next full _ =>
        obtain ⟨m, md, co, frame⟩ := State.errorRecord_frame { s with refused := region :: s.refused } 6 .shared 0 p (region * 2 ^ 21)
        rw [frame]
        exact ⟨rfl, rfl, rfl, rfl, fun room => absurd room full⟩

theorem State.noteTranslation_frame (s : State) (part base size : Nat) (leaf : Word) :
    ∃ x, s.noteTranslation part base size leaf = { s with translated := x } := by
  unfold State.noteTranslation
  dsimp only
  split
  · exact ⟨s.translated, rfl⟩
  · exact ⟨_, rfl⟩

/-- A translation cached changes the TLB, what is remembered of translations, and a free value may be used (R244). -/
theorem State.tlbPut_frame (s : State) (e : TlbEntry) : ∃ x h n, s.tlbPut e = { s with translated := x, hw := h, free := n } := by
  obtain ⟨x, noted⟩ := s.noteTranslation_frame e.part e.base e.size e.leaf
  unfold State.tlbPut
  rw [noted]
  dsimp only
  split
  · exact ⟨x, _, s.free, rfl⟩
  · exact ⟨x, _, _, rfl⟩

theorem State.translates_cacheLeaf (s : State) (p : Nat) (va e : Word) (at' level : Nat) :
    s.Translates (s.cacheLeaf p va e at' level).2 := by
  unfold State.cacheLeaf
  extract_lets size region asked entry
  have given : s.Translates asked.2 := by
    unfold asked
    split
    · exact s.translates_needBlock _ _
    · exact .refl s
  obtain ⟨x, h, n, frame⟩ := asked.2.tlbPut_frame entry
  rw [frame]
  exact given.before ⟨rfl, rfl, rfl, rfl, fun _ => rfl⟩ rfl

theorem State.noteAsked_frame (s : State) (t : TlbEntry) (region : Nat) (given : Bool) :
    ∃ h, s.noteAsked t region given = { s with hw := h } := ⟨_, rfl⟩

theorem State.translates_checkedBy {r : Bool × State} (given : s.Translates r.2) (x : TlbEntry) (pa region : Nat) :
    s.Translates (s.checkedBy x pa region r).2 := by
  unfold State.checkedBy
  split
  · exact .refl s
  · split
    · exact .refl s
    · obtain ⟨h, frame⟩ := r.2.noteAsked_frame x region r.1
      dsimp only
      rw [frame]
      exact given.before ⟨rfl, rfl, rfl, rfl, fun _ => rfl⟩ rfl

theorem State.translates_throughTlb (s : State) (p : Nat) (x : TlbEntry) (va : Word) : s.Translates (s.throughTlb p x va).2 := by
  rw [State.throughTlb_eq]
  exact State.translates_checkedBy (s.translates_needBlock _ _) x _ _

/-- An access through a translation that has just been cached asks for no second record block: its region has been asked for. -/
theorem State.throughTlb_cacheLeaf (s : State) (p : Nat) (va e : Word) (at' level : Nat) :
    let r := s.cacheLeaf p va e at' level
    (r.2.throughTlb p r.1 va).2 = r.2 := by
  intro r
  rw [State.throughTlb_eq]
  dsimp only
  unfold State.checkedBy
  split
  · rfl
  · next checked =>
    have chk : leafChk e = true := by
      by_contra unchecked
      exact checked (by simp [r, State.cacheLeaf, unchecked])
    have asked : r.1.asked.contains ((leafFrame r.1.leaf + va.toNat % r.1.size) / 2 ^ 21) = true := by
      simp [r, State.cacheLeaf, chk]
    rw [if_pos (Or.inr asked)]

/-! The checks of a translation, in their order (R248). -/

/-- The state in which an access through a found translation goes on is one that a translation may leave. -/
def State.Reaches (s : State) (p : Nat) (va : Word) (r : Except Stop (TlbEntry × State)) : Prop :=
  Claims.Answers (fun x : TlbEntry × State => s.Translates (x.2.throughTlb p x.1 va).2) r

theorem State.Reaches.inTurn {p : Nat} {va : Word} {r : Except Stop (TlbEntry × State)} (h : s.Reaches p va r)
    (path : Path) (x : TlbEntry) : s.Reaches p va (t.inTurn path x r) := .ite h (.error _)

/-- A message sent before the translation goes on. -/
theorem State.translates_notice (s : State) (note : Instr × Cmd) (p : Nat) (x : TlbEntry) (va : Word) :
    s.Translates ({ s with inflight := s.inflight ++ [note] }.throughTlb p x va).2 :=
  .after (t := { s with inflight := s.inflight ++ [note] }) rfl rfl ⟨rfl, rfl, rfl, rfl, fun _ => rfl⟩
    (State.translates_throughTlb _ p x va)

theorem State.reaches_movingPage (s : State) (p : Nat) (parking : Bool) (path : Path) (va : Word) (x : TlbEntry) :
    s.Reaches p va (s.movingPage p parking path va x) := by
  have found : s.Reaches p va (.ok (x, s)) := .ok (s.translates_throughTlb p x va)
  unfold State.movingPage
  refine .ite (.error _) ?_
  split
  · exact .ite (found.inTurn _ _) (State.Reaches.inTurn (.ok (s.translates_notice _ p _ va)) _ _)
  · exact .error _
  · exact found
  · exact found.inTurn _ _

/-- A walk before a leaf is cached. -/
theorem State.translates_walked {w : Tbl Word} {n : Nat} (h : t = { s with walks := w, free := n }) (p : Nat) (va e : Word)
    (at' level : Nat) : let r := t.cacheLeaf p va e at' level
    s.Translates (r.2.throughTlb p r.1 va).2 := by
  intro r
  rw [State.throughTlb_cacheLeaf]
  have cached := t.translates_cacheLeaf p va e at' level
  have walked : s.Translates t := h ▸ ⟨rfl, rfl, rfl, rfl, fun _ => rfl⟩
  exact .after (by rw [h]) (by rw [h]) walked cached

theorem State.reaches_findLeaf (s : State) (p : Nat) (parking write : Bool) (path : Path) (va : Word) :
    s.Reaches p va (s.findLeaf p parking write path va) := by
  unfold State.findLeaf
  split
  · exact s.reaches_movingPage p parking path va _
  · obtain ⟨w, n, walked⟩ := s.walk_frame p (s.coreNo / 384) va
    split <;> rename_i e
    · exact .error _
    · exact .error _
    · exact .error _
    · exact .error _
    · rename_i leaf at' level s1
      have found : s.Reaches p va (.ok (s1.cacheLeaf p va leaf at' level)) :=
        .ok (State.translates_walked ((congrArg Prod.snd e).symm.trans walked) p va leaf at' level)
      exact .ite (.error _) (.ite (.error _) (.ite found (found.inTurn _ _)))

theorem State.translates_windowTarget (s : State) (ag : Agent) (va : Word) (n : Nat) :
    Claims.Answers (fun x : Target × State => s.Translates x.2) (s.windowTarget ag va n) :=
  .ite (.error _) (.ite (.error _) (.ite (.error _) (.ok (.refl s))))

/-- The hot-line stores change where an access claims its line and soils it (R383). -/
theorem State.Translates.withHot (h : s.Translates t) (x : Tbl (List HotLine)) : s.Translates { t with hot := x } :=
  h.before ⟨rfl, rfl, rfl, rfl, fun _ => rfl⟩ rfl

theorem State.translates_translate (s : State) (ag : Agent) (path : Path) (parking write : Bool) (va : Word) (n : Nat) :
    Claims.Answers (fun x : Target × State => s.Translates x.2) (s.translate ag path parking write va n) := by
  unfold State.translate
  refine .ite (.error _) (.bind (P := fun x => s.Translates x.2) ?_ ?_)
  · refine .ite (s.translates_windowTarget ag va n) (.bind (s.reaches_findLeaf _ _ _ _ _) ?_)
    exact fun _ found => .ite (.error _) (.ok found)
  · rintro ⟨t, s1⟩ (found : s.Translates s1)
    refine .ite (.error _) (.ite (.error _) (.ite (.error _) (.ok ?_)))
    dsimp only
    split <;> split
    · exact (found.withHot _).withHot _
    · exact found.withHot _
    · exact found.withHot _
    · exact found

end

end Sys2Proof.Machine

namespace Sys2Proof.Claims

open Machine

section
variable {s t u : State}

/-! The check of a checked page (R371, R373). -/

/-- What a whole access keeps. The region may take a tag, which the work of its engines then bears. -/
structure AccessKeeps (s t : State) : Prop where
  regs : sameRegs s t
  pc : t.ctx.pc = s.ctx.pc
  retired : t.ctx.retired = s.ctx.retired
  hold : t.ctx.hold = s.ctx.hold
  nt : t.ctx.nt = s.ctx.nt
  loop : t.k.loop = s.k.loop
  localMem : t.k.localMem = s.k.localMem
  clusterMem : t.clusterMem = s.clusterMem
  mem : s.recBlocks.length < Config.recordBlocks → t.mem = s.mem

theorem accessKeeps_of_translates (h : s.Translates t) : AccessKeeps s t where
  regs := ⟨by rw [ctxView, ctxView, h.ctx], by rw [kernView, kernView, h.k], h.coreNo⟩
  pc := by rw [h.ctx]
  retired := by rw [h.ctx]
  hold := by rw [h.ctx]
  nt := by rw [h.ctx]
  loop := by rw [h.k]
  localMem := by rw [h.k]
  clusterMem := h.clusterMem
  mem := h.mem

theorem AccessKeeps.trans (h : AccessKeeps s t) (h' : AccessKeeps t u) (mem : u.mem = t.mem) : AccessKeeps s u where
  regs := ⟨h'.regs.1.trans h.regs.1, h'.regs.2.1.trans h.regs.2.1, h'.regs.2.2.trans h.regs.2.2⟩
  pc := h'.pc.trans h.pc
  retired := h'.retired.trans h.retired
  hold := h'.hold.trans h.hold
  nt := h'.nt.trans h.nt
  loop := h'.loop.trans h.loop
  localMem := h'.localMem.trans h.localMem
  clusterMem := h'.clusterMem.trans h.clusterMem
  mem room := mem.trans (h.mem room)

/-- What the engines' work is told changes no register that the statement counts. -/
theorem kernView_tellEngines (s : State) (tag : Nat) : kernView (s.tellEngines tag) = kernView s := by
  unfold kernView State.tellEngines
  simp only [Vector.map_map, List.map_map, Function.comp_def, Kern.mk.injEq, true_and, and_true]
  exact List.map_congr_left fun u _ => by split <;> rfl

theorem accessKeeps_takeTag (s : State) : AccessKeeps s s.takeTag ∧ s.takeTag.mem = s.mem := by
  unfold State.takeTag
  split
  · exact ⟨accessKeeps_of_translates (.refl s), rfl⟩
  · extract_lets slot tag ready
    split
    · refine ⟨⟨⟨rfl, ?_, rfl⟩, rfl, rfl, rfl, rfl, rfl, rfl, rfl, fun _ => rfl⟩, rfl⟩
      exact kernView_tellEngines (s.forgetTag _ _) _
    · exact ⟨⟨⟨rfl, rfl, rfl⟩, rfl, rfl, rfl, rfl, rfl, rfl, rfl, fun _ => rfl⟩, rfl⟩

theorem unnote_frame (s : State) (ident g : Nat) (write : Bool) : ∃ b, s.unnote ident g write = { s with before := b } := by
  unfold State.unnote
  split
  · exact ⟨s.before, rfl⟩
  · exact ⟨_, rfl⟩

/-- A granule's check changes its record, and what is known of the record's access (R373). -/
theorem checkGranule_frame (s : State) (ag : Agent) (g : Nat) (writes recordsWrite atomic : Bool) (reads : Knower → Bool) :
    Answers (fun u => ∃ r b, u = { s with records := r, before := b }) (s.checkGranule ag g writes recordsWrite atomic reads) := by
  unfold State.checkGranule
  refine .ite (.error _) (.ite (.error _) ?_)
  split
  · exact .ok ⟨s.records, s.before, rfl⟩
  · obtain ⟨b, known⟩ := unnote_frame { s with records := _ } ag.ident g recordsWrite
    exact .ok ⟨_, b, known⟩

theorem checkAccess_frame (s : State) (ag : Agent) (x : Target) (n : Nat) (writes recordsWrite atomic : Bool) :
    Answers (fun u => ∃ r b, u = { s with records := r, before := b }) (s.checkAccess ag x n writes recordsWrite atomic) := by
  unfold State.checkAccess
  refine .ite (.bind (checkGranule_frame s _ _ _ _ _ _) ?_) (.ok ⟨s.records, s.before, rfl⟩)
  rintro _ ⟨r, b, rfl⟩
  refine .ite (.ok ⟨r, b, rfl⟩) fun u hu => ?_
  obtain ⟨r', b', rfl⟩ := checkGranule_frame _ _ _ _ _ _ _ u hu
  exact ⟨r', b', rfl⟩

theorem accessKeeps_lsTarget (s : State) (path : Machine.Path) (va : Word) (n : Nat) (w r atomic : Bool) :
    Answers (fun x : Target × State => AccessKeeps s x.2) (s.lsTarget path va n w r atomic) := by
  have same : AccessKeeps s s := accessKeeps_of_translates (.refl s)
  unfold State.lsTarget
  dsimp only
  split
  · exact .ite (.error _) (.ite (.error _) (.ok same))
  · exact .ite (.error _) (.ite (.error _) (.ok same))
  · refine .bind (s.translates_translate _ _ _ _ _ _) ?_
    rintro ⟨x, s1⟩ (found : s.Translates s1)
    have tagged : AccessKeeps s (if x.checked then s1.takeTag else s1) := by
      split
      · exact (accessKeeps_of_translates found).trans (accessKeeps_takeTag s1).1 (accessKeeps_takeTag s1).2
      · exact accessKeeps_of_translates found
    generalize (if x.checked then s1.takeTag else s1) = s2 at tagged ⊢
    have checked := checkAccess_frame s2 s2.agent x n w r atomic
    cases h : s2.checkAccess s2.agent x n w r atomic with
    | error e => exact .error _
    | ok s3 =>
      obtain ⟨records, before, rfl⟩ := checked s3 h
      exact .ok (tagged.trans ⟨⟨rfl, rfl, rfl⟩, rfl, rfl, rfl, rfl, rfl, rfl, rfl, fun _ => rfl⟩ rfl)

end

/-- Settles O20: the state that an access reaches keeps all that the statement names. -/
theorem accessFrame : Obligations.AccessFrame := by
  unfold Obligations.AccessFrame
  intro s s1 path va n w r atomic t h
  have kept : AccessKeeps s s1 := accessKeeps_lsTarget s path va n w r atomic (t, s1) h
  exact ⟨kept.regs, kept.pc, kept.retired, kept.hold, kept.nt, kept.loop, kept.localMem, kept.clusterMem, fun _ => kept.mem⟩

end Sys2Proof.Claims

/-! PFH, TIERQ and PLACE (`Obligations.PlacementInstructions`). -/

namespace Sys2Proof.Machine

section
variable {s t u : State}

/-- The core in focus, its context and its state stay. -/
structure State.SameContext (s t : State) : Prop where
  ctx : t.ctx = s.ctx
  k : t.k = s.k
  coreNo : t.coreNo = s.coreNo

theorem State.SameContext.refl (s : State) : s.SameContext s := ⟨rfl, rfl, rfl⟩

theorem State.SameContext.trans (h : s.SameContext t) (h' : t.SameContext u) : s.SameContext u :=
  ⟨h'.ctx.trans h.ctx, h'.k.trans h.k, h'.coreNo.trans h.coreNo⟩

theorem State.Translates.sameContext (h : s.Translates t) : s.SameContext t := ⟨h.ctx, h.k, h.coreNo⟩

theorem State.sameContext_walk (s : State) (p die : Nat) (va : Word) : s.SameContext (s.walk p die va).2 := by
  obtain ⟨w, n, frame⟩ := s.walk_frame p die va
  rw [frame]
  exact ⟨rfl, rfl, rfl⟩

theorem State.sameContext_countNear (s : State) (leaf : Nat) : s.SameContext (s.countNear leaf) := by
  have turned : s.SameContext s.turnEpoch := by
    unfold State.turnEpoch
    split
    · exact ⟨rfl, rfl, rfl⟩
    · exact .refl s
  exact ⟨turned.ctx, turned.k, turned.coreNo⟩

theorem State.sameContext_askPageIn (s : State) (p leaf : Nat) (va : Word) : s.SameContext (s.askPageIn p leaf va) :=
  ⟨rfl, rfl, rfl⟩

/-- PFH asks for pages and caches translations, which no context sees (R259, R260). -/
theorem State.sameContext_prefetchPage (s : State) (opt : BitVec 3) (a : Nat) : s.SameContext (s.prefetchPage opt a).2 := by
  unfold State.prefetchPage
  extract_lets va skip
  split
  · exact .refl s
  · have walked := s.sameContext_walk s.myPart (s.coreNo / 384) va
    split <;> rename_i e
    · rename_i leaf at' level s1
      rw [e] at walked
      extract_lets next s2 busy
      have near : s.SameContext s2 := by
        unfold s2
        split
        · exact walked.trans (s1.sameContext_countNear at')
        · exact walked
      split
      · exact near.trans (s2.sameContext_askPageIn _ _ _)
      · split
        · exact near.trans (s2.translates_cacheLeaf _ _ _ _ _).sameContext
        · exact near
    · exact .refl s

theorem State.sameContext_prefetch (opt : BitVec 3) (last n : Nat) :
    ∀ (s : State) (a : Nat), s.SameContext (s.prefetch opt last n a) := by
  induction n with
  | zero => exact fun s _ => .refl s
  | succ n ih =>
    intro s a
    unfold State.prefetch
    split
    · exact .refl s
    · exact (s.sameContext_prefetchPage opt a).trans (ih _ _)

/-! The word that TIERQ delivers (R262). -/

theorem apertureOf_of_canonical {va : Word} (h : canonical va = true) : apertureOf va = none := by
  rcases canonical_iff.mp h with h | h <;> simp [apertureOf, h]

theorem State.residency_noncanonical {va : Word} (h : canonical va = false) : s.residency va = 3 := by
  simp [State.residency, h]

theorem State.residency_window {va : Word} {x : Target} (h : canonical va = true) (hw : inWindow s.agent va = true)
    (ht : s.windowTarget s.agent va 1 = .ok (x, t)) :
    s.residency va = BitVec.ofNat 64 (modOf x.addr * 2 ^ 13 + x.home * 2 ^ 7 + 2 ^ 4) := by
  simp [State.residency, apertureOf_of_canonical h, h, hw, ht]

theorem State.residency_windowless {va : Word} {r : Stop} (h : canonical va = true) (hw : inWindow s.agent va = true)
    (ht : s.windowTarget s.agent va 1 = .error r) : s.residency va = 3 := by
  simp [State.residency, apertureOf_of_canonical h, h, hw, ht]

theorem State.residency_leaf {va e : Word} {at' level : Nat} (h : canonical va = true) (hw : inWindow s.agent va = false)
    (hl : s.walk s.myPart (s.coreNo / 384) va = (.leaf e at' level, t)) :
    s.residency va = BitVec.ofNat 64 (modOf (leafFrame e) * 2 ^ 13 + leafHome e * 2 ^ 7 + (s.settled (s.page at')).toNat * 2 ^ 6 +
      ((s.page at').stage != .none).toNat * 2 ^ 5 + level * 4 + leafTier e) := by
  simp [State.residency, apertureOf_of_canonical h, h, hw, hl]

theorem State.residency_noLeaf {va : Word} (h : canonical va = true) (hw : inWindow s.agent va = false)
    (hl : ∀ e at' level s1, s.walk s.myPart (s.coreNo / 384) va ≠ (.leaf e at' level, s1)) : s.residency va = 3 := by
  unfold State.residency
  rw [apertureOf_of_canonical h, h, hw, if_neg (by simp), if_neg (by simp)]
  split
  · rename_i e at' level found
    exact (hl e at' level _ (Prod.ext found rfl)).elim
  · rfl

/-- The result code of PLACE for a page that its walk finds (R261). -/
theorem State.placePage_leaf {va e : Word} {at' level mode target : Nat} (h : canonical va = true)
    (hw : inWindow s.agent va = false) (hl : s.walk s.myPart (s.coreNo / 384) va = (.leaf e at' level, t)) (hm : mode < 2) :
    s.placePage va mode target =
      if ¬ movable e level then (4, t)
      else
        let goal := if mode = 0 then target else s.coreNo / 16
        if 48 ≤ goal ∨ ¬ t.ownsCluster s.myPart goal then (6, t) else t.requestMove s.myPart at' va e s.modNo goal := by
  have h2 : mode ≠ 2 := by omega
  have h3 : mode ≠ 3 := by omega
  simp [State.placePage, apertureOf_of_canonical h, h, hw, hl, h2, h3]

theorem State.placePage_fixed {va e : Word} {at' level : Nat} (mode target : Nat) (h : canonical va = true)
    (hw : inWindow s.agent va = false) (hl : s.walk s.myPart (s.coreNo / 384) va = (.leaf e at' level, t))
    (hm : ¬ movable e level = true) : s.placePage va mode target = (4, t) := by
  simp [State.placePage, apertureOf_of_canonical h, h, hw, hl, hm]

end

end Sys2Proof.Machine

namespace Sys2Proof.Claims

open Machine

section
variable {s t : State} {f : G64}

/-! PFH (R260). -/

theorem exec_pfh (hr : runs s f.p f.n) (hc : calm s) : ∃ u, exec (.pfh f) s = .next (retired u 2) ∧ s.SameContext u :=
  ⟨_, congrArg Host.Outcome.next (issue_metaM (f := formG f) hr hc), s.sameContext_prefetch _ _ _ _⟩

theorem sameRegs_retired (h : s.SameContext t) : sameRegs s (retired t 2) := by
  refine ⟨?_, ?_, h.coreNo⟩
  · rw [ctxView, ctxView, ← h.ctx]
    rfl
  · rw [kernView, kernView, ← h.k]
    rfl

theorem retiredAs_retired (h : s.SameContext t) : retiredAs s (retired t 2) 2 := by
  rw [retiredAs, ← h.ctx]
  exact ⟨rfl, rfl, rfl⟩

/-! TIERQ (R262). -/

theorem exec_tierq (hr : runs s f.p f.n) (hc : calm s) :
    exec (.tierq f) s = .next (retired (put s f.d (s.residency (s.readOp f.a f.da))) 2) := by
  refine congrArg Host.Outcome.next ((issue_metaM (f := formG f) hr hc).trans ?_)
  rw [writeOp_eq_put]
  rfl

/-- The fields of a residency word are the numbers that it is made of. -/
theorem residencyWord_ofNat {tier level window moving settled home module : Nat} (ht : tier < 4) (hl : level < 4)
    (hw : window < 2) (hm : moving < 2) (hs : settled < 2) (hh : home < 64) (hmod : module < 64) :
    residencyWord (BitVec.ofNat 64 (module * 2 ^ 13 + home * 2 ^ 7 + settled * 2 ^ 6 + moving * 2 ^ 5 + window * 2 ^ 4 +
      level * 4 + tier)) tier level window moving settled home module := by
  unfold residencyWord
  refine ⟨?_, ?_, ?_, ?_, ?_, ?_, ?_⟩ <;> rw [bits_ofNat _ (by omega)] <;> omega

theorem modOf_leafFrame (e : Word) : modOf (leafFrame e) < 64 := by
  have frame := bits_lt e 16 36
  unfold modOf leafFrame
  omega

theorem tierq_leaf {va e : Word} {at' level : Nat} (h : canonical va = true) (hw : inWindow s.agent va = false)
    (hl : s.walk s.myPart (s.coreNo / 384) va = (.leaf e at' level, t)) (h4 : level < 4) :
    residencyWord (s.residency va) (leafTier e) level 0 (if (s.page at').stage = .none then 0 else 1)
      (if s.settled (s.page at') then 1 else 0) (leafHome e) (modOf (leafFrame e)) := by
  have settled : (s.settled (s.page at')).toNat = if s.settled (s.page at') then 1 else 0 := by
    cases s.settled (s.page at') <;> rfl
  have moves : ((s.page at').stage != .none).toNat = if (s.page at').stage = .none then 0 else 1 := by
    by_cases hn : (s.page at').stage = .none <;> simp [hn]
  rw [State.residency_leaf h hw hl, settled, moves]
  have word := residencyWord_ofNat (tier := leafTier e) (window := 0) (moving := if (s.page at').stage = .none then 0 else 1)
    (settled := if s.settled (s.page at') then 1 else 0) (home := leafHome e) (bits_lt e 59 2) h4 (by omega)
    (by split <;> omega) (by split <;> omega) (bits_lt e 10 6) (modOf_leafFrame e)
  rwa [Nat.zero_mul, Nat.add_zero] at word

/-- The window names a place of HBM and a home (R238, R239). -/
theorem windowTarget_place {va : Word} {x : Target} (h : s.windowTarget s.agent va 1 = .ok (x, t)) :
    modOf x.addr < 64 ∧ x.home < 64 := by
  unfold State.windowTarget at h
  dsimp only at h
  split at h
  · cases h
  · split at h
    · cases h
    · next owned =>
      split at h
      · cases h
      · cases h
        have inside : (va + s.agent.win.off).toNat < 2 ^ 52 := by
          simp only [State.hbmOwned, Bool.and_eq_true, decide_eq_true_eq, not_not] at owned
          exact owned.1.1.1.1
        exact ⟨Nat.div_lt_of_lt_mul inside, bits_lt _ 0 6⟩

theorem tierq_window {va : Word} {x : Target} (h : canonical va = true) (hw : inWindow s.agent va = true)
    (hx : s.windowTarget s.agent va 1 = .ok (x, t)) :
    residencyWord (s.residency va) 0 0 1 0 0 x.home (modOf x.addr) := by
  obtain ⟨hmod, hhome⟩ := windowTarget_place hx
  rw [State.residency_window h hw hx]
  have word := residencyWord_ofNat (tier := 0) (level := 0) (window := 1) (moving := 0) (settled := 0)
    (by omega) (by omega) (by omega) (by omega) (by omega) hhome hmod
  simpa only [Nat.zero_mul, Nat.add_zero, Nat.one_mul] using word

/-! PLACE (R261). -/

theorem exec_place (hr : runs s f.p f.n) (hp : plain s) {code : Nat}
    (h : s.placePage (s.readOp f.a f.da) f.c.toNat (bits (s.readOp f.b f.db) 0 6) = (code, t)) :
    exec (.place f) s = .next (retired (put t f.d (BitVec.ofNat 64 code)) 2) := by
  have issued := issue_of_runs (m := metaC (formG f) true) (b := fun t =>
    let r := t.placePage (t.readOp f.a f.da) f.c.toNat (bits (t.readOp f.b f.db) 0 6)
    .ok (r.2.writeOp f.d (BitVec.ofNat 64 r.1))) (.inr fun _ => hp.2) (.inr hp.1) hr rfl
  refine congrArg Host.Outcome.next (issued.trans ?_)
  dsimp only
  rw [h, writeOp_eq_put]
  rfl

theorem requestMove_fst (s : State) (p at' : Nat) (va : Word) {e : Word} (toMod goal : Nat) (ht : leafTier e = 0) :
    (s.requestMove p at' va e toMod goal).1 = moveCode s (s.page at') e toMod goal := by
  simp only [State.requestMove, moveCode, ht, and_true, ne_eq, not_true, false_or]
  split
  · rfl
  · split
    · rfl
    · by_cases hsettled : s.settled (s.page at') = true
      · rw [if_pos hsettled, if_pos (.inl hsettled)]
      · rw [if_neg hsettled]
        by_cases hpong : s.pingPong (s.page at') = true
        · rw [if_pos hpong, if_pos (.inr hpong)]
        · rw [if_neg hpong, if_neg (not_or.mpr ⟨hsettled, hpong⟩)]
          by_cases hfirm : Config.policy s.free = true ∧ s.movesOn (modOf (leafFrame e)) (leafHome e / 24) < 64
          · rw [if_pos hfirm, if_neg fun h => h.elim (absurd hfirm.1) (Nat.not_le.mpr hfirm.2)]
          · rw [if_neg hfirm, if_pos (by rwa [← Nat.not_lt, ← not_and_or])]

/-- A move that PLACE asks for: its code, and whether it has begun (R253, R254, R258). -/
theorem requestMove_code (s : State) (p at' : Nat) (va : Word) {e : Word} (toMod goal : Nat) (ht : leafTier e = 0) :
    ∃ t, s.requestMove p at' va e toMod goal = (moveCode s (s.page at') e toMod goal, t) ∧
      ((s.page at').stage = .none → (moveCode s (s.page at') e toMod goal = 0 ↔ moving (t.page at') toMod goal)) := by
  have answered := requestMove_fst s p at' va toMod goal ht
  have outcome := requestMove_cases s p at' va toMod goal ht
  generalize s.requestMove p at' va e toMod goal = r at answered outcome ⊢
  refine ⟨r.2, Prod.ext answered rfl, fun still => ?_⟩
  obtain ⟨code, u, hist, begun⟩ | ⟨code, -, stays⟩ := outcome
  · refine iff_of_true code ?_
    obtain ⟨st, frame, w, stage, page⟩ := frameMove_page (u.onPage at' fun q => { q with
      va := va, part := p, stage := .waiting, target := goal, targetMod := toMod, oldLeaf := e, settle := none,
      history := hist }) at'
    rw [begun, page]
    rw [State.page_onPage] at stage ⊢
    exact ⟨stage.symm, rfl, rfl⟩
  · refine iff_of_false code fun ⟨stage, _⟩ => ?_
    rw [stays, still] at stage
    exact stage.elim nofun nofun

end

/-- Settles O35. -/
theorem placementInstructions : Obligations.PlacementInstructions := by
  unfold Obligations.PlacementInstructions
  refine ⟨fun f s hr hc => ?_, fun f s hr hc => ?_, fun f s hr hp => ?_⟩
  · obtain ⟨u, done, same⟩ := exec_pfh hr hc
    exact ⟨_, done, sameRegs_retired same, retiredAs_retired same⟩
  · intro va
    rw [exec_tierq hr hc]
    refine ⟨fun h => ?_, fun e at' level s1 h hw hl h4 => ⟨_, rfl, tierq_leaf h hw hl h4⟩, fun h hw hl => ?_,
      fun x s1 h hw hx => ⟨_, rfl, tierq_window h hw hx⟩, fun r h hw hx => ?_⟩
    · rw [State.residency_noncanonical h]
    · rw [State.residency_noLeaf h hw hl]
    · rw [State.residency_windowless h hw hx]
  · intro va out
    refine ⟨fun h => ?_, fun h h80 h81 hw => ?_, fun h hw e at' level s1 hl => ⟨fun fixed => ?_, fun hlevel hpin ht hc => ?_⟩⟩
    · refine exec_place hr hp (if_pos ?_)
      rcases h with h | h | h
      · exact .inl (by rw [apertureOf_localMem h]; rfl)
      · exact .inl (by rw [apertureOf_clusterMem h]; rfl)
      · exact .inr h
    · refine exec_place hr hp ((if_neg ?_).trans (if_pos (by rw [h]; decide)))
      rw [apertureOf_none h80 h81, hw]
      decide
    · exact exec_place hr hp (State.placePage_fixed _ _ h hw hl (mt (movable_iff e level).mp fixed))
    · intro goal
      have found := State.placePage_leaf (mode := f.c.toNat) (target := bits (s.readOp f.b f.db) 0 6) h hw hl hc
      rw [if_neg (not_not.mpr ((movable_iff e level).mpr ⟨hlevel, hpin⟩))] at found
      have module : s1.modNo = s.modNo := by
        obtain ⟨w, n, frame⟩ := s.walk_frame s.myPart (s.coreNo / 384) va
        rw [hl] at frame
        change s1 = _ at frame
        rw [frame]
        rfl
      refine ⟨fun refused => ?_, fun hgoal owned => ?_⟩
      · exact exec_place hr hp (found.trans (if_pos (by rwa [← Nat.not_lt, ← not_and_or])))
      · obtain ⟨t, asked, begun⟩ := requestMove_code s1 s.myPart at' va s.modNo goal ht
        rw [module]
        have allowed : ¬ (48 ≤ goal ∨ ¬ s1.ownsCluster s.myPart goal = true) :=
          not_or.mpr ⟨Nat.not_le.mpr hgoal, not_not.mpr owned⟩
        exact ⟨t, exec_place hr hp (found.trans ((if_neg allowed).trans asked)), begun⟩

end Sys2Proof.Claims

/-! A page-in where a table lists a queue twice (`Obligations.PageEvents`). -/

namespace Sys2Proof.Claims

open Machine

/-- A page of the second tier comes in: its leaf stands at 5000 hex, its partition's pool at 8000 hex holds the frame 30000 hex, and
the table of queues lists queue 0 twice. What reads the table finds the first, whose slot array lies in that frame and has no record;
in slot 0 of the second a record waits for the page. -/
def shadowedQueue : State :=
  let leaf : Word := 0x800000000000002
  { State.reset with
    parts := (Vector.replicate 16 {}).setIfInBounds 0 { sets0 := 1, freepool := 0x8000 }
    mem := Mem.writeLE (Mem.writeLE [] 0x5000 8 leaf.toNat) 0x8000 8 0x30001
    pages := [(0x5000, { stage := .pageIn, oldLeaf := leaf })]
    queues := [(0, { ctl := 0x30000 }), (0, { slots := [(0, { img := 1, state := .ready, onLeaf := some 0x5000 })] })]
    cmd := { addr := 0x5000 } }

/-- The page-in takes that frame from the pool, and the byte that it copies to the frame's start is zero. -/
theorem takeFrame_shadowedQueue : let pg := shadowedQueue.page shadowedQueue.cmd.addr
    ∃ s1, shadowedQueue.takeFrame pg.part (fun f => shadowedQueue.hbmOwned pg.part f && modOf f == shadowedQueue.modNo &&
        dieOf f == leafHome pg.oldLeaf / 24) = some (0x30000, s1) ∧
      Mem.get s1.mem (leafFrame pg.oldLeaf + 0) = 0 := ⟨_, rfl, by decide +kernel⟩

/-- The record that waits is written into the slot that queue 0 has by the table: the first byte of the frame. -/
theorem pageIn_shadowedQueue : ∃ t, exec .pageInComplete shadowedQueue = .next t ∧ Mem.get t.mem 0x30000 = 1 :=
  ⟨_, rfl, by decide +kernel⟩

theorem freepool_shadowedQueue {p : Nat} (h : p ≠ 0) : bits (shadowedQueue.part p).freepool 12 40 = 0 := by
  have unset : shadowedQueue.part p = {} := by
    by_cases inside : p < 16 <;> simp [State.part, shadowedQueue, Vector.getD, inside, Ne.symm h]
  rw [unset]
  rfl

theorem aside_shadowedQueue {a n : Nat} (pool : a + n ≤ 0x8000 ∨ 0xA000 ≤ a) : aside shadowedQueue a n := by
  refine ⟨fun p i based inside => ?_, fun q slot r found => ?_⟩
  · obtain rfl : p = 0 := by_contra fun other => based (freepool_shadowedQueue other)
    have entry : (shadowedQueue.part 0).poolEntry i = 0x8000 + i * 8 := rfl
    have size : (shadowedQueue.part 0).poolSize = 1024 := by decide
    rw [entry]
    omega
  · by_cases h : q = 0
    · subst h
      cases found
    · have unused : shadowedQueue.queue q = {} := by simp [State.queue, shadowedQueue, Tbl.getD, Tbl.find, h]
      rw [State.record?, unused] at found
      cases found

theorem noTierins_shadowedQueue : noTierins shadowedQueue := ⟨rfl, fun _ h => by cases h⟩

/-- Refutes O47. The statement keeps the frame that a page-in fills apart from the slots of the records that a table finds, of each
key the first (`aside`). A page-in lets every record go on that a table lists, and writes it into its slot: in `shadowedQueue`, whose
table lists queue 0 twice, the record of the second is written over the first byte of the copy. -/
theorem not_pageEvents : ¬ Obligations.PageEvents := by
  unfold Obligations.PageEvents
  rintro ⟨-, pageIn, -, -⟩
  have comes := (pageIn shadowedQueue noTierins_shadowedQueue).2
  obtain ⟨taken, -⟩ := comes (by decide) (by decide) (by decide) (by decide) (by decide)
  obtain ⟨s1, frame, source⟩ := takeFrame_shadowedQueue
  obtain ⟨u, hu, -, -, contents⟩ := taken 0x30000 s1 frame
  have apart : alone shadowedQueue shadowedQueue.cmd.addr 0x30000 :=
    ⟨.inl (by decide), aside_shadowedQueue (.inl (by decide)), aside_shadowedQueue (.inr (by decide))⟩
  obtain ⟨copy, -⟩ := contents (by decide) (by decide) apart
  have stated : Mem.get u.mem (0x30000 + 0) = Mem.get s1.mem (leafFrame (shadowedQueue.page shadowedQueue.cmd.addr).oldLeaf + 0) :=
    copy 0 (by decide)
  rw [source] at stated
  obtain ⟨t, ht, written⟩ := pageIn_shadowedQueue
  have same : t = u := by
    rw [ht] at hu
    injection hu
  rw [← same, Nat.add_zero, written] at stated
  exact absurd stated (by decide)

end Sys2Proof.Claims

/-! Homes (`Obligations.HomeEvents`). First the stores that a home performs, and the record blocks that the home map asks for. -/

namespace Sys2Proof.Machine

section
variable {s t : State}

/-- Bytes of global memory that are performed change memory, the hot-line stores and what is known of writes. -/
theorem State.putBytes_global {bs : List HeldByte} (h : ∀ b ∈ bs, b.space = .globalMem) (s : State) : ∃ hot before,
    bs.foldl State.putByte s =
      { s with mem := bs.foldl (fun m b => Mem.set m b.addr b.byte) s.mem, hot := hot, before := before } := by
  induction bs generalizing s with
  | nil => exact ⟨_, _, rfl⟩
  | cons b bs ih =>
    obtain ⟨space, rest⟩ := List.forall_mem_cons.mp h
    obtain ⟨e, known⟩ := s.overwrite_frame b.space b.addr 1
    obtain ⟨hot, before, performed⟩ := ih rest (s.putByte b)
    refine ⟨hot, before, ?_⟩
    rw [List.foldl_cons, performed, State.putByte, known, space]
    rfl

/-- The lines of a write are soiled one by one. -/
theorem State.soilLines_frame (lines : List Nat) (s : State) :
    ∃ hot, lines.foldl (fun (acc : State) g => acc.soil (g * 64)) s = { s with hot := hot } := by
  refine List.foldlRecOn (motive := fun u : State => ∃ hot, u = { s with hot := hot }) lines _ ⟨s.hot, rfl⟩ ?_
  rintro _ ⟨hot, rfl⟩ g _
  exact ⟨_, rfl⟩

theorem mem_granulesOf {a n g : Nat} (h : n ≠ 0) : g ∈ granulesOf a n ↔ a / 64 ≤ g ∧ g ≤ (a + n - 1) / 64 := by
  have below : a / 64 ≤ (a + n - 1) / 64 := Nat.div_le_div_right (by omega)
  rw [granulesOf, if_neg h, mem_upFrom]
  omega

/-! Record blocks (R243). -/

/-- Bytes that mark no region ask for no block. -/
theorem State.askBlocks_none {cells : List (Nat × Byte)} (h : ∀ c ∈ cells, s.cellMarks c = false) : s.askBlocks cells = s := by
  rw [State.askBlocks_eq, List.filter_eq_nil_iff.mpr fun c hc => Bool.eq_false_iff.mp (h c hc)]
  rfl

/-- A byte that marks its region asks for the region's block, and memory stays while there is one to give. -/
theorem State.askBlocks_one_mem (c : Nat × Byte) (room : s.recBlocks.length < Config.recordBlocks) : (s.askBlocks [c]).mem = s.mem := by
  rw [State.askBlocks_eq]
  cases marks : s.cellMarks c with
  | false => simp [marks]
  | true =>
    rw [List.filter_cons_of_pos marks, List.filter_nil, List.foldl_cons, List.foldl_nil]
    exact (s.translates_needBlock _ _).mem room

/-! The records of granules that an application core has written (R445). -/

theorem State.record_markOutside (ident l g : Nat) : (s.markOutside ident l).record g =
    if g = l ∧ s.recBlocks.contains (l * 64 / 2 ^ 21) = true then setBits (s.record l) 32 32 (ident * 2 ^ 12) else s.record g := by
  unfold State.markOutside
  by_cases block : s.recBlocks.contains (l * 64 / 2 ^ 21) = true
  · rw [if_pos block]
    by_cases same : g = l
    · rw [if_pos ⟨same, block⟩, same, State.record, Tbl.getD_put_same]
    · rw [if_neg fun h => same h.1, State.record, Tbl.getD_put_other _ _ _ same]
      rfl
  · rw [if_neg block, if_neg fun h => block h.2]

theorem State.markOutside_frame (s : State) (ident l : Nat) : ∃ r, s.markOutside ident l = { s with records := r } := by
  unfold State.markOutside
  split
  · exact ⟨_, rfl⟩
  · exact ⟨s.records, rfl⟩

theorem State.markLines_frame (ident : Nat) (lines : List Nat) (s : State) :
    ∃ r, lines.foldl (State.markOutside ident) s = { s with records := r } := by
  refine List.foldlRecOn (motive := fun u : State => ∃ r, u = { s with records := r }) lines _ ⟨s.records, rfl⟩ ?_
  rintro _ ⟨r, rfl⟩ l _
  exact State.markOutside_frame _ ident l

/-- The identity of a field's access stands above its tag (R372). -/
theorem bits_ident (w : Word) : bits w 44 20 = bits w 32 32 / 2 ^ 12 := by
  unfold bits
  omega

theorem bits_marked (w : Word) {ident : Nat} (h : ident < 2 ^ 20) : bits (setBits w 32 32 (ident * 2 ^ 12)) 44 20 = ident ∧
    bits (setBits w 32 32 (ident * 2 ^ 12)) 0 32 = bits w 0 32 := by
  refine ⟨?_, bits_setBits_other w _ (.inl (by decide))⟩
  rw [bits_ident, bits_setBits_same w _ (by decide)]
  omega

/-- Each granule of a region that has its block is marked, and no other record changes. -/
theorem State.record_markLines {ident : Nat} (small : ident < 2 ^ 20) (lines : List Nat) (g : Nat) : ∀ s : State,
    (s.recBlocks.contains (g * 64 / 2 ^ 21) = false → (lines.foldl (State.markOutside ident) s).record g = s.record g) ∧
    (s.recBlocks.contains (g * 64 / 2 ^ 21) = true →
      bits ((lines.foldl (State.markOutside ident) s).record g) 0 32 = bits (s.record g) 0 32 ∧
      (g ∈ lines ∨ bits (s.record g) 44 20 = ident → bits ((lines.foldl (State.markOutside ident) s).record g) 44 20 = ident)) := by
  induction lines with
  | nil => exact fun s => ⟨fun _ => rfl, fun _ => ⟨rfl, fun h => h.resolve_left List.not_mem_nil⟩⟩
  | cons l lines ih =>
    intro s
    obtain ⟨r, marked⟩ := s.markOutside_frame ident l
    have blocks : (s.markOutside ident l).recBlocks = s.recBlocks := by rw [marked]
    obtain ⟨unchecked, checked⟩ := ih (s.markOutside ident l)
    rw [blocks] at unchecked checked
    have step := State.record_markOutside (s := s) ident l g
    refine ⟨fun none => ?_, fun block => ?_⟩
    · rw [List.foldl_cons, unchecked none, step, if_neg]
      rintro ⟨rfl, block⟩
      rw [none] at block
      cases block
    · obtain ⟨low, named⟩ := checked block
      rw [List.foldl_cons]
      by_cases here : g = l
      · subst here
        rw [if_pos ⟨rfl, block⟩] at step
        obtain ⟨high, kept⟩ := bits_marked (s.record g) small
        exact ⟨by rw [low, step, kept], fun _ => named (.inr (by rw [step, high]))⟩
      · rw [if_neg fun h => here h.1] at step
        refine ⟨by rw [low, step], fun h => named ?_⟩
        rw [step]
        exact h.imp_left fun hg => (List.mem_cons.mp hg).resolve_left here

/-- A write of an application core changes memory, the stores' marks, what is known of writes, blocks and records (R445). -/
theorem State.outsideWrite_eq (s : State) (core a : Nat) (bs : List Byte) : ∃ hot before,
    s.outsideWrite core a bs = (granulesOf a bs.length).foldl (State.markOutside (s.appIdent core))
      (State.askBlocks { s with mem := Mem.putBytes s.mem a bs, hot := hot, before := before } ((upFrom a bs.length).zip bs)) := by
  obtain ⟨before, known⟩ := s.overwrite_frame .globalMem a bs.length
  obtain ⟨hot, soiled⟩ := State.soilLines_frame (granulesOf a bs.length) { s with before := before }
  refine ⟨hot, before, ?_⟩
  unfold State.outsideWrite
  dsimp only
  rw [known, soiled]

end

end Sys2Proof.Machine

namespace Sys2Proof.Claims

open Machine

section
variable {s : State}

/-! HOME_ACCESS (R363, R373, R384, R445). -/

theorem exec_homeAccess_nt (hb : s.cmd.bytes = []) (hc : s.cmd.core = s.coreNo) : exec .homeAccess s = .next s.performNt := by
  change Host.Outcome.next (if s.cmd.bytes.isEmpty then s.atCore s.cmd.core State.performNt else _) = _
  rw [hb, hc, State.atCore_self]
  rfl

/-- The oldest STNT, with all its bytes, is performed, unless requests wait for its line. -/
theorem performNt_cons {h : HeldByte} {rest : List HeldByte} (hn : s.ctx.nt = h :: rest) (hg : ∀ b ∈ s.ctx.nt, b.space = .globalMem) :
    let now := s.ctx.nt.filter (fun b => b.order == h.order)
    (now.any s.byteWaits = true → s.performNt = s) ∧
    (now.any s.byteWaits = false → { s.performNt with hot := s.hot, before := s.before } = { s with
        mem := now.foldl (fun m b => Mem.set m b.addr b.byte) s.mem
        ctx := { s.ctx with nt := s.ctx.nt.filter (fun b => b.order != h.order) } }) := by
  intro now
  have performs : s.performNt = if now.any s.byteWaits then s else
      { now.foldl State.putByte s with
        ctx := { (now.foldl State.putByte s).ctx with nt := s.ctx.nt.filter (fun b => b.order != h.order) } } := by
    simp only [State.performNt, hn, now]
  refine ⟨fun waits => ?_, fun free => ?_⟩
  · rw [performs, if_pos waits]
  · obtain ⟨hot, before, written⟩ := State.putBytes_global (fun b hb => hg b (List.mem_of_mem_filter hb)) s (bs := now)
    rw [performs, if_neg (Bool.eq_false_iff.mp free), written]

/-- A write of an application core comes to a home of this module. -/
def comesHome (s : State) : Prop :=
  s.cmd.addr + s.cmd.bytes.length ≤ 2 ^ 52 ∧ modOf s.cmd.addr = s.modNo ∧
    ((inHbm s.cmd.addr = true ∧ s.inView (s.cmd.addr + s.cmd.bytes.length - 1) = true) ∨ inTier s.cmd.addr = true)

/-- Requests wait for a line that it is to change (R384). -/
def homeAwaited (s : State) : Prop :=
  ∃ g, s.cmd.addr / 64 ≤ g ∧ g ≤ (s.cmd.addr + s.cmd.bytes.length - 1) / 64 ∧ s.awaited (g * 64) = true

section
variable (hb : s.cmd.bytes ≠ [])
include hb

theorem exec_homeAccess_write : exec .homeAccess s = .next
    (if !(decide (s.cmd.addr + s.cmd.bytes.length ≤ 2 ^ 52) && modOf s.cmd.addr == s.modNo &&
        ((inHbm s.cmd.addr && s.inView (s.cmd.addr + s.cmd.bytes.length - 1)) || inTier s.cmd.addr)) then s
      else if (granulesOf s.cmd.addr s.cmd.bytes.length).any (fun g => s.awaited (g * 64)) then s.requeue .homeAccess s.cmd
      else s.outsideWrite s.cmd.unit s.cmd.addr s.cmd.bytes) :=
  congrArg Host.Outcome.next (if_neg (by simpa using hb))

omit hb in
theorem comesHome_iff : (decide (s.cmd.addr + s.cmd.bytes.length ≤ 2 ^ 52) && modOf s.cmd.addr == s.modNo &&
    ((inHbm s.cmd.addr && s.inView (s.cmd.addr + s.cmd.bytes.length - 1)) || inTier s.cmd.addr)) = true ↔ comesHome s := by
  simp only [comesHome, Bool.and_eq_true, Bool.or_eq_true, decide_eq_true_eq, beq_iff_eq, and_assoc]

theorem homeAwaited_iff : (granulesOf s.cmd.addr s.cmd.bytes.length).any (fun g => s.awaited (g * 64)) = true ↔ homeAwaited s := by
  have some : s.cmd.bytes.length ≠ 0 := by simpa using hb
  simp only [homeAwaited, List.any_eq_true, mem_granulesOf some, and_assoc]

theorem homeAccess_elsewhere (h : ¬ comesHome s) : exec .homeAccess s = .next s := by
  rw [exec_homeAccess_write hb, if_pos]
  rwa [Bool.not_eq_true', Bool.eq_false_iff, ne_eq, comesHome_iff]

theorem homeAccess_waits (h : comesHome s) (hw : homeAwaited s) :
    exec .homeAccess s = .next { s with inflight := s.inflight ++ [(.homeAccess, s.cmd)] } := by
  rw [exec_homeAccess_write hb, comesHome_iff.mpr h, if_neg (by decide), if_pos ((homeAwaited_iff hb).mpr hw)]
  rfl

theorem homeAccess_writes (h : comesHome s) (hw : ¬ homeAwaited s) :
    exec .homeAccess s = .next (s.outsideWrite s.cmd.unit s.cmd.addr s.cmd.bytes) := by
  rw [exec_homeAccess_write hb, comesHome_iff.mpr h, if_neg (by decide), if_neg (mt (homeAwaited_iff hb).mp hw)]

end

/-- A cell that lies in no byte of the home map marks no region. -/
theorem cellMarks_outside {a n : Nat} (h : mapAt s = 0 ∨ a + n ≤ mapAt s ∨ mapAt s + 294912 ≤ a) {c : Nat × Byte}
    (hc : a ≤ c.1 ∧ c.1 < a + n) : s.cellMarks c = false := by
  have base : s.mapBase = mapAt s := rfl
  have regions : Config.regions = 294912 := rfl
  simp only [State.cellMarks, base, regions, Bool.and_eq_false_iff, bne_eq_false_iff_eq, decide_eq_false_iff_not]
  omega

theorem appIdent_lt (s : State) (core : Nat) : s.appIdent core < 2 ^ 20 := by
  have module : s.modNo < 2 ^ 6 := bits_lt _ 0 6
  unfold State.appIdent identOf
  omega

/-- A write that sets no byte of the home map (R373, R445). -/
theorem outsideWrite_memory {core a : Nat} {bs : List Byte} (hb : bs ≠ [])
    (h : mapAt s = 0 ∨ a + bs.length ≤ mapAt s ∨ mapAt s + 294912 ≤ a) :
    let t := s.outsideWrite core a bs
    t.mem = Mem.putBytes s.mem a bs ∧ t.ctx = s.ctx ∧ t.k = s.k ∧
    ∀ g, a / 64 ≤ g → g ≤ (a + bs.length - 1) / 64 →
      (s.recBlocks.contains (g * 64 / 2 ^ 21) = true →
        bits (granule t g) 44 20 = s.modNo * 2 ^ 14 + core % 16 * 16 + 14 ∧ bits (granule t g) 0 32 = bits (granule s g) 0 32) ∧
      (s.recBlocks.contains (g * 64 / 2 ^ 21) = false → granule t g = granule s g) := by
  intro t
  obtain ⟨hot, before, written⟩ := s.outsideWrite_eq core a bs
  have unasked : State.askBlocks { s with mem := Mem.putBytes s.mem a bs, hot := hot, before := before }
      ((upFrom a bs.length).zip bs) = { s with mem := Mem.putBytes s.mem a bs, hot := hot, before := before } :=
    State.askBlocks_none fun c hc => cellMarks_outside h (mem_upFrom.mp (List.of_mem_zip hc).1)
  rw [unasked] at written
  have some : bs.length ≠ 0 := by simpa using hb
  obtain ⟨r, marked⟩ := State.markLines_frame (s.appIdent core) (granulesOf a bs.length)
    { s with mem := Mem.putBytes s.mem a bs, hot := hot, before := before }
  have result : t = { s with mem := Mem.putBytes s.mem a bs, hot := hot, before := before, records := r } := written.trans marked
  refine ⟨by rw [result], by rw [result], by rw [result], fun g lo hi => ?_⟩
  · obtain ⟨unchecked, checked⟩ := State.record_markLines (appIdent_lt s core) (granulesOf a bs.length) g
      { s with mem := Mem.putBytes s.mem a bs, hot := hot, before := before }
    rw [← written] at unchecked checked
    refine ⟨fun block => ?_, unchecked⟩
    obtain ⟨low, named⟩ := checked block
    exact ⟨named (.inl ((mem_granulesOf some).mpr ⟨lo, hi⟩)), low⟩

/-- A byte of the home map that is written: its region has its block then, if bit 7 asks for it (R243). -/
theorem outsideWrite_homeMap {core a region : Nat} {b : Byte} (based : mapAt s ≠ 0) (hr : region < 294912) (ha : a = mapAt s + region) :
    let t := s.outsideWrite core a [b]
    (b.getLsbD 7 = false → t.mem = Mem.set s.mem a b ∧ t.recBlocks = s.recBlocks) ∧
    (b.getLsbD 7 = true → s.recBlocks.length < 294912 →
      t.mem = Mem.set s.mem a b ∧ t.recBlocks.contains (s.modNo * 2 ^ 25 + region) = true) := by
  intro t
  obtain ⟨hot, before, written⟩ := s.outsideWrite_eq core a [b]
  obtain ⟨r, marked⟩ := State.markLines_frame (s.appIdent core) (granulesOf a [b].length)
    (State.askBlocks { s with mem := Mem.set s.mem a b, hot := hot, before := before } [(a, b)])
  have result : t = _ := written.trans marked
  refine ⟨fun plain => ?_, fun marks room => ?_⟩
  · have unasked : State.askBlocks { s with mem := Mem.set s.mem a b, hot := hot, before := before } [(a, b)] =
        { s with mem := Mem.set s.mem a b, hot := hot, before := before } :=
      State.askBlocks_none fun c hc => by
        rw [List.mem_singleton.mp hc, State.cellMarks, plain, Bool.and_false]
    rw [result, unasked]
    exact ⟨rfl, rfl⟩
  · rw [result]
    refine ⟨State.askBlocks_one_mem (s := { s with mem := Mem.set s.mem a b, hot := hot, before := before }) (a, b) room, ?_⟩
    refine List.contains_iff_mem.mpr (State.askBlocks_has (s := { s with mem := Mem.set s.mem a b, hot := hot, before := before })
      based hr marks (List.mem_singleton.mpr ?_) room)
    rw [ha]
    rfl

end

end Sys2Proof.Claims

/-! Access records that are cleared and blocks that are released (R243, R374, R375), and scopes that are freed (R448). -/

namespace Sys2Proof.Claims

open Machine

section
variable {s : State}

/-- A field of a record as a number (R372) names an application core or an open region. -/
def fieldStays (s : State) (v : Nat) : Prop := v / 2 ^ 12 % 16 = 14 ∨ s.regionOpen (v / 2 ^ 12) (v / 2 % 2 ^ 11) = true

/-- Identity and tag are parts of a record's field. -/
theorem field_parts (w : Word) (lo : Nat) : bits w (lo + 12) 20 = bits w lo 32 / 2 ^ 12 ∧
    bits w (lo + 12) 4 = bits w lo 32 / 2 ^ 12 % 16 ∧ bits w (lo + 1) 11 = bits w lo 32 / 2 % 2 ^ 11 := by
  simp only [bits, Nat.pow_add, ← Nat.div_div_eq_div_mul]
  omega

theorem staysOpen_iff (r : Word) (lo : Nat) : staysOpen s r lo ↔ fieldStays s (bits r lo 32) := by
  obtain ⟨ident, kind, tag⟩ := field_parts r lo
  rw [staysOpen, fieldStays, ident, kind, tag]

theorem namesOpen_iff (r : Word) (lo : Nat) :
    namesOpen s r lo ↔ bits r lo 32 / 2 ^ 12 = 0xFFFFF ∨ fieldStays s (bits r lo 32) := by
  obtain ⟨ident, kind, tag⟩ := field_parts r lo
  rw [namesOpen, fieldStays, ident, kind, tag]

/-- The clearing of a record looks at each field by itself (R375). -/
theorem clearRecord_cases (r : Word) : ∃ w, (fieldStays s (bits r 32 32) ∧ w = r ∨
      ¬ fieldStays s (bits r 32 32) ∧ w = setBits r 32 32 (noIdent * 2 ^ 12)) ∧
    (fieldStays s (bits r 0 32) ∧ s.clearRecord r = w ∨
      ¬ fieldStays s (bits r 0 32) ∧ s.clearRecord r = setBits w 0 32 (noIdent * 2 ^ 12)) := by
  have keeps (lo : Nat) : (bits r (lo + 12) 20 % 16 == 14 || s.regionOpen (bits r (lo + 12) 20) (bits r (lo + 1) 11)) = true ↔
      fieldStays s (bits r lo 32) := by
    obtain ⟨ident, -, tag⟩ := field_parts r lo
    rw [fieldStays, ident, tag, Bool.or_eq_true, beq_iff_eq]
  unfold State.clearRecord
  extract_lets keep w
  have write : keep (recWCtx r) (recWTag r) = true ↔ fieldStays s (bits r 32 32) := keeps 32
  have read : keep (recRCtx r) (recRTag r) = true ↔ fieldStays s (bits r 0 32) := keeps 0
  refine ⟨w, ?_, ?_⟩
  · by_cases h : fieldStays s (bits r 32 32)
    · exact .inl ⟨h, if_pos (write.mpr h)⟩
    · exact .inr ⟨h, if_neg (mt write.mp h)⟩
  · by_cases h : fieldStays s (bits r 0 32)
    · exact .inl ⟨h, if_pos (read.mpr h)⟩
    · exact .inr ⟨h, if_neg (mt read.mp h)⟩

/-- A cleared record names no ended region. -/
theorem namesOpen_clearRecord (r : Word) : namesOpen s (s.clearRecord r) 32 ∧ namesOpen s (s.clearRecord r) 0 := by
  have upper (w : Word) (v : Nat) : bits (setBits w 0 32 v) 32 32 = bits w 32 32 := bits_setBits_other w v (.inr (by decide))
  have lower (w : Word) (v : Nat) : bits (setBits w 32 32 v) 0 32 = bits w 0 32 := bits_setBits_other w v (.inl (by decide))
  have none (w : Word) {lo : Nat} (h : lo + 32 ≤ 64) : bits (setBits w lo 32 (noIdent * 2 ^ 12)) lo 32 / 2 ^ 12 = 0xFFFFF := by
    rw [bits_setBits_same w _ h]
    decide
  obtain ⟨w, write, read⟩ := clearRecord_cases (s := s) r
  rw [namesOpen_iff, namesOpen_iff]
  have first : bits w 32 32 / 2 ^ 12 = 0xFFFFF ∨ fieldStays s (bits w 32 32) := by
    rcases write with ⟨stays, rfl⟩ | ⟨-, rfl⟩
    · exact .inr stays
    · exact .inl (none r (by decide))
  have second : bits w 0 32 = bits r 0 32 := by
    rcases write with ⟨-, rfl⟩ | ⟨-, rfl⟩
    · rfl
    · exact lower r _
  rcases read with ⟨stays, kept⟩ | ⟨-, cleared⟩
  · rw [kept, second]
    exact ⟨first, .inr stays⟩
  · rw [cleared, upper]
    exact ⟨first, .inl (none w (by decide))⟩

theorem clearRecord_of_stays {r : Word} (hw : staysOpen s r 32) (hr : staysOpen s r 0) : s.clearRecord r = r := by
  rw [staysOpen_iff] at hw hr
  obtain ⟨w, write, read⟩ := clearRecord_cases (s := s) r
  obtain ⟨-, rfl⟩ := write.resolve_right fun h => h.1 hw
  exact (read.resolve_right fun h => h.1 hr).2

/-- A record that names no context names no open region. -/
theorem not_staysOpen_noRecord : ¬ staysOpen s noRecord 32 := by
  have ident : bits noRecord 32 32 / 2 ^ 12 = noIdent := by decide
  rw [staysOpen_iff, fieldStays, ident, State.regionOpen, if_pos (.inl rfl)]
  decide

theorem exec_recordClear (s : State) : ∃ t, exec .recordClear s = .next t ∧
    { t with records := [] } = { s with records := [], mod := { s.mod with cleared := s.cycle.toNat } } ∧
    (∀ e ∈ t.records, namesOpen s e.2 32 ∧ namesOpen s e.2 0) ∧
    ∀ e ∈ s.records, staysOpen s e.2 32 → staysOpen s e.2 0 → e ∈ t.records := by
  refine ⟨_, rfl, rfl, fun e he => ?_, fun e he hw hr => ?_⟩
  · obtain ⟨x, -, rfl⟩ := List.mem_map.mp (List.mem_of_mem_filter he)
    exact namesOpen_clearRecord x.2
  · refine List.mem_filter.mpr ⟨List.mem_map.mpr ⟨e, he, ?_⟩, ?_⟩
    · rw [clearRecord_of_stays hw hr]
    · rw [bne_iff_ne]
      intro empty
      rw [empty] at hw
      exact not_staysOpen_noRecord hw

/-! RECFREE and SCOPEFREE (R243, R448). -/

theorem exec_recfree_held (h : s.recBlocks.contains (bits s.cmd.value 21 31) = true) : let region := bits s.cmd.value 21 31
    ∃ t, exec .recfree s = .next t ∧ t.recBlocks.contains region = false ∧
      (∀ g, g * 64 / 2 ^ 21 = region → granule t g = 0xFFFFF000FFFFF000) ∧
      (∀ g, g * 64 / 2 ^ 21 ≠ region → granule t g = granule s g) := by
  intro region
  have left (g : Nat) : Tbl.find (s.records.filter fun r => r.1 * 64 / 2 ^ 21 != region) g =
      if (g * 64 / 2 ^ 21 != region) = true then Tbl.find s.records g else none :=
    find_filter_keys s.records (fun g => g * 64 / 2 ^ 21 != region) g
  refine ⟨_, congrArg Host.Outcome.next (if_pos h), ?_, fun g hg => ?_, fun g hg => ?_⟩
  · rw [Bool.eq_false_iff, ne_eq, List.contains_iff_mem, List.mem_filter]
    simp [region]
  · rw [granule, Tbl.getD, left, hg, if_neg (by simp)]
    rfl
  · rw [granule, Tbl.getD, left, if_pos (bne_iff_ne.mpr hg)]
    rfl

theorem isReleasable_iff (c : Scope) (i : Nat) :
    c.isReleasable i = true ↔ c.state = .complete ∧ i ≠ 0 ∧ (c.kind = 4 ∨ c.parent = 0) := by
  simp only [Scope.isReleasable, Bool.and_eq_true, Bool.or_eq_true, beq_iff_eq, bne_iff_ne, and_assoc]

theorem exec_scopefree (s : State) : let i := bits s.cmd.value 0 8
    let p := bits s.cmd.value 8 4
    let c := Tbl.getD (s.parts.getD p {}).scopes i {}
    let may := s.scopeEngine p = some s.cmd.unit ∧ c.state = .complete ∧ i ≠ 0 ∧ (c.kind = 4 ∨ c.parent = 0)
    (¬ may → exec .scopefree s = .next s) ∧
    (may → ∃ t, exec .scopefree s = .next t ∧ Tbl.getD (t.parts.getD p {}).scopes i {} = {} ∧ t.mem = s.mem) := by
  intro i p c may
  have allowed : s.scopeEngine p = some s.cmd.unit ∧ (s.scope p i).isReleasable i = true ↔ may :=
    and_congr_right' (isReleasable_iff c i)
  refine ⟨fun h => congrArg Host.Outcome.next (if_neg (mt allowed.mp h)), fun h =>
    ⟨_, congrArg Host.Outcome.next (if_pos (allowed.mpr h)), ?_, rfl⟩⟩
  have freed := State.part_onPart (bits_lt s.cmd.value 8 4) s (fun q => { q with scopes := Tbl.put q.scopes i ({} : Scope) })
  change Tbl.getD (State.part _ p).scopes i {} = {}
  rw [State.onScope, freed]
  exact Tbl.getD_put_same _ _ _ _

end

end Sys2Proof.Claims

/-! Requests at a home (R251, R383, R384, R460): the lines of a hot-line store as they are used, and a request that is performed. -/

namespace Sys2Proof.Machine

section
variable {s : State}

theorem Tbl.find_map_values {α β : Type} (t : Tbl α) (g : Nat → α → β) (k : Nat) :
    Tbl.find (t.map fun e => (e.1, g e.1 e.2)) k = (Tbl.find t k).map (g k) := by
  induction t with
  | nil => rfl
  | cons e t ih =>
    obtain ⟨x, y⟩ := e
    by_cases h : k = x
    · simp [Tbl.find, h]
    · simpa [Tbl.find, h] using ih

/-- The lists of a table, each changed by itself. -/
theorem Tbl.getD_map_lists {α : Type} (t : Tbl (List α)) (g : Nat → List α → List α) (k : Nat) (hg : g k [] = []) :
    Tbl.getD (t.map fun e => (e.1, g e.1 e.2)) k [] = g k (Tbl.getD t k []) := by
  rw [Tbl.getD, Tbl.find_map_values, Tbl.getD]
  cases Tbl.find t k with
  | none => exact hg.symm
  | some v => rfl

/-- A line put first among the lines of its store (R383). -/
def lineFirst (line : Nat) (ls : List HotLine) : List HotLine :=
  ls.filter (fun l => l.addr == line) ++ ls.filter (fun l => l.addr != line)

theorem lineFirst_cons {l : HotLine} {more : List HotLine} (h : ∀ x ∈ more, x.addr ≠ l.addr) :
    lineFirst l.addr (l :: more) = l :: more := by
  have none : more.filter (fun x => x.addr == l.addr) = [] := List.filter_eq_nil_iff.mpr fun x hx => by simpa using h x hx
  have all : more.filter (fun x => x.addr != l.addr) = more := List.filter_eq_self.mpr fun x hx => by simpa using h x hx
  simp [lineFirst, none, all]

theorem State.lines_touchLine (s : State) (line home : Nat) : (s.touchLine line).lines home = lineFirst line (s.lines home) :=
  Tbl.getD_map_lists s.hot (fun _ => lineFirst line) home rfl

/-- An access to its home leaves the lines of that home's store. -/
theorem State.lines_claimLine (s : State) (home line : Nat) : (s.claimLine home line).lines home = lineFirst line (s.lines home) := by
  let stays := fun (h : Nat) (l : HotLine) => h == home || l.addr != line || s.lineWaits l
  have kept : State.lines { s with hot := s.hot.map fun e => (e.1, e.2.filter (stays e.1)) } home = s.lines home := by
    refine (Tbl.getD_map_lists s.hot (fun h ls => ls.filter (stays h)) home rfl).trans (List.filter_eq_self.mpr fun l _ => ?_)
    simp [stays]
  exact (State.lines_touchLine _ line home).trans (by rw [kept])

/-- A line that is soiled (R383). -/
def soiled (line : Nat) (bytes : List Byte) (l : HotLine) : HotLine :=
  if l.addr = line ∧ ¬ l.dirty then { l with dirty := true, clean := bytes } else l

theorem State.lines_soil (s : State) (addr home : Nat) : ∃ bytes,
    (s.soil addr).lines home = lineFirst (addr / 64) ((s.lines home).map (soiled (addr / 64) bytes)) := by
  refine ⟨if addr / 64 < 2 ^ 46 then Mem.bytes s.mem (addr / 64 * 64) 64 else [], ?_⟩
  refine (State.lines_touchLine _ _ home).trans (congrArg _ ?_)
  exact Tbl.getD_map_lists s.hot (fun _ ls => ls.map (soiled (addr / 64) _)) home rfl

theorem soiled_same (bytes : List Byte) (l : HotLine) : (soiled l.addr bytes l).addr = l.addr ∧
    (soiled l.addr bytes l).waiting = l.waiting ∧ (soiled l.addr bytes l).dirty = true := by
  unfold soiled
  split
  · exact ⟨rfl, rfl, rfl⟩
  · next h => exact ⟨rfl, rfl, by simpa using h⟩

theorem soiled_other {line : Nat} (bytes : List Byte) {l : HotLine} (h : l.addr ≠ line) : soiled line bytes l = l :=
  if_neg fun h' => h h'.1

/-- The first line of a store is the one that is soiled. -/
theorem map_soiled_cons {l : HotLine} {more : List HotLine} (h : ∀ x ∈ more, x.addr ≠ l.addr) (bytes : List Byte) :
    (l :: more).map (soiled l.addr bytes) = soiled l.addr bytes l :: more := by
  rw [List.map_cons, List.map_congr_left fun x hx => soiled_other bytes (h x hx), List.map_id']

end

end Sys2Proof.Machine

namespace Sys2Proof.Claims

open Machine

section
variable {s : State}

/-! A request performed. -/

/-- What a request writes, if it writes (R373, R387). -/
def newValue (s : State) (r : LineReq) : Option Nat :=
  match r.op with
  | 0 => none
  | 1 => some r.value.toNat
  | fn + 2 => (atomicNew fn r.ty r.sat (Mem.readLE s.mem r.addr r.size) (r.value.toNat % 2 ^ (8 * r.size))
      (r.expect.toNat % 2 ^ (8 * r.size))).1

theorem served1_eq (s : State) (r : LineReq) : served1 s r = (newValue s r).elim s.mem (Mem.writeLE s.mem r.addr r.size) := by
  unfold served1 newValue
  dsimp only
  split
  · next h => rw [h]; rfl
  · split
    · next h => rw [h]; rfl
    · obtain ⟨fn, h⟩ : ∃ fn, r.op = fn + 2 := ⟨r.op - 2, by omega⟩
      rw [h, Nat.add_sub_cancel]
      dsimp only
      split
      · next v hv => rw [hv]; rfl
      · next hv => rw [hv]; rfl

theorem wrote1_iff (s : State) (r : LineReq) : wrote1 s r ↔ (newValue s r).isSome = true := by
  unfold wrote1 newValue
  dsimp only
  split
  · next h => simp [h]
  · next h => simp [h]
  · next fn h => simp [h]

/-- The state after a request, but for what it leaves of its region and of what is known of writes. -/
def requested (s : State) (r : LineReq) : State :=
  match newValue s r with
  | some v => (s.soil r.addr).putMem r.addr r.size v
  | none => s

/-- A home notes the region of a request of another module (R374). -/
def regionNoted (s : State) (r : LineReq) : State :=
  match r.tag with
  | some tag => { s with homeTags := Tbl.put s.homeTags r.ident tag }
  | none => s

theorem regionNoted_frame (s : State) (r : LineReq) : ∃ tags, regionNoted s r = { s with homeTags := tags } := by
  unfold regionNoted
  split
  · exact ⟨_, rfl⟩
  · exact ⟨s.homeTags, rfl⟩

theorem checkAccess_unchecked {x : Target} (h : x.checked = false) (ag : Agent) (n : Nat) (w r at' : Bool) :
    s.checkAccess ag x n w r at' = .ok s := by
  rw [State.checkAccess, h]
  rfl

/-- A request that is not checked is performed (R373). -/
theorem performRequest_admitted {r : LineReq} (h : r.checked = false) : s.performRequest r =
    match newValue s r with
    | some v => ((if r.op = 1 then (regionNoted s r).overwrite .globalMem r.addr r.size else regionNoted s r).soil r.addr).putMem
        r.addr r.size v
    | none => regionNoted s r := by
  unfold State.performRequest
  extract_lets old new ag s1 x
  have plain : x.checked = false := (congrArg (· && s.hasBlock r.addr) h).trans (Bool.false_and _)
  rw [checkAccess_unchecked plain]
  rfl

theorem performRequest_unchecked {r : LineReq} (h : r.checked = false) :
    ∃ tags before, s.performRequest r = { requested s r with homeTags := tags, before := before } := by
  obtain ⟨tags, noted⟩ := regionNoted_frame s r
  rw [performRequest_admitted h, noted]
  unfold requested
  cases newValue s r with
  | some v =>
    dsimp only
    split
    · obtain ⟨before, known⟩ := State.overwrite_frame { s with homeTags := tags } .globalMem r.addr r.size
      rw [known]
      exact ⟨tags, before, rfl⟩
    · exact ⟨tags, s.before, rfl⟩
  | none => exact ⟨tags, s.before, rfl⟩

theorem requested_mem (s : State) (r : LineReq) : (requested s r).mem = served1 s r ∧ (requested s r).records = s.records := by
  rw [served1_eq, requested]
  cases newValue s r with
  | some v => exact ⟨rfl, rfl⟩
  | none => exact ⟨rfl, rfl⟩

/-- A request at the first line of its home's store: the line stays first, and is dirty if the request writes (R383). -/
theorem requested_lines {r : LineReq} {home : Nat} {l : HotLine} {more : List HotLine} (hl : s.lines home = l :: more)
    (apart : ∀ x ∈ more, x.addr ≠ l.addr) (ha : r.addr / 64 = l.addr) :
    ∃ x, (requested s r).lines home = x :: more ∧ x.addr = l.addr ∧ x.waiting = l.waiting ∧
      (x.dirty = true ↔ l.dirty = true ∨ wrote1 s r) := by
  rw [wrote1_iff, requested]
  cases hv : newValue s r with
  | none => exact ⟨l, hl, rfl, rfl, by simp⟩
  | some v =>
    obtain ⟨bytes, lines⟩ := s.lines_soil r.addr home
    obtain ⟨addr, waiting, dirty⟩ := soiled_same bytes l
    refine ⟨soiled l.addr bytes l, ?_, addr, waiting, iff_of_true dirty (.inr rfl)⟩
    refine lines.trans ?_
    rw [hl, ha, map_soiled_cons apart]
    have first := lineFirst_cons (l := soiled l.addr bytes l) (more := more) (by rwa [addr])
    rwa [addr] at first

/-! ATOMIC_ENGINE_REQUEST (R384). -/

section
variable {l : HotLine} {more : List HotLine} (hl : Tbl.getD s.hot s.cmd.unit [] = l :: more)
  (apart : ∀ x ∈ more, x.addr ≠ l.addr ∧ x.waiting = [])
include hl apart

theorem exec_atomicEngine_idle (idle : l.waiting = []) : exec .atomicEngineRequest s = .next s := by
  have due : (s.lines s.cmd.unit).find? (s.isDue s.cmd.unit) = none := by
    refine List.find?_eq_none.mpr fun x hx => ?_
    have waits : x.waiting = [] := by
      rw [State.lines, hl] at hx
      rcases List.mem_cons.mp hx with rfl | hx
      · exact idle
      · exact (apart x hx).2
    simp [State.isDue, waits]
  change Host.Outcome.next (s.serveLine s.cmd.unit) = _
  rw [State.serveLine, due]

theorem exec_atomicEngine_serves {r : LineReq} {rest : List LineReq} (free : s.waiters (2 * l.addr) = [])
    (hr : l.waiting = r :: rest) (ha : r.addr / 64 = l.addr) (unchecked : r.checked = false) :
    ∃ t x, exec .atomicEngineRequest s = .next t ∧ t.mem = served1 s r ∧ t.records = s.records ∧
      Tbl.getD t.hot s.cmd.unit [] = x :: more ∧ x.addr = l.addr ∧ x.waiting = rest ∧
      (x.dirty = true ↔ l.dirty = true ∨ wrote1 s r) := by
  have lines : s.lines s.cmd.unit = l :: more := hl
  have due : (s.lines s.cmd.unit).find? (s.isDue s.cmd.unit) = some l := by
    rw [lines, List.find?_cons_of_pos (by simp [State.isDue, hr, free])]
  have others (x : HotLine) (hx : x ∈ more) : x.addr ≠ l.addr := (apart x hx).1
  have left : (s.lines s.cmd.unit).map (fun x => if x.addr = l.addr then { x with waiting := rest } else x) =
      { l with waiting := rest } :: more := by
    rw [lines, List.map_cons, if_pos rfl, List.map_congr_left fun x hx => if_neg (others x hx), List.map_id']
  obtain ⟨hot, claimed⟩ := State.claimLine_frame { s with hot := Tbl.put s.hot s.cmd.unit ({ l with waiting := rest } :: more) }
    s.cmd.unit l.addr
  have held : State.lines { s with hot := hot } s.cmd.unit = { l with waiting := rest } :: more := by
    have first := State.lines_claimLine { s with hot := Tbl.put s.hot s.cmd.unit ({ l with waiting := rest } :: more) } s.cmd.unit l.addr
    rw [claimed] at first
    refine first.trans ?_
    rw [State.lines, Tbl.getD_put_same]
    exact lineFirst_cons (l := { l with waiting := rest }) others
  obtain ⟨tags, before, performed⟩ := performRequest_unchecked (s := { s with hot := hot }) unchecked
  have served : s.serveLine s.cmd.unit = State.touchLine { requested { s with hot := hot } r with homeTags := tags, before := before }
      l.addr := by
    rw [State.serveLine, due]
    dsimp only
    rw [hr]
    dsimp only
    rw [left, claimed, ← performed]
  obtain ⟨x, first, addr, waiting, dirty⟩ := requested_lines held others ha
  obtain ⟨mem, records⟩ := requested_mem { s with hot := hot } r
  refine ⟨s.serveLine s.cmd.unit, x, rfl, ?_, ?_, ?_, addr, waiting, dirty⟩
  · rw [served]
    exact mem
  · rw [served]
    exact records
  · rw [served]
    refine (State.lines_touchLine _ l.addr s.cmd.unit).trans ?_
    change lineFirst l.addr ((requested { s with hot := hot } r).lines s.cmd.unit) = _
    rw [first, ← addr]
    exact lineFirst_cons fun y hy => addr ▸ others y hy

end

/-! REMOTE_REQUEST (R251 to R253, R384, R460). -/

theorem exec_remoteRequest_window (hleaf : s.cmd.leaf = none) (hpages : s.pages = []) (hmap : mapAt s = 0) :
    exec .remoteRequest s = .next s := by
  have target : s.remoteTarget s.cmd = .error (.trap 7 0 0) := by
    have base : s.mapBase = 0 := hmap
    simp [State.remoteTarget, State.remoteLeaf, hleaf, hpages, base]
  change Host.Outcome.next (match s.remoteTarget s.cmd with | _ => _) = _
  rw [target]

/-- Window memory is reached at the home that the home map gives (R239, R460). -/
theorem remoteTarget_window (hleaf : s.cmd.leaf = none) (hpages : s.pages = []) (hmap : mapAt s ≠ 0) :
    s.remoteTarget s.cmd = .ok { space := .globalMem, addr := s.cmd.addr, home := bits (s.mapByte s.cmd.addr) 0 6 } := by
  have base : s.mapBase ≠ 0 := hmap
  simp [State.remoteTarget, State.remoteLeaf, hleaf, hpages, base]

/-- A request of another module to a page that is not checked, as its message carries it. -/
theorem request_eq_remote {c : Cmd} (h : c.unit / 2 ^ 27 % 2 = 0) : c.request c.addr = remote c := by
  rw [Cmd.request, remote, h]
  rfl

/-- Memory that is in service. -/
theorem unitAlive_inService (hf : s.fenced = []) (hp : s.poisoned = []) {x : Target} (here : modOf x.addr = s.modNo) :
    s.unitAlive x = true := by
  simp [State.unitAlive, State.memAlive, State.isFenced, hf, hp, here]

section
variable (hleaf : s.cmd.leaf = none) (hpages : s.pages = []) (hmap : mapAt s ≠ 0) (hf : s.fenced = []) (hp : s.poisoned = [])
  (plain : s.cmd.unit / 2 ^ 27 % 2 = 0)

/-- What a request of another module needs in order to be performed here (R460). -/
def mayCome (s : State) : Prop :=
  s.cmd.core / 2 ^ 14 ≠ s.modNo ∧ modOf (remote s.cmd).addr = s.modNo ∧ s.hbmOwned s.cmd.part (remote s.cmd).addr = true ∧
    1 ≤ (remote s.cmd).size ∧ (remote s.cmd).size ≤ 8

include hf hp in
theorem remoteFits_iff (home : Nat) :
    s.remoteFits s.cmd { space := .globalMem, addr := s.cmd.addr, home := home } = true ↔ mayCome s := by
  simp only [State.remoteFits, Bool.and_eq_true, decide_eq_true_eq, bne_iff_ne, beq_iff_eq, and_assoc]
  refine and_congr_right' (and_congr_right fun here => and_congr_right' ?_)
  rw [unitAlive_inService hf hp here]
  exact and_iff_right rfl

/-- The home of a request to window memory (R239). -/
def windowHome (s : State) : Nat := bits (s.mapByte s.cmd.addr) 0 6

include hleaf hpages hmap plain in
theorem exec_remoteRequest_at : exec .remoteRequest s = .next
    (if !(s.remoteFits s.cmd { space := .globalMem, addr := s.cmd.addr, home := windowHome s }) then s
      else if s.hasRoom (windowHome s) (remote s.cmd) then s.takeRequest (windowHome s) (remote s.cmd) none
      else s.requeue .remoteRequest s.cmd) := by
  have unasked (x : Target) : s.askRemote s.cmd x = s := if_neg (by omega)
  change Host.Outcome.next (match s.remoteTarget s.cmd with | _ => _) = _
  rw [remoteTarget_window hleaf hpages hmap]
  dsimp only
  rw [request_eq_remote plain, unasked]
  rfl

include hleaf hpages hmap hf hp plain

theorem exec_remoteRequest_refused (h : ¬ mayCome s) : exec .remoteRequest s = .next s := by
  rw [exec_remoteRequest_at hleaf hpages hmap plain, if_pos]
  rwa [Bool.not_eq_true', Bool.eq_false_iff, ne_eq, remoteFits_iff hf hp]

theorem exec_remoteRequest_taken (h : mayCome s) (room : s.hasRoom (windowHome s) (remote s.cmd) = true) :
    exec .remoteRequest s = .next (s.takeRequest (windowHome s) (remote s.cmd) none) := by
  rw [exec_remoteRequest_at hleaf hpages hmap plain, (remoteFits_iff hf hp _).mpr h, if_neg (by decide), if_pos room]

/-- At a store that holds no line a request is performed at once. -/
theorem exec_remoteRequest_performed (h : mayCome s) (lines : s.lines (windowHome s) = [])
    (free : s.waiters (2 * ((remote s.cmd).addr / 64)) = []) :
    ∃ t, exec .remoteRequest s = .next t ∧ t.mem = served1 s (remote s.cmd) ∧ t.records = s.records := by
  have room : s.hasRoom (windowHome s) (remote s.cmd) = true := by
    simp [State.hasRoom, State.lineFull, lines, free]
  refine ⟨_, exec_remoteRequest_taken hleaf hpages hmap hf hp plain h room, ?_⟩
  have taken : ∃ hot, s.takeRequest (windowHome s) (remote s.cmd) none = State.performRequest { s with hot := hot } (remote s.cmd) := by
    unfold State.takeRequest
    rw [lines]
    obtain ⟨used, brought⟩ := s.useLine_frame (windowHome s) ((remote s.cmd).addr / 64) none
    obtain ⟨claimed, found⟩ := s.claimLine_frame (windowHome s) ((remote s.cmd).addr / 64)
    rw [brought, found]
    by_cases atomic : 2 ≤ (remote s.cmd).op
    · exact ⟨used, by simp [atomic]⟩
    · exact ⟨claimed, by simp [atomic]⟩
  obtain ⟨hot, performs⟩ := taken
  obtain ⟨tags, before, performed⟩ := performRequest_unchecked (s := { s with hot := hot }) (r := remote s.cmd) rfl
  rw [performs, performed]
  exact requested_mem { s with hot := hot } (remote s.cmd)

/-- At a line that the store holds it waits its turn (R384). -/
theorem exec_remoteRequest_queued {l : HotLine} (h : mayCome s) (lines : s.lines (windowHome s) = [l])
    (hl : l.addr = (remote s.cmd).addr / 64) (few : s.waitCount l.addr < 64) :
    let l1 := { l with waiting := l.waiting ++ [{ remote s.cmd with age := s.cycle.toNat }] }
    exec .remoteRequest s = .next { s with hot := Tbl.put s.hot (windowHome s) [l1] } := by
  intro l1
  have room : s.hasRoom (windowHome s) (remote s.cmd) = true := by
    simp [State.hasRoom, State.lineFull, lines, ← hl, few]
  rw [exec_remoteRequest_taken hleaf hpages hmap hf hp plain h room, State.takeRequest, lines]
  simp [← hl, l1]

end

theorem exec_remoteRequest_held {leaf : Nat} {e : Word} (hleaf : s.cmd.leaf = some leaf) (he : s.leafAt leaf = e)
    (valid : bits e 0 2 = 2) (resident : leafTier e = 0)
    (stage : (s.page leaf).stage = .holding ∨ (s.page leaf).stage = .streaming ∨ (s.page leaf).stage = .switching) :
    exec .remoteRequest s = .next { s with inflight := s.inflight ++ [(.remoteRequest, s.cmd)] } := by
  have target : s.remoteTarget s.cmd = .error (.hold .condition) := by
    rcases stage with h | h | h <;> simp [State.remoteTarget, State.remoteLeaf, hleaf, he, valid, resident, h]
  change Host.Outcome.next (match s.remoteTarget s.cmd with | _ => _) = _
  rw [target]
  rfl

end

/-- Settles O49: each home event by its own lemmas, in the order of the statement. -/
theorem homeEvents : Obligations.HomeEvents := by
  unfold Obligations.HomeEvents
  refine ⟨fun s hb hc => ⟨fun none => ?_, fun h rest hn hg => ?_⟩, fun s hb => ⟨?_, ?_, ?_, ?_⟩,
    fun s => ⟨fun flag => ?_, fun flag => ?_, exec_recordClear s⟩, fun s => ⟨?_, ?_, ?_⟩,
    fun s l more hl apart _ free => ⟨?_, ?_⟩, fun s => ⟨exec_recfree_held, fun h => ?_⟩, exec_scopefree⟩
  · rw [exec_homeAccess_nt hb hc, State.performNt, none]
  · obtain ⟨waits, performs⟩ := performNt_cons hn hg
    rw [exec_homeAccess_nt hb hc]
    exact ⟨fun h => congrArg _ (waits h), fun h => ⟨_, rfl, performs h⟩⟩
  · exact homeAccess_elsewhere hb
  · exact homeAccess_waits hb
  · rintro ⟨home, free⟩ apart
    exact ⟨_, homeAccess_writes hb home free, outsideWrite_memory hb apart⟩
  · rintro b region ⟨home, free⟩ one based hr ha
    have written := homeAccess_writes hb home free
    rw [one] at written
    obtain ⟨unmarked, marked⟩ := outsideWrite_homeMap (core := s.cmd.unit) (b := b) based hr ha
    exact ⟨fun h => ⟨_, written, unmarked h⟩, fun h room => ⟨_, written, marked h room⟩⟩
  · exact congrArg Host.Outcome.next (if_pos flag)
  · exact congrArg Host.Outcome.next (if_neg (Bool.eq_false_iff.mp flag))
  · exact exec_remoteRequest_window
  · intro hleaf hpages hmap hf hp plain
    exact ⟨exec_remoteRequest_refused hleaf hpages hmap hf hp plain,
      exec_remoteRequest_performed hleaf hpages hmap hf hp plain,
      fun l may lines => exec_remoteRequest_queued hleaf hpages hmap hf hp plain may lines⟩
  · exact fun leaf e => exec_remoteRequest_held
  · exact exec_atomicEngine_idle hl apart
  · exact fun r rest hr ha unchecked => exec_atomicEngine_serves hl apart free hr ha unchecked
  · exact congrArg Host.Outcome.next (if_neg (Bool.eq_false_iff.mp h))

end Sys2Proof.Claims

/-! Traps by instruction, the return from a trap, and the end of a task (`Obligations.TrapInstructions`, `Obligations.TrapReturn`,
`Obligations.TaskEnds`). -/

namespace Sys2Proof.Machine

/-! What the end of a task leaves: its place, an idle core, and the message to its scope (R423, R424). -/

namespace State.SamePlace

/-- What is done in each of several contexts of the core, and then the context back in focus. -/
theorem eachSlot {f : State → State} (hf : ∀ t : State, t.SamePlace (f t)) (slots : List Nat) (back : Nat) (s : State) :
    s.SamePlace ((slots.foldl (fun acc slot => f (acc.focusSlot slot)) s).focusSlot back) :=
  (foldl (fun t slot => (focusSlot t slot).trans (hf _)) _ s).trans (focusSlot _ _)

theorem flushLate (s : State) : s.SamePlace s.flushLate := drainLate s _

theorem leaveNt (s : State) : s.SamePlace s.leaveNt := by
  unfold State.leaveNt
  split
  · have late := flushLate { s with late := s.late ++ s.ctx.nt, ctx := { s.ctx with nt := [] } }
    exact ⟨late.coreNo, late.pages, late.parts⟩
  · obtain ⟨_, _, _, _, _, hd⟩ := s.drainNt_frame
    rw [hd]
    exact ⟨rfl, rfl, rfl⟩

theorem closeRegion (s : State) : s.SamePlace s.closeRegion := by
  obtain ⟨e, hs⟩ := (s.fresh.2).forgetRegion_frame s.agent.ident
  unfold State.closeRegion
  dsimp only
  rw [hs]
  exact ⟨rfl, rfl, rfl⟩

theorem leaveAllNt (s : State) : s.SamePlace s.leaveAllNt := eachSlot leaveNt _ _ s

theorem closeRegions (s : State) : s.SamePlace s.closeRegions := eachSlot closeRegion _ _ s

theorem finishDep (s : State) (dep : Option Nat) (retired : Bool) : s.SamePlace (s.finishDep dep retired) := by
  cases dep <;> exact ⟨rfl, rfl, rfl⟩

theorem putBarrier (s : State) (id : Nat) (r : Barrier × Bool) : s.SamePlace (s.putBarrier id r) := by
  unfold State.putBarrier State.setBarrier
  split <;> split <;> exact ⟨rfl, rfl, rfl⟩

theorem leaveAll (s : State) (task core : Nat) : s.SamePlace (s.leaveAll task core) := foldl (fun t id => putBarrier t id _) _ s

end State.SamePlace

/-- What a task that ends Faulted leaves: an idle core, and a message to its scope with the fault record (R28, R423). -/
structure State.EndsTask (s t : State) (record : Word512) : Prop where
  ctx : t.ctx = {}
  k : t.k = {}
  coreNo : t.coreNo = s.coreNo
  told : (Instr.memberLeave, { part := s.task.part, unit := s.task.scope, flag := true, bytes := bytesOfNat 64 record.toNat }) ∈
    t.inflight

theorem State.finishPreempt_inflight (s : State) (code : Nat) : (s.finishPreempt code).inflight = s.inflight := by
  unfold State.finishPreempt
  split <;> rfl

theorem State.finishPreempt_coreNo (s : State) (code : Nat) : (s.finishPreempt code).coreNo = s.coreNo := by
  unfold State.finishPreempt
  split <;> rfl

theorem State.finishTask_faulted (s : State) (fr : Word512) : s.EndsTask (s.finishTask false (some fr)) fr := by
  unfold State.finishTask
  extract_lets t s0 told s1 s2 s3
  have place : s.coreNo = s3.coreNo := by
    have h2 : s0.SamePlace s2 :=
      ((State.SamePlace.leaveAllNt s0).trans (State.SamePlace.closeRegions _)).trans
        ((State.SamePlace.finishDep _ t.dep false).trans (State.SamePlace.leaveAll _ t.id s.coreNo))
    have h3 : s3.coreNo = s2.coreNo := by
      unfold s3
      split <;> rfl
    exact (h3.trans h2.coreNo).symm
  refine ⟨rfl, rfl, ?_, ?_⟩
  · exact (State.finishPreempt_coreNo _ 1).trans place.symm
  · show _ ∈ (State.finishPreempt _ 1).inflight
    rw [State.finishPreempt_inflight]
    exact List.mem_append_right _ (List.mem_singleton_self _)

/-- Entries that retire with a task leave their traces, and nothing else (R443). -/
theorem State.retireStarted_frame (s : State) : ∃ m h, s.retireStarted = { s with mem := m, hw := h } := by
  unfold State.retireStarted
  refine List.foldlRecOn (motive := fun t : State => ∃ m h, t = { s with mem := m, hw := h }) _ _ ⟨_, _, rfl⟩ fun t ht e _ => ?_
  obtain ⟨m, h, rfl⟩ := ht
  obtain ⟨m', h', traced, -⟩ := State.trace_frame { s with mem := m, hw := h } 5 e.pc e.seq
  exact ⟨m', h', traced⟩

/-- The task of a control context in focus ends Faulted (R423). -/
theorem State.endFaulted_spec {s : State} (h15 : s.ctx.slot = 15) (fr : Word512) : s.EndsTask (s.endFaulted fr) (finalRecord fr) := by
  obtain ⟨m, h, frame⟩ := s.retireStarted_frame
  have ends := State.finishTask_faulted { s with mem := m, hw := h } (finalRecord fr)
  unfold State.endFaulted
  rw [State.focusSlot_here h15, frame]
  exact ⟨ends.ctx, ends.k, ends.coreNo, ends.told⟩

/-- The cause in a fault record (R421). -/
theorem State.faultRecord_cause (s : State) {cause : Nat} (hc : cause < 256) (sub : Nat) (async : Bool) (addr detail pc : Word)
    (seq : BitVec 32) (slot : Nat) : bits (s.faultRecord cause sub async addr detail pc seq slot) 0 8 = cause := by
  simp only [bits, State.faultRecord, BitVec.toNat_ofNat]
  omega

theorem finalRecord_cause (r : Word512) : bits (finalRecord r) 0 8 = bits r 0 8 := bits_setBits_other r 1 (.inl (by decide))

theorem finalRecord_final (r : Word512) : (finalRecord r).getLsbD 19 = true := getLsbD_setBits_one r 1 (by decide)

end Sys2Proof.Machine

namespace Sys2Proof.Claims

open Machine

theorem issueRaw_metaC {s : State} {f : Form} {b : State → Except Stop State} (hr : runs s f.p f.n) (hp : plain s) :
    s.issueRaw (metaC f false) b = match b s with
      | .ok t => t
      | .error r => s.stopped r :=
  issueRaw_of_runs (.inr fun _ => hp.2) (.inr hp.1) hr rfl

/-! TRAP, BKPT and ERET (R434). -/

theorem trapInstr_of_runs {s : State} {f : Form} (hr : runs s f.p f.n) (hh : hasHandler (counted s)) (hw : s.k.window = none) :
    s.trapInstr f = trapped (counted s) 20 f.imm (parcelsAfter s.ctx.pc f.len) := by
  rw [State.trapInstr, issueRaw_of_runs (.inr fun _ => hw) (.inl rfl) hr rfl]
  exact trapAt_of_handler (s := counted s) hh 20 f.imm 0 (by decide) _

theorem exec_bkpt {f : G64} {s : State} (hr : runs s f.p f.n) (hc : calm s) :
    exec (.bkpt f) s = .next ((counted s).trapAt 21 (f.a.setWidth 64) 0 (parcelsAfter s.ctx.pc 2)) :=
  congrArg Host.Outcome.next (issueRaw_of_runs (m := metaM (formG f) false) (.inr hc) (.inl rfl) hr rfl)

/-- Settles O13: TRAP in both lengths is one instruction, and BKPT differs in its cause. -/
theorem trapInstructions : Obligations.TrapInstructions := by
  unfold Obligations.TrapInstructions
  refine fun s hh hw => ⟨fun f hr => congrArg _ (trapInstr_of_runs (f := formI f) hr hh hw),
    fun f hr => congrArg _ (trapInstr_of_runs (f := formW f) hr hh hw), fun f hr => ?_⟩
  rw [exec_bkpt hr fun _ => hw, trapAt_of_handler (s := counted s) hh 21 (f.a.setWidth 64) 0 (by decide)]

/-- A bit cleared. -/
theorem setBits_bit_zero {n : Nat} (v : BitVec n) {i : Nat} (hi : i < n) : setBits v i 1 0 = v &&& ~~~(1#n <<< i) := by
  refine BitVec.eq_of_getLsbD_eq fun j hj => ?_
  rw [getLsbD_setBits v i 1 0 j hj, BitVec.getLsbD_and, BitVec.getLsbD_not, BitVec.getLsbD_shiftLeft, BitVec.getLsbD_one]
  rcases Nat.lt_trichotomy j i with h | h | h
  · simp [h, hj, Nat.not_le.mpr h]
  · subst h
    simp [hj, Nat.zero_lt_of_lt hj]
  · simp [hj, show ¬ j < i + 1 by omega, show ¬ j < i by omega, show ¬ j - i = 0 by omega]

theorem returnToLoop_outside {s : State} (hi : s.k.loop.inner = none) (ho : s.k.loop.outer = none) (target : Word) :
    s.returnToLoop target = s := by simp [State.returnToLoop, hi, ho]

/-- Settles O15: outside a loop the return is the jump alone; with HACT clear the check of it fails. -/
theorem trapReturn : Obligations.TrapReturn := by
  unfold Obligations.TrapReturn
  refine ⟨fun f s hr h15 hw hact good hi ho => congrArg Host.Outcome.next ?_, fun f s hr hw hh => congrArg Host.Outcome.next ?_⟩
  · rw [issueRaw_metaC (f := formG f) hr ⟨h15, hw⟩]
    simp [hact, badPc_false good, State.eretTo, returnToLoop_outside hi ho, setBits_bit_zero]
  · obtain ⟨h15, hact, -⟩ := id hh
    rw [issueRaw_metaC (f := formG f) hr ⟨h15, hw⟩, hact]
    exact stopped_of_handler hh 1 0 0 (by decide)

/-! HALT, and traps that end the task (R416, R424). -/

/-- A task that ends Faulted with a fault record of a cause. -/
theorem endedWith_of_endFaulted {s : State} (h15 : s.ctx.slot = 15) {fr : Word512} {cause : Nat} (hc : bits fr 0 8 = cause) :
    endedWith s (s.endFaulted fr) cause := by
  obtain ⟨ctx, k, coreNo, told⟩ := State.endFaulted_spec h15 fr
  exact ⟨ctx, k, coreNo, _, told, rfl, rfl, rfl, finalRecord fr, rfl, (finalRecord_cause fr).trans hc, finalRecord_final fr⟩

/-- A precise trap while HACT is set is a double trap (R416). -/
theorem trapAt_double {s : State} (h15 : s.ctx.slot = 15) (hact : s.k.trapcause.getLsbD 63 = true) (cause : Nat) (addr detail pc : Word) :
    endedWith s (s.trapAt cause addr detail pc) 22 := by
  unfold State.trapAt State.trapFrom State.takeTrap
  rw [if_pos h15, State.focusSlot_here h15]
  extract_lets double
  rw [if_pos hact]
  exact endedWith_of_endFaulted h15 (State.faultRecord_cause _ (by decide) ..)

/-- A precise trap without a handler ends the task with its own cause (R416). -/
theorem trapAt_without_handler {s : State} (h15 : s.ctx.slot = 15) (hact : s.k.trapcause.getLsbD 63 = false) (none : s.k.trapvec = 0)
    {cause : Nat} (hc : cause < 22) (addr detail pc : Word) : endedWith s (s.trapAt cause addr detail pc) cause := by
  unfold State.trapAt State.trapFrom State.takeTrap
  rw [if_pos h15, State.focusSlot_here h15]
  extract_lets double inLoop flags k1 v badFetch
  rw [if_neg (Bool.eq_false_iff.mp hact), if_neg (by dsimp only; omega), if_pos none]
  exact endedWith_of_endFaulted h15 (State.faultRecord_cause _ (by omega) ..)

theorem exec_halt {f : G64} {s : State} (hr : runs s f.p f.n) (hp : plain s) :
    exec (.halt f) s = .next ((counted s).endWith 25 0 (s.readOp f.a f.da)) :=
  congrArg Host.Outcome.next (issueRaw_metaC (f := formG f) hr hp)

/-- Settles O16: each end is `State.endFaulted` with a record of its cause. -/
theorem taskEnds : Obligations.TaskEnds := by
  unfold Obligations.TaskEnds
  refine fun f s hr h15 hw => ⟨⟨_, exec_halt hr ⟨h15, hw⟩, ?_⟩, fun hact => ⟨_, exec_bkpt hr fun _ => hw, ?_⟩,
    fun hact none => ⟨_, exec_bkpt hr fun _ => hw, ?_⟩⟩
  · exact endedWith_of_endFaulted (s := counted s) h15 (State.faultRecord_cause _ (by decide) ..)
  · exact trapAt_double (s := counted s) h15 hact ..
  · exact trapAt_without_handler (s := counted s) h15 hact none (by decide) ..

end Sys2Proof.Claims

/-! An atomic that begins a region (`Obligations.Atomics`). -/

namespace Sys2Proof.Claims

open Machine

/-- AADD of a dword at `.die`, an acquire. -/
def acquiringAdd : G64 := { d := 6, a := 4, b := 5, c := 1, ty := 3, md := 3 }

/-- The new value takes a name in the order of stores, and the region behind the atomic begins with the next one (R371). -/
theorem acquiringAdd_region_start : ∃ u, exec (.aadd acquiringAdd) localBase = .next u ∧ u.ctx.regionAt = localBase.names + 1 :=
  ⟨_, rfl, by decide⟩

theorem lsTarget_at_localBase (recordsWrite : Bool) : localBase.lsTarget .at 0x8000000000000008 8 true recordsWrite true =
    .ok ({ space := .localMem, addr := 8 }, localBase) := rfl

/-- Refutes O26: the write of an atomic takes the next name of the order of stores, so that the region which an acquiring AADD begins
starts behind it, where the statement has the region start as if nothing had been written. In `localBase` an AADD to local memory
meets every premise. -/
theorem not_atomics : ¬ Obligations.Atomics := by
  unfold Obligations.Atomics
  intro h
  obtain ⟨new, fl, -, holds⟩ := h (.aadd acquiringAdd) acquiringAdd 0 localBase localBase _ 0 rfl (by decide) (runs_always _)
    (fun _ => rfl) (fun _ => rfl) (by decide) (fun releases => absurd releases (by decide)) (lsTarget_at_localBase true)
    ⟨by decide, by decide⟩
  obtain ⟨u, stated, ⟨registers, -, -⟩, -, -⟩ := holds _ localBase localBase (lsTarget_at_localBase new.isSome) rfl
    (by unfold tidy; decide) (by decide) (fun _ => ⟨rfl, rfl⟩)
  obtain ⟨t, ht, start⟩ := acquiringAdd_region_start
  have same : u = t := Host.Outcome.next.inj (stated.symm.trans ht)
  have claimed : u.ctx.regionAt = localBase.names := congrArg Ctx.regionAt registers
  rw [same, start] at claimed
  exact Nat.succ_ne_self _ claimed

end Sys2Proof.Claims

/-! Fences (`Obligations.Fences`). First the bytes of STNTs as memory holds them once they are performed. -/

namespace Sys2Proof.Claims

open Machine

theorem tidy_putByte {s : State} (h : tidy s) (b : HeldByte) : tidy (s.putByte b) := by
  obtain ⟨hmem, hcluster, hlocal⟩ := h
  obtain ⟨e, he⟩ := s.overwrite_frame b.space b.addr 1
  unfold State.putByte
  rw [he]
  split
  · exact ⟨hmem, hcluster, Mem.wf_set hlocal _ _⟩
  · exact ⟨hmem, Mem.wf_set hcluster _ _, hlocal⟩
  · exact ⟨Mem.wf_set hmem _ _, hcluster, hlocal⟩

theorem byteAt_putByte {s : State} (h : tidy s) (b : HeldByte) (sp : Space) (a : Nat) :
    (s.putByte b).byteAt sp a = if b.space = sp ∧ b.addr = a then b.byte else s.byteAt sp a := by
  obtain ⟨hmem, hcluster, hlocal⟩ := h
  obtain ⟨e, he⟩ := s.overwrite_frame b.space b.addr 1
  have read {m : Mem} (hm : m.wf = true) : Mem.get (Mem.set m b.addr b.byte) a = if b.addr = a then b.byte else Mem.get m a := by
    rw [Mem.get_set hm]
    simp only [eq_comm]
  have elsewhere (x : Byte) (h : b.space ≠ sp) : (if b.space = sp ∧ b.addr = a then b.byte else x) = x := if_neg fun e => h e.1
  have here (x : Byte) (h : b.space = sp) : (if b.space = sp ∧ b.addr = a then b.byte else x) = if b.addr = a then b.byte else x := by
    simp only [h, true_and]
  unfold State.putByte
  rw [he]
  split <;> rename_i space <;> cases sp
  · exact (read hlocal).trans (here _ space).symm
  · exact (elsewhere _ (by simp [space])).symm
  · exact (elsewhere _ (by simp [space])).symm
  · exact (elsewhere _ (by simp [space])).symm
  · exact (read hcluster).trans (here _ space).symm
  · exact (elsewhere _ (by simp [space])).symm
  · exact (elsewhere _ (by simp [space])).symm
  · exact (elsewhere _ (by simp [space])).symm
  · exact (read hmem).trans (here _ space).symm

/-- A byte reads as the youngest store to it that has been performed, or as before. -/
theorem byteAt_putBytes (bs : List HeldByte) (sp : Space) (a : Nat) {s : State} (h : tidy s) :
    (bs.foldl State.putByte s).byteAt sp a =
      match bs.reverse.find? (fun b => b.space == sp && b.addr == a) with
      | some b => b.byte
      | none => s.byteAt sp a := by
  induction bs generalizing s with
  | nil => rfl
  | cons b bs ih =>
    rw [List.foldl_cons, ih (tidy_putByte h b), List.reverse_cons, List.find?_append]
    cases bs.reverse.find? (fun b => b.space == sp && b.addr == a) with
    | some x => rfl
    | none =>
      rw [Option.none_or]
      dsimp only
      rw [byteAt_putByte h]
      by_cases hit : b.space = sp ∧ b.addr = a
      · rw [if_pos hit]
        simp [hit]
      · rw [if_neg hit]
        have miss : (b.space == sp && b.addr == a) = false := by simpa using hit
        simp [miss]

theorem tidy_putBytes {s : State} (h : tidy s) (bs : List HeldByte) : tidy (bs.foldl State.putByte s) :=
  List.foldlRecOn bs _ h fun _ ht b _ => tidy_putByte ht b

/-- The STNT bytes of the context performed: no register changes (R381). -/
theorem sameRegs_drainNt (s : State) : sameRegs s s.drainNt := by
  obtain ⟨l, c, m, h, e, frame⟩ := s.drainNt_frame
  rw [frame]
  exact ⟨rfl, rfl, rfl⟩

/-! The instructions. -/

section
variable {s : State} {f : G64}

theorem outsideLoop_context (hl : s.ctx.slot = 15 → s.k.loop.running = false) : s.outsideLoop = .ok () := by
  refine if_neg ?_
  rintro ⟨slot, running⟩
  rw [hl slot] at running
  cases running

theorem releaseReady_waits (sys : f.md = 5) (h : ¬ released s) : s.releaseReady f.md = .error (.hold .condition) := by
  refine if_pos ⟨sys, ?_⟩
  by_contra ready
  obtain ⟨notices, accesses⟩ := not_or.mp ready
  exact h ⟨Bool.eq_false_iff.mpr notices, not_not.mp accesses⟩

/-- What comes of an instruction that stops under a condition, and else retires. -/
theorem outcome_ite {c : Prop} [Decidable c] (r : Stop) (t : State) (len : Nat) :
    (match (if c then .error r else .ok t : Except Stop State) with
      | .ok t => retired t len
      | .error r => s.stopped r) = if c then s.stopped r else retired t len := by
  split_ifs <;> rfl

theorem exec_fence (hr : runs s f.p f.n) (hc : calm s) (hl : s.ctx.slot = 15 → s.k.loop.running = false) :
    exec (.fence f) s = .next (match s.releaseReady f.md with
      | .ok () => retired (if f.md = 0 then s else s.endRegion) 2
      | .error r => s.stopped r) := by
  refine congrArg Host.Outcome.next ((issue_metaM (f := formG f) hr hc).trans ?_)
  rw [outsideLoop_context hl]
  change (match (do s.releaseReady f.md; .ok _ : Except Stop State) with | .ok t => _ | .error r => _) = _
  cases s.releaseReady f.md <;> rfl

theorem exec_xfence (hr : runs s f.p f.n) (hc : calm s) (hl : s.ctx.slot = 15 → s.k.loop.running = false) :
    exec (.xfence f) s = .next (if s.pathDone f.a.toNat f.md = true ∧ (f.a = 5 → f.md = 5 → ntFree s) then
      retired (if f.a = 5 ∧ f.md = 5 then s.drainNt else s) 2 else waits s) := by
  refine congrArg Host.Outcome.next ((issue_metaM (f := formG f) hr hc).trans ?_)
  rw [outsideLoop_context hl]
  refine (outcome_ite (.hold .condition) _ 2).trans ?_
  by_cases done : s.pathDone f.a.toNat f.md = true ∧ (f.a = 5 → f.md = 5 → ntFree s)
  · rw [if_pos done, if_neg]
    rintro (h | ⟨ha, hm, h⟩)
    · exact h done.1
    · rw [done.2 ha hm] at h
      cases h
  · rw [if_neg done, if_pos]
    · rfl
    · by_contra h
      push Not at h
      exact done ⟨h.1, fun ha hm => Bool.eq_false_iff.mpr (h.2 ha hm)⟩

theorem exec_ntdrain (hr : runs s f.p f.n) (hc : calm s) (hl : s.ctx.slot = 15 → s.k.loop.running = false) :
    exec (.ntdrain f) s = .next (if s.ntBlocked then waits s else retired s.drainNt 2) := by
  refine congrArg Host.Outcome.next ((issue_metaM (f := formG f) hr hc).trans ?_)
  rw [outsideLoop_context hl]
  exact outcome_ite (.hold .condition) s.drainNt 2

theorem exec_mwait (hr : runs s f.p f.n) (hp : plain s) :
    exec (.mwait f) s = .next (if s.k.mvuq.length + s.ownHeld ≤ f.c.toNat then retired s 2 else waits s) := by
  refine congrArg Host.Outcome.next ((issue_metaC (f := formG f) hr hp).trans ?_)
  split_ifs <;> rfl

end

/-- Settles O27: each fence is its condition, and NTDRAIN performs the bytes one after the other. -/
theorem fences : Obligations.Fences := by
  unfold Obligations.Fences
  refine fun f s hr hc => ⟨fun hl => ⟨fun ready => ?_, fun sys waits => ?_⟩, exec_xfence hr hc, fun hl blocked => ?_, fun hl ht free => ?_,
    fun h15 => exec_mwait hr ⟨h15, hc h15⟩⟩
  · rw [exec_fence hr hc hl, show s.releaseReady f.md = .ok () from releaseReady_ok (f := formG f) ready]
  · rw [exec_fence hr hc hl, releaseReady_waits sys waits]
    rfl
  · rw [exec_ntdrain hr hc hl, if_pos (by simpa using blocked)]
    rfl
  · refine ⟨_, (exec_ntdrain hr hc hl).trans (congrArg _ (if_neg (Bool.eq_false_iff.mp free))), sameRegs_drainNt s, ?_, rfl,
      tidy_putBytes ht s.ctx.nt, fun sp a => byteAt_putBytes s.ctx.nt sp a ht⟩
    obtain ⟨l, c, m, h, e, frame⟩ := s.drainNt_frame
    rw [frame]
    exact ⟨rfl, rfl, rfl⟩

end Sys2Proof.Claims

/-! Barriers (`Obligations.Barriers`): the checks of R392, the arrivals of R393 as the statement says them, and the instructions. -/

namespace Sys2Proof.Claims

open Machine

/-- An arrival tests the barrier at once (R393). -/
theorem arrive_eq_afterArrival (b : Barrier) (task core : Nat) : b.arrive task core = afterArrival b task core false := by
  unfold Barrier.arrive afterArrival Barrier.hasArrived
  rw [if_neg Bool.false_ne_true]
  split
  · rfl
  · unfold Barrier.test
    have some : b.arrived ++ [(task, core)] ≠ [] := by simp
    simp only [ne_eq, some, not_false_eq_true, true_and]

theorem leave_eq_afterArrival (b : Barrier) (task core : Nat) : b.leave task core = afterArrival b task core true :=
  arrive_eq_afterArrival { b with leaving := b.leaving ++ [(task, core)] } task core

section
variable {s : State} {f : G64}

/-! Checks (R392). -/

/-- The issuing task is a member of the barrier that the instruction names. -/
def isMember (s : State) (f : G64) : Bool := (s.barrier (barrierNo s f)).members.any (fun m => m.1 == s.task.id)

/-- It has arrived there. -/
def hasArrived (s : State) (f : G64) : Bool := (s.barrier (barrierNo s f)).arrived.any (fun m => m.1 == s.task.id)

theorem barrierOk_ok (h : mayName s f) : s.barrierOk f = .ok () := if_pos (Decidable.not_or_of_imp h)

theorem barrierOk_fault (h : ¬ mayName s f) : s.barrierOk f = .error (barrierFault f) :=
  if_neg fun ok => h (Decidable.imp_iff_not_or.mpr ok)

theorem mustBeMember_eq : s.mustBeMember f = if isMember s f then .ok () else .error (barrierFault f) := rfl

theorem stopped_barrierFault (hh : hasHandler s) : s.stopped (barrierFault f) = trapped s 16 (f.a.setWidth 64) s.ctx.pc := by
  rw [barrierFault, stopped_of_handler hh 16 _ _ (by decide), BitVec.ofNat_toNat]

/-! The instructions. -/

theorem exec_barmJoin (hr : runs s f.p f.n) (hp : plain s) (hl : s.k.loop.running = false) :
    exec (.barmJoin f) s = .next (match s.barrierOk f with
      | .ok () =>
        let b := s.barrier (barrierNo s f)
        if isMember s f || (f.md == 4 && !((s.domain f.a.toNat).admits s.coreNo)) then s.stopped (barrierFault f)
        else retired (s.setBarrier (barrierNo s f) { b with members := b.members ++ [(s.task.id, s.coreNo)] }) 2
      | .error r => s.stopped r) := by
  refine congrArg Host.Outcome.next ((issue_metaC (f := formG f) hr hp).trans ?_)
  rw [outsideLoop_ok hl]
  cases h : s.barrierOk f with
  | error r => rfl
  | ok => exact outcome_ite (barrierFault f) _ 2

/-- The checks of a barrier instruction of a member. -/
def memberChecks (s : State) (f : G64) : Except Stop Unit := do
  s.barrierOk f
  s.mustBeMember f

theorem memberChecks_ok (h : mayName s f) (hm : isMember s f = true) : memberChecks s f = .ok () := by
  rw [memberChecks, barrierOk_ok h, mustBeMember_eq, if_pos hm]
  rfl

theorem memberChecks_fault (h : ¬ mayName s f ∨ isMember s f = false) : memberChecks s f = .error (barrierFault f) := by
  rw [memberChecks]
  by_cases hn : mayName s f
  · rw [barrierOk_ok hn, mustBeMember_eq, if_neg (Bool.eq_false_iff.mp (h.resolve_left (not_not.mpr hn)))]
    rfl
  · rw [barrierOk_fault hn]
    rfl

theorem exec_barmLeave (hr : runs s f.p f.n) (hp : plain s) (hl : s.k.loop.running = false) :
    exec (.barmLeave f) s = .next (match memberChecks s f with
      | .ok () => retired (barrierPut s (barrierNo s f) (afterArrival (s.barrier (barrierNo s f)) s.task.id s.coreNo true)).endRegion 2
      | .error r => s.stopped r) := by
  refine congrArg Host.Outcome.next ((issue_metaC (f := formG f) hr hp).trans ?_)
  rw [outsideLoop_ok hl, ← leave_eq_afterArrival, memberChecks]
  cases s.barrierOk f with
  | error r => rfl
  | ok => cases s.mustBeMember f <;> rfl

theorem exec_bsig (hr : runs s f.p f.n) (hp : plain s) (hl : s.k.loop.running = false) :
    exec (.bsig f) s = .next (match memberChecks s f with
      | .ok () =>
        if hasArrived s f then s.stopped (barrierFault f)
        else retired (barrierPut s (barrierNo s f) (afterArrival (s.barrier (barrierNo s f)) s.task.id s.coreNo false)).endRegion 2
      | .error r => s.stopped r) := by
  refine congrArg Host.Outcome.next ((issue_metaC (f := formG f) hr hp).trans ?_)
  rw [outsideLoop_ok hl, ← arrive_eq_afterArrival, memberChecks]
  cases s.barrierOk f with
  | error r => rfl
  | ok =>
    cases s.mustBeMember f with
    | error r => rfl
    | ok => exact outcome_ite (barrierFault f) _ 2

theorem enterBarrier_eq (hl : s.k.loop.running = false) :
    s.enterBarrier f = (memberChecks s f).map fun _ =>
      let u := if hasArrived s f then s
        else (barrierPut s (barrierNo s f) (afterArrival (s.barrier (barrierNo s f)) s.task.id s.coreNo false)).endRegion
      { u with ctx := { u.ctx with hold := some (.barrier (barrierNo s f) (s.barrier (barrierNo s f)).phase) } } := by
  rw [State.enterBarrier, outsideLoop_ok hl, ← arrive_eq_afterArrival, memberChecks]
  cases s.barrierOk f with
  | error r => rfl
  | ok => cases s.mustBeMember f <;> rfl

theorem issueRaw_bwait {b : State → Except Stop State} (hr : runs s f.p f.n) (hp : plain s) :
    s.issueRaw (metaC (formG f) true) b = match b s with
      | .ok t => t
      | .error r => s.stopped r :=
  issueRaw_of_runs (.inr fun _ => hp.2) (.inr hp.1) hr rfl

theorem exec_bwait_arrives (hr : runs s f.p f.n) (hp : plain s) (hh : s.ctx.hold = none) :
    exec (.bwait f) s = .next (match s.enterBarrier f with
      | .ok t => t
      | .error r => s.stopped r) := by
  refine congrArg Host.Outcome.next ((issueRaw_bwait hr hp).trans ?_)
  rw [hh]

theorem exec_bwait_over (hr : runs s f.p f.n) (hp : plain s) {id : Nat} {ph : BitVec 16} (hh : s.ctx.hold = some (.barrier id ph))
    (phase : (s.barrier id).phase ≠ ph) (gone : ¬ ph ∈ (s.barrier id).releasing) :
    exec (.bwait f) s = .next (retired (put s f.d ((ph + 1).setWidth 64)).endRegion 2) := by
  refine congrArg Host.Outcome.next ((issueRaw_bwait hr hp).trans ?_)
  have ended : ¬ ((s.barrier id).phase = ph ∨ (s.barrier id).releasing.contains ph = true) := by simp [phase, gone]
  simp only [hh, if_neg ended, writeOp_eq_put]
  rfl

theorem exec_bwait_released (hr : runs s f.p f.n) (hp : plain s) {ph : BitVec 16} (hh : s.ctx.hold = some (.released ph)) :
    exec (.bwait f) s = .next (retired (put s f.d ((ph + 1).setWidth 64)).endRegion 2) := by
  refine congrArg Host.Outcome.next ((issueRaw_bwait hr hp).trans ?_)
  simp only [hh, writeOp_eq_put]
  rfl

theorem exec_bwait_lost (hr : runs s f.p f.n) (hp : plain s) (hh : s.ctx.hold = some .domainLost) :
    exec (.bwait f) s = .next (s.stopped (barrierFault f)) := by
  refine congrArg Host.Outcome.next ((issueRaw_bwait hr hp).trans ?_)
  rw [hh]

theorem exec_bqry (hr : runs s f.p f.n) (hp : plain s) (hl : s.k.loop.running = false) :
    exec (.bqry f) s = .next (match s.barrierOk f with
      | .ok () => retired (put s f.d ((s.barrier (barrierNo s f)).word s.task.id)) 2
      | .error r => s.stopped r) := by
  refine congrArg Host.Outcome.next
    ((issue_of_runs (m := metaC (formG f) true) (.inr fun _ => hp.2) (.inr hp.1) hr rfl).trans ?_)
  rw [outsideLoop_ok hl, ← writeOp_eq_put]
  cases h : s.barrierOk f <;> rfl

/-- A bit of a word, read off its number. -/
theorem getLsbD_of_toNat {x : Word} {i : Nat} {c : Bool} (h : x.toNat / 2 ^ i % 2 = c.toNat) : x.getLsbD i = c := by
  rw [BitVec.getLsbD, Nat.testBit_eq_decide_div_mod_eq, h]
  cases c <;> rfl

/-- The fields of BQRY's word (R393). -/
theorem barrier_word_fields (b : Barrier) (task : Nat) (hm : b.members.length < 1024) (ha : b.arrived.length < 1024) :
    (b.word task).getLsbD 0 = b.hasMember task ∧ (b.word task).getLsbD 1 = b.hasArrived task ∧
      bits (b.word task) 12 10 = b.arrived.length ∧ bits (b.word task) 22 10 = b.members.length ∧
      bits (b.word task) 32 16 = b.phase.toNat := by
  have phase := b.phase.isLt
  have one (c : Bool) : c.toNat ≤ 1 := Bool.toNat_le c
  have mine := one (b.hasMember task)
  have come := one (b.hasArrived task)
  have sum : (b.word task).toNat = b.phase.toNat * 2 ^ 32 + b.members.length * 2 ^ 22 + b.arrived.length * 2 ^ 12
      + (b.hasArrived task).toNat * 2 + (b.hasMember task).toNat := by
    rw [Barrier.word, BitVec.toNat_ofNat]
    omega
  refine ⟨getLsbD_of_toNat ?_, getLsbD_of_toNat ?_, ?_, ?_, ?_⟩ <;> simp only [bits, sum] <;> omega

end

/-- Settles O38: each instruction is its checks and its change of the barrier, which the statement spells out. -/
theorem barriers : Obligations.Barriers := by
  unfold Obligations.Barriers
  intro f s hr hp hl id b t member arrived admitted fault
  have admits (h : ¬ admitted) : (f.md == 4 && !((s.domain f.a.toNat).admits s.coreNo)) = true := by
    simpa [admitted] using h
  refine ⟨fun named out mask => ?_, fun named refused hh => ?_, fun named mem => ?_, fun named mem late => ?_, fun named mem hh => ?_,
    fun ph hh phase gone => exec_bwait_over hr hp hh phase gone, fun ph hh => exec_bwait_released hr hp hh,
    fun hh handler => ?_, fun named out hh => ⟨?_, ?_, fun hold => ?_⟩, fun named mem come hh => ?_,
    fun named hh => ⟨?_, ?_, ?_, ?_, fun hold => ?_⟩, fun named hm ha => ?_⟩
  · have free : (isMember s f || (f.md == 4 && !((s.domain f.a.toNat).admits s.coreNo))) = false := by
      rw [show isMember s f = false from out]
      simpa [admitted] using mask
    rw [exec_barmJoin hr hp hl, barrierOk_ok named]
    exact congrArg _ (if_neg (Bool.eq_false_iff.mp free))
  · have no : (isMember s f || (f.md == 4 && !((s.domain f.a.toNat).admits s.coreNo))) = true :=
      Bool.or_eq_true_iff.mpr (refused.imp_right admits)
    rw [exec_barmJoin hr hp hl, barrierOk_ok named]
    exact congrArg _ ((if_pos no).trans (stopped_barrierFault hh))
  · rw [exec_barmLeave hr hp hl, memberChecks_ok named mem]
  · rw [exec_bsig hr hp hl, memberChecks_ok named mem]
    exact congrArg _ (if_neg (Bool.eq_false_iff.mp late))
  · rw [exec_bwait_arrives hr hp hh, enterBarrier_eq hl, memberChecks_ok named mem]
    rfl
  · rw [exec_bwait_lost hr hp hh, stopped_barrierFault handler]
  · rw [exec_bsig hr hp hl, memberChecks_fault (.inr out)]
    exact congrArg _ (stopped_barrierFault hh)
  · rw [exec_barmLeave hr hp hl, memberChecks_fault (.inr out)]
    exact congrArg _ (stopped_barrierFault hh)
  · rw [exec_bwait_arrives hr hp hold, enterBarrier_eq hl, memberChecks_fault (.inr out)]
    exact congrArg _ (stopped_barrierFault hh)
  · rw [exec_bsig hr hp hl, memberChecks_ok named mem]
    exact congrArg _ ((if_pos come).trans (stopped_barrierFault hh))
  · rw [exec_bqry hr hp hl, barrierOk_fault named]
    exact congrArg _ (stopped_barrierFault hh)
  · rw [exec_barmJoin hr hp hl, barrierOk_fault named]
    exact congrArg _ (stopped_barrierFault hh)
  · rw [exec_barmLeave hr hp hl, memberChecks_fault (.inl named)]
    exact congrArg _ (stopped_barrierFault hh)
  · rw [exec_bsig hr hp hl, memberChecks_fault (.inl named)]
    exact congrArg _ (stopped_barrierFault hh)
  · rw [exec_bwait_arrives hr hp hold, enterBarrier_eq hl, memberChecks_fault (.inl named)]
    exact congrArg _ (stopped_barrierFault hh)
  · rw [exec_bqry hr hp hl, barrierOk_ok named]
    exact ⟨_, rfl, barrier_word_fields b t hm ha⟩

end Sys2Proof.Claims

/-! Exchange instructions (`Obligations.Exchanges`). -/

namespace Sys2Proof.Claims

open Machine

section
variable {s : State} {f : G64} {w : Window}

/-! XOPEN (R406). -/

theorem endRegion_k (s : State) : s.endRegion.k = s.k := by
  obtain ⟨e, known⟩ := s.onlyKnowledge_synchronise
  rw [State.endRegion, State.closeRegion_k, known]

theorem putBarrier_k (s : State) (id : Nat) (r : Barrier × Bool) : (s.putBarrier id r).k = s.k := by
  unfold State.putBarrier State.setBarrier
  split <;> split <;> rfl

/-- What an XOPEN that has arrived leaves: its wait for the release, and a window of its parameters. -/
theorem enterExchange_arrives : Answers (fun u : State =>
    u.ctx.hold = some (.exchange (s.barrier (2048 + f.a.toNat)).phase) ∧ ∃ sched, u.k.window = some
      { domain := f.a.toNat, phase := (s.barrier (2048 + f.a.toNat)).phase + 1, lead := bits (s.readOp f.c f.dc) 32 16
        slen := bits (s.readOp f.c f.dc) 16 8, nslot := bits (s.readOp f.c f.dc) 0 13, sched := sched })
    (s.enterExchange f) := by
  unfold State.enterExchange
  refine .check fun _ => .ite (.error _) (.check fun _ => .check fun _ => .ite (.error _) (.ite (.error _) (.ite (.error _)
    (.ite (.error _) (.ite (.error _) (.check fun _ => .ok ⟨rfl, _, congrArg Kern.window ((endRegion_k _).trans (putBarrier_k _ _ _))⟩))))))

theorem xopen_issues (hr : runs s f.p f.n) (hc : s.ctx.slot = 15) (hh : s.ctx.hold = none) :
    s.xopen f = match s.enterExchange f with
      | .ok t => t
      | .error r => s.stopped r := by
  unfold State.xopen
  rw [issueRaw_exchange hr hc, hh] <;> rfl

theorem openWindow_none (h : s.k.window = none) : s.openWindow = none := by rw [State.openWindow, h]; rfl

theorem enterExchange_open (hl : s.k.loop.running = false) (hw : s.k.window = some w) (ho : w.opened = true) :
    s.enterExchange f = .error (exchangeFault 4) := by
  rw [State.enterExchange, outsideLoop_ok hl, openWindow_some hw ho]
  rfl

/-! XSEND (R407). -/

/-- The slot in which an XSEND may send to a destination. -/
def maySend (s : State) (w : Window) (slot dest : Nat) : Prop :=
  slot < w.nslot ∧ (slotWord w slot).getLsbD 10 = true ∧ bits (slotWord w slot) 0 10 = dest ∧ ¬ (slot ∈ w.sent) ∧
    s.cycle.toNat < w.t0 + w.lead + (slot + 1) * w.slen

theorem sendChecks_none (hw : s.k.window = none) (slot dest : Word) : s.sendChecks slot dest = .error (exchangeFault 5) := by
  rw [State.sendChecks, openWindow_none hw]

theorem sendChecks_ok (hw : s.k.window = some w) (ho : w.opened = true) {slot dest : Word}
    (h : maySend s w slot.toNat dest.toNat) : s.sendChecks slot dest = .ok w := by
  obtain ⟨listed, sends, receiver, unsent, early⟩ := h
  rw [State.sendChecks, openWindow_some hw ho]
  refine if_neg ?_
  rintro (h | h | h | h | h)
  · exact Nat.not_le.mpr listed h
  · exact h sends
  · exact h receiver
  · exact unsent (List.contains_iff_mem.mp h)
  · exact Nat.not_le.mpr early h

theorem sendChecks_fault (hw : s.k.window = some w) (ho : w.opened = true) {slot dest : Word}
    (h : ¬ maySend s w slot.toNat dest.toNat) : s.sendChecks slot dest = .error (slotFault slot) := by
  rw [State.sendChecks, openWindow_some hw ho]
  refine if_pos ?_
  by_contra passes
  push Not at passes
  obtain ⟨listed, sends, receiver, unsent, early⟩ := passes
  exact h ⟨listed, sends, receiver, fun sent => unsent (List.contains_iff_mem.mpr sent), early⟩

theorem xsend_issues (hr : runs s f.p f.n) (hc : s.ctx.slot = 15) (hl : s.k.loop.running = false) (hh : s.ctx.hold = none) :
    let slot := (s.readOp f.a f.da).toNat
    let dest := (s.readOp f.b f.db).toNat
    s.xsend f = match s.sendChecks (s.readOp f.a f.da) (s.readOp f.b f.db) with
      | .ok w =>
        if s.cycle.toNat < w.slotStart slot then s.wait (.send slot dest (s.readOp f.c f.dc))
        else retired (sent s w slot dest (s.readOp f.c f.dc)) 2
      | .error r => s.stopped r := by
  unfold State.xsend
  rw [issueRaw_exchange hr hc]
  simp only [outsideLoop_ok hl, hh]
  cases s.sendChecks (s.readOp f.a f.da) (s.readOp f.b f.db) with
  | error r => rfl
  | ok w =>
    change (match (if _ then _ else _ : Except Stop State) with | .ok t => _ | .error r => _) = if _ then _ else _
    split_ifs <;> rfl

/-! XRECV (R407). -/

theorem xrecv_open (hr : runs s f.p f.n) (hc : s.ctx.slot = 15) (hl : s.k.loop.running = false) (hw : s.k.window = some w)
    (ho : w.opened = true) : let slot := (s.readOp f.a f.da).toNat
    s.xrecv f = if w.nslot ≤ slot ∨ ¬ entryRv (w.entry slot) then s.stopped (slotFault (s.readOp f.a f.da))
      else if s.cycle.toNat < w.slotEnd slot ∨ s.arrivalDue slot then s.wait (.recv slot)
      else retired (put s f.d (Tbl.getD w.store slot 0)) 2 := by
  unfold State.xrecv
  rw [issueRaw_exchange hr hc, outsideLoop_ok hl, openWindow_some hw ho]
  intro slot
  rw [← writeOp_eq_put]
  change (match (if _ then _ else if _ then _ else _ : Except Stop State) with | .ok t => _ | .error r => _) =
    if _ then _ else if _ then _ else _
  split_ifs <;> rfl

theorem xrecv_none (hr : runs s f.p f.n) (hc : s.ctx.slot = 15) (hl : s.k.loop.running = false) (hw : s.k.window = none) :
    s.xrecv f = s.stopped (exchangeFault 5) := by
  unfold State.xrecv
  rw [issueRaw_exchange hr hc, outsideLoop_ok hl, openWindow_none hw]
  rfl

/-! XCLOSE (R410). -/

theorem xclose_none (hr : runs s f.p f.n) (hc : s.ctx.slot = 15) (hl : s.k.loop.running = false) (hw : s.k.window = none) :
    s.xclose f = s.stopped (exchangeFault 5) := by
  unfold State.xclose
  rw [issueRaw_exchange hr hc, outsideLoop_ok hl, openWindow_none hw]
  rfl

theorem xclose_early (hr : runs s f.p f.n) (hc : s.ctx.slot = 15) (hl : s.k.loop.running = false) (hw : s.k.window = some w)
    (ho : w.opened = true) (early : s.cycle.toNat < w.ending) : s.xclose f = waits s := by
  unfold State.xclose
  rw [issueRaw_exchange hr hc, outsideLoop_ok hl, openWindow_some hw ho]
  change (match (if _ then _ else _ : Except Stop State) with | .ok t => _ | .error r => _) = _
  rw [if_pos (.inl early)]
  rfl

theorem stopped_exchangeFault (hh : hasHandler s) (reason : Nat) :
    s.stopped (exchangeFault reason) = trapped s 18 (BitVec.ofNat 64 reason) s.ctx.pc := stopped_of_handler hh 18 _ _ (by decide)

theorem stopped_slotFault (hh : hasHandler s) (slot : Word) : s.stopped (slotFault slot) = trapped s 17 slot s.ctx.pc :=
  stopped_of_handler hh 17 _ _ (by decide)

end

/-- Settles O39: each instruction by its own lemmas, in the order of the statement; those that go through are the ones that
`Obligations.ExchangeEvents` issues again. -/
theorem exchanges : Obligations.Exchanges := by
  unfold Obligations.Exchanges
  intro f s hr hc hl a
  refine ⟨fun ph w hh hw ho => congrArg _ (xopen_opened hr hc hw ho hh), fun u hh entered => ?_, fun w hh hw ho handler => ?_,
    fun hw hh handler => ⟨?_, ?_, ?_⟩, fun w hw ho => ⟨fun hh => ?_, ?_, fun ended gone => ?_, fun early => ?_⟩⟩
  · refine ⟨congrArg Host.Outcome.next ?_, enterExchange_arrives u entered⟩
    rw [xopen_issues hr hc hh, entered]
  · refine congrArg Host.Outcome.next ?_
    rw [xopen_issues hr hc hh, enterExchange_open hl hw ho]
    exact stopped_exchangeFault handler 4
  · refine congrArg Host.Outcome.next ?_
    rw [xsend_issues hr hc hl hh, sendChecks_none hw]
    exact stopped_exchangeFault handler 5
  · exact congrArg _ ((xrecv_none hr hc hl hw).trans (stopped_exchangeFault handler 5))
  · exact congrArg _ ((xclose_none hr hc hl hw).trans (stopped_exchangeFault handler 5))
  · have issues := xsend_issues hr hc hl hh
    intro dest v ok
    refine ⟨fun may due => congrArg Host.Outcome.next ?_, fun may early => congrArg Host.Outcome.next ?_,
      fun may handler => congrArg Host.Outcome.next ?_⟩
    · rw [issues, sendChecks_ok hw ho may]
      exact if_neg (Nat.not_lt.mpr due)
    · rw [issues, sendChecks_ok hw ho may]
      exact if_pos early
    · rw [issues, sendChecks_fault hw ho may]
      exact stopped_slotFault handler a
  · have issues := xrecv_open hr hc hl hw ho
    intro ok
    refine ⟨fun ⟨listed, receives⟩ due none => congrArg Host.Outcome.next (xrecv_due hr hc hl hw ho listed receives none due),
      fun ⟨listed, receives⟩ early => congrArg Host.Outcome.next ?_, fun may handler => congrArg Host.Outcome.next ?_⟩
    · exact issues.trans ((if_neg (not_or.mpr ⟨Nat.not_le.mpr listed, not_not.mpr receives⟩)).trans (if_pos (.inl early)))
    · rw [issues, if_pos]
      · exact stopped_slotFault handler a
      · by_contra passes
        push Not at passes
        exact may passes
  · exact congrArg _ (xclose_over hr hc hl hw ho gone ended)
  · exact congrArg _ (xclose_early hr hc hl hw ho early)

end Sys2Proof.Claims

/-! CPY, WPWAIT and WPRD (`Obligations.CopyInstructions`). First what a loop body sends or holds (R279). -/

namespace Sys2Proof.Machine

variable {s : State}

theorem State.not_susp_of_inBody (h : s.inBody = true) : s.k.loop.susp = false := by
  have running : s.k.loop.running = true := (Bool.and_eq_true_iff.mp h).2
  simpa using (Bool.and_eq_true_iff.mp running).2

/-- Behind what is still held, or with no room, an instruction's work is held too (R279). -/
theorem State.sendOrHold_held {w : HeldWork} (h : s.inBody = true) (held : s.k.unreleased ≠ [] ∨ s.k.roomFor w = false) :
    s.sendOrHold w = { s with k := { s.k with
      unreleased := s.k.unreleased ++ [{ work := w, outer := s.k.loop.inner.isNone }] } } := by
  refine if_neg ?_
  rw [Kern.goesAt, State.not_susp_of_inBody h, Bool.or_false, Bool.and_eq_true, List.isEmpty_iff]
  rintro ⟨empty, room⟩
  rcases held with some | full
  · exact some empty
  · exact absurd room (Bool.eq_false_iff.mp full)

/-- With nothing held and room, it goes at once. -/
theorem State.sendOrHold_sent {w : HeldWork} (empty : s.k.unreleased = []) (room : s.k.roomFor w = true) :
    s.sendOrHold w = s.sendWork w := by
  refine if_pos ?_
  rw [Kern.goesAt, room, empty]
  rfl

/-- Consecutive elements of a table. -/
theorem upFrom_map {α : Type} (f : Nat → α) (lo n : Nat) : (upFrom lo n).map f = (List.range n).map (fun i => f (lo + i)) := by
  rw [Claims.upFrom_eq_range', List.range'_eq_map_range, List.map_map]
  rfl

end Sys2Proof.Machine

namespace Sys2Proof.Claims

open Machine

section
variable {s : State} {f : G64}

/-- An engine's instruction that a helper may issue too: its body runs with its number taken. -/
theorem issue_metaE_any {dest : Bool} {b : State → Except Stop State} (hr : runs s f.p f.n) (hc : calm s) :
    s.issue (metaE (formG f) true dest) b = match b (numbered s) with
      | .ok t => retired t 2
      | .error r => s.stoppedAs true r :=
  issue_engine (.inr hc) (.inl rfl) hr rfl

/-- An advance of ENGSEQ is taken back. -/
theorem numbered_dropSeq (s : State) (names : Nat) :
    State.dropSeq { numbered s with names := names } = { s with names := names } := by
  simp [numbered, State.dropSeq]

/-- The queue of the channel that a CPY names. -/
def queueOf (s : State) (f : G64) : List Copy := (s.k.chans.getD ((s.readOp f.b f.db).toNat % 8) {}).queue

/-- CPY (R340, R342): it waits, stops at a check, or sends what it captures. -/
theorem exec_cpy (hr : runs s f.p f.n) (hc : calm s) :
    let n := (s.readOp f.b f.db).toNat % 8
    let x := copyOf s f
    exec (.cpy f) s = .next (if 4 ≤ (queueOf s f).length ∧ ¬ s.inBody = true then s.wait .room
      else match copyChecks x.dst x.src x.links with
        | .ok _ => retired (if s.inBody then State.sendOrHold { s with names := s.names + 1 } (.copy n x)
            else onChan { numbered s with names := s.names + 1 } n (fun c => { c with queue := c.queue ++ [x] })) 2
        | .error r => s.stoppedAs true r) := by
  intro n x
  have captured : (upFrom (f.a.toNat + 1) (f.md.toNat % 4)).map (numbered s).tensor = x.links := upFrom_map _ _ _
  refine congrArg Host.Outcome.next ((issue_metaE_any hr hc).trans ?_)
  rw [captured]
  change (match (if 4 ≤ (queueOf s f).length ∧ ¬ s.inBody = true then .error (.hold .room) else do
      copyChecks x.dst x.src x.links
      .ok (if s.inBody = true then State.sendOrHold (State.dropSeq { numbered s with names := s.names + 1 }) (.copy n x)
        else onChan { numbered s with names := s.names + 1 } n (fun c => { c with queue := c.queue ++ [x] })) :
      Except Stop State) with
    | .ok t => retired t 2
    | .error r => s.stoppedAs true r) = _
  rw [numbered_dropSeq]
  cases copyChecks x.dst x.src x.links <;> split_ifs <;> rfl

theorem not_inBody (hh : hasHandler s) : ¬ s.inBody = true := by
  obtain ⟨-, -, -, -, -, idle, -⟩ := hh
  simp [State.inBody, idle]

/-- WPWAIT (R346, R349). -/
theorem exec_wpwait (hr : runs s f.p f.n) (hc : calm s) :
    let n := (s.readOp f.a f.da).toNat % 8
    let c := s.k.chans.getD n {}
    exec (.wpwait f) s = .next (if (s.readOp f.b f.db).toNat ≤ c.wp.toNat then retired s 2
      else if c.stopped then s.stopped (.trap 15 (BitVec.ofNat 64 n) 0) else waits s) := by
  intro n c
  refine congrArg Host.Outcome.next ((issue_metaM (f := formG f) hr hc).trans ?_)
  change (match (if (s.readOp f.b f.db).toNat ≤ c.wp.toNat then .ok s
      else if c.stopped = true then .error (.trap 15 (BitVec.ofNat 64 n) 0) else .error (.hold .condition) :
      Except Stop State) with
    | .ok t => retired t 2
    | .error r => s.stopped r) = _
  split_ifs <;> rfl

/-- WPRD (R350). -/
theorem exec_wprd (hr : runs s f.p f.n) (hc : calm s) :
    let c := s.k.chans.getD ((s.readOp f.a f.da).toNat % 8) {}
    exec (.wprd f) s = .next (retired (put s f.d (if f.md = 1 then c.status else c.wp)) 2) := by
  intro c
  rw [← writeOp_eq_put]
  exact congrArg _ (issue_metaM (f := formG f) hr hc)

end

/-- The fields of a channel's status word (R350). -/
theorem chan_status_fields (c : Chan) (few : c.queue.length < 5) :
    c.status.getLsbD 0 = c.tmiss ∧ c.status.getLsbD 1 = c.held ∧ c.status.getLsbD 2 = c.pfhold ∧ c.status.getLsbD 3 = c.stopped ∧
      c.status.getLsbD 4 = !c.queue.isEmpty ∧ bits c.status 5 59 = c.queue.length - 1 := by
  have one (b : Bool) : b.toNat ≤ 1 := Bool.toNat_le b
  have queued := one (!c.queue.isEmpty)
  have stopped := one c.stopped
  have paged := one c.pfhold
  have tiered := one c.held
  have missed := one c.tmiss
  have sum : c.status.toNat = (c.queue.length - 1) * 32 + (!c.queue.isEmpty).toNat * 16 + c.stopped.toNat * 8 + c.pfhold.toNat * 4
      + c.held.toNat * 2 + c.tmiss.toNat := by
    rw [Chan.status, BitVec.toNat_ofNat]
    omega
  refine ⟨getLsbD_of_toNat ?_, getLsbD_of_toNat ?_, getLsbD_of_toNat ?_, getLsbD_of_toNat ?_, getLsbD_of_toNat ?_, ?_⟩ <;>
    simp only [bits, sum] <;> omega

/-- Settles O36: each instruction is its one equation, whose branches are the clauses. -/
theorem copyInstructions : Obligations.CopyInstructions := by
  unfold Obligations.CopyInstructions
  refine ⟨fun f s hr hc => ?_, fun f s hr hc => ?_⟩
  · have issues := exec_cpy hr hc
    intro n x direct
    refine ⟨fun full outside => ?_, fun room sends checks => ?_, fun inside held checks => ?_, fun cause goes checks below hh => ?_⟩
    · rw [issues]
      exact congrArg _ (if_pos ⟨full, Bool.eq_false_iff.mp outside⟩)
    · have open' : ¬ (4 ≤ (queueOf s f).length ∧ ¬ s.inBody = true) := fun full => Nat.not_le.mpr room full.1
      rw [issues, if_neg open', checks]
      refine congrArg (fun t => Host.Outcome.next (retired t 2)) ?_
      split_ifs with inside
      · exact State.sendOrHold_sent (sends inside) (decide_eq_true room)
      · rfl
    · rw [issues, if_neg (fun full => full.2 inside), checks]
      refine congrArg (fun t => Host.Outcome.next (retired t 2)) ?_
      rw [if_pos inside, State.sendOrHold_held]
      · exact inside
      · exact held.symm.imp_right fun full => decide_eq_false (Nat.not_lt.mpr full)
    · have open' : ¬ (4 ≤ (queueOf s f).length ∧ ¬ s.inBody = true) := fun full =>
        Nat.not_le.mpr (goes.resolve_left (not_inBody hh)) full.1
      rw [issues, if_neg open', checks]
      exact congrArg _ (stoppedAs_of_handler hh true cause 0 0 below)
  · have waits := exec_wpwait hr hc
    have reads := exec_wprd hr hc
    intro n c
    refine ⟨fun there => ?_, fun early going => ?_, fun early stopped hh => ?_, fun pointer => ?_, fun status few => ?_⟩
    · exact waits.trans (congrArg _ (if_pos there))
    · exact waits.trans (congrArg _ ((if_neg (Nat.not_le.mpr early)).trans (if_neg (Bool.eq_false_iff.mp going))))
    · exact waits.trans (congrArg _ (((if_neg (Nat.not_le.mpr early)).trans (if_pos stopped)).trans
        (stopped_of_handler hh 15 _ 0 (by decide))))
    · exact reads.trans (congrArg (fun v => Host.Outcome.next (retired (put s f.d v) 2)) (if_neg pointer))
    · exact ⟨_, reads.trans (congrArg (fun v => Host.Outcome.next (retired (put s f.d v) 2)) (if_pos status)), chan_status_fields c few⟩

end Sys2Proof.Claims

/-! GATHER, SCATTER, EVWAIT and TIERIN (`Obligations.IndirectInstructions`). First the context in focus at a TIERIN's walk. -/

namespace Sys2Proof.Machine

/-- The pages of a range are looked up from the same context. -/
theorem State.sameContext_tierPages (ag : Agent) (near : Bool) (last n : Nat) :
    ∀ (s : State) (a : Nat), s.SameContext (s.tierPages ag near last n a).2 := by
  induction n with
  | zero => exact fun s _ => .refl s
  | succ n ih =>
    intro s a
    unfold State.tierPages
    extract_lets va skip
    split
    · exact .refl s
    · split
      · exact ih s skip
      · have walked := s.sameContext_walk s.myPart (s.coreNo / 384) va
        split
        · next e leaf level s1 found =>
          rw [found] at walked
          extract_lets next s2 r
          have counted : s1.SameContext s2 := by
            unfold s2
            split
            · exact s1.sameContext_countNear leaf
            · exact .refl s1
          have rest : s.SameContext r.2 := (walked.trans counted).trans (ih s2 next)
          split
          · exact rest
          · exact rest
        · exact ih s skip

/-- Page-ins are asked for from the same context. -/
theorem State.sameContext_askPageIns (ps : List (Nat × Word)) (s : State) :
    s.SameContext (ps.foldl (fun (acc : State) x => acc.askPageIn acc.myPart x.1 x.2) s) :=
  List.foldlRecOn (motive := fun t : State => s.SameContext t) ps _ (.refl s) fun _ ht x _ => ht.trans (State.sameContext_askPageIn _ _ x.1 x.2)

/-- A TIERIN that finds no page to wait for signals its line at once (R353). -/
theorem State.tierIn_none {s : State} {ag : Agent} {pc : Word} {near : Bool} {line a len : Nat}
    (none : (s.tierPages ag near (a + len) 16385 a).1 = []) :
    s.tierIn ag pc near line a len = (0, (s.tierPages ag near (a + len) 16385 a).2.signal line) := by
  refine (if_pos none).trans ?_
  rw [none]
  rfl

/-- A TIERIN that finds pages waits for them (R353). -/
theorem State.tierIn_waits {s : State} {ag : Agent} {pc : Word} {near : Bool} {line a len : Nat}
    (some : (s.tierPages ag near (a + len) 16385 a).1 ≠ []) :
    let found := (s.tierPages ag near (a + len) 16385 a).1
    let r := s.tierIn ag pc near line a len
    r.1 = found.length ∧ r.2.ctx = s.ctx ∧
      r.2.k = { s.k with tierins := s.k.tierins ++
        [{ pc := pc, seq := s.k.engseq, line := line, leaves := found.map (fun x => x.1) }] } := by
  intro found r
  have place := (s.sameContext_tierPages ag near (a + len) 16385 a).trans (State.sameContext_askPageIns found _)
  have waits : r = _ := if_neg some
  rw [waits]
  refine ⟨rfl, place.ctx, ?_⟩
  dsimp only
  rw [place.k]

end Sys2Proof.Machine

namespace Sys2Proof.Claims

open Machine

section
variable {s : State} {f : G64}

/-- GATHER and SCATTER (R354, R355): they wait, stop at a check, or post their request. -/
theorem exec_post (hr : runs s f.p f.n) (hc : calm s) (scatter : Bool) :
    let r := requestOf s f scatter
    let q := Tbl.getD s.ix (s.coreNo / 16) []
    exec (if scatter then .scatter f else .gather f) s = .next (if 32 ≤ q.length then s.wait .room
      else match indirectChecks scatter r.dst r.list r.src with
        | .ok _ => retired { numbered s with ix := Tbl.put s.ix (s.coreNo / 16) (q ++ [r]) } 2
        | .error e => s.stoppedAs true e) := by
  intro r q
  have posts : s.post f scatter = if 32 ≤ q.length then s.wait .room
      else match indirectChecks scatter r.dst r.list r.src with
        | .ok _ => retired { numbered s with ix := Tbl.put s.ix (s.coreNo / 16) (q ++ [r]) } 2
        | .error e => s.stoppedAs true e := by
    refine (issue_metaE_any hr hc).trans ?_
    change (match (if 32 ≤ q.length then .error (.hold .room) else do
        indirectChecks scatter r.dst r.list r.src
        .ok { numbered s with ix := Tbl.put s.ix (s.coreNo / 16) (q ++ [r]) } : Except Stop State) with
      | .ok t => retired t 2
      | .error r => s.stoppedAs true r) = _
    cases indirectChecks scatter r.dst r.list r.src <;> split_ifs <;> rfl
  cases scatter <;> exact congrArg Host.Outcome.next posts

/-- EVWAIT that no signal has ended (R352). -/
theorem exec_evwait (hr : runs s f.p f.n) (hc : calm s) (hh : s.ctx.hold ≠ some .signalled) :
    exec (.evwait f) s = .next (if s.k.events.getLsbD f.a.toNat then
        retired (put { s with k := { s.k with events := setBits s.k.events f.a.toNat 1 0 } } f.d 1) 2
      else if f.md = 1 then retired (put s f.d 0) 2 else waits s) := by
  refine congrArg Host.Outcome.next
    ((issue_of_runs (m := metaM (formG f) true) (.inr hc) (.inl rfl) hr rfl).trans ?_)
  rw [if_neg fun h => hh h.2, ← writeOp_eq_put, ← writeOp_eq_put]
  dsimp only
  split_ifs <;> rfl

/-- TIERIN behind what is still on its way (R279). -/
theorem exec_tierin_held (hr : runs s f.p f.n) (hc : calm s) (inside : s.inBody = true) (held : s.k.unreleased ≠ []) :
    exec (.tierin f) s = .next (retired { s with k := { s.k with unreleased := s.k.unreleased ++
      [{ work := .tierin s.agent s.ctx.pc (f.opt.getLsbD 0) f.c.toNat f.d (s.readOp f.a f.da)
          (BitVec.ofNat 64 (prefetchLength (s.readOp f.b f.db)))
         outer := s.k.loop.inner.isNone }] } } 2) := by
  refine congrArg Host.Outcome.next ((issue_metaE_any hr hc).trans ?_)
  have behind : (numbered s).inBody = true ∧ ¬ (numbered s).k.unreleased.isEmpty = true := ⟨inside, mt List.isEmpty_iff.mp held⟩
  have back : (numbered s).dropSeq = s := numbered_dropSeq s s.names
  rw [if_pos behind, back, State.sendOrHold_held inside (.inl held)]
  rfl

/-- TIERIN that goes at once (R353). -/
theorem exec_tierin (hr : runs s f.p f.n) (hc : calm s) (direct : s.inBody = true → s.k.unreleased = []) :
    let r := (numbered s).tierIn s.agent s.ctx.pc (f.opt.getLsbD 0) f.c.toNat (s.readOp f.a f.da).toNat
      (prefetchLength (s.readOp f.b f.db))
    exec (.tierin f) s = .next (retired (put r.2 f.d (BitVec.ofNat 64 r.1)) 2) := by
  intro r
  refine congrArg Host.Outcome.next ((issue_metaE_any hr hc).trans ?_)
  have alone : ¬ ((numbered s).inBody = true ∧ ¬ (numbered s).k.unreleased.isEmpty = true) := fun ⟨inside, held⟩ =>
    held (List.isEmpty_iff.mpr (direct inside))
  rw [if_neg alone, ← writeOp_eq_put]
  rfl

/-- An operand written reads in the context's registers alike, whatever else differs. -/
theorem put_ctx_congr {t u : State} (h : u.ctx = t.ctx) (d : BitVec 6) (v : Word) : (put u d v).ctx = (put t d v).ctx := by
  unfold put
  split
  · dsimp only
    rw [h]
  · exact h

theorem ctxView_retired {t u : State} (h : t.ctx = u.ctx) (n : Nat) : ctxView (retired t n) = ctxView u := by
  unfold ctxView
  rw [retired, h]

theorem retiredAs_put {t : State} (h : t.ctx = s.ctx) (d : BitVec 6) (v : Word) : retiredAs s (retired (put t d v) 2) 2 := by
  rw [retiredAs, retired, put_ctx_congr h]
  unfold put
  split
  · exact ⟨rfl, rfl, rfl⟩
  · exact ⟨rfl, rfl, rfl⟩

theorem put_tierins (t : State) (d : BitVec 6) (v : Word) : (put t d v).k.tierins = t.k.tierins := by
  obtain ⟨r, b, frame⟩ := t.writeOp_frame d v
  rw [← writeOp_eq_put, frame]

end

/-- Settles O37: a request posted, an event taken, and the pages that a TIERIN finds. -/
theorem indirectInstructions : Obligations.IndirectInstructions := by
  unfold Obligations.IndirectInstructions
  refine ⟨fun f s scatter hr hc => ?_, fun f s hr hc hh => ?_, fun f s hr hc => ?_⟩
  · have issues := exec_post hr hc scatter
    intro i r q
    refine ⟨fun full => ?_, fun room checks => ?_, fun cause room checks below hh => ?_⟩
    · exact issues.trans (congrArg _ (if_pos full))
    · rw [issues, if_neg (Nat.not_le.mpr room), checks]
    · rw [issues, if_neg (Nat.not_le.mpr room), checks]
      exact congrArg _ (stoppedAs_of_handler hh true cause 0 0 below)
  · have issues := exec_evwait hr hc hh
    intro line
    refine ⟨fun signalled listed => ?_, fun quiet test => ?_, fun quiet wait => ?_⟩
    · rw [issues, if_pos signalled, setBits_bit_zero _ listed]
    · rw [issues, if_neg (Bool.eq_false_iff.mp quiet), if_pos test]
    · rw [issues, if_neg (Bool.eq_false_iff.mp quiet), if_neg wait]
  · intro a len r direct
    refine ⟨fun inside held => exec_tierin_held hr hc inside held, fun now none => ?_, fun now some => ?_⟩
    · have signals := State.tierIn_none (pc := s.ctx.pc) (line := f.c.toNat) none
      rw [exec_tierin hr hc now, signals]
      rfl
    · obtain ⟨number, ctx, k⟩ := State.tierIn_waits (pc := s.ctx.pc) (line := f.c.toNat) some
      refine ⟨_, exec_tierin hr hc now, retiredAs_put ctx _ _, ?_, ?_⟩
      · rw [number]
        have same : _ = s.ctx := ctx
        exact ctxView_retired (put_ctx_congr (t := s) same f.d _) 2
      · refine (put_tierins _ _ _).trans ?_
        rw [k]
        rfl

end Sys2Proof.Claims

/-! LOOP and LOOPO (`Obligations.LoopHeaders`). First the bodies that a capture reads, and the inner part of one as its text gives
it back. -/

namespace Sys2Proof.Machine

/-- An instruction that decodes is all that its own parcels say. -/
theorem decode_take {ps : List Parcel} {i : Instr} (h : decode ps = .ok i) :
    parcelCount (ps.getD 0 0) ≤ ps.length ∧ decode (ps.take (parcelCount (ps.getD 0 0))) = .ok i := by
  match ps with
  | [] => exact absurd h (by simp [decode])
  | p :: rest =>
    have count : parcelCount p = 1 ∨ parcelCount p = 2 ∨ parcelCount p = 3 := by
      unfold parcelCount
      split_ifs <;> simp
    rcases count with one | two | three
    · simpa [decode, one] using h
    · match rest with
      | [] => exact absurd h (by simp [decode, two])
      | q :: _ => simpa [decode, two] using h
    · match rest with
      | [] => exact absurd h (by simp [decode, three])
      | [_] => exact absurd h (by simp [decode, three])
      | q :: r :: _ => simpa [decode, three] using h

theorem parcelCount_pos (p : Parcel) : 0 < parcelCount p ∧ parcelCount p ≤ 3 := by
  unfold parcelCount
  split_ifs <;> simp

/-- An instruction of a body that stands in the body's text as it decodes. -/
structure BodyInstr.Whole (b : BodyInstr) : Prop where
  length : b.parcels.length = b.len
  count : b.len = parcelCount (b.parcels.getD 0 0)
  decodes : b.instr = match decode b.parcels with | .ok i => some i | .error _ => none

/-- What a capture reads decodes from its own parcels, if it decodes. -/
def BodyInstr.AsRead (b : BodyInstr) : Prop := b.instr.isSome → b.Whole

/-- Instructions laid one behind another, from an index up to another. -/
def Laid : Nat → List BodyInstr → Nat → Prop
  | start, [], fin => start = fin
  | start, b :: bs, fin => b.idx = start ∧ Laid (start + b.len) bs fin

theorem laid_append {xs ys : List BodyInstr} {start fin : Nat} :
    Laid start (xs ++ ys) fin ↔ ∃ mid, Laid start xs mid ∧ Laid mid ys fin := by
  induction xs generalizing start with
  | nil => simp [Laid]
  | cons b bs ih => simp only [List.cons_append, Laid, ih, exists_and_left, and_assoc]

theorem Laid.le {xs : List BodyInstr} {start fin : Nat} (h : Laid start xs fin) : start ≤ fin := by
  induction xs generalizing start with
  | nil => exact Nat.le_of_eq h
  | cons b bs ih => exact (Nat.le_add_right ..).trans (ih h.2)

theorem Laid.start_le_idx {xs : List BodyInstr} {start fin : Nat} (h : Laid start xs fin) : ∀ b ∈ xs, start ≤ b.idx := by
  induction xs generalizing start with
  | nil => simp
  | cons b bs ih =>
    have rest := ih h.2
    intro x hx
    rcases List.mem_cons.mp hx with rfl | hx
    · exact h.1.ge
    · have := rest x hx
      omega

/-- The steps of a capture that succeeds. -/
theorem exists_ok_of_bind {α β : Type} {x : Except Stop α} {f : α → Except Stop β} {r : β} (h : (x >>= f) = .ok r) :
    ∃ a, x = .ok a ∧ f a = .ok r := by
  cases x with
  | error e => cases h
  | ok a => exact ⟨a, rfl, h⟩

theorem State.bodyAt_asRead {s s1 : State} {idx : Nat} {b : BodyInstr} (h : s.bodyAt idx = .ok (b, s1)) : b.idx = idx ∧ b.AsRead := by
  obtain ⟨line, -, h⟩ := exists_ok_of_bind h
  injection h with h
  injection h with h _
  subst h
  generalize slotParcels line.1 (slotOf (parcelAddr idx)) = ps
  refine ⟨rfl, fun some => ?_⟩
  dsimp only at some ⊢
  split at some
  · cases some
  · next sound =>
    cases hd : decode ps with
    | error r => rw [hd] at some; cases some
    | ok i =>
      obtain ⟨fits, alone⟩ := decode_take hd
      have first : (ps.take (parcelCount (ps.getD 0 0))).getD 0 0 = ps.getD 0 0 := by
        rw [List.getD_eq_getElem?_getD, List.getElem?_take_of_lt (parcelCount_pos _).1, ← List.getD_eq_getElem?_getD]
      rw [Nat.min_eq_left fits]
      exact ⟨List.length_take_of_le fits, by rw [first], by rw [alone, if_neg sound]⟩

theorem State.captureFrom_laid {last fuel : Nat} {s s1 : State} {idx : Nat} {r : List BodyInstr × Bool}
    (h : s.captureFrom last fuel idx = .ok (r, s1)) : (∃ fin, Laid idx r.1 fin) ∧ ∀ b ∈ r.1, b.AsRead := by
  induction fuel generalizing s idx r s1 with
  | zero =>
    cases h
    exact ⟨⟨idx, rfl⟩, by simp⟩
  | succ fuel ih =>
    obtain ⟨⟨b, s2⟩, hb, h⟩ := exists_ok_of_bind h
    obtain ⟨at', asRead⟩ := State.bodyAt_asRead hb
    dsimp only at h
    split at h
    · cases h
      exact ⟨⟨_, at', rfl⟩, by simpa using asRead⟩
    · obtain ⟨⟨rest, s3⟩, hr, h⟩ := exists_ok_of_bind h
      cases h
      obtain ⟨⟨fin, laid⟩, read⟩ := ih hr
      exact ⟨⟨fin, at', laid⟩, by simpa using ⟨asRead, read⟩⟩

/-- A captured body lies behind its header, each instruction as it is read (R264). -/
theorem State.capture_laid {s s1 : State} {h : Header} {off : Int} {two : Bool} {body : List BodyInstr}
    (captured : s.capture h off two = .ok (body, s1)) :
    0 < off ∧ (∃ fin, Laid (h.idx + h.len) body fin) ∧ ∀ b ∈ body, b.AsRead := by
  unfold State.capture at captured
  dsimp only at captured
  by_cases forward : 0 < off
  · rw [if_neg (not_not.mpr forward)] at captured
    obtain ⟨_, -, captured⟩ := exists_ok_of_bind captured
    obtain ⟨r, hr, captured⟩ := exists_ok_of_bind captured
    obtain ⟨s3, -, captured⟩ := exists_ok_of_bind captured
    obtain ⟨laid, read⟩ := State.captureFrom_laid hr
    split at captured
    · cases captured
    · split at captured
      · cases captured
        exact ⟨forward, laid, read⟩
      · cases captured
  · rw [if_pos forward] at captured
    obtain ⟨_, none, -⟩ := exists_ok_of_bind captured
    cases none

/-! The text of a body, and the instructions that it gives back (R264, R283). -/

theorem Tbl.find_append {α : Type} (xs ys : Tbl α) (k : Nat) : Tbl.find (xs ++ ys) k = (Tbl.find xs k).or (Tbl.find ys k) := by
  induction xs with
  | nil => rfl
  | cons x xs ih =>
    rw [List.cons_append, Tbl.find, Tbl.find, ih]
    split <;> rfl

/-- Consecutive entries of a table. -/
theorem Tbl.find_consecutive {α : Type} (f : Nat → α) (idx n lo i : Nat) :
    Tbl.find ((upFrom lo n).map (fun k => (idx + k, f k))) i = if idx + lo ≤ i ∧ i < idx + lo + n then some (f (i - idx)) else none := by
  induction n generalizing lo with
  | zero => exact (if_neg (by omega)).symm
  | succ n ih =>
    rw [upFrom, List.map_cons, Tbl.find, ih]
    by_cases first : i = idx + lo
    · rw [if_pos first, if_pos (by omega), first, Nat.add_sub_cancel_left]
    · rw [if_neg first]
      exact if_congr (by omega) rfl rfl

/-- The text of one instruction. -/
theorem find_textOf_cons (b : BodyInstr) (bs : List BodyInstr) (i : Nat) :
    Tbl.find (textOf (b :: bs)) i =
      (if b.idx ≤ i ∧ i < b.idx + b.len then some (b.parcels.getD (i - b.idx) 0) else none).or (Tbl.find (textOf bs) i) := by
  rw [textOf, List.flatMap_cons, Tbl.find_append, Tbl.find_consecutive]
  rfl

/-- In the text of a body the parcels of an instruction stand at its index. -/
theorem find_textOf {body : List BodyInstr} {start fin : Nat} (laid : Laid start body fin) {b : BodyInstr} (hb : b ∈ body) {k : Nat}
    (hk : k < b.len) : Tbl.find (textOf body) (b.idx + k) = some (b.parcels.getD k 0) := by
  induction body generalizing start with
  | nil => cases hb
  | cons x xs ih =>
    rw [find_textOf_cons]
    rcases List.mem_cons.mp hb with rfl | later
    · rw [if_pos (by omega), Nat.add_sub_cancel_left]
      rfl
    · have behind := Laid.start_le_idx laid.2 b later
      rw [if_neg (by have := laid.1; omega), ih laid.2 later]
      rfl

/-- The instruction that a text gives back at an index. -/
def rebuilt (text : Tbl Parcel) (i : Nat) : Option BodyInstr :=
  match Tbl.find text i with
  | some p =>
    let ps := (p :: ((Tbl.find text (i + 1)).toList ++ (Tbl.find text (i + 2)).toList)).take (parcelCount p)
    some { idx := i, len := parcelCount p, parcels := ps, instr := match decode ps with | .ok x => some x | .error _ => none }
  | none => none

theorem rebuilt_idx {text : Tbl Parcel} {i : Nat} {b : BodyInstr} (h : rebuilt text i = some b) : b.idx = i := by
  unfold rebuilt at h
  split at h
  · cases h
    rfl
  · cases h

/-- An instruction of a body is given back as it was read. -/
theorem rebuilt_textOf {body : List BodyInstr} {start fin : Nat} (laid : Laid start body fin) {b : BodyInstr} (hb : b ∈ body)
    (whole : b.Whole) : rebuilt (textOf body) b.idx = some b := by
  obtain ⟨length, count, decodes⟩ := whole
  have at' (k : Nat) (hk : k < b.len) := find_textOf laid hb hk
  obtain ⟨some, few⟩ := parcelCount_pos (b.parcels.getD 0 0)
  have parcels : (b.parcels.getD 0 0 :: ((Tbl.find (textOf body) (b.idx + 1)).toList ++ (Tbl.find (textOf body) (b.idx + 2)).toList)).take
      b.len = b.parcels := by
    match hp : b.parcels, length with
    | [], length => exact absurd length (by rw [List.length_nil]; omega)
    | [p], length => rw [← length]; rfl
    | [p, q], length =>
      rw [at' 1 (by simp [← length]), hp, ← length]
      rfl
    | [p, q, r], length =>
      rw [at' 1 (by simp [← length]), at' 2 (by simp [← length]), hp, ← length]
      rfl
    | _ :: _ :: _ :: _ :: _, length => exact absurd few (by rw [← count, ← length]; simp)
  have first := at' 0 (by omega)
  rw [Nat.add_zero] at first
  unfold rebuilt
  rw [first]
  dsimp only
  rw [← count, parcels, ← decodes]

/-- The instructions that an inner LOOP takes from a text: each behind the one before it, up to its closing IRET. -/
def takeNext (last : Nat) (acc : List BodyInstr × Nat) (b : BodyInstr) : List BodyInstr × Nat :=
  if b.idx = acc.2 ∧ b.idx ≤ last then (acc.1 ++ [b], b.idx + b.len) else acc

/-- The body that an inner LOOP takes from a text. -/
def innerBody (text : Tbl Parcel) (start last : Nat) : List BodyInstr :=
  (((upFrom start (last - start + 3)).filterMap (rebuilt text)).foldl (takeNext last) ([], start)).1

theorem State.enterInner_eq (s : State) (h : Header) :
    s.enterInner h =
      let inner := innerBody s.k.loop.text (h.idx + h.len) h.last
      s.enterLoop s.k.loop.text
        (levelOf h inner (strandSet inner) (reachOf (strandSet inner) inner) (loopCount (s.readOp h.count.1 h.count.2)) s.ctx.preds)
        false := rfl

/-- Instructions that lie one behind another, up to the first behind the closing IRET, are taken one after another. -/
theorem foldl_takeNext {text : Tbl Parcel} {last fin : Nat} (ends : last < fin) {inner : List BodyInstr} {next : Nat}
    (laid : Laid next inner fin) (back : ∀ b ∈ inner, rebuilt text b.idx = some b ∧ b.idx ≤ last ∧ 0 < b.len) (done : List BodyInstr)
    {lo n : Nat} (from' : inner ≠ [] → lo ≤ next) (enough : last < lo + n) :
    (((upFrom lo n).filterMap (rebuilt text)).foldl (takeNext last) (done, next)).1 = done ++ inner := by
  induction n generalizing lo next inner done with
  | zero =>
    cases inner with
    | nil => simp [upFrom]
    | cons b bs =>
      have lower := from' (by simp)
      have upper := (back b (by simp)).2.1
      have := laid.1
      omega
  | succ n ih =>
    rw [upFrom, List.filterMap_cons]
    cases inner with
    | nil =>
      have rest := ih (inner := []) laid (by simp) done (lo := lo + 1) (by simp) (by omega)
      split
      · exact rest
      · next x _ =>
        have past : ¬ (x.idx = next ∧ x.idx ≤ last) := by
          have : next = fin := laid
          omega
        rw [List.foldl_cons, takeNext, if_neg past]
        exact rest
    | cons b bs =>
      obtain ⟨given, upper, long⟩ := back b (by simp)
      obtain ⟨at', behind⟩ := laid
      rcases Nat.lt_or_eq_of_le (from' (by simp)) with before | rfl
      · have rest := ih (inner := b :: bs) ⟨at', behind⟩ back done (lo := lo + 1) (fun _ => before) (by omega)
        split
        · exact rest
        · next x hx =>
          have earlier : ¬ (x.idx = next ∧ x.idx ≤ last) := by
            have := rebuilt_idx hx
            omega
          rw [List.foldl_cons, takeNext, if_neg earlier]
          exact rest
      · rw [at'] at given
        rw [given]
        dsimp only
        rw [List.foldl_cons, takeNext, if_pos ⟨at', upper⟩, at']
        have rest := ih behind (fun x hx => back x (by simp [hx])) (done ++ [b]) (lo := lo + 1) (fun _ => by omega) (by omega)
        rw [rest, List.append_assoc]
        rfl

/-- An inner LOOP takes from the text of a body the part that lies behind it, up to its closing IRET. -/
theorem innerBody_textOf {body before inner after : List BodyInstr} {start fin from' last : Nat} (parts : body = before ++ (inner ++ after))
    (laid : Laid start body fin) (begin : ∀ b ∈ inner, b.Whole) (place : ∃ to', Laid from' inner to' ∧ last < to')
    (upper : ∀ b ∈ inner, b.idx ≤ last) : innerBody (textOf body) from' last = inner := by
  obtain ⟨to', inside, ends⟩ := place
  refine foldl_takeNext ends inside (fun b hb => ⟨?_, upper b hb, ?_⟩) [] (fun _ => le_rfl) (by omega)
  · exact rebuilt_textOf laid (by simp [parts, hb]) (begin b hb)
  · rw [(begin b hb).count]
    exact (parcelCount_pos _).1

/-- A split body is its parts, and the inner one ends with the IRET that the inner header names (R283). -/
theorem splitBody_parts {body : List BodyInstr} {sp : Split} (h : splitBody body = some sp) :
    body = sp.before ++ sp.head :: (sp.body ++ sp.after) ∧ sp.head.header = some sp.inner ∧
      ∃ inside r, sp.body = inside ++ [r] ∧ r.idx = sp.inner.last ∧ ∀ b ∈ inside, b.idx < sp.inner.last := by
  unfold splitBody at h
  extract_lets before at h
  have first : before ++ body.drop before.length = body := List.prefix_iff_eq_append.mp (List.takeWhile_prefix _)
  split at h
  · cases h
  · next head rest hrest =>
    rw [hrest] at first
    split at h
    · cases h
    · next hd header =>
      extract_lets inside at h
      have second : inside ++ rest.drop inside.length = rest := List.prefix_iff_eq_append.mp (List.takeWhile_prefix _)
      have early : ∀ b ∈ inside, b.idx < hd.last := fun b hb => by simpa using List.mem_takeWhile_imp hb
      split at h
      · cases h
      · next r after hafter =>
        rw [hafter] at second
        split_ifs at h with ends
        cases h
        obtain ⟨last, -⟩ := ends
        refine ⟨?_, header, inside, r, rfl, last, early⟩
        simp only [List.append_assoc, List.singleton_append, second, first]

/-- A header stands where its instruction does. -/
theorem BodyInstr.header_place {b : BodyInstr} {hd : Header} (h : b.header = some hd) : hd.idx = b.idx ∧ hd.len = b.len := by
  unfold BodyInstr.header at h
  dsimp only at h
  split at h
  · split_ifs at h
    cases h
    exact ⟨rfl, rfl⟩
  · split_ifs at h
    cases h
    exact ⟨rfl, rfl⟩
  · cases h

/-- The instructions of a level's own part that passes its check are read whole. -/
theorem whole_of_plainBody {body : List BodyInstr} (read : ∀ b ∈ body, b.AsRead) (h : plainBody body = true) : ∀ b ∈ body, b.Whole := by
  intro b hb
  obtain ⟨allowed, -⟩ := Bool.and_eq_true_iff.mp h
  have good : b.instr.any Instr.bodyAllowed = true := List.all_eq_true.mp allowed b hb
  refine read b hb ?_
  cases hi : b.instr with
  | none => rw [hi] at good; cases good
  | some i => rfl

theorem plainBody_of_checkDouble {body : List BodyInstr} {sp : Split} {depth : Nat} {found : BitVec 32 × Nat}
    (h : checkDouble body sp depth = some found) : plainBody sp.body = true := by
  unfold checkDouble at h
  dsimp only at h
  split_ifs at h with passes
  simp only [Bool.and_eq_true] at passes
  tauto

/-- Of a captured and checked two-level body an inner LOOP takes the inner part (R264, R283). -/
theorem innerBody_of_capture {s s1 : State} {h : Header} {off : Int} {body : List BodyInstr} {sp : Split} {found : BitVec 32 × Nat}
    (captured : s.capture h off true = .ok (body, s1)) (splits : splitBody body = some sp)
    (passes : checkDouble body sp h.depth = some found) :
    innerBody (textOf body) (sp.inner.idx + sp.inner.len) sp.inner.last = sp.body := by
  obtain ⟨-, ⟨fin, laid⟩, read⟩ := State.capture_laid captured
  obtain ⟨parts, header, inside, r, hbody, last, early⟩ := splitBody_parts splits
  obtain ⟨idx, len⟩ := BodyInstr.header_place header
  have whole : ∀ b ∈ sp.body, b.Whole :=
    whole_of_plainBody (fun b hb => read b (by simp [parts, hb])) (plainBody_of_checkDouble passes)
  have regroup : body = (sp.before ++ [sp.head]) ++ (sp.body ++ sp.after) := by simpa using parts
  obtain ⟨behindHead, front, back⟩ := laid_append.mp (regroup ▸ laid)
  obtain ⟨to', within, -⟩ := laid_append.mp back
  obtain ⟨_, -, at', behind⟩ := laid_append.mp front
  have start : sp.inner.idx + sp.inner.len = behindHead := by
    rw [idx, len, at']
    exact behind
  have ends : sp.inner.last < to' := by
    obtain ⟨iret, -, at', fin⟩ := laid_append.mp (hbody ▸ within)
    have long : 0 < r.len := by
      rw [(whole r (by simp [hbody])).count]
      exact (parcelCount_pos _).1
    have : iret + r.len = to' := fin
    omega
  refine innerBody_textOf regroup laid whole ⟨to', start ▸ within, ends⟩ fun b hb => ?_
  rcases List.mem_append.mp (hbody ▸ hb) with inner | is
  · exact (early b inner).le
  · rw [List.mem_singleton.mp is, last]

end Sys2Proof.Machine

namespace Sys2Proof.Claims

open Machine

/-- A level whose closing IRET lies behind its header is the level that the header opens. -/
theorem levelOf_headerOf (t s : State) (f : Form) {off : Int} (forward : 0 < off) (body : List BodyInstr) (set : BitVec 32) (reach : Nat) :
    levelOf (headerOf t f off) body set reach (loopCount (s.readOp f.a f.da)) s.ctx.preds =
      newLevel t.ctx.pc s f off (parcelAddr (exitOf body : Nat)) set reach := by
  have last : (((parcelIndex t.ctx.pc : Int) + off).toNat : Int) = (parcelIndex t.ctx.pc : Int) + off := Int.toNat_of_nonneg (by omega)
  unfold levelOf newLevel headerOf loopCount parcelsAfter
  dsimp only
  rw [last]
  rfl

section
variable {s : State} {f : Form} {body : List BodyInstr} {s1 : State} {set : BitVec 32} {reach : Nat}

/-- LOOP of ordinary fetch (R264, R265). -/
theorem loopHeader_captured (hr : runs s f.p f.n) (hp : plain s) (fresh : s.k.loop.running = false ∨ s.k.loop.inner ≠ none)
    (captured : s.capture (headerOf s f f.imm.toInt) f.imm.toInt false = .ok (body, s1))
    (passes : checkSingle body f.d.toNat = some (set, reach)) (idle : s1.k.loop.idle = true) :
    s.loopHeader f =
      entered s1 (textOf body) (newLevel s.ctx.pc s1 f f.imm.toInt (parcelAddr (exitOf body : Nat)) set reach) false := by
  have ordinary : ¬ (s.k.loop.running ∧ s.k.loop.inner.isNone) := by
    rintro ⟨running, none⟩
    rcases fresh with still | some
    · exact Bool.noConfusion (still.symm.trans running)
    · exact some (Option.isNone_iff_eq_none.mp none)
  rw [State.loopHeader, issueRaw_metaC hr hp, if_neg ordinary, ← levelOf_headerOf s s1 f (State.capture_laid captured).1]
  unfold headerOf at captured
  simp only [captured, passes, idle, bind, Except.bind]
  rfl

/-- LOOPO (R264, R265, R283). -/
theorem loopoHeader_captured (hr : runs s f.p f.n) (hp : plain s) {sp : Split}
    (captured : s.capture (headerOf s f f.imm.toInt) f.imm.toInt true = .ok (body, s1)) (splits : splitBody body = some sp)
    (passes : checkDouble body sp f.d.toNat = some (set, reach)) (idle : s1.k.loop.idle = true) :
    s.loopoHeader f =
      entered s1 (textOf body) (newLevel s.ctx.pc s1 f f.imm.toInt (parcelAddr (exitOf body : Nat)) set reach) true := by
  rw [State.loopoHeader, issueRaw_metaC hr hp, ← levelOf_headerOf s s1 f (State.capture_laid captured).1]
  unfold headerOf at captured
  simp only [captured, splits, passes, idle, bind, Except.bind]
  rfl

/-- LOOP of a captured body (R264, R283). -/
theorem loopHeader_inner (hr : runs s f.p f.n) (hp : plain s) (running : s.k.loop.running = true) (none : s.k.loop.inner = none)
    {s0 : State} {h : Header} {off : Int} {sp : Split} {found : BitVec 32 × Nat} (captured : s0.capture h off true = .ok (body, s1))
    (splits : splitBody body = some sp) (passes : checkDouble body sp h.depth = some found) (text : s.k.loop.text = textOf body)
    (inner : sp.inner = headerOf s f f.imm.toInt) (forward : 0 < f.imm.toInt) :
    s.loopHeader f = entered s (textOf body) (newLevel s.ctx.pc s f f.imm.toInt (parcelAddr (exitOf sp.body : Nat))
      (strandSet sp.body) (reachOf (strandSet sp.body) sp.body)) false := by
  have taken := innerBody_of_capture captured splits passes
  have captured : s.k.loop.running ∧ s.k.loop.inner.isNone := ⟨running, Option.isNone_iff_eq_none.mpr none⟩
  rw [State.loopHeader, issueRaw_metaC hr hp, if_pos captured, ← levelOf_headerOf s s f forward]
  rw [inner] at taken
  unfold headerOf at taken ⊢
  simp only [State.enterInner_eq, text, taken]
  rfl

end

/-- An offset is the same number in the common form. -/
theorem heading_cases {i : Instr} {f : Form} {two : Bool} {off : Int} (h : heading i = some (f, two, off)) :
    off = f.imm.toInt ∧ ∀ s, exec i s = .next (if two then s.loopoHeader f else s.loopHeader f) := by
  unfold heading at h
  split at h
  all_goals cases h
  all_goals exact ⟨(BitVec.toInt_signExtend_of_le (by decide)).symm, fun _ => rfl⟩

/-- Settles O28: what a capture reads lies behind its header, and its text gives the inner part back. -/
theorem loopHeaders : Obligations.LoopHeaders := by
  unfold Obligations.LoopHeaders
  intro i f two off s names hr hp
  obtain ⟨rfl, execs⟩ := heading_cases names
  refine ⟨fun body s1 fresh captured noInner noOuter => ?_, ?_⟩
  · have idle : s1.k.loop.idle = true := by simp [Loop.idle, noInner, noOuter]
    refine ⟨fun set reach single passes => ?_, fun sp set reach double splits passes => ?_⟩
    · subst single
      rw [execs]
      exact congrArg _ (loopHeader_captured hr hp (fresh.resolve_left Bool.false_ne_true) captured passes idle)
    · subst double
      rw [execs]
      exact congrArg _ (loopoHeader_captured hr hp captured splits passes idle)
  · intro s0 s1 h far body sp found single running none captured splits passes text inner forward
    subst single
    rw [execs]
    exact congrArg _ (loopHeader_inner hr hp running none captured splits passes text inner forward)

end Sys2Proof.Claims

/-! IRET, BREAKC and BEADQ (`Obligations.LoopInstructions`). -/

namespace Sys2Proof.Claims

open Machine

section
variable {s : State}

theorem onCurrent_eq_onLevel (s : State) (f : LoopLevel → LoopLevel) : s.onLevel f = onLevel s f := by
  unfold State.onLevel Loop.onCurrent onLevel
  generalize s.k.loop = l
  obtain ⟨_, _, inner, _⟩ := l
  cases inner <;> rfl

/-- IRET (R290). -/
theorem iret_eq (h15 : s.ctx.slot = 15) (hw : s.k.window = none) (len : Nat) :
    s.iret len = if s.k.loop.running then retired (onLevel s (fun l => { l with phase := .complete })) len else s.stopped .illegal := by
  rw [State.iret, issueRaw_of_runs (.inr fun _ => hw) (.inr h15) (by simp [runs]) rfl, ← onCurrent_eq_onLevel]
  split_ifs <;> rfl

/-- BREAKC (R282). -/
theorem breakc_eq {f : Form} (hr : runs s f.p f.n) (hp : plain s) :
    s.breakc f = if s.k.loop.running then
        retired (if pr s f.d.toNat != f.opt.getLsbD 0 then onLevel s (fun l => { l with phase := .complete, broke := true }) else s) f.len
      else s.stopped .illegal := by
  rw [State.breakc, issueRaw_metaC hr hp, ← onCurrent_eq_onLevel, ← pred_eq_pr]
  split_ifs <;> rfl

end

/-- The two ways to say which instructions owe a strand its bead. -/
theorem owesBead_eq_owed (s : State) (g : Nat) : s.owesBead g = owed s g := Bool.or_comm _ _

theorem beadWord_eq (s : State) (g d : Nat) : s.beadWord g d = beadWord s g d := by
  have word (k : Int) (state : Nat) : BitVec.ofNat 64 (wrap k 32 * 2 ^ 32 + state) = BitVec.ofInt 64 (k % 2 ^ 32 * 2 ^ 32 + state) := by
    have wrapped : (wrap k 32 : Int) = k % 2 ^ 32 := Int.toNat_of_nonneg (Int.emod_nonneg k (by decide))
    rw [← BitVec.ofInt_natCast, Nat.cast_add, Nat.cast_mul, wrapped]
    rfl
  unfold State.beadWord beadWord
  dsimp only
  rw [owesBead_eq_owed]
  cases howner : s.k.loop.owner g with
  | none => exact word _ _
  | some lv =>
    refine (word _ _).trans ?_
    dsimp only
    have bead : ¬ d ≤ lv.iter → s.bead g d = (s.frozen g).hist.getD (d - 1) {} := fun past => by
      rw [State.bead, howner]
      exact if_neg (by omega)
    by_cases own : d ≤ lv.iter
    · rw [if_pos (by omega), if_pos own]
      simp only [Option.isNone_iff_eq_none]
    · rw [if_neg (by omega), if_neg own, bead own]

/-- BEADQ (R291). -/
theorem exec_beadq {s : State} {f : G64} (hr : runs s f.p f.n) :
    exec (.beadq f) s = .next (retired (put s f.d (beadWord s (f.a.toNat - 32) f.da.toNat)) 2) := by
  rw [← beadWord_eq, ← writeOp_eq_put]
  exact congrArg _ (issue_of_runs (m := metaS (formG f) true) (.inl rfl) (.inl rfl) hr rfl)

/-- Settles O29: each instruction is its one equation, whose branches are the clauses. -/
theorem loopInstructions : Obligations.LoopInstructions := by
  unfold Obligations.LoopInstructions
  have outside {s : State} (hh : hasHandler s) : ¬ s.k.loop.running = true := by
    obtain ⟨-, -, -, -, -, idle, -⟩ := hh
    exact Bool.eq_false_iff.mp idle
  refine ⟨fun s h15 hw running => ⟨?_, ?_⟩, fun s hp hh => ⟨?_, ?_⟩, fun f s hr hp running => ?_, fun f s hr hp hh => ?_,
    fun f s _ hr => exec_beadq hr⟩
  · exact congrArg Host.Outcome.next ((iret_eq h15 hw 1).trans (if_pos running))
  · exact congrArg Host.Outcome.next ((iret_eq h15 hw 2).trans (if_pos running))
  · exact congrArg Host.Outcome.next (((iret_eq hp.1 hp.2 1).trans (if_neg (outside hh))).trans (stopped_of_handler hh 1 0 0 (by decide)))
  · exact congrArg Host.Outcome.next (((iret_eq hp.1 hp.2 2).trans (if_neg (outside hh))).trans (stopped_of_handler hh 1 0 0 (by decide)))
  · exact congrArg Host.Outcome.next ((breakc_eq (f := formG f) hr hp).trans (if_pos running))
  · exact congrArg Host.Outcome.next (((breakc_eq (f := formG f) hr hp).trans (if_neg (outside hh))).trans
      (stopped_of_handler hh 1 0 0 (by decide)))

end Sys2Proof.Claims

/-! The start and the retirement of an iteration (`Obligations.Iterations`). First the strands of a level's set. -/

namespace Sys2Proof.Machine

theorem getD_setIfInBounds {α : Type} {n : Nat} (v : Vector α n) (i j : Nat) (x d : α) (hj : j < n) :
    (v.setIfInBounds i x).getD j d = if i = j then x else v.getD j d := by
  have read (w : Vector α n) : w.getD j d = w[j] := by simp [Vector.getD, hj]
  rw [read, read, Vector.getElem_setIfInBounds]

/-- The strands of a set changed one after another. -/
def State.changeStrands (s : State) (set : BitVec 32) (f : Strand → Strand) (gs : List Nat) : State :=
  gs.foldl (fun acc g => if set.getLsbD g then acc.setStrand g (f (acc.strand g)) else acc) s

/-- Each strand listed that is of the set is changed once, and nothing else. -/
theorem State.changeStrands_spec (set : BitVec 32) (f : Strand → Strand) {gs : List Nat} (once : gs.Nodup) (s : State) :
    ∃ v, s.changeStrands set f gs = { s with k := { s.k with strands := v } } ∧
      ∀ g, g < 32 → v.getD g {} = if g ∈ gs ∧ set.getLsbD g then f (s.k.strands.getD g {}) else s.k.strands.getD g {} := by
  induction gs generalizing s with
  | nil => exact ⟨s.k.strands, rfl, fun g _ => (if_neg (by simp)).symm⟩
  | cons x xs ih =>
    obtain ⟨new, once⟩ := List.nodup_cons.mp once
    by_cases inSet : set.getLsbD x
    · obtain ⟨v, rest, reads⟩ := ih once (s.setStrand x (f (s.strand x)))
      refine ⟨v, ?_, fun g hg => ?_⟩
      · rw [State.changeStrands, List.foldl_cons, if_pos inSet]
        exact rest
      · rw [reads g hg, State.setStrand_k_strands, getD_setIfInBounds _ _ _ _ _ hg]
        by_cases same : x = g
        · subst same
          simp [new, inSet, State.strand]
        · simp [same, Ne.symm same]
    · obtain ⟨v, rest, reads⟩ := ih once s
      refine ⟨v, ?_, fun g hg => ?_⟩
      · rw [State.changeStrands, List.foldl_cons, if_neg inSet]
        exact rest
      · rw [reads g hg]
        refine if_congr ?_ rfl rfl
        rw [List.mem_cons]
        constructor
        · exact fun ⟨h, set⟩ => ⟨.inr h, set⟩
        · rintro ⟨rfl | h, set⟩
          · exact absurd set inSet
          · exact ⟨h, set⟩

/-- Every strand of a set changed. -/
theorem State.changeStrands_all (s : State) (set : BitVec 32) (f : Strand → Strand) :
    ∃ v, s.changeStrands set f (upFrom 0 32) = { s with k := { s.k with strands := v } } ∧
      ∀ g, g < 32 → v.getD g {} = if set.getLsbD g then f (s.k.strands.getD g {}) else s.k.strands.getD g {} := by
  have once : (upFrom 0 32).Nodup := by decide
  obtain ⟨v, changed, reads⟩ := s.changeStrands_spec set f once
  refine ⟨v, changed, fun g hg => ?_⟩
  have listed : g ∈ upFrom 0 32 := mem_upFrom.mpr ⟨g.zero_le, by omega⟩
  rw [reads g hg]
  exact if_congr (and_iff_right listed) rfl rfl

/-- The beads of an iteration that retires join the histories of its set. -/
theorem State.pushBeads_eq (s : State) (lv : LoopLevel) : s.pushBeads lv = s.changeStrands lv.set Claims.grown (upFrom 0 32) := rfl

theorem Strand.cut_eq_trimmed (st : Strand) (reach : Nat) : st.cut reach = Claims.trimmed st reach := rfl

/-- A level of which an iteration has retired cuts the strands of its set. -/
theorem State.endStrands_eq (s : State) {lv : LoopLevel} (h : lv.retiredAny = true) :
    s.endStrands lv = s.changeStrands lv.set (fun st => Claims.trimmed st lv.reach) (upFrom 0 32) := by
  unfold State.endStrands
  rw [h]
  rfl

end Sys2Proof.Machine

namespace Sys2Proof.Claims

open Machine

section
variable {s : State} {lv : LoopLevel}

/-- The inner level stands at a phase, and the loop is not suspended. -/
theorem loopAt_inner (h15 : s.ctx.slot = 15) (inner : s.k.loop.inner = some lv) (going : s.k.loop.susp = false) {ph : LoopPhase}
    (phase : lv.phase = ph) : s.loopAt ph = true := by
  simp [State.loopAt, Loop.running, Loop.current, h15, inner, going, phase]

/-- An iteration's start (R270, R273). -/
theorem exec_iterationStart (h15 : s.ctx.slot = 15) (inner : s.k.loop.inner = some lv) (going : s.k.loop.susp = false)
    (phase : lv.phase = .starting) :
    ∃ v, exec .iterationStart s = .next { s with
        ctx := { s.ctx with preds := lv.entryPreds, pc := lv.bodyPc }
        k := { s.k with strands := v, loop := { s.k.loop with inner := some { lv with phase := .running, begun := s.ctx.retired } } } } ∧
      ∀ g, g < 32 → v.getD g {} = if lv.set.getLsbD g then { s.k.strands.getD g {} with cur := none } else s.k.strands.getD g {} := by
  obtain ⟨v, changed, reads⟩ := s.changeStrands_all lv.set (fun st => { st with cur := none })
  refine ⟨v, ?_, reads⟩
  refine congrArg Host.Outcome.next ((if_pos (loopAt_inner h15 inner going phase)).trans ?_)
  have current : s.k.loop.current = some lv := by rw [Loop.current, inner]; rfl
  rw [State.startIteration, current]
  have starts : (upFrom 0 32).foldl (fun acc g =>
      if lv.set.getLsbD g then acc.setStrand g { acc.strand g with cur := none } else acc) s = { s with k := { s.k with strands := v } } :=
    changed
  dsimp only
  rw [starts]
  simp only [State.onLevel, Loop.onCurrent, inner]

/-- A loop of one level has no outer one to change. -/
theorem outer_unchanged {l : Loop} (single : l.outer = none) (f : LoopLevel → LoopLevel) : { l with outer := l.outer.map f } = l := by
  cases l
  subst single
  rfl

theorem countInner_single {s : State} (single : s.k.loop.outer = none) (lv : LoopLevel) : s.countInner lv = s := by
  unfold State.countInner
  dsimp only
  rw [outer_unchanged single, ite_self]

theorem pushBeads_k_loop (s : State) (lv : LoopLevel) : (s.pushBeads lv).k.loop = s.k.loop := by
  obtain ⟨v, pushed, -⟩ := s.changeStrands_all lv.set grown
  rw [State.pushBeads_eq, pushed]

/-- What strands are owed depends on the queue and on what is unreleased only. -/
theorem owed_congr {s t : State} (mvuq : t.k.mvuq = s.k.mvuq) (unreleased : t.k.unreleased = s.k.unreleased) (g : Nat) :
    owed t g = owed s g := by
  unfold owed Kern.owedDests Kern.posted
  rw [mvuq, unreleased]

/-- The level whose iteration retires, as its next iteration finds it. -/
def nextLevel (s : State) (lv : LoopLevel) : LoopLevel :=
  { lv with held := [], retiredAny := true, lastPreds := s.ctx.preds, iter := lv.iter + 1 }

/-- The stores of the level's iteration have committed. -/
def committed (s : State) (lv : LoopLevel) : State :=
  { s with k := { s.k with loop := { s.k.loop with inner := some { lv with held := [] } } } }

variable {s1 : State}

/-- The retirement of an iteration of a loop of one level whose stores all commit and whose beads are all there (R271, R279). -/
theorem retireIteration_single (inner : s.k.loop.inner = some lv) (single : s.k.loop.outer = none) (commits : s.commitHeld lv.held = ([], s1))
    (paid : ∀ g, lv.set.getLsbD g = true → owed s g = false) (loop : s1.k.loop = s.k.loop) (mvuq : s1.k.mvuq = s.k.mvuq)
    (unreleased : s1.k.unreleased = s.k.unreleased) :
    s.retireIteration =
      if (lv.broke = true ∨ lv.count ≤ lv.iter + 1) ∧ s.k.unreleased ≠ [] then committed s1 lv
      else if lv.broke = true ∨ lv.count ≤ lv.iter + 1 then
        (((committed s1 lv).pushBeads lv).markRetired).endLevel (nextLevel s1 lv)
      else onLevel (((committed s1 lv).pushBeads lv).markRetired) (fun _ => { nextLevel s1 lv with phase := .starting }) := by
  have current : s.k.loop.current = some lv := by rw [Loop.current, inner]; rfl
  have inner1 : s1.k.loop.inner = some lv := by rw [loop, inner]
  have single1 : s1.k.loop.outer = none := by rw [loop, single]
  have kept (done : List HeldByte) : s1.dropOlder done = s1 := by
    unfold State.dropOlder
    dsimp only
    rw [outer_unchanged single1]
  have commit : s1.onLevel (fun l => { l with held := [] }) = committed s1 lv := by
    unfold State.onLevel Loop.onCurrent committed
    rw [inner1]
  have owes : (committed s1 lv).beadOwed lv = false := by
    refine List.any_eq_false.mpr fun g _ => ?_
    rw [Bool.and_eq_true, owesBead_eq_owed, owed_congr (s := s) (t := committed s1 lv) mvuq unreleased]
    exact fun ⟨set, owed⟩ => Bool.noConfusion ((paid g set).symm.trans owed)
  have counts : ((committed s1 lv).pushBeads lv).markRetired.countInner lv = ((committed s1 lv).pushBeads lv).markRetired := by
    refine countInner_single ?_ lv
    exact (congrArg Loop.outer (pushBeads_k_loop (committed s1 lv) lv)).trans single1
  have last : (committed s1 lv).k.loop.isLast = true := by simp [committed, Loop.isLast, single1]
  have held : (committed s1 lv).k.unreleased = s.k.unreleased := unreleased
  unfold State.retireIteration
  rw [current]
  dsimp only
  rw [commits]
  simp only [inner, Option.isSome_some, if_true, kept, commit, owes, counts, last, held, ne_eq, not_true_eq_false, false_or,
    Bool.false_eq_true, if_false, Bool.or_eq_true, decide_eq_true_iff, true_and, onCurrent_eq_onLevel]
  rfl

/-- What an inner level has issued is that of a retired iteration (R279, R287). -/
theorem markRetired_inner {l : LoopLevel} (inner : s.k.loop.inner = some l) :
    s.markRetired = { s with k := { s.k with unreleased := issuedBefore s } } := by
  have marks : (fun u : Unreleased => if s.k.loop.inner.isNone then { u with outer := true, retired := true }
      else if u.outer then u else { u with retired := true }) = fun u => if u.outer = false then { u with retired := true } else u := by
    funext u
    rw [inner, if_neg (by simp)]
    cases u.outer <;> rfl
  unfold State.markRetired issuedBefore
  dsimp only
  rw [marks]

/-- The iteration's beads and what it has issued, as they stand behind it. -/
theorem retired_beads (unreleased : s1.k.unreleased = s.k.unreleased) :
    ∃ v, ((committed s1 lv).pushBeads lv).markRetired =
        { committed s1 lv with k := { (committed s1 lv).k with strands := v, unreleased := issuedBefore s } } ∧
      ∀ g, g < 32 → v.getD g {} = if lv.set.getLsbD g then grown (s1.k.strands.getD g {}) else s1.k.strands.getD g {} := by
  obtain ⟨v, pushed, reads⟩ := (committed s1 lv).changeStrands_all lv.set grown
  refine ⟨v, ?_, reads⟩
  have inner : ((committed s1 lv).pushBeads lv).k.loop.inner = some { lv with held := [] } := by rw [pushBeads_k_loop]; rfl
  rw [markRetired_inner inner, State.pushBeads_eq, pushed]
  unfold issuedBefore
  rw [← unreleased]
  rfl

/-- The end of a loop of one level (R272, R273). -/
theorem endLevel_single {t : State} {l lv1 : LoopLevel} (inner : t.k.loop.inner = some l) (single : t.k.loop.outer = none)
    (retired : lv1.retiredAny = true) :
    ∃ v, t.endLevel lv1 = { t with
        ctx := { t.ctx with pc := lv1.exitPc, preds := lv1.lastPreds }
        k := { t.k with
          strands := v
          loop := { t.k.loop with inner := none, text := [] }
          mvuq := t.k.mvuq.map (fun e => { e with fromLoop := false }) } } ∧
      ∀ g, g < 32 → v.getD g {} = if lv1.set.getLsbD g then trimmed (t.k.strands.getD g {}) lv1.reach else t.k.strands.getD g {} := by
  obtain ⟨v, ended, reads⟩ := t.changeStrands_all lv1.set (fun st => trimmed st lv1.reach)
  refine ⟨v, ?_, reads⟩
  unfold State.endLevel LoopLevel.preds
  rw [State.endStrands_eq t retired, ended]
  dsimp only
  rw [inner, single, retired]
  rfl

end

/-- Settles O30: a fold over the strands of the set, and the branches of the retirement. -/
theorem iterations : Obligations.Iterations := by
  unfold Obligations.Iterations
  refine ⟨fun s lv h15 inner going phase => ?_, ?_⟩
  · obtain ⟨v, starts, reads⟩ := exec_iterationStart h15 inner going phase
    exact ⟨_, starts, reads, rfl⟩
  · intro s s1 lv h15 inner single going phase commits paid loop mvuq unreleased lv1
    have retires : exec .iterationRetire s = .next s.retireIteration := congrArg _ (if_pos (loopAt_inner h15 inner going phase))
    rw [retires, retireIteration_single inner single commits paid loop mvuq unreleased]
    obtain ⟨v, beads, reads⟩ := retired_beads (lv := lv) unreleased
    rw [beads]
    refine ⟨fun going more => ?_, fun ends held => ?_, fun ends released => ?_⟩
    · have continues : ¬ (lv.broke = true ∨ lv.count ≤ lv.iter + 1) := by
        rw [going]
        simp [more]
      rw [if_neg fun both => continues both.1, if_neg continues]
      exact ⟨_, rfl, reads, rfl⟩
    · rw [if_pos ⟨ends, held⟩]
      rfl
    · have none : issuedBefore s = s1.k.unreleased := by
        rw [unreleased, issuedBefore, released]
        rfl
      rw [if_neg fun both => both.2 released, if_pos ends, none]
      have single1 : s1.k.loop.outer = .none := by rw [loop, single]
      obtain ⟨w, ended, cut⟩ := endLevel_single (lv1 := nextLevel s1 lv)
        (t := { committed s1 lv with k := { (committed s1 lv).k with strands := v, unreleased := s1.k.unreleased } }) rfl single1 rfl
      refine ⟨_, congrArg _ ended, fun g hg => (cut g hg).trans ?_, rfl⟩
      change (if lv.set.getLsbD g then trimmed (v.getD g {}) lv.reach else v.getD g {}) = _
      rw [reads g hg]
      split_ifs <;> rfl

end Sys2Proof.Claims

/-! A stopped channel with work held for room in it (`Obligations.EngineEvents`). -/

namespace Sys2Proof.Claims

open Machine

/-- A copy of one dword. -/
def oneCopy : Copy :=
  { pc := 0x1000, seq := 1, dstId := 1, dst := 0, src := 0, links := [], displaced := false, agent := localBase.agent }

/-- Channel 0 is stopped and full, and a fifth copy, which a loop body has issued, is held for room in it (R279, R346). -/
def fullChannel : State :=
  { localBase with
    k := { localBase.k with
      chans := localBase.k.chans.setIfInBounds 0 { queue := [oneCopy, oneCopy, oneCopy, oneCopy], stopped := true }
      unreleased := [{ work := .copy 0 oneCopy, outer := false }] } }

/-- The copy that the channel discards makes room, and the held one is released. -/
theorem fullChannel_releases : ∃ t, exec .copyStart fullChannel = .next t ∧ t.k.unreleased = [] :=
  ⟨_, rfl, by decide⟩

/-- Refutes O50: a stopped channel that discards its oldest copy has room again, so that a copy held for that room is released at
once (R279), where the statement has nothing change but the channel. -/
theorem not_engineEvents : ¬ Obligations.EngineEvents := by
  unfold Obligations.EngineEvents
  rintro ⟨copies, -⟩
  obtain ⟨discards, -⟩ := copies oneCopy [oneCopy, oneCopy, oneCopy] fullChannel (by unfold here; decide) (by decide) rfl
  have stated := discards rfl
  obtain ⟨t, ht, released⟩ := fullChannel_releases
  have same := Host.Outcome.next.inj (stated.symm.trans ht)
  have held : t.k.unreleased = fullChannel.k.unreleased := (congrArg (fun u => u.k.unreleased) same).symm
  rw [released] at held
  cases held

end Sys2Proof.Claims

/-! Arbiters, decision points, chunks and the retirement of entries (`Obligations.QuadEvents`). -/

namespace Sys2Proof.Claims

open Machine

/-- The first number from `lo` on that passes a test. -/
theorem find?_upFrom_first {p : Nat → Bool} {n : Nat} (hn : p n = true) {lo len : Nat} (hlo : lo ≤ n) (hlen : n < lo + len)
    (before : ∀ m, lo ≤ m → m < n → p m = false) : (upFrom lo len).find? p = some n := by
  induction len generalizing lo with
  | zero => omega
  | succ len ih =>
    rcases Nat.eq_or_lt_of_le hlo with rfl | later
    · exact List.find?_cons_of_pos hn
    · rw [upFrom, List.find?_cons_of_neg (Bool.eq_false_iff.mp (before lo le_rfl later))]
      exact ih later (by omega) fun m hm => before m (by omega)

section
variable {s : State}

/-! Arbiters (R296). -/

theorem exec_arbiterDecision (shared : s.cmd.unit % 4 < 3) : exec .arbiterDecision s = .next (s.decideArbiter s.cmd.unit) :=
  congrArg _ (if_pos shared)

/-- A grant whose core still wants the resource, and whose quantum is not over, stands. -/
theorem decideArbiter_granted {key p : Nat} (grant : (s.arbiter key).grant = some p) (wants : s.wants (key / 4 * 4 + p) (key % 4) = true)
    (inQuantum : (s.kernOf (key / 4 * 4 + p)).quantumDue (key % 4) = false) : s.decideArbiter key = s := by
  rw [State.decideArbiter, grant]
  simp [wants, inQuantum]

/-- An idle arbiter goes round from the core behind the last one granted, while none of the quad is to stop. -/
theorem grantNext_inTurn {key p n : Nat} (last : (s.arbiter key).last = some p) (going : ∀ q, q < 4 → s.stopping (key / 4 * 4 + q) = false)
    (from' : 1 ≤ n) (to' : n ≤ 4) (wants : s.wants (key / 4 * 4 + (p + n) % 4) (key % 4) = true)
    (before : ∀ k, 1 ≤ k → k < n → s.wants (key / 4 * 4 + (p + k) % 4) (key % 4) = false) :
    s.grantNext key = s.setArbiter key { last := some ((p + n) % 4), grant := some ((p + n) % 4) } := by
  have order : (s.arbiter key).order = (upFrom (p + 1) 4).map (fun q => q % 4) := by rw [Arbiter.order, last]
  have none : (s.arbiter key).order.find? (fun q => s.stopping (key / 4 * 4 + q) && s.wants (key / 4 * 4 + q) (key % 4)) = none := by
    rw [order, List.find?_eq_none]
    intro q hq
    obtain ⟨m, -, rfl⟩ := List.mem_map.mp hq
    rw [going _ (Nat.mod_lt m (by decide))]
    simp
  have first : (s.arbiter key).order.find? (fun q => s.wants (key / 4 * 4 + q) (key % 4)) = some ((p + n) % 4) := by
    rw [order, List.find?_map]
    have found : (upFrom (p + 1) 4).find? ((fun q => s.wants (key / 4 * 4 + q) (key % 4)) ∘ fun q => q % 4) = some (p + n) := by
      refine find?_upFrom_first (n := p + n) wants (by omega) (by omega) fun m hm hn => ?_
      have turn := before (m - p) (by omega) (by omega)
      rwa [Nat.add_sub_cancel' (by omega)] at turn
    rw [found]
    rfl
  rw [State.grantNext]
  rw [none, first]
  rfl

/-! Decision points (R318, R319). -/

variable {e : Entry} {rest : List Entry}

/-- The oldest entry that has a decision point has come to it. -/
theorem atDecision_oldest (hq : queued s e rest) (guard : e.guard = true) (undecided : e.decided = false) (waiting : e.stage = .waiting)
    (decides : hasDecision e.instr = true) : s.k.mvuq.find? (fun x => s.k.atDecision x) = some e := by
  have first : s.k.before e = [] := by simp [Kern.before, hq.1]
  have here : s.k.atDecision e = true := by
    unfold Kern.atDecision
    rw [decides, guard, undecided, waiting, first]
    cases hi : e.instr with
    | mma | scout | mmak => rfl
    | _ => rw [hi] at decides; cases decides
  rw [hq.1, List.find?_cons_of_pos here]

/-- The decision point of the oldest entry changes that entry. -/
theorem exec_decisionPoint (hhere : here s) (hq : queued s e rest) {x : Entry} (decided : s.decidePoint = s.setEntry x)
    (order : x.order = e.order) : exec .mmaDecisionPoint s = .next { s with k := { s.k with mvuq := x :: rest } } := by
  change Host.Outcome.next (s.atCore s.cmd.core State.decidePoint) = _
  rw [hhere.1, State.atCore_self, decided, setEntry_oldest hq order]

/-! Chunks (R296, R297, R305). -/

/-- A product that is executing. -/
structure Executing (s : State) (e : Entry) (rest : List Entry) : Prop where
  queue : queued s e rest
  product : isProduct e.instr
  started : e.stage = .started
  array : served s (some 0)
  going : Claims.free s

theorem Executing.running (h : Executing s e rest) : s.k.running 0 = some e :=
  running_of_started h.queue h.started (resource_of_isProduct h.product)

theorem Executing.granted (h : Executing s e rest) : s.granted 0 = true := by
  have array := h.array
  rw [← resource_of_isProduct h.product] at array
  simpa [resourceOf_of_some (resource_of_isProduct h.product)] using granted_of_served array

/-- Nothing but the Bezel is written by a chunk. -/
theorem applyChunk_bezel (s half : State) (e : Entry) (p : MatOps) (c : Nat) (keep : Nat → Bool) :
    ∃ b, (s.applyChunk half e p c keep).1 = { s with k := { s.k with bezel := b } } := by
  refine List.foldlRecOn (motive := fun acc : State × Word => ∃ b, acc.1 = { s with k := { s.k with bezel := b } }) _ _ ⟨_, rfl⟩ ?_
  rintro ⟨t, fl⟩ ⟨b, rfl⟩ x -
  dsimp only
  split
  · exact ⟨_, rfl⟩
  · exact ⟨_, rfl⟩

/-- The product as the promotion of a chunk leaves it. -/
def promoted (e : Entry) (cs : List Nat) (flags : Word) : Entry :=
  { e with
    todo := cs
    chunk := cs.headD 0
    left := 0
    taken := []
    stage := if cs.isEmpty then .finished else .started
    result := { e.result with flags := flags } }

/-- The promotion of a chunk (R305). -/
theorem finishChunk_eq (hq : queued s e rest) (p : MatOps) (keep : Nat → Nat → Bool) (c : Nat) (cs : List Nat) :
    ∃ b ring flags, s.finishChunk e p keep c cs =
      State.endQuantum { s with k := { s.k with bezel := b, ring := ring, mvuq := promoted e cs flags :: rest } } 0 := by
  obtain ⟨b, applied⟩ := applyChunk_bezel (s.chunkView e c []) (s.chunkView e c e.taken.flatten) e p c (keep c)
  unfold State.finishChunk
  dsimp only
  generalize State.applyChunk _ _ e p c (keep c) = r at applied ⊢
  obtain ⟨t, flags⟩ := r
  subst applied
  refine ⟨b, s.k.ring.filter (fun m => !(m.seq == e.seq && m.chunk == c)), e.result.flags ||| flags,
    congrArg (State.endQuantum · 0) ?_⟩
  exact setEntry_oldest (s := { s with k := { s.k with bezel := b, ring := s.k.ring.filter (fun m => !(m.seq == e.seq && m.chunk == c)) } })
    hq (x := promoted e cs (e.result.flags ||| flags)) rfl

theorem exec_chunkPromotion (hhere : here s) (h : Executing s e rest) {c : Nat} {cs : List Nat} (todo : e.todo = c :: cs)
    (inQuantum : s.k.quantumDue 0 = false) :
    ∃ b ring flags, exec .chunkPromotion s = .next
      (State.endQuantum { s with k := { s.k with bezel := b, ring := ring, mvuq := promoted e cs flags :: rest } } 0) := by
  obtain ⟨⟨p, keep⟩, product⟩ := product_of_isProduct h.product
  obtain ⟨b, ring, flags, finished⟩ := finishChunk_eq h.queue p keep c cs
  refine ⟨b, ring, flags, ?_⟩
  rw [← finished]
  change Host.Outcome.next (s.atCore s.cmd.core State.promoteChunk) = _
  have goes : ¬ (¬ s.granted 0 ∨ (s.stopping s.coreNo ∧ ¬ e.midway (s.hasArray s.coreNo)) ∨ s.k.quantumDue 0) := by
    simp [h.granted, inQuantum, show s.stopping s.coreNo = false from h.going]
  rw [hhere.1, State.atCore_self, State.promoteChunk, h.running]
  dsimp only
  rw [if_neg goes, product, todo]

/-- Operands of 16 bits (R297). -/
theorem wide_of_size {p : MatOps} (h : size (tFmt p.a) = 2) : p.wide = true := by
  rw [MatOps.wide, tyBytes_eq, h]
  rfl

/-- The first quantum of a chunk of 16-bit operands takes in half of them (R297). -/
theorem exec_firstHalf (h : Executing s e rest) {p : MatOps} {keep : Nat → Nat → Bool} (product : e.product = some (p, keep))
    (wide : p.wide = true) (fresh : e.left = 0) (todo : e.todo ≠ []) (hunit : s.cmd.unit = arbiterOf s 0) :
    ∃ taken, exec .arbiterDecision s = .next (State.grantNext
      (State.endQuantum { s with k := { s.k with mvuq := { e with left := 1, taken := taken } :: rest } } 0) (arbiterOf s 0)) := by
  obtain ⟨c, cs, htodo⟩ := List.exists_cons_of_ne_nil todo
  have base : arbiterOf s 0 / 4 * 4 + s.coreNo % 4 = s.coreNo := by unfold arbiterOf; omega
  have number : arbiterOf s 0 % 4 = 0 := by unfold arbiterOf; omega
  have grant : (s.arbiter (arbiterOf s 0)).grant = some (s.coreNo % 4) := h.array 0 rfl
  have wants : s.wants s.coreNo 0 = true := by
    simp [State.wants, State.kernOf, Kern.wants, h.running, show s.stopping s.coreNo = false from h.going]
  have due : (s.kernOf s.coreNo).quantumDue 0 = true := by
    simp [State.kernOf, Kern.quantumDue, h.running, product, wide, fresh, htodo]
  have half : s.quantum 0 = s.takeHalf e p keep c := by
    rw [State.quantum, h.running]
    dsimp only
    rw [product, htodo]
    simp [wide, fresh]
  rw [exec_arbiterDecision (by rw [hunit, number]; decide), hunit, State.decideArbiter, grant]
  simp only [base, number, wants, due, State.atCore_self, not_true_eq_false, if_false, if_true, half]
  unfold State.takeHalf
  dsimp only
  exact ⟨_, congrArg (fun t : State => Host.Outcome.next ((t.endQuantum 0).grantNext (arbiterOf s 0))) (setEntry_oldest h.queue rfl)⟩

/-! Retirement (R295, R419). -/

theorem passDest_eq_passed (d : BitVec 6) : s.passDest d = passed s d := by
  unfold State.passDest passed
  split
  · rfl
  · next strand =>
    have writes (v : Word) : s.writeBead (d.toNat - 32) v = put s d v := by
      rw [← writeOp_eq_put, State.writeOp, if_neg strand]
    dsimp only
    cases s.k.loop.owner (d.toNat - 32) <;> exact writes _

/-- A fault becomes pending in its place (R418). -/
theorem pend_eq_ranked (p : Pending) : s.pend p = { s with k := { s.k with pending := ranked s.k.pending p } } := by
  unfold State.pend ranked
  dsimp only
  split_ifs
  · rfl
  · rw [List.append_assoc]
    rfl

/-- What an engine writes for the control context in focus is written there (R334). -/
theorem writeControl_eq_put (hslot : s.ctx.slot = 15) (d : BitVec 6) (v : Word) : s.writeControl d v = put s d v := by
  rw [State.writeControl, State.focusSlot_here hslot, writeOp_eq_put, State.focusSlot_here (put_slot s d v)]

theorem put_unreleased (s : State) (d : BitVec 6) (v : Word) : (put s d v).k.unreleased = s.k.unreleased := by
  obtain ⟨r, b, frame⟩ := s.writeOp_frame d v
  rw [← writeOp_eq_put, frame]

theorem passed_slot (s : State) (d : BitVec 6) : (passed s d).ctx.slot = s.ctx.slot := by
  unfold passed
  split
  · rfl
  · exact put_slot ..

theorem passed_unreleased (s : State) (d : BitVec 6) : (passed s d).k.unreleased = s.k.unreleased := by
  unfold passed
  split
  · rfl
  · exact put_unreleased ..

theorem release_nothing (h : s.k.unreleased = []) : s.release = s := by
  rw [State.release, h]
  rfl

/-- An oldest entry that ends without a fault or a zero summary: its flags, then its scalar or its pass (R295). -/
theorem endEntry_sound (hhere : here s) (hq : queued s e rest) (finished : e.stage = .finished) (sound : e.result.fault = none)
    (unsummed : e.result.zs = []) (live : e.squashed = false) :
    let s1 := flagged { s with k := { s.k with mvuq := rest } } e.result.flags
    s.endEntry = match e.result.scalar, e.instr with
      | some (d, v), _ => put s1 d v
      | none, .kpop f => if e.guard then s1 else passed s1 f.d
      | none, _ => s1 := by
  intro s1
  obtain ⟨hcore, hslot, htrace⟩ := hhere
  have flags : State.onControl { s with k := { s.k with mvuq := rest } } (fun c => { c with fpflags := c.fpflags ||| e.result.flags }) = s1 :=
    if_pos hslot
  have slot1 : s1.ctx.slot = 15 := hslot
  have writes (d : BitVec 6) (v : Word) : s1.writeControl d v = put s1 d v := writeControl_eq_put slot1 d v
  have passes (d : BitVec 6) : ((s1.focusSlot 15).passDest d).focusSlot s1.ctx.slot = passed s1 d := by
    rw [slot1, State.focusSlot_here slot1, passDest_eq_passed, State.focusSlot_here ((passed_slot s1 d).trans slot1)]
  unfold State.endEntry
  rw [hq.1]
  dsimp only
  rw [if_neg (not_not.mpr finished), trace_off (by exact htrace), sound, unsummed, live]
  simp only [flags, List.foldl_nil, writes, passes, Bool.or_false]
  rfl

/-- Where nothing is held for room, an entry's end is its retirement (R279, R295). -/
theorem exec_retire (hhere : here s) {t : State} (ended : s.endEntry = t) (empty : t.k.unreleased = []) :
    exec .mvuEntryRetire s = .next t := by
  change Host.Outcome.next (s.atCore s.cmd.core State.retireEntry) = _
  rw [hhere.1, State.atCore_self, State.retireEntry, ended, release_nothing empty]

/-- A fault that the oldest entry reports discards the younger ones (R419). -/
theorem endEntry_fault (hhere : here s) (hq : queued s e rest) (finished : e.stage = .finished) {cause : Nat} {addr : Word}
    (fault : e.result.fault = some (cause, addr)) :
    ∃ p : Pending, p.cause = cause ∧ p.source = 0 ∧ p.addr = e.pc ∧ p.seq = e.seq ∧
      s.endEntry = { s with k := { s.k with mvuq := [], pending := ranked s.k.pending p } } := by
  obtain ⟨-, -, htrace⟩ := hhere
  unfold State.endEntry
  rw [hq.1]
  dsimp only
  rw [if_neg (not_not.mpr finished), trace_off (by exact htrace), fault]
  exact ⟨_, rfl, rfl, rfl, rfl, pend_eq_ranked _⟩

end

/-- Settles O43: the oldest entry is the one that its resource executes, and each event changes that entry and what it owns. -/
theorem quadEvents : Obligations.QuadEvents := by
  unfold Obligations.QuadEvents
  refine ⟨fun s shared => ?_, fun e rest f s hhere hq guard undecided waiting => ?_, fun e rest f c cs s hhere hq product started todo array
    going inQuantum => ?_, fun e rest p keep s hhere hq product size started fresh todo array going hunit => ?_,
    fun e rest s hhere hq released => ?_⟩
  · intro a base wants
    refine ⟨fun p grant wanted inQuantum => ?_, fun p idle last small going n from' to' wanted before => ?_⟩
    · rw [exec_arbiterDecision shared, decideArbiter_granted grant wanted inQuantum]
    · have decides : s.decideArbiter s.cmd.unit = s.grantNext s.cmd.unit := by
        have idle : (s.arbiter s.cmd.unit).grant = none := idle
        rw [State.decideArbiter, idle]
      rw [exec_arbiterDecision shared, decides, grantNext_inTurn last going from' to' wanted before]
      rfl
  · intro zs done
    have found (decides : hasDecision e.instr = true) := atDecision_oldest hq guard undecided waiting decides
    refine ⟨fun hi => ?_, fun hi => ⟨upFrom 0 (e.ops f.a f.b).chunks, ?_, ?_⟩, fun hi => ⟨liveChunks (e.ops f.a f.b) (s.mask f.c.toNat), ?_⟩⟩
    · refine exec_decisionPoint hhere hq ?_ rfl
      rw [State.decidePoint, found (by rw [hi]; rfl)]
      simp only [hi]
      rfl
    · rw [upFrom_eq_range', List.length_range']
      rfl
    · refine exec_decisionPoint hhere hq ?_ rfl
      rw [State.decidePoint, found (by rw [hi]; rfl)]
      simp only [hi]
      rfl
    · refine exec_decisionPoint hhere hq ?_ rfl
      rw [State.decidePoint, found (by rw [hi]; rfl)]
      simp only [hi]
      rfl
  · obtain ⟨b, ring, flags, promotes⟩ := exec_chunkPromotion hhere ⟨hq, ⟨f, product⟩, started, array, going⟩ todo inQuantum
    refine ⟨_, promoted e cs flags, promotes, congrArg Kern.mvuq (endQuantum_k 0), rfl, ?_, rfl, ?_, ?_, ?_, ?_⟩
    · cases cs <;> simp [promoted]
    · exact quantumOver_endQuantum rfl (.mma f)
    · rfl
    · rw [endQuantum_k]
    · rfl
  · have isProduct : isProduct e.instr := by
      by_contra other
      rw [product_none other] at product
      cases product
    obtain ⟨taken, half⟩ := exec_firstHalf ⟨hq, isProduct, started, array, going⟩ product (wide_of_size size) fresh todo hunit
    exact ⟨_, taken, half, by rw [grantNext_k, endQuantum_k], rfl, rfl⟩
  · refine ⟨fun busy => ?_, fun finished sound unsummed live => ?_, fun cause addr finished fault => ?_⟩
    · refine exec_retire hhere ?_ released
      rw [State.endEntry, hq.1]
      exact if_pos busy
    · have ended := endEntry_sound hhere hq finished sound unsummed live
      refine ⟨fun d v scalar => ?_, fun g none hi guardedOff => ?_, fun none other => ?_⟩
      · rw [scalar] at ended
        exact exec_retire hhere ended ((put_unreleased ..).trans released)
      · rw [none, hi] at ended
        simp only [guardedOff] at ended
        exact exec_retire hhere ended ((passed_unreleased ..).trans released)
      · refine exec_retire hhere (ended.trans ?_) released
        rw [none]
        split
        · contradiction
        · next g _ hi => exact absurd hi (other g)
        · rfl
    · obtain ⟨p, hcause, source, addr, seq, ended⟩ := endEntry_fault hhere hq finished fault
      exact ⟨p, hcause, source, addr, seq, exec_retire hhere ended released⟩

end Sys2Proof.Claims
